-- ==== Sys2Proof/Word.lean ====
section
/-!
DEFINITION. The word types and the sparse map type that every other file uses (00.R8, R9).
-/

namespace Sys2Proof

/-- One byte. -/
abbrev Byte := BitVec 8
/-- A 32-bit register or word. -/
abbrev W32 := BitVec 32
/-- A 64-bit register or word. -/
abbrev W64 := BitVec 64
/-- A Shodel instruction word (07.R198). -/
abbrev W128 := BitVec 128

/-- A sparse map from naturals: pairs in strictly rising key order, none equal to the map's default
value (Machine/Sparse.lean says it). Equal maps are then equal data. -/
abbrev NatMap (α : Type) := List (Nat × α)

/-- Byte memory: a canonical sparse map whose default is 0, since every store reads zero until it is
written (10.R279). Its elements are `Host.Cell`s. -/
abbrev Memory := List (Nat × BitVec 8)

end Sys2Proof
end

