-- ==== Sys2Proof/Syntax.lean ====
section
/-!
DEFINITION. The commands and events the block takes: one constructor of `Instr` per row of
spec/opcode_table.json, with the row's operands. An instruction row names the sequencer that decodes and carries
the 128-bit word its fetch delivered (07.R198). An event row carries what the outside, or a choice the manual leaves
to firmware, brings to it; when a row stands for the end of a time, its arrival says that the time has come.
-/

namespace Sys2Proof

/-- A sequencer: core sequencer Cnn or the house sequencer (01.R35, R36). -/
inductive SeqId where
  | core (n : Fin 64)
  | house
  deriving DecidableEq, Repr

/-- The instruction queues of a sequencer (07.R208). -/
inductive QueueId where
  | loom
  | mill
  | mover (m : Fin 4)
  deriving DecidableEq, Repr

/-- A host channel (14.R370). -/
inductive Chan where
  | a
  | b
  deriving DecidableEq, Repr

/-- Where an LPDDR read or write goes: the bank and the byte within its 2 KiB column span. The row is
the one last activated in the bank (14.R369). -/
structure HostAddr where
  ch : Chan
  bank : Fin 16
  col : Fin 2048
  deriving DecidableEq, Repr

/-- The bytes of a write burst, lowest address first; `none` is a masked byte (14.R364, MWR). -/
abbrev Burst := List (Option Byte)

/-- What training found on a Stitch link (19.R471). -/
inductive LaneResult where
  | full
  | half
  | fewer
  deriving DecidableEq, Repr

/-- One entry of a member list (19.R477). -/
structure Member where
  serial : W64
  id : Fin 8
  lost : Bool
  /-- A slot of the member other than EMPTY holds a model with SHARDS above 1. -/
  sharded : Bool
  /-- Slots it reports RESIDENT with the digest and GEN held when it was lost, and those whose digest or GEN differs
  (19.R482). -/
  agrees : List (Fin 16)
  differs : List (Fin 16)
  deriving DecidableEq, Repr

/-- What the patrol reads (10.R278, 20.R486, R488): a granule of a byte store, the plane, zero-point or Mill accumulators of a core,
or a cache location. -/
inductive PatrolSite where
  | granule (addr : Nat)
  | coreState (c : Fin 64)
  | cacheLine (k : Fin 8) (set way : Nat)
  deriving DecidableEq, Repr

/-- What a patrol read finds (10.R276, R277). -/
inductive EccResult where
  | clean
  | corrected
  | uncorrectable
  deriving DecidableEq, Repr

/-- Rails that can leave their limits (22.R528). -/
inductive Rail where
  | vddAon
  | vddC
  | vddA
  | vddW1
  | vddW2
  | vddq
  deriving DecidableEq, Repr

/-- The commands and events of the block, in the order of the table. -/
inductive Instr where
  -- shape table, REFCLK, grants
  | shapeUpdateBegin
  | shapeUpdateComplete
  | refclkStop
  | refclkLost
  | refclkReturn
  | delayLineRelock
  | actCapGrant
  | programmingBudgetGrant
  -- LOOM class and its events
  | loomMvm (q : SeqId) (w : W128)
  | loomMvmt (q : SeqId) (w : W128)
  | loomPly (q : SeqId) (w : W128)
  | loomProg (q : SeqId) (w : W128)
  | loomVerify (q : SeqId) (w : W128)
  | loomProbe (q : SeqId) (w : W128)
  | integrationWindowEnd (c : Fin 64)
  | drain (c : Fin 64) (e : Fin 16)
  | planeSum (c : Fin 64)
  -- MILL class
  | millMatmul (q : SeqId) (w : W128)
  | millVecAdd (q : SeqId) (w : W128)
  | millVecSub (q : SeqId) (w : W128)
  | millVecMul (q : SeqId) (w : W128)
  | millVecFma (q : SeqId) (w : W128)
  | millVecDiv (q : SeqId) (w : W128)
  | millVecSqrt (q : SeqId) (w : W128)
  | millVecMax (q : SeqId) (w : W128)
  | millVecMin (q : SeqId) (w : W128)
  | millVecAbs (q : SeqId) (w : W128)
  | millVecNeg (q : SeqId) (w : W128)
  | millVecCmp (q : SeqId) (w : W128)
  | millVecSel (q : SeqId) (w : W128)
  | millVecCvt (q : SeqId) (w : W128)
  | millVecIadd (q : SeqId) (w : W128)
  | millVecIsub (q : SeqId) (w : W128)
  | millVecImul (q : SeqId) (w : W128)
  | millVecShl (q : SeqId) (w : W128)
  | millVecShr (q : SeqId) (w : W128)
  | millVecAnd (q : SeqId) (w : W128)
  | millVecOr (q : SeqId) (w : W128)
  | millVecXor (q : SeqId) (w : W128)
  | millRedSum (q : SeqId) (w : W128)
  | millRedSumsq (q : SeqId) (w : W128)
  | millRedMeanvar (q : SeqId) (w : W128)
  | millRedMax (q : SeqId) (w : W128)
  | millRedMin (q : SeqId) (w : W128)
  | millRedAbsmax (q : SeqId) (w : W128)
  | millRedMerge (q : SeqId) (w : W128)
  | millSort (q : SeqId) (w : W128)
  | millTopk (q : SeqId) (w : W128)
  | millWalk (q : SeqId) (w : W128)
  | millRng (q : SeqId) (w : W128)
  | millTableLoad (q : SeqId) (w : W128)
  | millTableEval (q : SeqId) (w : W128)
  -- SEQ class
  | seqNop (q : SeqId) (w : W128)
  | seqLoop (q : SeqId) (w : W128)
  | seqBrJump (q : SeqId) (w : W128)
  | seqBrBreak (q : SeqId) (w : W128)
  | seqSetMovi (q : SeqId) (w : W128)
  | seqSetAdd (q : SeqId) (w : W128)
  | seqSetAddi (q : SeqId) (w : W128)
  | seqSetSub (q : SeqId) (w : W128)
  | seqSetMin (q : SeqId) (w : W128)
  | seqSetMax (q : SeqId) (w : W128)
  | seqSetCmp (q : SeqId) (w : W128)
  | seqSetCmpi (q : SeqId) (w : W128)
  | seqSetGetal (q : SeqId) (w : W128)
  | seqSetSetal (q : SeqId) (w : W128)
  | seqTallyOpen (q : SeqId) (w : W128)
  | seqTallyFetch (q : SeqId) (w : W128)
  | seqTallyDone (q : SeqId) (w : W128)
  | seqTallyReset (q : SeqId) (w : W128)
  | seqJoin (q : SeqId) (w : W128)
  -- SYNC class and its events
  | syncSignal (q : SeqId) (w : W128)
  | syncAdd (q : SeqId) (w : W128)
  | syncWaitGe (q : SeqId) (w : W128)
  | syncWaitEpoch (q : SeqId) (w : W128)
  | syncRead (q : SeqId) (w : W128)
  | syncOpApply (q : SeqId)
  | syncWaitTimeout (q : SeqId)
  -- MOVE class and its events
  | moveLoad (q : SeqId) (w : W128)
  | moveStore (q : SeqId) (w : W128)
  | moveStream (q : SeqId) (w : W128)
  | movePrefetch (q : SeqId) (w : W128)
  | moveStage (q : SeqId) (w : W128)
  | streamSlotFilled (c : Fin 64) (n : Fin 8)
  | streamSlotDrain (c : Fin 64) (n : Fin 8)
  | coreFaultReport (c : Fin 64)
  -- CAL class and Assay
  | calSeq (q : SeqId) (w : W128)
  | calRead (q : SeqId) (w : W128)
  | calTap (q : SeqId) (w : W128)
  | calTrim (q : SeqId) (w : W128)
  | calApply (q : SeqId) (w : W128)
  | calRecRead (q : SeqId) (w : W128)
  | calRecWrite (q : SeqId) (w : W128)
  | calCoreProbe (q : SeqId) (w : W128)
  | calCoreVerify (q : SeqId) (w : W128)
  | calCoreExecute (c : Fin 64)
  | calApplication (c : Fin 64)
  | lightMeasurementComplete (ply : Fin 8192)
  | sampleWaitExpiry (ply : Fin 8192)
  | ageTrigger (ply : Fin 8192) (full : Bool)
  | reAnneal (ply : Fin 8192)
  | annealWaitExpiry (ply : Fin 8192)
  | calHeaderRewrite
  | asCtrlForce
  | asCtrlEn (on : Bool)
  | asStatusRead
  -- monitor converters, thermal
  /-- `am1`: which converter ends its conversion; `raw`: the code, before limiting, that a temperature or supply source
  gives (13.R353). A tap converts its held sample instead. -/
  | monitorConversionEnd (am1 : Bool) (raw : Int)
  | tripExit
  | sleepComparatorTrip
  | asMctrlTrig
  | asMctrlIlv (on : Bool)
  | asMctrlLast (n : Fin 32)
  | asMctrlCont (on : Bool)
  | monitorRestart
  | monitorPowerOff
  | monitorPowerReturn
  | asMstatRead
  -- LPDDR commands
  | lpddrActivate (ch : Chan) (bank : Fin 16) (row : Fin 65536)
  | lpddrRef (ch : Chan)
  | lpddrRfm (ch : Chan)
  | selfRefreshEntry (ch : Chan)
  | selfRefreshExit (ch : Chan)
  | powerDownEntry (ch : Chan)
  | powerDownExit (ch : Chan)
  | modeRegisterWrite (ch : Chan) (ma : Fin 128) (v : Byte)
  | modeRegisterRead (ch : Chan) (ma : Fin 128)
  | commandBusTraining (ch : Chan)
  | wck2ckLeveling (ch : Chan)
  | readDqCalibration (ch : Chan)
  | writeDqTraining (ch : Chan) (fifo : List Byte)
  | zqCalibration (ch : Chan)
  | hpResetN (ch : Chan)
  -- host writes and reads, HP_ registers
  | sqRingWrite (at_ : HostAddr) (data : Burst)
  | apertureWrite (at_ : HostAddr) (data : Burst)
  | wharfWrite (at_ : HostAddr) (data : Burst)
  | ctrlRegWrite (at_ : HostAddr) (data : Burst)
  | unmappedWrite (at_ : HostAddr) (data : Burst)
  | apertureRead (at_ : HostAddr) (len : Fin 65)
  | hpStatusRead
  | hpDbSqWrite (v : W32)
  | stageRequest (v : W64)
  | unstageRequest (v : W64)
  | stageRequestStart
  | stageCopyDone
  | hpRingCfgWrite (v : W32)
  | hpIrqStatusClear (v : W32)
  | hpIrqEnableWrite (v : W32)
  | hpCqHeadWrite (v : W32)
  | hpApaBaseWrite (v : W64)
  | hpApbBaseWrite (v : W64)
  | hpPoolWrite (v : W32)
  | hpWhSplitWrite (v : W32)
  | hpLatencyBudgetWrite (v : W32)
  | frameDrainTimeout (ch : Chan) (page : Nat)
  | frameDrainDone (ch : Chan) (page : Nat)
  | cqPost
  | cqIrqTimeout
  | hostLost
  -- requests
  | submitJob
  | submitPipeline
  | counterRequest
  | submitLoad
  | submitRestore
  | submitUnload
  | submitCancel
  | submitSeal
  | submitSession
  | submitRekey
  | submitRetire
  | jobDispatch
  | jobBoundary (slot : Nat)
  /-- `entry`: the 64 submission bytes the home device relays; `bind`: its bind table; `image`: the program image read
  from the home device's Warehouse (19.R480). -/
  | companionJob (home : Fin 8) (homeSlot : Fin 4096) (entry : List Byte) (bind : List W64) (image : List Byte)
  -- weights
  | chunkDigestCheck
  | chunkOverdueExpiry (chunk : Nat)
  | intakeIdleTimeout
  | loadAnnounce (peer : Fin 8) (mslot : Fin 16) (pkgLen : Nat) (manifest : List Byte) (map : List W64)
  | chunkPull (chunk : Nat) (data : List Byte)
  | pullTimeout (chunk : Nat)
  /-- `place`: the Warehouse offset the device allocates for the chunk's bundle or digital tensor (14.R371). -/
  | chunkConvert (chunk : Nat) (place : Nat)
  | loaderPlyProgram (ply : Fin 8192)
  /-- `peersDone`: every other device of the request reports completion (11.R317). -/
  | modelAdmission (peersDone : Bool)
  | swapProgram
  | loadRollback
  | unloadFree (mslot : Fin 16)
  -- boot, rails, consent, scrub
  | porstDeassert
  | bootRomPhase
  | houseFirmwarePhase
  | serviceFirmwarePhase
  | porstAssert
  | railExcursion (rail : Rail)
  | internalResetRelease
  | vprogLowDuringProg
  | vddIoLoss
  | powerDownHold
  | consentPress
  | consentExpiry
  | scrubEnd
  -- SEC class, debug
  | secHashInit (q : SeqId) (w : W128)
  | secHashUpdate (q : SeqId) (w : W128)
  | secHashFinal (q : SeqId) (w : W128)
  | secSign (q : SeqId) (w : W128)
  | secVerify (q : SeqId) (w : W128)
  | secDh (q : SeqId) (w : W128)
  | secKdf (q : SeqId) (w : W128)
  | secAeadSeal (q : SeqId) (w : W128)
  | secAeadOpen (q : SeqId) (w : W128)
  | secKeyZero (q : SeqId) (w : W128)
  | secKeyGen (q : SeqId) (w : W128)
  | secKeyPub (q : SeqId) (w : W128)
  | secKeyImport (q : SeqId) (w : W128)
  | secRand (q : SeqId) (w : W128)
  | secFuseRead (q : SeqId) (w : W128)
  | secFuseBurn (q : SeqId) (w : W128)
  | chSecerrRead
  | debugHalt (q : SeqId)
  | debugStep (q : SeqId)
  | debugResume (q : SeqId)
  /-- A read of `len` bytes, or with `some` bytes a write, at an internal address. -/
  | debugAccess (addr : Nat) (len : Nat) (write : Option (List Byte))
  -- I3C and management commands
  | i3cEntdaa (addr : BitVec 7)
  | i3cSetdasa (addr : BitVec 7)
  | i3cRstdaa
  | i3cGetpid
  | i3cGetbcr
  | i3cGetdcr
  | i3cGetstatus
  | i3cEnec
  | i3cDisec
  | i3cGetmwl
  | i3cGetmrl
  | i3cHdrEntry
  | mgResponseRead
  | mgGetStatus (frame : List Byte)
  | mgTelemetry (frame : List Byte)
  | mgFence (frame : List Byte)
  | mgUnfence (frame : List Byte)
  | mgScrub (frame : List Byte)
  | mgSetMode (frame : List Byte)
  | mgSetProfile (frame : List Byte)
  | mgFwStage (frame : List Byte)
  | mgFwCommit (frame : List Byte)
  | mgRotateKeys (frame : List Byte)
  | mgDebugUnlock (frame : List Byte)
  | mgDebugPermanentLock (frame : List Byte)
  | mgProvision (frame : List Byte)
  | mgForceState (frame : List Byte)
  | mgLockoutExpiry
  | mgSigfailRead
  -- Stitch fabric
  | linkTrainingStart (n : Fin 4)
  | linkTrainingDone (n : Fin 4) (lanes : LaneResult)
  | linkRetry (n : Fin 4)
  | linkAlignmentLoss (n : Fin 4)
  | linkChallenge (n : Fin 4) (nonce : List Byte)
  /-- The peer's link Seal, its two certificates, and the link number it names (19.R473). -/
  | linkSealReceived (n : Fin 4) (sealBytes : List Byte) (dikCert caCert : List Byte) (peerLink : Fin 4)
  | linkRejectRetrain (n : Fin 4)
  | memberList (n : Fin 4) (peerId : Fin 8) (members : List Member)
  | memberListStable
  /-- `dist`: for a neighbour id and a destination id, the hops from that neighbour (19.R478). -/
  | routeRewrite (dist : List (Fin 8 × Fin 8 × Nat))
  | stitchFrameReceive (n : Fin 4) (header payload tag : List Byte)
  | stitchResendRequest (n : Fin 4) (fromCtr : Nat)
  | linkRekey (n : Fin 4)
  | memberLost (id : Fin 8)
  | linkFenceRetrain (n : Fin 4)
  | fbStatusRead
  | fbLinkRead (n : Fin 4)
  -- reliability
  | converterSelfTest (c : Fin 64)
  | patrolRead (site : PatrolSite) (found : EccResult)
  | remapStart (c : Fin 64) (mslot : Fin 16)
  | remapProgram (c : Fin 64) (mslot : Fin 16)
  -- counters, power, the rest
  | pcSelWrite (c : Fin 64) (v : W32)
  | pcQualWrite (c : Fin 64) (n : Fin 10) (v : W32)
  | ledgerRecordWrite
  /-- The two sources of an estimate in mW: the energy-weighted events of the last 10 us and the leakage (16.R411). -/
  | powerEstimate (events leakage : Nat)
  | pwProfileWrite (v : W32)
  | pwCapWrite (v : W32)
  | pwForceWrite (v : W32)
  | pwThermRead
  | sleepHoldExpiry (g : Fin 5)
  | sleepEntryDone
  | sleepExitDone
  | instructionCompletion (q : SeqId) (queue : QueueId) (index : Nat)
  | confTimerTick
  | vddIoReturn
  deriving DecidableEq, Repr

end Sys2Proof
end

