-- ==== Sys2Proof/Decode.lean ====
section
/-!
DEFINITION. What the rows of the table are spelt by. The table gives no row any bits, so `decodeTableWord` answers
none. The instruction rows carry the 128-bit word of 07.R198; this file holds its fields and the opcodes of chapter 08.
-/

namespace Sys2Proof

/-- The command that a word spells by the table's bits: the table gives bits to no row. -/
def decodeTableWord (_nbits _w : Nat) : Option Instr := none

/-- Bits `lo + n - 1` down to `lo` of a word, as a number. -/
def wordBits (w : W128) (lo n : Nat) : Nat := w.toNat / 2 ^ lo % 2 ^ n

/-- Bit `i` of a word. -/
def wordBit (w : W128) (i : Nat) : Bool := w.toNat / 2 ^ i % 2 == 1

/-- CLASS (07.R198). -/
def wClass (w : W128) : Nat := wordBits w 124 4
/-- OP (07.R198). -/
def wOp (w : W128) : Nat := wordBits w 118 6
/-- FORM (07.R198). -/
def wForm (w : W128) : Nat := wordBits w 112 6
/-- TDD (07.R198). -/
def wTdd (w : W128) : Nat := wordBits w 104 8
/-- TDA (07.R198). -/
def wTda (w : W128) : Nat := wordBits w 96 8
/-- TDB (07.R198). -/
def wTdb (w : W128) : Nat := wordBits w 88 8
/-- TDC (07.R198). -/
def wTdc (w : W128) : Nat := wordBits w 80 8
/-- DONE_EN (07.R198). -/
def wDoneEn (w : W128) : Bool := wordBit w 79
/-- DONE_IDX (07.R198). -/
def wDoneIdx (w : W128) : Nat := wordBits w 66 13
/-- FLAGS (07.R198). -/
def wFlags (w : W128) : Nat := wordBits w 48 16
/-- Bit `i` of FLAGS (08): instruction bit 48 + i. -/
def wFlag (w : W128) (i : Nat) : Bool := wordBit w (48 + i)
/-- IMM (07.R198). -/
def wImm (w : W128) : Nat := wordBits w 0 48

/-- A word of the given class, opcode and form with every other field 0 (07.R198). -/
def opWord (cls op form : Nat) : W128 := BitVec.ofNat 128 (cls * 2 ^ 124 + op * 2 ^ 118 + form * 2 ^ 112)

/-- The encodings of one row: class, opcode and the forms it takes (08). -/
structure OpRow where
  cls : Nat
  op : Nat
  forms : List Nat
  deriving DecidableEq, Repr

/-- The encodings that a word has. -/
def OpRow.has (r : OpRow) (w : W128) : Bool :=
  wClass w == r.cls && wOp w == r.op && r.forms.contains (wForm w)

/-- Every encoding that chapter 08 lists: class, opcode, forms. -/
def opTable : List OpRow :=
  [⟨0x0, 0x00, [0]⟩, ⟨0x0, 0x01, [0]⟩, ⟨0x0, 0x02, [0, 1]⟩, ⟨0x0, 0x03, [0, 1, 2, 3, 4, 5, 6, 7, 8, 9]⟩,
   ⟨0x0, 0x04, [0, 1, 2, 3]⟩, ⟨0x0, 0x05, [0]⟩,
   ⟨0x1, 0x00, [0]⟩, ⟨0x1, 0x01, [0]⟩, ⟨0x1, 0x02, [0, 1, 2, 3, 4, 5, 6, 7]⟩, ⟨0x1, 0x03, [0]⟩,
   ⟨0x2, 0x00, [0]⟩, ⟨0x2, 0x01, [0]⟩, ⟨0x2, 0x02, [0]⟩, ⟨0x2, 0x03, [0]⟩, ⟨0x2, 0x04, [0]⟩] ++
  [⟨0x3, 0x00, [0]⟩, ⟨0x3, 0x01, [0]⟩, ⟨0x3, 0x02, [0]⟩, ⟨0x3, 0x03, [0, 1]⟩, ⟨0x3, 0x04, [0]⟩, ⟨0x3, 0x05, [0]⟩,
   ⟨0x4, 0x00, [0]⟩, ⟨0x4, 0x01, List.range 0x15⟩, ⟨0x4, 0x02, List.range 7⟩, ⟨0x4, 0x03, [0, 1]⟩,
   ⟨0x4, 0x04, [0]⟩, ⟨0x4, 0x05, [0]⟩, ⟨0x4, 0x06, [0, 1]⟩, ⟨0x4, 0x07, [0, 1]⟩] ++
  [⟨0xC, 0x00, [0]⟩, ⟨0xC, 0x01, [0]⟩, ⟨0xC, 0x02, [0]⟩, ⟨0xC, 0x03, [0]⟩, ⟨0xC, 0x04, [0]⟩, ⟨0xC, 0x05, [0, 1]⟩,
   ⟨0xC, 0x06, [0, 1]⟩,
   ⟨0xD, 0x00, [0, 1, 2]⟩, ⟨0xD, 0x01, [0]⟩, ⟨0xD, 0x02, [0]⟩, ⟨0xD, 0x03, [0]⟩, ⟨0xD, 0x04, [0, 1]⟩,
   ⟨0xD, 0x05, [0, 1]⟩, ⟨0xD, 0x06, [0, 1, 2, 3]⟩, ⟨0xD, 0x07, [0]⟩, ⟨0xD, 0x08, [0, 1]⟩]

/-- CLASS, OP and FORM are listed in chapter 08; any other raises DEC_CLASS (07.R199). -/
def listedWord (w : W128) : Bool := opTable.any (fun r => r.has w)

/-- The encodings of an instruction row and the word it carries; none for an event row (08). -/
def Instr.word : Instr → Option (OpRow × W128)
  | .loomMvm _ w => some (⟨3, 0, [0]⟩, w)
  | .loomMvmt _ w => some (⟨3, 1, [0]⟩, w)
  | .loomPly _ w => some (⟨3, 2, [0]⟩, w)
  | .loomProg _ w => some (⟨3, 3, [0, 1]⟩, w)
  | .loomVerify _ w => some (⟨3, 4, [0]⟩, w)
  | .loomProbe _ w => some (⟨3, 5, [0]⟩, w)
  | .millMatmul _ w => some (⟨4, 0, [0]⟩, w)
  | .millVecAdd _ w => some (⟨4, 1, [0x00]⟩, w)
  | .millVecSub _ w => some (⟨4, 1, [0x01]⟩, w)
  | .millVecMul _ w => some (⟨4, 1, [0x02]⟩, w)
  | .millVecFma _ w => some (⟨4, 1, [0x03]⟩, w)
  | .millVecDiv _ w => some (⟨4, 1, [0x04]⟩, w)
  | .millVecSqrt _ w => some (⟨4, 1, [0x05]⟩, w)
  | .millVecMax _ w => some (⟨4, 1, [0x06]⟩, w)
  | .millVecMin _ w => some (⟨4, 1, [0x07]⟩, w)
  | .millVecAbs _ w => some (⟨4, 1, [0x08]⟩, w)
  | .millVecNeg _ w => some (⟨4, 1, [0x09]⟩, w)
  | .millVecCmp _ w => some (⟨4, 1, [0x0A]⟩, w)
  | .millVecSel _ w => some (⟨4, 1, [0x0B]⟩, w)
  | .millVecCvt _ w => some (⟨4, 1, [0x0C]⟩, w)
  | .millVecIadd _ w => some (⟨4, 1, [0x0D]⟩, w)
  | .millVecIsub _ w => some (⟨4, 1, [0x0E]⟩, w)
  | .millVecImul _ w => some (⟨4, 1, [0x0F]⟩, w)
  | .millVecShl _ w => some (⟨4, 1, [0x10]⟩, w)
  | .millVecShr _ w => some (⟨4, 1, [0x11]⟩, w)
  | .millVecAnd _ w => some (⟨4, 1, [0x12]⟩, w)
  | .millVecOr _ w => some (⟨4, 1, [0x13]⟩, w)
  | .millVecXor _ w => some (⟨4, 1, [0x14]⟩, w)
  | .millRedSum _ w => some (⟨4, 2, [0]⟩, w)
  | .millRedSumsq _ w => some (⟨4, 2, [1]⟩, w)
  | .millRedMeanvar _ w => some (⟨4, 2, [2]⟩, w)
  | .millRedMax _ w => some (⟨4, 2, [3]⟩, w)
  | .millRedMin _ w => some (⟨4, 2, [4]⟩, w)
  | .millRedAbsmax _ w => some (⟨4, 2, [5]⟩, w)
  | .millRedMerge _ w => some (⟨4, 2, [6]⟩, w)
  | .millSort _ w => some (⟨4, 3, [0, 1]⟩, w)
  | .millTopk _ w => some (⟨4, 4, [0]⟩, w)
  | .millWalk _ w => some (⟨4, 5, [0]⟩, w)
  | .millRng _ w => some (⟨4, 6, [0, 1]⟩, w)
  | .millTableLoad _ w => some (⟨4, 7, [0]⟩, w)
  | .millTableEval _ w => some (⟨4, 7, [1]⟩, w)
  | .seqNop _ w => some (⟨0, 0, [0]⟩, w)
  | .seqLoop _ w => some (⟨0, 1, [0]⟩, w)
  | .seqBrJump _ w => some (⟨0, 2, [0]⟩, w)
  | .seqBrBreak _ w => some (⟨0, 2, [1]⟩, w)
  | .seqSetMovi _ w => some (⟨0, 3, [0]⟩, w)
  | .seqSetAdd _ w => some (⟨0, 3, [1]⟩, w)
  | .seqSetAddi _ w => some (⟨0, 3, [2]⟩, w)
  | .seqSetSub _ w => some (⟨0, 3, [3]⟩, w)
  | .seqSetMin _ w => some (⟨0, 3, [4]⟩, w)
  | .seqSetMax _ w => some (⟨0, 3, [5]⟩, w)
  | .seqSetCmp _ w => some (⟨0, 3, [6]⟩, w)
  | .seqSetCmpi _ w => some (⟨0, 3, [7]⟩, w)
  | .seqSetGetal _ w => some (⟨0, 3, [8]⟩, w)
  | .seqSetSetal _ w => some (⟨0, 3, [9]⟩, w)
  | .seqTallyOpen _ w => some (⟨0, 4, [0]⟩, w)
  | .seqTallyFetch _ w => some (⟨0, 4, [1]⟩, w)
  | .seqTallyDone _ w => some (⟨0, 4, [2]⟩, w)
  | .seqTallyReset _ w => some (⟨0, 4, [3]⟩, w)
  | .seqJoin _ w => some (⟨0, 5, [0]⟩, w)
  | .syncSignal _ w => some (⟨1, 0, [0]⟩, w)
  | .syncAdd _ w => some (⟨1, 1, [0]⟩, w)
  | .syncWaitGe _ w => some (⟨1, 2, [0, 2, 4, 6]⟩, w)
  | .syncWaitEpoch _ w => some (⟨1, 2, [1, 3, 5, 7]⟩, w)
  | .syncRead _ w => some (⟨1, 3, [0]⟩, w)
  | .moveLoad _ w => some (⟨2, 0, [0]⟩, w)
  | .moveStore _ w => some (⟨2, 1, [0]⟩, w)
  | .moveStream _ w => some (⟨2, 2, [0]⟩, w)
  | .movePrefetch _ w => some (⟨2, 3, [0]⟩, w)
  | .moveStage _ w => some (⟨2, 4, [0]⟩, w)
  | .calSeq _ w => some (⟨0xC, 0, [0]⟩, w)
  | .calRead _ w => some (⟨0xC, 1, [0]⟩, w)
  | .calTap _ w => some (⟨0xC, 2, [0]⟩, w)
  | .calTrim _ w => some (⟨0xC, 3, [0]⟩, w)
  | .calApply _ w => some (⟨0xC, 4, [0]⟩, w)
  | .calRecRead _ w => some (⟨0xC, 5, [0]⟩, w)
  | .calRecWrite _ w => some (⟨0xC, 5, [1]⟩, w)
  | .calCoreProbe _ w => some (⟨0xC, 6, [0]⟩, w)
  | .calCoreVerify _ w => some (⟨0xC, 6, [1]⟩, w)
  | .secHashInit _ w => some (⟨0xD, 0, [0]⟩, w)
  | .secHashUpdate _ w => some (⟨0xD, 0, [1]⟩, w)
  | .secHashFinal _ w => some (⟨0xD, 0, [2]⟩, w)
  | .secSign _ w => some (⟨0xD, 1, [0]⟩, w)
  | .secVerify _ w => some (⟨0xD, 2, [0]⟩, w)
  | .secDh _ w => some (⟨0xD, 3, [0]⟩, w)
  | .secKdf _ w => some (⟨0xD, 4, [0, 1]⟩, w)
  | .secAeadSeal _ w => some (⟨0xD, 5, [0]⟩, w)
  | .secAeadOpen _ w => some (⟨0xD, 5, [1]⟩, w)
  | .secKeyZero _ w => some (⟨0xD, 6, [0]⟩, w)
  | .secKeyGen _ w => some (⟨0xD, 6, [1]⟩, w)
  | .secKeyPub _ w => some (⟨0xD, 6, [2]⟩, w)
  | .secKeyImport _ w => some (⟨0xD, 6, [3]⟩, w)
  | .secRand _ w => some (⟨0xD, 7, [0]⟩, w)
  | .secFuseRead _ w => some (⟨0xD, 8, [0]⟩, w)
  | .secFuseBurn _ w => some (⟨0xD, 8, [1]⟩, w)
  | .shapeUpdateBegin => none
  | .shapeUpdateComplete => none
  | .refclkStop => none
  | .refclkLost => none
  | .refclkReturn => none
  | .delayLineRelock => none
  | .actCapGrant => none
  | .programmingBudgetGrant => none
  | .integrationWindowEnd _ => none
  | .drain _ _ => none
  | .planeSum _ => none
  | .syncOpApply _ => none
  | .syncWaitTimeout _ => none
  | .streamSlotFilled _ _ => none
  | .streamSlotDrain _ _ => none
  | .coreFaultReport _ => none
  | .calCoreExecute _ => none
  | .calApplication _ => none
  | .lightMeasurementComplete _ => none
  | .sampleWaitExpiry _ => none
  | .ageTrigger _ _ => none
  | .reAnneal _ => none
  | .annealWaitExpiry _ => none
  | .calHeaderRewrite => none
  | .asCtrlForce => none
  | .asCtrlEn _ => none
  | .asStatusRead => none
  | .monitorConversionEnd _ _ => none
  | .tripExit => none
  | .sleepComparatorTrip => none
  | .asMctrlTrig => none
  | .asMctrlIlv _ => none
  | .asMctrlLast _ => none
  | .asMctrlCont _ => none
  | .monitorRestart => none
  | .monitorPowerOff => none
  | .monitorPowerReturn => none
  | .asMstatRead => none
  | .lpddrActivate _ _ _ => none
  | .lpddrRef _ => none
  | .lpddrRfm _ => none
  | .selfRefreshEntry _ => none
  | .selfRefreshExit _ => none
  | .powerDownEntry _ => none
  | .powerDownExit _ => none
  | .modeRegisterWrite _ _ _ => none
  | .modeRegisterRead _ _ => none
  | .commandBusTraining _ => none
  | .wck2ckLeveling _ => none
  | .readDqCalibration _ => none
  | .writeDqTraining _ _ => none
  | .zqCalibration _ => none
  | .hpResetN _ => none
  | .sqRingWrite _ _ => none
  | .apertureWrite _ _ => none
  | .wharfWrite _ _ => none
  | .ctrlRegWrite _ _ => none
  | .unmappedWrite _ _ => none
  | .apertureRead _ _ => none
  | .hpStatusRead => none
  | .hpDbSqWrite _ => none
  | .stageRequest _ => none
  | .unstageRequest _ => none
  | .stageRequestStart => none
  | .stageCopyDone => none
  | .hpRingCfgWrite _ => none
  | .hpIrqStatusClear _ => none
  | .hpIrqEnableWrite _ => none
  | .hpCqHeadWrite _ => none
  | .hpApaBaseWrite _ => none
  | .hpApbBaseWrite _ => none
  | .hpPoolWrite _ => none
  | .hpWhSplitWrite _ => none
  | .hpLatencyBudgetWrite _ => none
  | .frameDrainTimeout _ _ => none
  | .frameDrainDone _ _ => none
  | .cqPost => none
  | .cqIrqTimeout => none
  | .hostLost => none
  | .submitJob => none
  | .submitPipeline => none
  | .counterRequest => none
  | .submitLoad => none
  | .submitRestore => none
  | .submitUnload => none
  | .submitCancel => none
  | .submitSeal => none
  | .submitSession => none
  | .submitRekey => none
  | .submitRetire => none
  | .jobDispatch => none
  | .jobBoundary _ => none
  | .companionJob _ _ _ _ _ => none
  | .chunkDigestCheck => none
  | .chunkOverdueExpiry _ => none
  | .intakeIdleTimeout => none
  | .loadAnnounce _ _ _ _ _ => none
  | .chunkPull _ _ => none
  | .pullTimeout _ => none
  | .chunkConvert _ _ => none
  | .loaderPlyProgram _ => none
  | .modelAdmission _ => none
  | .swapProgram => none
  | .loadRollback => none
  | .unloadFree _ => none
  | .porstDeassert => none
  | .bootRomPhase => none
  | .houseFirmwarePhase => none
  | .serviceFirmwarePhase => none
  | .porstAssert => none
  | .railExcursion _ => none
  | .internalResetRelease => none
  | .vprogLowDuringProg => none
  | .vddIoLoss => none
  | .powerDownHold => none
  | .consentPress => none
  | .consentExpiry => none
  | .scrubEnd => none
  | .chSecerrRead => none
  | .debugHalt _ => none
  | .debugStep _ => none
  | .debugResume _ => none
  | .debugAccess _ _ _ => none
  | .i3cEntdaa _ => none
  | .i3cSetdasa _ => none
  | .i3cRstdaa => none
  | .i3cGetpid => none
  | .i3cGetbcr => none
  | .i3cGetdcr => none
  | .i3cGetstatus => none
  | .i3cEnec => none
  | .i3cDisec => none
  | .i3cGetmwl => none
  | .i3cGetmrl => none
  | .i3cHdrEntry => none
  | .mgResponseRead => none
  | .mgGetStatus _ => none
  | .mgTelemetry _ => none
  | .mgFence _ => none
  | .mgUnfence _ => none
  | .mgScrub _ => none
  | .mgSetMode _ => none
  | .mgSetProfile _ => none
  | .mgFwStage _ => none
  | .mgFwCommit _ => none
  | .mgRotateKeys _ => none
  | .mgDebugUnlock _ => none
  | .mgDebugPermanentLock _ => none
  | .mgProvision _ => none
  | .mgForceState _ => none
  | .mgLockoutExpiry => none
  | .mgSigfailRead => none
  | .linkTrainingStart _ => none
  | .linkTrainingDone _ _ => none
  | .linkRetry _ => none
  | .linkAlignmentLoss _ => none
  | .linkChallenge _ _ => none
  | .linkSealReceived _ _ _ _ _ => none
  | .linkRejectRetrain _ => none
  | .memberList _ _ _ => none
  | .memberListStable => none
  | .routeRewrite _ => none
  | .stitchFrameReceive _ _ _ _ => none
  | .stitchResendRequest _ _ => none
  | .linkRekey _ => none
  | .memberLost _ => none
  | .linkFenceRetrain _ => none
  | .fbStatusRead => none
  | .fbLinkRead _ => none
  | .converterSelfTest _ => none
  | .patrolRead _ _ => none
  | .remapStart _ _ => none
  | .remapProgram _ _ => none
  | .pcSelWrite _ _ => none
  | .pcQualWrite _ _ _ => none
  | .ledgerRecordWrite => none
  | .powerEstimate _ _ => none
  | .pwProfileWrite _ => none
  | .pwCapWrite _ => none
  | .pwForceWrite _ => none
  | .pwThermRead => none
  | .sleepHoldExpiry _ => none
  | .sleepEntryDone => none
  | .sleepExitDone => none
  | .instructionCompletion _ _ _ => none
  | .confTimerTick => none
  | .vddIoReturn => none

end Sys2Proof
end

