-- ==== Sys2Proof/Machine/Codes.lean ====
section
/-!
DEFINITION. The codes of 20.R502, the bits of SQ_FLAGS (07.R193) and HP_IRQ_STATUS (14.R388), and the numbers of the
events of chapter 21, each under the name the manual gives it.
-/

namespace Sys2Proof.Machine

/-! ### Fault codes, statuses and events (20.R502) -/

abbrev DEC_CLASS : Nat := 0x0101
abbrev DESC_BOUND : Nat := 0x0102
abbrev DEC_PRIV : Nat := 0x0103
abbrev DESC_INVALID : Nat := 0x0104
abbrev SEQ_LOOP_DEPTH : Nat := 0x0105
abbrev SEQ_PC_RANGE : Nat := 0x0106
abbrev DESC_STREAM : Nat := 0x0107
abbrev SEQ_LOOP_NEST : Nat := 0x0108
abbrev DESC_FORMAT : Nat := 0x0110
abbrev MILL_PAIR : Nat := 0x0120
abbrev MILL_CHAIN : Nat := 0x0121
abbrev DRAIN_ORDER : Nat := 0x0122
abbrev SYNC_INDEX : Nat := 0x0130
abbrev MOVE_MISMATCH : Nat := 0x0140
abbrev MEM_UNMAPPED : Nat := 0x0201
abbrev MEM_ECC : Nat := 0x0202
abbrev MEM_PRIV : Nat := 0x0203
abbrev MEM_REMOTE : Nat := 0x0204
abbrev MILL_TRIE : Nat := 0x0210
abbrev ACC_SAT_FINAL : Nat := 0x0302
abbrev LOOM_PLY_WORN : Nat := 0x0320
abbrev LOOM_CLASS : Nat := 0x0331
abbrev LOOM_CHAIN : Nat := 0x0332
abbrev LOOM_PLANE : Nat := 0x0333
abbrev LOOM_FORMAT : Nat := 0x0334
abbrev QZ_SKEW : Nat := 0x0401
abbrev QZ_ESC_ORPHAN : Nat := 0x0410
abbrev QZ_SIDE_ORDER : Nat := 0x0411
abbrev QZ_SCALE_RANGE : Nat := 0x0420
abbrev QZ_REQUANT_SPAN : Nat := 0x0430
abbrev TILE_OVERFLOW : Nat := 0x0501
abbrev TILE_RANGE : Nat := 0x0502
abbrev TILE_DUP : Nat := 0x0503
abbrev TILE_OPEN : Nat := 0x0504
abbrev WL_MANIFEST_SIG : Nat := 0x0601
abbrev WL_MANIFEST_FORM : Nat := 0x0602
abbrev WL_SHARD_CORRUPT : Nat := 0x0603
abbrev WL_SHARD_MISSING : Nat := 0x0604
abbrev WL_NO_SPACE : Nat := 0x0605
abbrev WL_PLACEMENT : Nat := 0x0606
abbrev WL_PROG_FAIL : Nat := 0x0607
abbrev WL_ABORTED : Nat := 0x0608
abbrev WL_CHUNK_FORM : Nat := 0x0609
abbrev WL_BUSY : Nat := 0x060A
abbrev WL_ROLLBACK_FAIL : Nat := 0x060B
abbrev CAL_STORE_CHECK : Nat := 0x0702
abbrev HP_ENTRY_FORM : Nat := 0x0801
abbrev JOB_IMAGE : Nat := 0x0820
abbrev JOB_BIND : Nat := 0x0821
abbrev JOB_MODEL : Nat := 0x0822
abbrev JOB_NOCORE : Nat := 0x0823
abbrev JOB_CANCELLED : Nat := 0x0824
abbrev JOB_NO_TARGET : Nat := 0x0825
abbrev JOB_PIPE_FORM : Nat := 0x0826
abbrev SEC_BLOCK_FORM : Nat := 0x0901
abbrev SEC_NO_SESSION : Nat := 0x0902
abbrev SEC_SEAL_STALE : Nat := 0x0903
abbrev SEC_EPOCH_BUSY : Nat := 0x0904
abbrev SEC_EPOCH_RETIRED : Nat := 0x0905
abbrev SEC_EPOCH_CURRENT : Nat := 0x0906
abbrev SEC_CONSENT : Nat := 0x0907
abbrev SEC_FW_REJECT : Nat := 0x0908
abbrev SEC_FW_REVOKED : Nat := 0x0909
abbrev SEC_PAGE_AUTH : Nat := 0x090A
abbrev SEC_PAGE_REPLAY : Nat := 0x090B
abbrev SEC_MODE : Nat := 0x090C
abbrev SEC_SCRUBBED : Nat := 0x090D
abbrev SEC_KEY_EMPTY : Nat := 0x0910
abbrev SEC_FUSE_LOCK : Nat := 0x0911
abbrev FB_NO_ROUTE : Nat := 0x0A01
abbrev FB_PEER_LOST : Nat := 0x0A02
abbrev FB_SEAL_REJECT : Nat := 0x0A03
abbrev FN_CORE_FENCED : Nat := 0x0B01
abbrev FN_CHECK : Nat := 0x0B10
abbrev FN_ECC : Nat := 0x0B11
abbrev FN_CONVERTER : Nat := 0x0B12
abbrev FN_ANNEAL : Nat := 0x0B13
abbrev FN_CACHE : Nat := 0x0B14
abbrev FN_LINK : Nat := 0x0B18
abbrev FN_REMAP_DONE : Nat := 0x0B20
abbrev FN_REMAP_DIGITAL : Nat := 0x0B21
abbrev FN_GOLDEN_LOST : Nat := 0x0B22
abbrev PREEMPTED : Nat := 0x0C01
abbrev REFCLK_LOST : Nat := 0x0C10
abbrev PW_THERMAL_TRIP : Nat := 0x0C20
abbrev MG_FRAME : Nat := 0x0C30
abbrev MG_SIG : Nat := 0x0C31
abbrev MG_REPLAY : Nat := 0x0C32
abbrev MG_NO_PRINCIPAL : Nat := 0x0C33
abbrev MG_PROVISIONED : Nat := 0x0C34
abbrev MG_HOST_LOST : Nat := 0x0C40
abbrev MG_THERM_ALERT : Nat := 0x0C41

/-! ### SQ_FLAGS bits (07.R193) -/

abbrev FLAG_CHK : Nat := 0
abbrev FLAG_SAT : Nat := 1
abbrev FLAG_INV : Nat := 2
abbrev FLAG_EMPTY : Nat := 3
abbrev FLAG_WTO : Nat := 4
abbrev FLAG_CMP : Nat := 5

/-! ### HP_IRQ_STATUS causes (14.R388) -/

abbrev IRQ_CQ : Nat := 0
abbrev IRQ_STAGE : Nat := 1
abbrev IRQ_SHAPE : Nat := 2
abbrev IRQ_ERR : Nat := 3
abbrev IRQ_CLK : Nat := 4
abbrev IRQ_MGMT : Nat := 5
abbrev IRQ_HALT : Nat := 6
abbrev IRQ_LIVE : Nat := 7

/-! ### Core events (21.R509) -/

abbrev EV_SLOT_RETIRED : Nat := 0x00
abbrev EV_SLOT_WASTED : Nat := 0x01
abbrev EV_SEQ : Nat := 0x04
abbrev EV_SYNC : Nat := 0x05
abbrev EV_MOVE : Nat := 0x06
abbrev EV_LOOM : Nat := 0x07
abbrev EV_MILL : Nat := 0x08
abbrev EV_NOOPS : Nat := 0x09
abbrev EV_FAULTS : Nat := 0x0B
abbrev EV_LM_GRANTS : Nat := 0x13
abbrev EV_LM_INSTR_A8 : Nat := 0x14
abbrev EV_LM_INSTR_A4 : Nat := 0x15
abbrev EV_LM_REEXEC : Nat := 0x16
abbrev EV_LM_SQUASH : Nat := 0x17
abbrev EV_LM_FINAL_SAT : Nat := 0x18
abbrev EV_LM_PLY_CHANGE : Nat := 0x19
abbrev EV_LM_PROG_ROWS : Nat := 0x1A
abbrev EV_LM_VERIFY_ROWS : Nat := 0x1B
abbrev EV_LM_PLANE_SUMS : Nat := 0x1C
abbrev EV_LM_DIGITAL_VEC : Nat := 0x1D
abbrev EV_ML_MAC_INT : Nat := 0x1E
abbrev EV_ML_MAC_FP8 : Nat := 0x1F
abbrev EV_ML_MAC_F16 : Nat := 0x20
abbrev EV_ML_BLOCK_LOADS : Nat := 0x21
abbrev EV_ML_VEC_ELEM : Nat := 0x23
abbrev EV_ML_RED_ELEM : Nat := 0x24
abbrev EV_ML_SORT_KEYS : Nat := 0x25
abbrev EV_ML_TOPK_ELEM : Nat := 0x26
abbrev EV_ML_WALK_BYTES : Nat := 0x27
abbrev EV_ML_RNG_WORDS : Nat := 0x28
abbrev EV_ML_ESC_PRODUCTS : Nat := 0x29
abbrev EV_FU_ELEM_STEPS : Nat := 0x2A
abbrev EV_QZ_CONV_CLIP : Nat := 0x2C
abbrev EV_QZ_INVALID : Nat := 0x2D
abbrev EV_QZ_ESC_WRITTEN : Nat := 0x2E
abbrev EV_QZ_ESC_OVERFLOW : Nat := 0x2F
abbrev EV_QZ_SIDE_SKIP : Nat := 0x30
abbrev EV_QZ_ADAPT : Nat := 0x31
abbrev EV_MV_GRAN_RD : Nat := 0x32
abbrev EV_MV_GRAN_WR : Nat := 0x36
abbrev EV_CS_REMOTE_SERVED : Nat := 0x43
abbrev EV_CS_CORRECTED : Nat := 0x44
abbrev EV_ACC_CORRECTED : Nat := 0x45
abbrev EV_CC_HIT : Nat := 0x46
abbrev EV_CC_MISS : Nat := 0x47
abbrev EV_SY_WAIT_TIMEOUT : Nat := 0x49
abbrev EV_SY_OPS : Nat := 0x4A
abbrev EV_TL_FETCH : Nat := 0x4C
abbrev EV_TL_EMPTY : Nat := 0x4D
abbrev EV_FLAG_CHK : Nat := 0x4E
abbrev EV_FLAG_SAT : Nat := 0x4F
abbrev EV_FLAG_INV : Nat := 0x50
abbrev EV_JOBS : Nat := 0x51
abbrev EV_BOUNDARIES : Nat := 0x52
abbrev EV_CAL_APPLY : Nat := 0x53

/-- Engine event `j` of engine `n` (21.R509). -/
abbrev evEngine (j n : Nat) : Nat := 0x80 + 16 * j + n

/-! ### Package events (21.R510) -/

abbrev PE_WH_RD : Nat := 0x00
abbrev PE_WH_WR : Nat := 0x10
abbrev PE_HP_RD_LINES : Nat := 0x21
abbrev PE_HP_WR_LINES : Nat := 0x22
abbrev PE_HP_MISS : Nat := 0x23
abbrev PE_HP_DROP : Nat := 0x24
abbrev PE_HP_STAGE_PAGES : Nat := 0x25
abbrev PE_HP_ACCEPTED : Nat := 0x26
abbrev PE_HP_COMPLETIONS : Nat := 0x27
abbrev PE_SL_TX_FRAMES : Nat := 0x28
abbrev PE_SL_RX_DISCARD : Nat := 0x2C
abbrev PE_ENERGY : Nat := 0x30
abbrev PE_SCRUBS : Nat := 0x33
abbrev PE_CAL_LIGHT : Nat := 0x34
abbrev PE_CAL_FULL : Nat := 0x35
abbrev PE_ANNEALS : Nat := 0x36
abbrev PE_LEDGER_RECORDS : Nat := 0x37
abbrev PE_LEDGER_DROPS : Nat := 0x38
abbrev PE_WH_CORRECTED : Nat := 0x39
abbrev PE_PB_CORRECTED : Nat := 0x3A
abbrev PE_SS_CORRECTED : Nat := 0x3B
abbrev PE_CC_CORRECTED : Nat := 0x40

end Sys2Proof.Machine
end

