-- ==== Sys2Proof/Machine/Sparse.lean ====
section
/-!
DEFINITION. The operations over sparse maps and byte memory, and their canonical form: keys strictly rising, no entry
equal to the default. Reading an address that is not listed gives the default (10.R279: every store reads zero).
-/

namespace Sys2Proof

/-- The value at `k`, `d` when `k` is not listed. -/
def NatMap.get {α : Type} (d : α) : NatMap α → Nat → α
  | [], _ => d
  | (k', v) :: m, k => if k = k' then v else NatMap.get d m k

/-- The map without the entry at `k`. -/
def NatMap.erase {α : Type} : NatMap α → Nat → NatMap α
  | [], _ => []
  | (k', v) :: m, k => if k = k' then m else (k', v) :: NatMap.erase m k

/-- The map with `v` inserted at `k`, in order. -/
def NatMap.insert {α : Type} : NatMap α → Nat → α → NatMap α
  | [], k, v => [(k, v)]
  | (k', v') :: m, k, v =>
    if k < k' then (k, v) :: (k', v') :: m
    else if k = k' then (k, v) :: m
    else (k', v') :: NatMap.insert m k v

/-- The map with `v` at `k`: writing the default removes the entry. -/
def NatMap.put {α : Type} [DecidableEq α] (d : α) (m : NatMap α) (k : Nat) (v : α) : NatMap α :=
  if v = d then NatMap.erase m k else NatMap.insert m k v

/-- Every key is above `b`, keys rise strictly, and no value is the default. -/
def NatMap.wfFrom {α : Type} [DecidableEq α] (d : α) : Nat → NatMap α → Bool
  | _, [] => true
  | b, (k, v) :: m => decide (b ≤ k) && decide (v ≠ d) && NatMap.wfFrom d (k + 1) m

/-- The canonical form of a sparse map with default `d`. -/
def NatMap.wf {α : Type} [DecidableEq α] (d : α) (m : NatMap α) : Bool := NatMap.wfFrom d 0 m

/-- The entries whose key satisfies `p`. -/
def NatMap.keep {α : Type} (p : Nat → Bool) (m : NatMap α) : NatMap α := m.filter (fun e => p e.1)

/-- The map with the value at `k` replaced by `f` of it. -/
def NatMap.update {α : Type} [DecidableEq α] (d : α) (m : NatMap α) (k : Nat) (f : α → α) : NatMap α :=
  NatMap.put d m k (f (NatMap.get d m k))

/-- The canonical form of byte memory. -/
abbrev Memory.wf (m : Memory) : Bool := NatMap.wf (0 : Byte) m

/-- The byte at an address. -/
def Memory.byte (m : Memory) (a : Nat) : Byte := NatMap.get 0 m a

/-- The memory with one byte written. -/
def Memory.set (m : Memory) (a : Nat) (b : Byte) : Memory := NatMap.put 0 m a b

/-- `n` bytes from address `a`. -/
def Memory.bytes (m : Memory) (a : Nat) : Nat → List Byte
  | 0 => []
  | n + 1 => m.byte a :: Memory.bytes m (a + 1) n

/-- The memory with the bytes `bs` written from address `a`. -/
def Memory.write (m : Memory) (a : Nat) : List Byte → Memory
  | [] => m
  | b :: bs => Memory.write (m.set a b) (a + 1) bs

/-- The memory with the listed bytes of a masked burst written from `a`: `none` keeps the byte. -/
def Memory.writeMasked (m : Memory) (a : Nat) : List (Option Byte) → Memory
  | [] => m
  | none :: bs => Memory.writeMasked m (a + 1) bs
  | some b :: bs => Memory.writeMasked (m.set a b) (a + 1) bs

/-- The memory with the `n` bytes from `a` zero. -/
def Memory.zero (m : Memory) (a n : Nat) : Memory := NatMap.keep (fun k => k < a || a + n ≤ k) m

/-- The value of little-endian bytes (00.R9). -/
def leNat : List Byte → Nat
  | [] => 0
  | b :: bs => b.toNat + 256 * leNat bs

/-- `n` little-endian bytes of a value (00.R9). -/
def leBytes : Nat → Nat → List Byte
  | 0, _ => []
  | n + 1, v => BitVec.ofNat 8 v :: leBytes n (v / 256)

/-- The value of big-endian bytes. -/
def beNat (bs : List Byte) : Nat := leNat bs.reverse

/-- `n` big-endian bytes of a value. -/
def beBytes (n v : Nat) : List Byte := (leBytes n v).reverse

/-- Bits `lo + n - 1` down to `lo` of a number. -/
def bits (v lo n : Nat) : Nat := v / 2 ^ lo % 2 ^ n

/-- Bit `i` of a number. -/
def bit (v i : Nat) : Bool := v / 2 ^ i % 2 == 1

/-- The number that a Bool stands for. -/
def b2n (b : Bool) : Nat := if b then 1 else 0

/-- A two's-complement number of `n` bits. -/
def signed (n v : Nat) : Int :=
  let v := v % 2 ^ n
  if 2 ^ (n - 1) ≤ v then (v : Int) - 2 ^ n else v

/-- The low `n` bits of an integer. -/
def unsigned (n : Nat) (v : Int) : Nat := (v % (2 : Int) ^ n).toNat

/-- Little-endian number at byte offset `o` of a list, `n` bytes wide. -/
def leAt (bs : List Byte) (o n : Nat) : Nat := leNat ((bs.drop o).take n)

/-- The element `i` of a vector, `d` outside it. -/
def getN {α : Type} {n : Nat} (v : Vector α n) (i : Nat) (d : α) : α := if h : i < n then v[i] else d

/-- The vector with element `i` replaced by `f` of it, unchanged outside it. -/
def updN {α : Type} {n : Nat} (v : Vector α n) (i : Nat) (f : α → α) : Vector α n :=
  if h : i < n then v.set i (f v[i]) else v

/-- Every element of a vector whose number satisfies `p` replaced by `f` of it. -/
def mapN {α : Type} {n : Nat} (p : Nat → Bool) (f : α → α) (v : Vector α n) : Vector α n :=
  v.mapFinIdx (fun i a _ => if p i then f a else a)

/-- The list with element `i` replaced by `f` of it. -/
def updL {α : Type} (l : List α) (i : Nat) (f : α → α) : List α := l.mapIdx (fun j a => if j = i then f a else a)

/-- The quotient rounded up. -/
def ceilDiv (a b : Nat) : Nat := (a + b - 1) / b

end Sys2Proof
end

