-- ==== Sys2Proof/Config.lean ====
section
/-!
DEFINITION. What an implementation fixes and the manual does not: constants without a body. A statement about
the model is true whatever they are. Each has a row of the assumption log.
-/

namespace Sys2Proof.Config

/-- Die revision fuse (14.R367 MA 0x06, HP_IDENT.REV). -/
opaque dieRev : BitVec 8
/-- Serial number fuse (14.R394 HP_SERIAL). -/
opaque serial : BitVec 64
/-- Manufacturer field of the I3C provisional ID, 15 bits (18.R455). -/
opaque i3cMfr : BitVec 15
/-- The code the LPDDR standard gives the nominal refresh interval: the field of MA 0x04 (14.R367). -/
opaque mrRefreshCode : BitVec 5
/-- The standard's code for 16 Gbit per channel and x16 (14.R367 MA 0x08). -/
opaque mrDensityCode : BitVec 8
/-- The standard's reset value of mode register `ma` (22.R531). -/
opaque mrReset : Nat → BitVec 8
/-- The bits of mode register `ma` that the standard makes writable (14.R367). -/
opaque mrWritable : Nat → BitVec 8
/-- The standard holds mode register `ma` once for each frequency set point (14.R364). -/
opaque mrPerPoint : Nat → Bool
/-- The standard's read DQ calibration pattern, of the mode registers that have been written (14.R366). -/
opaque readDqPattern : List (Nat × BitVec 8) → List (BitVec 8)
/-- The standard's bus characteristics and device characteristics registers and status word (18.R455). -/
opaque i3cBcr : BitVec 8
opaque i3cDcr : BitVec 8
opaque i3cStatus : BitVec 16

/-- Draw `n` of the Counting House's random source, 32 bytes (17.R425, 08.R246 SEC.RAND, 06.R184 ENTROPY). -/
opaque random : Nat → BitVec 256
/-- Draw `n` of a value the manual calls unspecified (03.R91, R100, 20.R489, 09.R258). -/
opaque unspecified : Nat → BitVec 64

/-- Byte at `a` that draw `n` leaves unspecified (20.R489). -/
opaque unspecifiedByte : Nat → Nat → BitVec 8

/-- Noise of analogue read `n` of a column or row, in 1/128 level step times code step (02.R50 to R53, 03.R85), and with it
which side of a midpoint a tie takes. -/
opaque readError : Nat → Int
/-- Where the iterations of a PROG leave pair `n`, as its departure from what they aim at, in 1/128 level step (11.R313). -/
opaque programError : Nat → Int
/-- The mean drift exponent of a ply, between 0.02 and 0.05 (02.R55). -/
opaque plyNu : Nat → Rat
/-- The departure of a cell's exponent from its ply's mean, within 0.004: ply, row, column, and whether the cell is G-. -/
opaque cellNu : Nat → Nat → Nat → Bool → Rat
/-- The temperature coefficient of a ply's conductance per degree C, between 0.05 % and 0.10 % (02.R58). -/
opaque tempCoefficient : Nat → Rat
/-- Draw `n` of how far a junction stands from the last reading of its cluster, in 0.01 degrees C. -/
opaque junctionShift : Nat → Int
/-- Whether converter self-test `n` of an engine passes (20.R487). -/
opaque selfTestPasses : Nat → Bool
/-- Error of monitor conversion `n`, in codes, within the worst case of 13.R353. -/
opaque monitorError : Nat → Rat

/-- Whether a MERGE that writes finished values takes FINAL records (08.R244 does not say which kind it takes). -/
opaque mergeTakesFinal : Bool

/-- The set of a cluster cache that a Warehouse granule belongs to, a number below the number of sets, which no rule gives (10.R280). -/
opaque cacheSet : Nat → Nat
/-- The device identity seed's key (17.R425): no read returns it. -/
opaque dikSeed : BitVec 256
/-- The Ronzen root public key and the firmware public keys held in boot ROM (17.R425, R426). -/
opaque ronzenRoot : BitVec 256
opaque firmwareKey : Nat → List (BitVec 8)
/-- RESULT of a DEBUG_UNLOCK in the DISABLED state, which is refused with a code the manual does not give (17.R452). -/
opaque debugDisabledResult : BitVec 16
/-- Fuse word `n` as SEC.FUSE READ returns it, whose layout no rule gives; of what may be burned it follows FUSE_SVN, the
revoke bits and PERM_DEBUG_OFF, its other arguments (08.R246, 17.R430). -/
opaque fuseWord : Nat → BitVec 64 → BitVec 4 → Bool → BitVec 64
/-- What fuse bit `n` is, which no rule gives: 0 to 63 a bit of FUSE_SVN, 64 to 67 a revoke bit, 68 PERM_DEBUG_OFF, above
that a bit that SEC.FUSE BURN may not set (17.R430). -/
opaque fuseBit : Nat → Nat
/-- The type of key that a KDF, an IMPORT or a GEN with type 3 leaves in a slot to which 17.R424 assigns none (08 SEC class). -/
opaque unstatedKeyType : Nat → Fin 4

/-- The Warehouse page at which the device would allocate a staging heap, which no rule gives (11.R300, 14.R371). -/
opaque heapPage : Nat → Nat

/-- What the header of a Stitch frame says (19.R472): kind 0 a read request, 1 a write request, 2 a good answer, 4 the end of a
load, its status as `addr` and its detail as `len` (11.R305), others a bad answer. -/
structure StitchOp where
  dest : Nat
  src : Nat
  seq : Nat
  kind : Nat
  addr : Nat
  len : Nat
  deriving DecidableEq, Repr, Inhabited

/-- The 16-byte header of a frame, whose layout no rule gives: read, built for a request, and built for the answer to one,
`true` when its data is good (19.R472, R475). -/
opaque stitchHeader : List (BitVec 8) → StitchOp
opaque stitchRequest : StitchOp → List (BitVec 8)
opaque stitchAnswer : StitchOp → Bool → List (BitVec 8)
/-- The header of a frame that tells a device of the end of a load (11.R305). -/
opaque stitchLoadEnd : StitchOp → List (BitVec 8)
/-- The VENDOR signers that Ronzen placed at manufacture, entries 0 to 3 (17.R431). -/
opaque vendorSigner : Nat → Option (List (BitVec 8))
/-- The seed of the device CA's signing key, which no device holds, and the root's signature over the device CA certificate
(17.R425). -/
opaque deviceCaSeed : BitVec 256
opaque deviceCaSignature : BitVec 512
/-- The firmware images of the house store at manufacture, kinds 1 to 3 (17.R423). -/
opaque houseStoreAtManufacture : Nat → List (BitVec 8)

end Sys2Proof.Config
end

