-- ==== Sys2Proof/Machine/Numbers.lean ====
section
/-!
DEFINITION. Number formats, exact values and the one rounding mode (chapter 04), and the arithmetic of 06.R168.
-/

namespace Sys2Proof.Machine

/-- An exact value: a rational, the negative zero, an infinity or a NaN (no payload is kept, 04.R114). -/
inductive Num where
  | nan
  | inf (neg : Bool)
  | negZero
  | val (q : Rat)
  deriving DecidableEq, Repr

/-- An element format (04.R109). -/
inductive Fmt where
  | a8u
  | a4u
  | int8
  | int32
  | e4m3
  | e5m2
  | bf16
  | fp16
  | fp32
  | g4
  | g8
  deriving DecidableEq, Repr

/-- The format a code names (04.R109). -/
def fmtOf : Nat → Option Fmt
  | 0 => some .a8u | 1 => some .a4u | 2 => some .int8 | 3 => some .int32 | 4 => some .e4m3 | 5 => some .e5m2
  | 6 => some .bf16 | 7 => some .fp16 | 8 => some .fp32 | 9 => some .g4 | 10 => some .g8 | _ => none

/-- Bits per element (04.R109). -/
def fmtBits : Fmt → Nat
  | .a8u => 8 | .a4u => 4 | .int8 => 8 | .int32 => 32 | .e4m3 => 8 | .e5m2 => 8
  | .bf16 => 16 | .fp16 => 16 | .fp32 => 32 | .g4 => 4 | .g8 => 8

/-- A floating format (04.R113). -/
def fmtFloat : Fmt → Bool
  | .e4m3 | .e5m2 | .bf16 | .fp16 | .fp32 => true
  | _ => false

/-- A8U or A4U. -/
def fmtA : Fmt → Bool
  | .a8u | .a4u => true
  | _ => false

/-- INT8, INT32, A8U or A4U: integer or A-format. -/
def fmtInt : Fmt → Bool
  | .a8u | .a4u | .int8 | .int32 => true
  | _ => false

/-- G4 or G8. -/
def fmtBell : Fmt → Bool
  | .g4 | .g8 => true
  | _ => false

/-- Exponent bits (04.R113). -/
def fmtEb : Fmt → Nat
  | .e4m3 => 4 | .e5m2 => 5 | .bf16 => 8 | .fp16 => 5 | _ => 8

/-- Mantissa bits (04.R113). -/
def fmtMb : Fmt → Nat
  | .e4m3 => 3 | .e5m2 => 2 | .bf16 => 7 | .fp16 => 10 | _ => 23

/-- Exponent bias (04.R113). -/
def fmtBias (f : Fmt) : Int := 2 ^ (fmtEb f - 1) - 1

/-- The canonical NaN (04.R114). -/
def fmtNan : Fmt → Nat
  | .e4m3 => 0x7F | .e5m2 => 0x7E | .bf16 => 0x7FC0 | .fp16 => 0x7E00 | _ => 0x7FC00000

/-- 2^e, exact. -/
def pow2 (e : Int) : Rat := if 0 ≤ e then ((2 ^ e.toNat : Nat) : Rat) else 1 / ((2 ^ (-e).toNat : Nat) : Rat)

/-- Round to nearest, ties to even (04.R115). -/
def rne (x : Rat) : Int :=
  let f := x.floor
  let r := x - (f : Rat)
  if r < 1 / 2 then f else if 1 / 2 < r then f + 1 else if f % 2 = 0 then f else f + 1

/-- The magnitude of a rational. -/
def ratAbs (x : Rat) : Rat := if x < 0 then -x else x

/-- floor(log2 x) of a positive rational. -/
def ilog2 (x : Rat) : Int :=
  let e : Int := (Nat.log2 x.num.toNat : Int) - (Nat.log2 x.den : Int)
  if pow2 e ≤ x then e else e - 1

/-- The largest finite magnitude (04.R113). -/
def fmtMax (f : Fmt) : Rat :=
  match f with
  | .e4m3 => 448
  | _ => (2 - pow2 (-(fmtMb f : Int))) * pow2 (fmtBias f)

/-- RNE to the precision of a floating format with no upper bound on the exponent, the subnormal grid below its
smallest normal (04.R116). -/
def roundGrid (f : Fmt) (x : Rat) : Rat :=
  if x = 0 then 0
  else
    let e := max (ilog2 (ratAbs x)) (1 - fmtBias f)
    let ulp := pow2 (e - fmtMb f)
    ((rne (x / ulp) : Int) : Rat) * ulp

/-- RNE to `p` significant bits with the exponent range of FP32, subnormals included (06.R165). -/
def roundSig (p : Nat) (x : Rat) : Rat :=
  if x = 0 then 0
  else
    let e := ilog2 (ratAbs x)
    let ulp := pow2 (max (e - (p - 1 : Int)) (-149))
    ((rne (x / ulp) : Int) : Rat) * ulp

/-- The bits of a magnitude that lies on the grid and within the range of a floating format, sign apart. -/
def magBits (f : Fmt) (a : Rat) : Nat :=
  if a = 0 then 0
  else
    let e := ilog2 a
    let emin := 1 - fmtBias f
    if e < emin then (a / pow2 (emin - fmtMb f)).floor.toNat
    else (e + fmtBias f).toNat * 2 ^ fmtMb f + ((a / pow2 (e - fmtMb f)).floor.toNat - 2 ^ fmtMb f)

/-- The sign bit of a floating format. -/
def signBit (f : Fmt) (neg : Bool) : Nat := b2n neg * 2 ^ (fmtEb f + fmtMb f)

/-- The value of a code of a floating format (04.R113). -/
def floatVal (f : Fmt) (raw : Nat) : Num :=
  let m := bits raw 0 (fmtMb f)
  let e := bits raw (fmtMb f) (fmtEb f)
  let neg := bit raw (fmtEb f + fmtMb f)
  let top := 2 ^ fmtEb f - 1
  let mag : Rat :=
    if e = 0 then (m : Rat) * pow2 (1 - fmtBias f - fmtMb f)
    else ((2 ^ fmtMb f + m : Nat) : Rat) * pow2 (e - fmtBias f - fmtMb f)
  if e = top ∧ f = .e4m3 ∧ m = 7 then .nan
  else if e = top ∧ f ≠ .e4m3 then (if m = 0 then .inf neg else .nan)
  else if mag = 0 then (if neg then .negZero else .val 0)
  else .val (if neg then -mag else mag)

/-- The sign of a value; the NaN has none. -/
def Num.neg : Num → Bool
  | .nan => false
  | .inf n => n
  | .negZero => true
  | .val q => decide (q < 0)

/-- Negation: the sign bit only (06.R167). -/
def Num.flip : Num → Num
  | .nan => .nan
  | .inf n => .inf (!n)
  | .negZero => .val 0
  | .val q => if q = 0 then .negZero else .val (-q)

/-- The magnitude. -/
def Num.mag : Num → Num
  | .nan => .nan
  | .inf _ => .inf false
  | .negZero => .val 0
  | .val q => .val (ratAbs q)

/-- The rational of a finite value; 0 otherwise. -/
def Num.rat : Num → Rat
  | .val q => q
  | _ => 0

/-- Neither NaN nor infinity. -/
def Num.finite : Num → Bool
  | .val _ | .negZero => true
  | _ => false

/-- A zero of either sign. -/
def Num.isZero : Num → Bool
  | .negZero => true
  | .val q => decide (q = 0)
  | _ => false

/-- A value with a sign, an exact magnitude 0 keeping it. -/
def signedVal (neg : Bool) (a : Rat) : Num :=
  if a = 0 then (if neg then .negZero else .val 0) else .val (if neg then -a else a)

/-- What a conversion counts (04.R117). -/
inductive Conv where
  | none
  | clip
  | invalid
  deriving DecidableEq, Repr

/-- Conversion to a floating format (04.R116, R117): the value saturates and never becomes infinite. -/
def toFloat (f : Fmt) (x : Num) : Nat × Conv :=
  match x with
  | .nan => (fmtNan f, .none)
  | .inf n => if f = .e4m3 then (signBit f n + 0x7E, .clip) else (signBit f n + (2 ^ fmtEb f - 1) * 2 ^ fmtMb f, .none)
  | .negZero => (signBit f true, .none)
  | .val q =>
    let r := roundGrid f q
    if fmtMax f < ratAbs r then (signBit f (decide (q < 0)) + magBits f (fmtMax f), .clip)
    else (signBit f (decide (q < 0)) + magBits f (ratAbs r), .none)

/-- Saturation of an integer to a range, and whether it clips (04.R117). -/
def clampInt (lo hi v : Int) : Int × Conv := if v < lo then (lo, .clip) else if hi < v then (hi, .clip) else (v, .none)

/-- Conversion to INT8, INT32, A8U or A4U with zero point `zp` (04.R117, R118). NaN to A4U under a zero point above 15, for which
no code exists, gives the zero point's low 4 bits (DESIGN CHOICE, assumption 150). -/
def toInt (f : Fmt) (zp : Nat) (x : Num) : Nat × Conv :=
  let n := fmtBits f
  let lo : Int := if fmtA f then 0 else -(2 ^ (n - 1))
  let hi : Int := if fmtA f then 2 ^ n - 1 else 2 ^ (n - 1) - 1
  let z : Int := if fmtA f then zp else 0
  match x with
  | .nan => (unsigned n z, .invalid)
  | .inf neg => (unsigned n (if neg then lo else hi), .clip)
  | .negZero => let (v, c) := clampInt lo hi z; (unsigned n v, c)
  | .val q => let (v, c) := clampInt lo hi (z + rne q); (unsigned n v, c)

/-- L4 in units of 2^-12 (04.R120). -/
def levels4 : List Nat := [0, 375, 761, 1171, 1626, 2161, 2862, 4096]

/-- L8 in units of 2^-16, the 128 integers of 04.R121. -/
def levels8 : List Nat :=
  [0, 223, 447, 670, 894, 1117, 1341, 1565, 1789, 2013, 2237, 2462, 2686, 2911, 3137, 3362,
   3588, 3815, 4041, 4269, 4496, 4724, 4953, 5181, 5411, 5641, 5872, 6103, 6335, 6567, 6800, 7034] ++
  [7269, 7505, 7741, 7978, 8216, 8455, 8695, 8935, 9177, 9420, 9664, 9909, 10155, 10403, 10651, 10901,
   11153, 11405, 11659, 11915, 12172, 12430, 12691, 12953, 13216, 13482, 13749, 14018, 14289, 14562, 14838, 15115] ++
  [15395, 15677, 15962, 16249, 16539, 16831, 17127, 17425, 17726, 18030, 18338, 18649, 18964, 19282, 19604, 19930,
   20260, 20595, 20934, 21278, 21627, 21981, 22340, 22705, 23076, 23453, 23837, 24228, 24626, 25032, 25446, 25868] ++
  [26300, 26741, 27193, 27656, 28130, 28617, 29118, 29633, 30164, 30712, 31278, 31865, 32473, 33106, 33765, 34454,
   35177, 35937, 36739, 37590, 38497, 39470, 40522, 41668, 42931, 44343, 45950, 47827, 50100, 53025, 57237, 65536]

/-- The levels of a bell grid, and the unit they count in. -/
def bellLevels (f : Fmt) : List Nat := if f = .g8 then levels8 else levels4
def bellUnit (f : Fmt) : Rat := if f = .g8 then pow2 (-16) else pow2 (-12)

/-- The escape code (04.R120, R121). -/
def bellEscape (f : Fmt) : Nat := if f = .g8 then 0x80 else 0x8

/-- The signed level units of a code that is not the escape. -/
def bellUnits (f : Fmt) (code : Nat) : Int :=
  let h := bellEscape f
  let l : Int := (bellLevels f).getD (code % h) 0
  if h ≤ code then -l else l

/-- The magnitude index of `a` level units: the midpoints decide, a tie takes the even index (04.R123). -/
def bellIndex : List Nat → Nat → Rat → Nat
  | l :: l' :: ls, k, a =>
    let m : Rat := ((l + l' : Nat) : Rat) / 2
    if m < a ∨ (a = m ∧ k % 2 = 1) then bellIndex (l' :: ls) (k + 1) a else k
  | _, k, _ => k

/-- Conversion to a bell grid of a value already divided by its scale (04.R123, R124). -/
def toBell (f : Fmt) (u : Num) : Nat × Conv :=
  let top := (bellLevels f).length - 1
  match u with
  | .nan => (0, .invalid)
  | .inf neg => ((if neg then bellEscape f else 0) + top, .clip)
  | .negZero => (0, .none)
  | .val q =>
    let a := ratAbs q / bellUnit f
    let k := bellIndex (bellLevels f) 0 a
    ((if q < 0 ∧ k ≠ 0 then bellEscape f else 0) + k, if ((bellLevels f).getD top 0 : Nat) < a then .clip else .none)

/-- Conversion to any format: the bell grids take `x` as their u (04.R117, 05.R150). -/
def toFmt (f : Fmt) (zp : Nat) (x : Num) : Nat × Conv :=
  if fmtFloat f then toFloat f x else if fmtBell f then toBell f x else toInt f zp x

/-- The value of a code before its scale: codes less the zero point, bell levels in grid units (04.R109, R120). -/
def codeVal (f : Fmt) (zp : Nat) (raw : Nat) : Num :=
  if fmtFloat f then floatVal f raw
  else if fmtBell f then .val ((bellUnits f raw : Rat) * bellUnit f)
  else if fmtA f then .val (((raw : Int) - zp : Int) : Rat)
  else .val ((signed (fmtBits f) raw : Int) : Rat)

/-! ### Arithmetic (06.R168): the exact result, and whether the operation was invalid. -/

/-- a + b. -/
def addN (a b : Num) : Num × Bool :=
  match a, b with
  | .nan, _ | _, .nan => (.nan, false)
  | .inf m, .inf n => if m = n then (.inf m, false) else (.nan, true)
  | .inf m, _ | _, .inf m => (.inf m, false)
  | .negZero, .negZero => (.negZero, false)
  | x, y => (.val (x.rat + y.rat), false)

/-- a - b. -/
def subN (a b : Num) : Num × Bool := addN a b.flip

/-- a * b. -/
def mulN (a b : Num) : Num × Bool :=
  match a, b with
  | .nan, _ | _, .nan => (.nan, false)
  | .inf m, y => if y.isZero then (.nan, true) else (.inf (m != y.neg), false)
  | x, .inf m => if x.isZero then (.nan, true) else (.inf (m != x.neg), false)
  | x, y => (signedVal (x.neg != y.neg) (ratAbs (x.rat * y.rat)), false)

/-- a * b + c, exact. -/
def fmaN (a b c : Num) : Num × Bool :=
  let (p, i) := mulN a b
  let (r, j) := addN p c
  (r, i || j)

/-- a / b: a non-zero number over zero is an infinity and flags nothing (06.R168). -/
def divN (a b : Num) : Num × Bool :=
  match a, b with
  | .nan, _ | _, .nan => (.nan, false)
  | .inf _, .inf _ => (.nan, true)
  | .inf m, y => (.inf (m != y.neg), false)
  | x, .inf m => (if m != x.neg then .negZero else .val 0, false)
  | x, y =>
    if y.isZero then (if x.isZero then (.nan, true) else (.inf (x.neg != y.neg), false))
    else (signedVal (x.neg != y.neg) (ratAbs (x.rat / y.rat)), false)

/-- The integer square root, bit by bit from bit `k - 1` down. -/
def isqrtAux : Nat → Nat → Nat → Nat
  | 0, _, r => r
  | k + 1, n, r => let t := r + 2 ^ k; isqrtAux k n (if t * t ≤ n then t else r)

/-- The integer square root. -/
def isqrt (n : Nat) : Nat := isqrtAux (Nat.log2 n / 2 + 1) n 0

/-- A rational that rounds as the square root of `q` does at every precision used here: 72 or more bits of the root, and
a half unit in their last place when bits are lost. -/
def sqrtRat (q : Rat) : Rat :=
  let k : Nat := 160
  let n := (q * pow2 (2 * k)).floor.toNat
  let s := isqrt n
  let exact := decide (((s * s : Nat) : Rat) = q * pow2 (2 * k))
  ((s : Rat) + (if exact then 0 else 1 / 2)) * pow2 (-(k : Int))

/-- The square root. -/
def sqrtN (a : Num) : Num × Bool :=
  match a with
  | .nan => (.nan, false)
  | .inf n => if n then (.nan, true) else (.inf false, false)
  | .negZero => (.negZero, false)
  | .val q => if q < 0 then (.nan, true) else if q = 0 then (.val 0, false) else (.val (sqrtRat q), false)

/-- a < b; any comparison with a NaN is false, and the zeros are equal. -/
def ltN (a b : Num) : Bool :=
  match a, b with
  | .nan, _ | _, .nan => false
  | .inf m, .inf n => m && !n
  | .inf m, _ => m
  | _, .inf n => !n
  | x, y => decide (x.rat < y.rat)

/-- a = b as numbers. -/
def eqN (a b : Num) : Bool :=
  match a, b with
  | .nan, _ | _, .nan => false
  | .inf m, .inf n => m == n
  | .inf _, _ | _, .inf _ => false
  | x, y => decide (x.rat = y.rat)

/-- a before b in the order of MAX and MIN, with -0 below +0 (06.R167). -/
def beforeN (a b : Num) : Bool := ltN a b || (eqN a b && a.neg && !b.neg)

/-- MAX (06.R167). -/
def maxN (a b : Num) : Num :=
  match a, b with
  | .nan, y => y
  | x, .nan => x
  | x, y => if beforeN x y then y else x

/-- MIN (06.R167). -/
def minN (a b : Num) : Num :=
  match a, b with
  | .nan, y => y
  | x, .nan => x
  | x, y => if beforeN y x then y else x

/-- One RNE rounding to a floating format; beyond the FP32 range the result is an infinity (06.R167, R168). -/
def roundArith (f : Fmt) (x : Num) : Num :=
  match x with
  | .val q =>
    let r := roundGrid f q
    if fmtMax .fp32 < ratAbs r then .inf (decide (q < 0)) else signedVal (decide (q < 0)) (ratAbs r)
  | y => y

/-- One RNE rounding to FP32 (06.R168). -/
def fp32 (x : Num) : Num := roundArith .fp32 x

/-- The FP32 bits of a value that is on the FP32 grid; the NaN is canonical (04.R114). -/
def fp32Bits (x : Num) : Nat := (toFloat .fp32 x).1

/-- A value from FP32 bits. -/
def ofFp32 (raw : Nat) : Num := floatVal .fp32 raw

/-- BF16 rounding of a value, by conversion (04.R116, R117). -/
def bf16Bits (x : Num) : Nat := (toFloat .bf16 x).1

/-- FP32 operations: the result rounded once, and whether it was invalid. -/
def add32 (a b : Num) : Num × Bool := let (r, i) := addN a b; (fp32 r, i)
def sub32 (a b : Num) : Num × Bool := let (r, i) := subN a b; (fp32 r, i)
def mul32 (a b : Num) : Num × Bool := let (r, i) := mulN a b; (fp32 r, i)
def div32 (a b : Num) : Num × Bool := let (r, i) := divN a b; (fp32 r, i)

/-- Conversion of an operation's exact result to its destination: overflow of the FP32 range first becomes an infinity,
then the conversion rules apply (06.R167). -/
def arithTo (f : Fmt) (zp : Nat) (x : Num) : Nat × Conv :=
  match x with
  | .val q =>
    let g : Fmt := if fmtFloat f then f else .fp32
    if fmtMax .fp32 < ratAbs (roundGrid g q) then toFmt f zp (.inf (decide (q < 0))) else toFmt f zp x
  | y => toFmt f zp y

end Sys2Proof.Machine
end

