-- ==== Sys2Proof/Machine/State.lean ====
section
/-!
DEFINITION. The state of the block, as plain data: every register, queue, store, counter, mode and pin the manual
gives it. A field's docstring names its width and rule; its default value is its value at reset (00.R13: after PORST_N
deasserts, the hardware phase of 23.R541 done, on a device fresh from manufacture whose every core passed the
self-test). INVENTORY.md lists the fields.
-/

namespace Sys2Proof.Machine

/-! ### Sequencers -/

/-- One loop stack entry (07.R193, R196). -/
structure LoopEntry where
  /-- 12 bits, R193 SQ_LOOPn[43:32]: first instruction of the body. -/
  first : Nat := 0
  /-- 12 bits, 08.R225: index of the END instruction. -/
  last : Nat := 0
  /-- 32 bits, R193 SQ_LOOPn[31:0]: iterations remaining. -/
  remaining : Nat := 0
  deriving DecidableEq, Repr

/-- A tensor descriptor as sampled at decode (07.R200, R201), its effective extents beside its declared ones
(07.R206). -/
structure TD where
  base : Nat := 0
  ext0 : Nat := 0
  ext1 : Nat := 0
  ext2 : Nat := 0
  ext3 : Nat := 0
  str1 : Nat := 0
  str2 : Nat := 0
  str3 : Nat := 0
  bound : Nat := 0
  format : Nat := 0
  skind : Nat := 0
  alsel : Nat := 0
  stream : Nat := 0
  sideCap : Nat := 0
  scaleBase : Nat := 0
  sideBase : Nat := 0
  /-- Effective extents (07.R206). -/
  eff0 : Nat := 0
  eff1 : Nat := 0
  eff2 : Nat := 0
  eff3 : Nat := 0
  deriving DecidableEq, Repr

/-- One step of a drain chain as sampled at decode (08.R222). -/
structure ChainStep where
  step : Nat := 0
  opnd : Nat := 0
  param : Nat := 0
  /-- The step's tensor, where it names one. -/
  td : Option TD := none
  /-- The step's scalar register, where it names one. -/
  scalar : W64 := 0
  deriving DecidableEq, Repr

/-- What a finish needs: the rescale, output and chain operands, sampled at decode (05.R148, R153, R157, 08.R221). -/
structure FinishOps where
  derived : Bool := false
  mult : Nat := 0
  shift : Nat := 0
  sy : W32 := 0
  zpy : Nat := 0
  qen : Bool := false
  qst : Nat := 0
  adapt : Int := 0
  satPolicy : Bool := false
  retryMax : Nat := 0
  chain : List ChainStep := []
  deriving DecidableEq, Repr

/-- Modes of MILL.MATMUL (06.R160). -/
inductive MatMode where
  | int
  | fp8
  | f16
  deriving DecidableEq, Repr

/-- An operand of a MILL.VEC as sampled at decode: unused, a broadcast scalar register's 64 bits, or a tensor (08.R243). -/
inductive VecArg where
  | unused
  | scalar (v : Nat)
  | tensor (t : TD)
  deriving DecidableEq, Repr

/-- What a queued Mill or mover instruction is to do when it starts, with what its decode sampled (07.R201, R208). -/
inductive QueueWork where
  /-- `abandons`: its ACC 0 abandoned an open chain (06.R163). -/
  | matmul (mode : MatMode) (acc hold tb abandons : Bool) (tri : Option Nat) (fin : FinishOps)
  | vec (fin : FinishOps) (args : List VecArg) (thr : Nat)
  /-- The one element of the single-element form, as RA's low half. -/
  | red (one : Option Nat)
  | sort
  | topk
  | tableLoad
  | tableEval
  | rng (key base : Nat)
  | walk (byteBase : Nat)
  /-- MOVE.LOAD and MOVE.STORE. -/
  | copy
  | prefetch
  /-- MOVE.STAGE: it asks for its place in the staging queue. -/
  | stage
  deriving DecidableEq, Repr

/-- The totals of an instruction for a QSTAT entry (05.R151): the sum of e², the count and the clips. -/
structure QTotals where
  err : Num := .val 0
  cnt : Nat := 0
  clip : Nat := 0
  deriving DecidableEq, Repr

/-- One instruction in a Mill or mover queue (07.R208), and what its completion does (07.R210). -/
structure QEntry where
  /-- Issue serial number, model's own: names the instruction to the sync buffer (07.R210). -/
  uid : Nat := 0
  /-- Instruction index. -/
  pc : Nat := 0
  /-- CLASS, OP and FORM (07.R198). -/
  opcode : Nat := 0
  /-- Package index of the DONE counter when DONE_EN = 1 (07.R198, R210). -/
  done : Option Nat := none
  /-- In streams whose oldest slot the instruction reads and frees on completion (07.R212). -/
  frees : List Nat := []
  /-- Out streams whose slot the instruction has written (07.R212). -/
  hands : List Nat := []
  /-- A MOVE.STAGE waiting for the staging queue or its copy (14.R380): its place in the queue is its uid. -/
  staging : Bool := false
  /-- A register-window store: decode is held until it completes (07.R207). -/
  regStore : Bool := false
  /-- The instruction is a no-op (07.R206), counted as such (21.R509). -/
  noop : Bool := false
  /-- Destinations it writes, whose bytes are unspecified when the core is fenced meanwhile (20.R489). -/
  dst : List TD := []
  /-- What it does when it starts; none once it has started (07.R208, R217). -/
  work : Option QueueWork := none
  /-- Its 128-bit word. -/
  word : W128 := 0
  /-- Its operands as sampled at decode (07.R201). -/
  srcs : List TD := []
  dsts : List TD := []
  /-- It writes a scale-linked tensor (05.R140). -/
  producer : Bool := false
  /-- Its writes to other devices, by request number: it completes when each has been acknowledged (07.R210, 19.R479). -/
  acks : List Nat := []
  /-- Its QSTAT totals, by entry, which are added when it ends (05.R151). -/
  totals : List (Nat × QTotals) := []
  deriving DecidableEq, Repr

/-- One operation of the sync buffer (07.R210). -/
structure SyncOp where
  /-- Package index of the counter (07.R213). -/
  index : Nat := 0
  /-- Signed addend (07.R214). -/
  v : Int := 1
  /-- Threshold, 0 for none (07.R214). -/
  t : Nat := 0
  /-- Instructions of the masked queues that have not completed, by serial number. -/
  waits : List Nat := []
  /-- The instruction, which completes when the operation is applied. -/
  entry : QEntry := {}
  deriving DecidableEq, Repr

/-- What a SYNC.WAIT blocks on (07.R211, R214). -/
inductive SeqWait where
  | ge (index n : Nat)
  | epoch (index e : Nat)
  deriving DecidableEq, Repr

/-- A SYNC.WAIT that blocks decode: its condition, whether it carries a time limit (08.R230), and the instruction. -/
structure Waiting where
  cond : SeqWait := .ge 0 0
  limited : Bool := false
  entry : QEntry := {}
  deriving DecidableEq, Repr

/-- One sequencer: a core's or the house sequencer (07.R192, R193). -/
structure Seqr where
  /-- The sequencer runs a job's program (07.R192), or house firmware. Reset: no job runs. -/
  running : Bool := false
  /-- It has executed SEQ.JOIN with END (07.R197). -/
  ended : Bool := false
  /-- A fault stopped its decode (07.R217). -/
  faulted : Bool := false
  /-- The fault has reached service firmware (07.R217 step 4). -/
  reported : Bool := false
  /-- Halted by the debug port (17.R452). -/
  halted : Bool := false
  /-- A debug step allows one decode while halted (17.R452). -/
  stepOne : Bool := false
  /-- 12 bits, SQ_PC. -/
  pc : Nat := 0
  /-- CODE_LEN of the image (07.R190). -/
  codeLen : Nat := 0
  /-- 6 bits, SQ_FLAGS: CMP, WTO, EMPTY, INV, SAT, CHK from bit 5 down. -/
  flags : BitVec 6 := 0
  /-- 64 bits, SQ_FAULT0 (07.R218). -/
  fault0 : W64 := 0
  /-- 64 bits, SQ_FAULT1 (07.R218). -/
  fault1 : W64 := 0
  /-- 32 bits, SQ_TDBASE: core store offset of descriptor slot 0. -/
  tdBase : Nat := 0
  /-- SQ_AL0 to SQ_AL7, 32 bits each. -/
  al : Vector W32 8 := Vector.replicate 8 0
  /-- Loop stack, innermost first, at most 4 (07.R196, SQ_LOOPn). -/
  loops : List LoopEntry := []
  /-- SQ_S0 to SQ_S31, 64 bits each. -/
  s : Vector W64 32 := Vector.replicate 32 0
  /-- Sync buffer, oldest first, at most 8 (07.R210). -/
  syncBuf : List SyncOp := []
  /-- A SYNC.WAIT that blocks decode (07.R211). -/
  wait : Option Waiting := none
  /-- Mill queue, at most 16 (07.R208). -/
  millQ : List QEntry := []
  /-- Mover queues, at most 32 each (07.R208). -/
  moverQ : Vector (List QEntry) 4 := Vector.replicate 4 []
  /-- The model's own issue counter. -/
  nextUid : Nat := 0
  deriving DecidableEq, Repr

/-! ### LOOM instructions in flight -/

/-- Kinds of LOOM-class instruction that wait in the Loom queue (08 LOOM class). -/
inductive LoomKind where
  | mvm
  | mvmt
  | ply
  | prog
  | verify
  | probe
  deriving DecidableEq, Repr

/-- How far a LOOM-class instruction has come. -/
inductive LoomPhase where
  | queued
  /-- It waits for its grant. -/
  | waiting
  /-- It holds its grant, if it needs one, and waits for its input (03.R106). -/
  | loading
  | integrating
  | converting
  | done
  deriving DecidableEq, Repr

/-- One engine of a LOOM instruction: its number, its ply, and its directory entry as read at decode (11.R311). -/
structure LoomEngine where
  engine : Nat := 0
  ply : Nat := 0
  w8 : Bool := false
  /-- The position is digital (20.R498). -/
  digital : Bool := false
  dirValid : Bool := false
  bundle : Nat := 0
  sideCount : Nat := 0
  deriving DecidableEq, Repr

/-- One plane accumulator entry (03.R90). -/
structure AccEntry where
  /-- 32 bits, ACC32. -/
  acc : Int := 0
  /-- 20 bits, P20. -/
  p20 : Int := 0
  /-- 4 bits, NSLICE. -/
  nslice : Nat := 0
  /-- SAT. -/
  sat : Bool := false
  deriving DecidableEq, Repr

/-- A K-slice partial handed over by an engine's drain (03.R87): its vector, its engine, and per output its value and
saturation mark; `none` for a masked output. -/
structure KPartial where
  vec : Nat := 0
  idx : Nat := 0
  outs : List (Option (Int × Bool)) := []
  deriving DecidableEq, Repr

/-- A LOOM-class instruction in the Loom queue (07.R208, 03). -/
structure LoomInstr where
  q : QEntry := {}
  kind : LoomKind := .mvm
  phase : LoomPhase := .queued
  acc : Bool := false
  hold : Bool := false
  k20 : Bool := false
  a4 : Bool := false
  engines : List LoomEngine := []
  ks : Nat := 1
  tdd : TD := {}
  tda : TD := {}
  psh : Nat := 0
  fin : FinishOps := {}
  /-- The instruction is a no-op (07.R206, 09.R263). -/
  noop : Bool := false
  /-- It has taken its stream slots (07.R212). -/
  took : Bool := false
  /-- Windows that have ended (03.R82). -/
  windows : Nat := 0
  /-- Ply class of the plies it names; for PROG the class it writes. -/
  w8 : Bool := false
  /-- It writes a scale-linked tensor (05.R140). -/
  producer : Bool := false
  /-- Its ACC = 0 abandoned an open chain (03.R91). -/
  abandons : Bool := false
  /-- Rows of the input it runs, in order (05.R142). -/
  vecs : List Nat := []
  /-- Driven codes of each vector loaded so far, from input 0 on (03.R80, R81). -/
  codes : List (List Nat) := []
  /-- Partials handed over and not yet summed (03.R87). -/
  partials : List KPartial := []
  /-- Engine indices whose drain of a vector is done. -/
  drained : List (Nat × Nat) := []
  /-- Vectors summed (03.R93). -/
  summed : Nat := 0
  /-- Entries at the instruction's start, for re-execution (03.R98). -/
  saved : List (Nat × AccEntry) := []
  /-- Re-executions so far (03.R99). -/
  retries : Nat := 0
  row0 : Nat := 0
  nrow : Nat := 0
  /-- VPROG fell below 2.45 V while this PROG integrated (22.R528). -/
  vprogLow : Bool := false
  iter : Nat := 12
  rep : Nat := 0
  rd : Nat := 0
  re : Nat := 0
  deriving DecidableEq, Repr

/-! ### Engines and cores -/

/-- A trim record (12.R335): the ply trims and the column trims (gain, offset) in column order U0 to U511, CK0 to CK3. -/
structure Trim where
  /-- 32 bits, units 2^-24. Neutral 0x0100_0000. -/
  gain : Nat := 0x1000000
  /-- 32 bits signed, units 2^-20 level step per unit of X. -/
  offset : Int := 0
  /-- 16 bits signed, 0.01 degrees C. -/
  tCal : Int := 4500
  valid : Bool := false
  cols : Bool := false
  /-- FP32 seconds. -/
  ageM : W32 := 0
  chkA : Nat := 80
  chkB : Nat := 80
  /-- FP32 raw gain. -/
  rawG : W32 := 0
  /-- Column trims: (column, (gain, offset)); a column not listed has both 0. -/
  col : NatMap (Int × Int) := []
  deriving DecidableEq, Repr

/-- The pairs of one ply as they are programmed: per row the 524 user, check and reference columns' pair values G0, in 1/128
level steps (02.R40, R54). A row not listed holds level 0 (02.R49). -/
structure PlyCells where
  rows : NatMap (List Int) := []
  /-- Per row programmed: the true age clock of its cluster and the junction temperature at the end of its last pulse (02.R54). -/
  prog : NatMap (Nat × Int) := []
  deriving DecidableEq, Repr

/-- A write opening on a ply (02.R73): the class it was opened with and the rows written in it. -/
structure Opening where
  ply : Nat := 0
  w8 : Bool := false
  rows : List Nat := []
  deriving DecidableEq, Repr

/-- One engine (01.R16). -/
structure Engine where
  /-- 3 bits, 02.R47, R48: the selected ply. -/
  selected : Nat := 0
  /-- 3 bits, 08.R238: the ply of record. -/
  ofRecord : Nat := 0
  /-- Volatile map of open write openings (02.R73). -/
  openings : List Opening := []
  /-- Trims in the engine's trim memory, per ply (03.R86, 12.R336); none when it lost power (16.R416). -/
  trims : Vector (Option Trim) 8 := Vector.replicate 8 none
  /-- The active part of the analogue domain is powered (01.R34). -/
  active : Bool := false
  /-- The retained part is powered (01.R34). -/
  retained : Bool := true
  /-- Times (us) of check misses of the last 100 ms (20.R486). -/
  misses : List Nat := []
  /-- Consecutive completed measurements whose RF7 variance was reported (20.R486, 12.R332). -/
  rf7 : Nat := 0
  deriving DecidableEq, Repr

/-- A sample the core's reference tap holds (02.R68). -/
structure TapSample where
  /-- Integrated value in 1/128 partial units. -/
  y : Int := 0
  x : Nat := 0
  engine : Nat := 0
  ply : Nat := 0
  a4 : Bool := false
  col : Nat := 0
  deriving DecidableEq, Repr

/-- A core's reference tap (02.R68): the engine and column it points at (reset: E00, RF0, DESIGN CHOICE), the sample it
holds, and whether that sample has been converted since. -/
structure Tap where
  engine : Nat := 0
  col : Nat := 0
  sample : TapSample := {}
  stale : Bool := true
  deriving DecidableEq, Repr

/-- A Mill table (06.R176): 256 bases and slopes and the domain, FP32. -/
structure Table where
  base : List W32 := []
  slope : List W32 := []
  lo : W32 := 0
  hi : W32 := 0
  deriving DecidableEq, Repr

/-- One Mill accumulator entry: 32 bits, INT32 value or FP32 bits, and SAT (06.R158). -/
structure MillEntry where
  val : Int := 0
  sat : Bool := false
  deriving DecidableEq, Repr

/-- The Mill (06.R158). -/
structure Mill where
  acc : NatMap MillEntry := []
  /-- 128 row-sum entries of 64 bits. -/
  rowSum : NatMap Int := []
  /-- Integer zero-point corrections carried by the chain: sum of the products' correction terms per entry (05.R147). -/
  corr : NatMap Int := []
  chain : Bool := false
  mode : MatMode := .int
  /-- Table store: 4 tables, empty until a LOAD (06.R176). -/
  tables : Vector (Option Table) 4 := Vector.replicate 4 none
  deriving DecidableEq, Repr

/-- One QSTAT entry (05.R151, R157). -/
structure QStat where
  /-- FP32, QZ_QSn_ERR. -/
  err : W32 := 0
  /-- 32 bits, QZ_QSn_CNT. -/
  cnt : Nat := 0
  /-- 32 bits, QZ_QSn_CLIP. -/
  clip : Nat := 0
  /-- FP32, QZ_QSn_REF. -/
  ref : W32 := 0
  /-- QZ_QSn_CFG[31]. -/
  en : Bool := false
  /-- QZ_QSn_CFG[23:16], signed. -/
  adapt : Int := 0
  /-- QZ_QSn_CFG[15:8]. -/
  hi : Nat := 32
  /-- QZ_QSn_CFG[7:0]. -/
  clipf : Nat := 8
  deriving DecidableEq, Repr

/-- The QZ_ block of a core (05.R157). -/
structure Quant where
  /-- QZ_CTRL[2]. -/
  satPolicy : Bool := false
  /-- QZ_CTRL[1:0]. -/
  retryMax : Nat := 2
  /-- QZ_TAG[7:0]. -/
  seed : Nat := 0
  /-- QZ_SKEW_AT[58:32]. -/
  skewBlock : Nat := 0
  /-- QZ_SKEW_AT[15:8]. -/
  skewScaleTag : Nat := 0
  /-- QZ_SKEW_AT[7:0]. -/
  skewDataTag : Nat := 0
  /-- QZ_RSn: (MULT 31 bits, SHIFT 6 bits). -/
  rs : Vector (Nat × Nat) 8 := Vector.replicate 8 (0, 0)
  /-- QZ_QSn. -/
  qs : Vector QStat 16 := Vector.replicate 16 {}
  deriving DecidableEq, Repr

/-- An open stream (07.R212, 08.R233). -/
structure Stream where
  /-- DIR: true for out. -/
  out : Bool := false
  mover : Nat := 0
  mem : TD := {}
  slot : TD := {}
  slots : Nat := 2
  dist : Nat := 1
  /-- Tiles moved so far. -/
  moved : Nat := 0
  /-- Tiles the stream visits in all (09.R264). -/
  tiles : Nat := 0
  /-- Full slots, oldest first: the tile index each holds. -/
  full : List Nat := []
  /-- The oldest full slots that an instruction in flight reads. -/
  busy : Nat := 0
  closed : Bool := false
  /-- Index of the MOVE.STREAM, for the faults of its transfers (07.R218). -/
  pc : Nat := 0
  deriving DecidableEq, Repr

/-- A CAL.CORE that waits for the core's job boundary or idle period (12.R339, 08 CAL.CORE). -/
structure CalCore where
  verify : Bool := false
  emask : Nat := 0
  ply : Nat := 0
  /-- Where the results go; Assay's own work writes none. -/
  tdd : TD := {}
  rep : Nat := 64
  /-- Index and opcode of the CAL.CORE, for its faults (07.R218). -/
  pc : Nat := 0
  opcode : Nat := 0xC060
  deriving DecidableEq, Repr

/-- A core (01.R16). -/
structure Core where
  seq : Seqr := {}
  /-- Fenced by the management command FENCE (18.R462, 20.R492): the core's bit of MG_FENCED (18.R463). -/
  fencedMg : Bool := false
  /-- Fenced by the fencing logic (20.R489, R492). -/
  fencedLogic : Bool := false
  engines : Vector Engine 16 := Vector.replicate 16 {}
  /-- Loom queue, at most 8 (07.R208). -/
  loomQ : List LoomInstr := []
  /-- Plane accumulator entries (03.R90): 8,192, zero when not listed. -/
  acc : NatMap AccEntry := []
  /-- CHAIN (03.R90). -/
  chain : Bool := false
  /-- KIND: true for MVMT. -/
  chainT : Bool := false
  /-- CLASS: true for W8. -/
  chainW8 : Bool := false
  /-- K20. -/
  chainK20 : Bool := false
  /-- 3 bits, PSHIFT. -/
  pshift : Nat := 0
  /-- Zero-point accumulator: 8,192 signed 48-bit entries in units 2^-8 (05.R144). -/
  zsum : NatMap Int := []
  mill : Mill := {}
  qz : Quant := {}
  /-- QSTAT totals of the instruction being executed, by entry (05.R151); empty between commands. -/
  qzEnd : List (Nat × QTotals) := []
  streams : Vector (Option Stream) 8 := Vector.replicate 8 none
  tap : Tap := {}
  /-- Pending trim records, by ply (12.R339, R344). -/
  pending : NatMap Trim := []
  /-- Marked for application by CAL.APPLY (12.R339). -/
  applyMark : Bool := false
  /-- CAL.CORE work scheduled (12.R333). -/
  calCore : List CalCore := []
  /-- PC_SEL[7:0] (21.R517). -/
  pcSel : Nat := 0
  /-- PC_QUALq (21.R517). -/
  pcQual : Vector Nat 10 := Vector.ofFn (fun i => if i.val < 6 then 0 else 127)
  /-- Core event counters, 48 bits each (21.R503, R509), zero when not listed. -/
  events : NatMap Nat := []
  /-- Last counter value read and its time, for 17.R449 (21.R515). -/
  lastRead : Option (Nat × Nat) := none
  /-- Completions counted by the Ledger (21.R513). -/
  retired : Nat := 0
  /-- Times (us) of corrected errors of the last hour (20.R486). -/
  corrected : List Nat := []
  /-- Submission slot of the job the core runs (15.R395). -/
  job : Option Nat := none
  /-- Rank of the core in the job's set (15.R398). -/
  rank : Nat := 0
  /-- The job's FLAGS.PC_ACCESS (14.R383, 21.R506). -/
  pcAccess : Bool := false
  /-- The loader or a remap programs on the core and no job may start (12.R346, 20.R496). -/
  service : Bool := false
  /-- An UNFENCE has named the core, which the logic fenced; it returns when the self-test passes (20.R492). -/
  returning : Bool := false
  /-- The core's logic has lost power and not been restored (16.R416). -/
  gated : Bool := false
  deriving DecidableEq, Repr

/-! ### Clusters -/

/-- A sync counter (07.R213). -/
structure Counter where
  /-- 32 bits. -/
  value : Nat := 0
  /-- 16 bits. -/
  epoch : Nat := 0
  deriving DecidableEq, Repr

/-- A cluster's Tally and its TL_ registers (09.R256, R261). -/
structure Tally where
  /-- TL_OWNER: VALID and JOB. -/
  owner : Option Nat := none
  /-- TL_OWNER.JOB while VALID is 0. -/
  oldJob : Nat := 0
  open_ : Bool := false
  /-- 16 bits. -/
  opnum : Nat := 0
  /-- 17 bits. -/
  count : Nat := 0
  /-- 17 bits. -/
  next : Nat := 0
  /-- 17 bits. -/
  ndone : Nat := 0
  /-- Done map: the indices whose bit is 1, rising. -/
  map : NatMap Bool := []
  /-- 16 bits, TL_STAT[31:16]. -/
  resets : Nat := 0
  /-- 16 bits, TL_STAT[15:0]. -/
  dups : Nat := 0
  deriving DecidableEq, Repr

/-- A cluster (01.R16). -/
structure Cluster where
  /-- 8,192 sync counters, zero when not listed. -/
  counters : NatMap Counter := []
  tally : Tally := {}
  /-- Cache locations (set, way) disabled until PORST_N (20.R488). -/
  disabled : List (Nat × Nat) := []
  /-- The cluster cache: per set the lines it holds, as way and Warehouse granule, most recently used first (10.R280). -/
  lines : NatMap (List (Nat × Nat)) := []
  deriving DecidableEq, Repr

/-! ### Shape table, REFCLK, fuses -/

/-- A change of the shape table that waits behind an open update (01.R21). -/
inductive ShapeChange where
  | cores (clear set : W64)
  | links (clear set : BitVec 4)
  | cap (v : Nat)
  | fabric (links : BitVec 4) (id : Nat)
  | coresLinks (clear set : W64) (lclear lset : BitVec 4)
  deriving DecidableEq, Repr

/-- The fields of the shape table that change (01.R20); CORE_COUNT and CLUSTER_MAP follow CORE_MAP. -/
structure Shape where
  /-- 32 bits, SHAPE_GEN. -/
  gen : W32 := 0
  /-- 64 bits, CORE_MAP. -/
  coreMap : W64 := 0xFFFFFFFFFFFFFFFF
  /-- 4 bits, LINK_MAP. -/
  linkMap : BitVec 4 := 0
  /-- 16 bits, ACT_CAP. -/
  actCap : Nat := 128
  /-- 3 bits, FABRIC_ID. -/
  fabricId : Nat := 0
  /-- Changes waiting, oldest first (01.R21). -/
  changes : List ShapeChange := []
  deriving DecidableEq, Repr

/-- Fuses (00.R2, 17.R425, R426, R430). Reset: an unfenced KX4816-P0, DESIGN CHOICE. -/
structure Fuses where
  /-- 8 bits, ORDER_ID. -/
  orderId : Nat := 1
  /-- 16 bits, ACT_CAP_MAX. -/
  actCapMax : Nat := 256
  /-- 16 bits, POWER_LIMIT_FUSED, 0.1 W. -/
  powerLimit : Nat := 160
  /-- 8 bits. -/
  rev : Byte := Config.dieRev
  /-- 64 bits. -/
  serial : W64 := Config.serial
  /-- 64 bits, the FUSE_SVN thermometer: bit i is burned (17.R426, R430). -/
  svnBits : W64 := 0
  /-- 4 bits, key revoke. -/
  revoke : BitVec 4 := 0
  /-- PERM_DEBUG_OFF. -/
  debugOff : Bool := false
  deriving DecidableEq, Repr

/-- REFCLK as the Counting House sees it (01.R32). -/
structure Refclk where
  present : Bool := true
  /-- REFCLK_LOST has been raised for this absence. -/
  lost : Bool := false
  /-- The delay lines have locked and integration may start. -/
  locked : Bool := true
  deriving DecidableEq, Repr

/-! ### Host port -/

/-- HP_STATUS.STATE (14.R394). -/
inductive PortState where
  | boot
  | ready
  | scrubbing
  | updating
  | halted
  deriving DecidableEq, Repr

/-- One LPDDR channel (14.R364 to R369). -/
structure ChanState where
  /-- Row active in each bank, none when no row is active. -/
  rows : Vector (Option Nat) 16 := Vector.replicate 16 none
  /-- Mode registers written, 8 bits each, under 128 times their set point and their address; others read the standard's reset
  value (Config.mrReset). -/
  mr : NatMap Byte := []
  selfRefresh : Bool := false
  powerDown : Bool := false
  /-- Training procedures done since reset (14.R366): command bus, WCK2CK, read DQ, write DQ, ZQ. -/
  trained : BitVec 5 := 0
  /-- WCK-DQ FIFO contents of write DQ training (14.R366). -/
  fifo : List Byte := []
  deriving DecidableEq, Repr

/-- An open write frame (14.R373, R374): its page (host offset of its first byte), the bytes written so far, and in
confidential mode the header bytes (17.R444). -/
structure Frame where
  ch : Chan := .a
  page : Nat := 0
  bytes : NatMap (Option Byte) := []
  header : NatMap (Option Byte) := []
  draining : Bool := false
  /-- Its drain waits for state A (16.R419). -/
  due : Bool := false
  deriving DecidableEq, Repr

/-- A staged page (14.R378, R379, 17.R445, R446). -/
structure Staged where
  ch : Chan := .a
  page : Nat := 0
  copied : Bool := false
  data : Memory := []
  /-- Confidential header of the copy: CTR_EP and TAG, 24 bytes (17.R441). -/
  header : List Byte := []
  /-- Epoch it was staged under, while its session lives (17.R446). -/
  epoch : Option Nat := none
  /-- Its epoch was retired or its session ended (17.R446). -/
  dead : Bool := false
  deriving DecidableEq, Repr

/-- A request of the staging queue (14.R378, R380). -/
inductive StageReq where
  | host (unstage : Bool) (pages : Nat) (ch : Chan) (addr : Nat) (seqNo : Nat)
  | move (q : SeqId) (uid : Nat) (td : TD) (mover : Nat)
  deriving DecidableEq, Repr

/-- A finished request's completion (14.R385). -/
structure Completion where
  kind : Nat := 0
  slot : Nat := 0
  tag : W32 := 0
  status : Nat := 0
  gen : Nat := 0
  mask : Nat := 0
  d0 : Nat := 0
  d1 : Nat := 0
  d2 : Nat := 0
  irq : Bool := false
  /-- Posting it frees the slot; a RESEND notice does not. -/
  frees : Bool := true
  deriving DecidableEq, Repr

/-- The host port's registers, rings and staging (14). -/
structure Port where
  /-- HP_STATUS.STATE. -/
  state : PortState := .boot
  /-- HP_STATUS.IDLE. -/
  idle : Bool := false
  /-- An ordering point's drains wait for state A (14.R375, 16.R419). -/
  pointWaits : Bool := false
  /-- A self-refresh entry waits for its ordering point before it makes the host idle (14.R375, R390). -/
  idleNext : Bool := false
  /-- HP_STATUS.HOST_LOST. -/
  hostLost : Bool := false
  /-- HP_STATUS.PROTO. -/
  proto : Bool := false
  /-- HP_STATUS.DROP. -/
  drop : Bool := false
  /-- HP_STATUS.MISS. -/
  miss : Bool := false
  /-- 32 bits, HP_MISS_ADDR. -/
  missAddr : Nat := 0
  /-- 32 bits, HP_DROP_ADDR. -/
  dropAddr : Nat := 0
  /-- 32 bits, HP_REF_CNT. -/
  refCnt : W32 := 0
  /-- 8 bits, HP_LIVE.TIMEOUT. -/
  live : Nat := 16
  /-- 8 bits, HP_IRQ_STATUS. -/
  irqStatus : BitVec 8 := 0
  /-- 8 bits, HP_IRQ_ENABLE. -/
  irqEnable : BitVec 8 := 0
  /-- 16 bits, HP_IRQ_MOD.TIME. -/
  modTime : Nat := 0
  /-- 16 bits, HP_IRQ_MOD.COUNT. -/
  modCount : Nat := 1
  /-- 32 bits, HP_LATENCY_BUDGET. -/
  budget : Nat := 0
  /-- HP_RING_CFG.SQ_LOG. -/
  sqLog : Nat := 12
  /-- HP_RING_CFG.CQ_LOG. -/
  cqLog : Nat := 12
  /-- Last submission tail written (HP_DB_SQ). -/
  sqTail : Nat := 0
  /-- 12 bits, HP_SQ_HEAD. -/
  sqHead : Nat := 0
  /-- A doorbell recorded while nothing is accepted (14.R382, 16.R415). -/
  recorded : Option Nat := none
  /-- 12 bits, HP_CQ_HEAD. -/
  cqHead : Nat := 0
  /-- 12 bits, HP_CQ_TAIL. -/
  cqTail : Nat := 0
  /-- HP_CQ_TAIL.PHASE. -/
  cqPhase : Bool := true
  /-- Posted entries not yet read: (index, counts toward CQ, is a RESEND notice). -/
  unread : List (Nat × Bool × Bool) := []
  /-- The oldest unread entry has stood for TIME us (14.R388). -/
  aged : Bool := false
  /-- 10 bits, HP_APA_BASE.BASE. -/
  apaBase : Nat := 0
  /-- 10 bits, HP_APB_BASE.BASE. -/
  apbBase : Nat := 0x80
  /-- Bases written that wait for their frames to drain (14.R379). -/
  apaNext : Option Nat := none
  apbNext : Option Nat := none
  /-- 6 bits, HP_WH_SPLIT.SPLIT. -/
  split : Nat := 32
  /-- 11 bits, HP_POOL.WRITE_FRAMES. -/
  pool : Nat := 256
  /-- A value written to HP_POOL that waits until no frame is open. -/
  poolNext : Option Nat := none
  /-- HP_STAGE_STAT.RESULT. -/
  stageResult : Nat := 0
  /-- HP_STAGE_STAT.SEQ. -/
  stageSeq : Nat := 0
  /-- HP_STAGE_STAT as the host reads it in confidential mode: RESULT, SEQ and QUEUED (17.R449). -/
  stageShown : Nat × Nat × Nat := (0, 0, 0)
  /-- HP_CQ_TAIL and PHASE as the host reads them in confidential mode (17.R449). -/
  tailShown : Nat × Bool := (0, true)
  /-- Staging queue, at most 16 (14.R378), and whether its head has started. -/
  stageQ : List StageReq := []
  stageBusy : Bool := false
  /-- Write frames, oldest first (14.R373). -/
  frames : List Frame := []
  /-- A frame of the port buffer has held data since the buffer was last zeroed: what its frames' bytes read as is then open
  (10.R279, 14.R372). -/
  framesUsed : Bool := false
  /-- Staged pages (14.R379). -/
  staged : List Staged := []
  chanA : ChanState := {}
  chanB : ChanState := {}
  /-- Finished requests not yet posted, oldest first (14.R387). -/
  finished : List Completion := []
  /-- Completions posted that take effect at the next 1 us tick (17.R449). -/
  deferred : List Completion := []
  /-- Slots in use (14.R382). -/
  inUse : List Nat := []
  /-- DEV_IRQ_N is driven low (14.R388). -/
  irqPin : Bool := false
  deriving DecidableEq, Repr

/-! ### Jobs -/

/-- Where a request stands (15.R399). -/
inductive JobState where
  | waiting
  | running
  | ending
  deriving DecidableEq, Repr

/-- A pipeline in progress (15.R404 to R407). -/
structure Pipe where
  /-- Stage records as read. -/
  record : List Byte := []
  stages : Nat := 1
  stage : Nat := 0
  /-- Runs of the present stage begun. -/
  runs : Nat := 0
  /-- The last stage that was run, and its runs then (15.R407). -/
  lastStage : Nat := 0
  lastRuns : Nat := 0
  retried : Bool := false
  gen : Nat := 0
  mask : Nat := 0
  deriving DecidableEq, Repr

/-- A JOB from acceptance to its boundary (15). -/
structure Job where
  slot : Nat := 0
  irq : Bool := false
  pcAccess : Bool := false
  ordered : Bool := false
  /-- MSLOT of the entry, or of the pipeline stage being run. -/
  mslot : Nat := 255
  nbind : Nat := 0
  tag : W32 := 0
  arg0 : Nat := 0
  arg1 : Nat := 0
  almask : Nat := 0
  al : List W32 := []
  st : JobState := .waiting
  /-- Acceptance number. -/
  seqNo : Nat := 0
  /-- Core set by rank: (number it counts with, core). -/
  cores : List (Nat × Nat) := []
  gen : Nat := 0
  mask : Nat := 0
  status : Option Nat := none
  d0 : Nat := 0
  d1 : Nat := 0
  /-- This run is a retry (20.R493). -/
  retry : Bool := false
  /-- The core whose fence struck the job (20.R491). -/
  struck : Option Nat := none
  lastFenced : Nat := 0
  pipe : Option Pipe := none
  /-- Home device of a companion job, with the image it brought (19.R480). -/
  home : Option Nat := none
  image : List Byte := []
  /-- Bind table a companion job brought. -/
  binds : List W64 := []
  /-- Peer devices whose companion job has not ended (19.R480). -/
  companions : List Nat := []
  /-- Completions of the CANCELs that act on the job, posted after its own (15.R403). -/
  cancels : List Completion := []
  /-- AL0 to AL7 and CMP as they stood on the core of rank 0 at its JOIN with END (15.R406). -/
  joinAl : List W32 := []
  joinCmp : Bool := false
  /-- A counter request, which waits in the order with an empty core set (21.R511). -/
  counter : Bool := false
  deriving DecidableEq, Repr

/-! ### Models and loads -/

/-- STATE of a model slot (11.R287). -/
inductive ModelState where
  | empty
  | resident
  | dormant
  | failed
  deriving DecidableEq, Repr

/-- One chunk's place in a model: layer, ROW0, COL0, ply, class, unit (11.R319). -/
structure ChunkPlace where
  layer : Nat := 0
  row0 : Nat := 0
  col0 : Nat := 0
  ply : Nat := 0
  w8 : Bool := false
  unit : Nat := 0
  deriving DecidableEq, Repr

/-- A model slot (11.R286, R287). -/
structure Model where
  st : ModelState := .empty
  /-- 64 bytes. -/
  digest : List Byte := []
  /-- 16 bytes. -/
  modelId : List Byte := []
  /-- 32 bits. -/
  ver : Nat := 0
  /-- 32 bits, GEN. -/
  gen : W32 := 0
  shards : Nat := 1
  /-- Shard digests of resident shards (11.R295). -/
  shardDigests : List (List Byte) := []
  /-- Tensor table: descriptors of the digital tensors (11.R308), each with its layer. -/
  tensors : List (Nat × TD) := []
  places : List ChunkPlace := []
  /-- Pairs of fenced core and stand-in (20.R497), at most 16. -/
  pairs : List (Nat × Nat) := []
  /-- Stand-ins whose positions are digital (20.R498). -/
  digital : List Nat := []
  /-- Serials of the shard holders (19.R480). -/
  holders : List W64 := []
  /-- Holders that have been lost and have not since reported the slot RESIDENT with the digest and GEN held at the loss;
  with `true`, for good: the report differed (19.R482). -/
  awaits : List (W64 × Bool) := []
  /-- A swap barrier holds the slot's jobs (11.R318). -/
  barrier : Bool := false
  /-- Swap mask while a swap is in progress (11.R320). -/
  swapMask : Nat := 0
  /-- UNLOADs that wait for the slot's dispatched jobs (11.R324): their completions. -/
  unload : List Completion := []
  /-- Fenced cores whose plies a remap has still to move, in order (20.R495). -/
  remaps : List Nat := []
  /-- The remap under way: the fenced core and its destination (20.R495, R496). -/
  remapTo : Option (Nat × Nat) := none
  deriving DecidableEq, Repr

/-- A ply record (02.R76) with the ply's residency entry (11.R287). -/
structure PlyRec where
  /-- CLASS: true for W8. -/
  w8 : Bool := false
  written : Bool := false
  retired : Bool := false
  /-- 4 bits. -/
  chkEn : BitVec 4 := 0
  chkA : Nat := 80
  chkB : Nat := 80
  /-- 32 bits, PROG_COUNT. -/
  progCount : Nat := 0
  /-- 32 bits, PROG_AGE. -/
  progAge : Nat := 0
  /-- 16 bits, NU_MEAN. -/
  nuMean : Nat := 350
  /-- Residency: OWNED with the slot, and the swap unit. -/
  owner : Option Nat := none
  unit : Nat := 0
  deriving DecidableEq, Repr

/-- A chunk record of a manifest (11.R292). -/
structure ChunkRec where
  digest : List Byte := []
  offset : Nat := 0
  length : Nat := 0
  shard : Nat := 0
  kind : Nat := 0
  layer : Nat := 0
  row0 : Nat := 0
  col0 : Nat := 0
  rows : Nat := 0
  cols : Nat := 0
  deriving DecidableEq, Repr

/-- A layer record of a manifest (11.R291). -/
structure LayerRec where
  layerId : Nat := 0
  target : Nat := 0
  srcFmt : Nat := 0
  k : Nat := 0
  n : Nat := 0
  escT : W32 := 0
  unit : Nat := 0
  deriving DecidableEq, Repr

/-- A manifest as parsed (11.R290). -/
structure Manifest where
  mixable : Bool := false
  modelId : List Byte := []
  ver : Nat := 0
  shards : Nat := 1
  len : Nat := 0
  pkgLen : Nat := 0
  signer : List Byte := []
  layers : List LayerRec := []
  chunks : List ChunkRec := []
  digest : List Byte := []
  deriving DecidableEq, Repr

/-- Progress of one chunk (11.R301 to R303). -/
structure ChunkState where
  staged : Bool := false
  verified : Bool := false
  failures : Nat := 0
  overdue : Bool := false
  converted : Bool := false
  /-- Every device pulling it has verified its copy. -/
  pulled : Bool := false
  deriving DecidableEq, Repr

/-- One entry of a placement map (11.R298). -/
structure Placement where
  chunk : Nat := 0
  device : Nat := 0
  engine : Nat := 0
  ply : Nat := 0
  deriving DecidableEq, Repr

/-- A ply directory entry (11.R309). -/
structure DirEntry where
  valid : Bool := false
  bundle : Nat := 0
  sideCount : Nat := 0
  outs : Nat := 0
  rows : Nat := 0
  slot : Nat := 0
  unit : Nat := 0
  layerId : Nat := 0
  deriving DecidableEq, Repr

/-- A LOAD or RESTORE in progress (11.R296 to R326). -/
structure LoadReq where
  done : Completion := {}
  mslot : Nat := 0
  restore : Bool := false
  /-- This device is the intake device; otherwise a holder announced to. -/
  intake : Bool := true
  pkgLen : Nat := 0
  map : List Placement := []
  manifest : Option Manifest := none
  manifestFails : Nat := 0
  /-- The manifest is overdue (11.R302). -/
  manifestOverdue : Bool := false
  /-- The device that runs the intake, on a holder (11.R305). -/
  intakeId : Nat := 0
  /-- Where the staging heap stands in the Warehouse, on the intake device (11.R300, 14.R371). -/
  heapAt : Option Nat := none
  /-- The package as it has been taken in, by package offset (11.R300). -/
  heap : Memory := []
  /-- Written bits, one per granule of the package (11.R300). -/
  written : List Nat := []
  /-- One past the highest package byte written (11.R303). -/
  top : Nat := 0
  chunks : List ChunkState := []
  /-- Chunks staged and not yet checked, in staging order (11.R304); the manifest is `none`. -/
  toCheck : List (Option Nat) := []
  /-- Converted plies with the directory entry they will take. -/
  entries : List (Nat × DirEntry) := []
  tensors : List (Nat × TD) := []
  /-- Plies whose R315 steps have completed for the new model. -/
  programmed : List Nat := []
  clipped : Nat := 0
  sideTotal : Nat := 0
  outTol : Nat := 0
  reprogrammed : Nat := 0
  admitted : Bool := false
  /-- Old directory entries of swapped plies and their weight classes (W8 is true), newest first, for a rollback (11.R321). -/
  old : List (Nat × DirEntry × Bool) := []
  /-- The slot's tensor table at admission, for a rollback. -/
  oldTensors : List (Nat × TD) := []
  /-- Units already swapped (11.R319). -/
  unitsDone : List Nat := []
  deriving DecidableEq, Repr

/-! ### Assay and the monitor converters -/

/-- A calibration record (12.R347) with the full-run and trigger state of its ply. -/
structure CalRec where
  gp : Nat := 0
  gn : Nat := 0
  off : Int := 0
  tM : Int := 0
  ageM : W32 := 0
  spread : Nat := 0
  valid : Bool := false
  full : Bool := false
  due : Bool := false
  deriving DecidableEq, Repr

/-- An accepted sample (12.R331): its reference column, X, the value in 1/128 partial units, T_k in 0.01 degrees C, its width,
and the ply's age in clock units. -/
structure MeasSample where
  age : Nat := 0
  col : Nat := 0
  x : Nat := 0
  y : Int := 0
  t : Int := 0
  a4 : Bool := false
  deriving DecidableEq, Repr

/-- A measurement in progress (12.R331): its accepted samples and T_k at its start. -/
structure LightMeas where
  active : Bool := false
  samples : List MeasSample := []
  t0 : Int := 0
  deriving DecidableEq, Repr

/-- Work Assay has to do for a ply (12.R342). -/
structure AssayPly where
  cal : CalRec := {}
  meas : LightMeas := {}
  fullRun : Bool := false
  ageEstimate : Bool := false
  /-- Full-resolution clock value at the end of the last PROG (12.R330). -/
  progClock : Option Nat := none
  /-- Age at the last application of its trims, in clock units (12.R341). -/
  appliedAge : Nat := 0
  /-- The AGE, FULL and TEMP conditions hold and have started their work (12.R342). -/
  firedAge : Bool := false
  firedFull : Bool := false
  firedTemp : Bool := false
  /-- The ply's calibration record was lost: it serves no job before its light measurement and full run (12.R342 STORE). -/
  storeLost : Bool := false
  /-- The values below are those of a full run, not of the initial trim (12.R334). -/
  fullDone : Bool := false
  /-- Age at the last full run or initial trim, FP32 seconds, its raw gain, and its temperature (12.R334, R342). -/
  fullAge : W32 := 0
  fullG : W32 := 0
  fullT : Int := 0
  /-- Column trims fitted by a full run whose light measurement has not completed (12.R333). -/
  cols : Option (NatMap (Int × Int)) := none
  /-- A column trim is at its limit (12.R335). -/
  limit : Bool := false
  /-- The age estimated after VDD_AON was absent, in age clock units (12.R343). -/
  estimate : Option Nat := none
  /-- The ply has been due for ANNEAL_WAIT: its re-anneal comes before the core's next job (12.R346). -/
  overdue : Bool := false
  deriving DecidableEq, Repr

/-- Assay's registers and clocks (12.R350). -/
structure Assay where
  /-- AS_CTRL.EN. -/
  en : Bool := true
  /-- FORCE or other triggers held while EN is 0 (12.R350): the plies and whether a full run. -/
  held : List (Nat × Bool) := []
  /-- AS_STATUS.STORE_BAD. -/
  storeBad : Bool := false
  /-- AS_STATUS.AGE_LOST. -/
  ageLost : Bool := false
  /-- AS_LIMITS.AGE_LIMIT. -/
  ageLimit : Nat := 76
  /-- AS_LIMITS.TEMP_DELTA. -/
  tempDelta : Nat := 16
  /-- AS_LIMITS2.ANNEAL_WAIT. -/
  annealWait : Nat := 60
  /-- AS_LIMITS2.ANNEAL_LIMIT. -/
  annealLimit : Nat := 40
  /-- AS_LIMITS2.FULL_LIMIT. -/
  fullLimit : Nat := 1024
  /-- AS_SAMPLES.SAMPLE_WAIT. -/
  sampleWait : Nat := 2000
  /-- AS_SAMPLES.MIN_SAMPLES. -/
  minSamples : Nat := 64
  /-- 32 bits, AS_EPOCH. -/
  epoch : W32 := 0
  /-- AS_TEMPk: VALID and T_k in 0.01 degrees C. -/
  temp : Vector (Option Int) 8 := Vector.replicate 8 none
  /-- Temperature the age clock runs at: the last valid T_k (12.R329). Reset 45 degrees C, DESIGN CHOICE. -/
  rate : Vector Int 8 := Vector.replicate 8 4500
  /-- AS_AGEk, 64 bits each. -/
  age : Vector Nat 8 := Vector.replicate 8 0
  /-- What each clock carries below its unit, in 2^-64 of it (12.R329). -/
  frac : Vector Nat 8 := Vector.replicate 8 0
  /-- Calibration records and work per ply (12.R347). -/
  plies : NatMap AssayPly := []
  /-- Calibration-store records whose stored copy fails its check word (12.R349). -/
  badRecords : List Nat := []
  /-- Records written with CAL.REC whose content the device has not rewritten since: the payload, and the payload that the
  device's own state gave the record then (12.R347, R348). -/
  stored : NatMap (List Byte × List Byte) := []
  /-- The header as it stands in the calibration store: version, AS_EPOCH, AS_AGE0 to AS_AGE7 (12.R347, R348). -/
  hdrVersion : Nat := 0
  hdrEpoch : W32 := 0
  hdrAge : Vector Nat 8 := Vector.replicate 8 0
  deriving DecidableEq, Repr

/-- A sequence entry AS_SEQn (13.R363). -/
structure MonEntry where
  filt : Nat := 0
  gain : Nat := 0
  source : Nat := 127
  /-- Conversions of the entry that will still carry VALID = 0 (13.R359). -/
  invalid : Nat := 1
  deriving DecidableEq, Repr

/-- A result register AS_RESn (13.R357). -/
structure MonResult where
  pass : Nat := 0
  x : Nat := 0
  engine : Nat := 0
  a4 : Bool := false
  ply : Nat := 0
  source : Nat := 127
  clip : Bool := false
  stale : Bool := false
  fresh : Bool := false
  valid : Bool := false
  /-- Signed for taps, unsigned otherwise; 12 bits. -/
  code : Int := 0
  deriving DecidableEq, Repr

/-- A conversion in progress: the entry, its source, and whether CAL.SEQ has discarded it (13.R360). -/
structure Converting where
  entry : Nat := 0
  source : Nat := 127
  gain : Nat := 0
  sample : TapSample := {}
  stale : Bool := false
  discard : Bool := false
  /-- The result register that it is written to, and whether its result is VALID, as they stood at its start (13.R356, R359). -/
  reg : Nat := 0
  valid : Bool := true
  deriving DecidableEq, Repr

/-- AM0, AM1 and their sequencer (13). Entry n names T00 + n for n < 24 and V(n - 24) above (13.R363). -/
structure Monitor where
  powered : Bool := true
  /-- AS_MCTRL.LAST. -/
  last : Nat := 31
  /-- AS_MCTRL.ILV. -/
  ilv : Bool := false
  /-- AS_MCTRL.CONT. -/
  cont : Bool := true
  /-- AS_MSTAT.PASS, 14 bits. -/
  pass : Nat := 0
  /-- AS_MSTAT.CLIP. -/
  clip : Bool := false
  /-- AS_MSTAT.PENDING. -/
  pending : Bool := false
  /-- AS_MSTAT.RUN. -/
  run : Bool := false
  /-- Next entry to deal in the pass, or in interleaved operation the next conversion (13.R355, R356). -/
  next : Nat := 0
  /-- Conversions in progress on AM0 and AM1. -/
  am0 : Option Converting := none
  am1 : Option Converting := none
  entries : Vector MonEntry 32 :=
    Vector.ofFn (fun i => { source := if i.val < 24 then 64 + i.val else 88 + (i.val - 24) })
  results : Vector MonResult 32 := Vector.replicate 32 {}
  /-- Latest valid reading of each source 64 to 95 (13.R362), none while invalid. -/
  latest : Vector (Option Nat) 96 := Vector.replicate 96 none
  deriving DecidableEq, Repr

/-! ### Power -/

/-- Power states (16.R416): 0 A, 1 to 4 G1 to G4. The PW_ registers of 16.R422. -/
structure Power where
  /-- PW_PROFILE.G4_EN. -/
  g4En : Bool := false
  /-- PW_PROFILE.BURST_EN. -/
  burstEn : Bool := false
  /-- PW_PROFILE.PROFILE: true for P. -/
  profileP : Bool := false
  /-- PW_CEIL.PROG_BUDGET. -/
  progBudget : Nat := 64
  /-- PW_CEIL.SHORT, 0.1 W. -/
  short : Nat := 60
  /-- PW_CEIL.SUSTAIN, 0.1 W. -/
  sustain : Nat := 35
  /-- PW_CAP.CAP. -/
  cap : Nat := 128
  /-- PW_CAP.CAP_EFF. -/
  capEff : Nat := 128
  /-- PW_WH.WH_CEIL, 0.4 GB/s. -/
  whCeil : Nat := 250
  /-- PW_WH.WH_EFF. -/
  whEff : Nat := 250
  /-- PW_VDDC.SET, 5 mV. -/
  vddcSet : Nat := 144
  /-- PW_VDDC.MAX. -/
  vddcMax : Nat := 170
  /-- PW_VDDC.MIN. -/
  vddcMin : Nat := 100
  /-- PW_EST.P1S, mW. -/
  p1s : Nat := 0
  /-- The last estimates, newest first, mW: those of 100 us (16.R411). -/
  estimates : List Nat := []
  /-- The exponential average behind P1S, in units of 10^-5 mW (16.R411). -/
  avg : Nat := 0
  /-- PW_EST.P100, mW. -/
  p100 : Nat := 0
  /-- PW_BURST.CREDIT in units of 10 us of credit times 4 (16.R414): 2,000 ms. -/
  credit : Nat := 800000
  /-- PW_STATE.WAKES. -/
  wakes : Nat := 0
  /-- PW_STATE.CUR. -/
  cur : Nat := 0
  /-- State being entered (16.R418). -/
  entering : Option Nat := none
  /-- The return to A is under way (16.R419). -/
  waking : Bool := false
  /-- PW_FORCE.EN. -/
  forceEn : Bool := false
  /-- PW_FORCE.STATE. -/
  forceState : Nat := 0
  /-- PW_THERM.TRIP, degrees C. -/
  tTrip : Nat := 110
  /-- PW_THERM.THROTTLE. -/
  tThrottle : Nat := 102
  /-- PW_THERM.ALERT. -/
  tAlert : Nat := 95
  /-- PW_THERM.TRIPPED. -/
  tripped : Bool := false
  /-- PW_THERM.THROTTLING. -/
  throttling : Bool := false
  /-- PW_THERM.ALERTING: THERM_ALERT_N is driven low. -/
  alerting : Bool := false
  /-- The device is in TRIP (16.R415). -/
  inTrip : Bool := false
  deriving DecidableEq, Repr

/-- A request for integrating or programming engines (01.R27, 11.R314). -/
structure GrantReq where
  core : Nat := 0
  count : Nat := 0
  a4 : Bool := false
  /-- PROG_BUDGET when a programming grant was requested (16.R410). -/
  budget : Nat := 64
  deriving DecidableEq, Repr

/-! ### Security and management -/

/-- Types of key (17.R424). -/
inductive KeyType where
  | ed25519
  | x25519
  | aes256
  | hkdf
  deriving DecidableEq, Repr

/-- A key slot's content (08.R246). -/
structure Key where
  ty : KeyType := .aes256
  bytes : List Byte := []
  deriving DecidableEq, Repr

/-- The host session (17.R437 to R447). -/
structure Session where
  live : Bool := false
  /-- CH_RKCNT.N. -/
  rekeys : W32 := 0
  prevLive : Bool := false
  /-- Per epoch 0 to 3: HIGH, the accepted counters of its window, the device's staging counter. -/
  high : Vector Nat 4 := Vector.replicate 4 0
  accepted : Vector (List Nat) 4 := Vector.replicate 4 []
  devCtr : Vector Nat 4 := Vector.replicate 4 0
  deriving DecidableEq, Repr

/-- A signer table entry (17.R431): its key, and the MODEL_ID a PERSONAL entry is bound to. -/
structure Signer where
  key : List Byte := []
  modelId : List Byte := []
  deriving DecidableEq, Repr

/-- Debug port states (17.R452). -/
inductive DebugState where
  | locked
  | unlocked
  | disabled
  deriving DecidableEq, Repr

/-- A scrub in progress (17.R450, R451): the slots named with LOOMS, the mode it establishes, and the management command
whose response it carries. -/
structure Scrub where
  /-- Where the staging heap of the load that the scrub ended stands (17.R450). -/
  heap : Option Nat := none
  looms : Bool := false
  slots : Nat := 0
  mode : Option Bool := none
  unlock : Bool := false
  ctr : Nat := 0
  cmd : Nat := 0
  deriving DecidableEq, Repr

/-- One firmware bank of the house store (17.R423, R426, 18.R465): the images of kinds 1 to 3. The images of the inactive bank
are its staging areas: what has been staged so far. -/
structure Bank where
  images : Vector (List Byte) 3 := Vector.replicate 3 []
  deriving DecidableEq, Repr

/-- What a SESSION replaced, while its completion is not posted: its slot, the key and Seal of slot 1, and the bytes at OUT
(14.R393). -/
structure SessionUndo where
  slot : Nat := 0
  key : Option Key := none
  sealFor : Option Nat := none
  digest : List Byte := []
  out : Nat := 0
  bytes : List Byte := []
  deriving DecidableEq, Repr

/-- The Counting House (17). -/
structure House where
  /-- SESSIONs that a ROTATE_KEYS would undo. -/
  undo : List SessionUndo := []
  /-- 64 key slots (08.R246, 17.R424). Slot 0 holds the DIK. -/
  keys : Vector (Option Key) 64 :=
    (Vector.replicate 64 none).set 0 (some { ty := .ed25519 })
  /-- 16 SHA-512 contexts: the bytes absorbed (08 SEC.HASH). -/
  hash : Vector (List Byte) 16 := Vector.replicate 16 []
  conf : Bool := false
  debug : DebugState := .locked
  /-- Debug has been unlocked since PORST_N (17.R434 MODE.DEBUG). -/
  debugged : Bool := false
  /-- CH_STATE.CONSENT. -/
  consent : Bool := false
  scrub : Option Scrub := none
  session : Session := {}
  /-- SEAL_CTR of the Seal whose ephemeral key slot 1 holds, and that Seal's digest (17.R438, R439). -/
  sealFor : Option Nat := none
  sealDigest : List Byte := []
  /-- 64 bits, CH_SEAL_CTR, held in the house store. -/
  sealCtr : Nat := 0
  /-- CH_SECERR: CODE and COUNT. -/
  secCode : Nat := 0
  secCount : Nat := 0
  /-- Program digests recorded (17.R435), at most 64, and PROG_OVF. -/
  progs : List (List Byte) := []
  progOvf : Bool := false
  /-- Signer table, 16 entries (17.R431). -/
  signers : Vector (Option Signer) 16 :=
    Vector.ofFn (fun i => if i.val < 4 then (Config.vendorSigner i.val).map (fun k => { key := k }) else none)
  /-- Management principal key (18.R461). -/
  principal : Option (List Byte) := none
  /-- Active firmware bank (CH_FW.BANK). -/
  bank : Nat := 0
  banks : Vector Bank 2 := Vector.replicate 2
    { images := Vector.ofFn (fun i => Config.houseStoreAtManufacture i.val) }
  /-- VERSION of each KIND at the last successful commit (17.R428). -/
  versions : Vector Nat 3 := Vector.replicate 3 0
  /-- Draws made from the random source (the model's own counter of free values). -/
  draws : Nat := 0
  deriving DecidableEq, Repr

/-- A management request that passed its checks and executes until a condition holds (18.R460): its CTR, CMD and ARGS. -/
structure MgReq where
  ctr : Nat := 0
  cmd : Nat := 0
  args : List Byte := []
  deriving DecidableEq, Repr

/-- The management port (18). -/
structure Mgmt where
  /-- MG_DADDR: dynamic address. -/
  daddr : Option Nat := none
  /-- In-band interrupts enabled (ENEC). -/
  ibiEn : Bool := false
  /-- 64 bits, MG_CTR. -/
  ctr : Nat := 0
  /-- MG_STATUS.LOCKOUT. -/
  lockout : Bool := false
  /-- MG_SIGFAIL.TOTAL. -/
  failTotal : Nat := 0
  /-- MG_SIGFAIL.RUN. -/
  failRun : Nat := 0
  /-- The response posted (18.R458). -/
  response : Option (List Byte) := none
  /-- Event log: (ms since PORST_N, code), oldest first, at most 32 (18.R467). -/
  log : List (Nat × Nat) := []
  /-- EVT_LOST. -/
  lost : Nat := 0
  /-- Links cleared by FENCE (18.R462); the cores are those with `fencedMg`. -/
  fencedLinks : BitVec 4 := 0
  /-- The request that executes and has not been answered; a scrub carries its own (18.R459, R460). -/
  waiting : Option MgReq := none
  /-- SCRUB and SET_MODE requests accepted while a scrub runs, oldest first (17.R451). -/
  joined : List MgReq := []
  deriving DecidableEq, Repr

/-! ### Stitch fabric -/

/-- FB_LINKn.STATE (19.R484). -/
inductive LinkState where
  | down
  | train
  | auth
  | up
  | rekey
  | lowpower
  deriving DecidableEq, Repr

/-- A frame sent on a link: header and payload (19.R472). -/
structure StitchFrame where
  header : List Byte := []
  payload : List Byte := []
  deriving DecidableEq, Repr

/-- One Stitch link (19.R484). -/
structure Link where
  st : LinkState := .down
  half : Bool := false
  peerId : Nat := 0
  peerLink : Nat := 0
  peerSerial : W64 := 0
  /-- ERRORS, 16 bits. -/
  errors : Nat := 0
  /-- RETRAINS, 16 bits. -/
  retrains : Nat := 0
  /-- LASTCODE, 16 bits. -/
  lastCode : Nat := 0
  /-- Counters of frames sent and accepted under the present keys (19.R475). -/
  txCtr : Nat := 0
  rxCtr : Nat := 0
  /-- The last 64 frames sent, newest first, with their counters (19.R475). -/
  sent : List (Nat × StitchFrame) := []
  /-- The challenge sent, and the Seal digest and ephemeral key of this end (19.R473, R474). -/
  nonce : List Byte := []
  mySealDigest : List Byte := []
  /-- Times (us) of discards of the last second and trainings of the last 60 s (20.R486). -/
  discards : List Nat := []
  trainings : List Nat := []
  /-- Fenced by the logic, and the times of its fences of the last hour (20.R490). -/
  fenced : Bool := false
  fences : List Nat := []
  /-- Refused at authentication; retrains after 1 s (19.R473). -/
  refused : Bool := false
  /-- A resend has been asked for (19.R475). -/
  resend : Bool := false
  /-- Its last training aligned fewer than 4 lanes; it retries (19.R471). -/
  failed : Bool := false
  /-- New frames that wait while the link is re-keyed or in its low-power state, oldest first (19.R476, R483). -/
  waiting : List StitchFrame := []
  deriving DecidableEq, Repr

/-- FB_ROUTEi (19.R484). -/
structure Route where
  valid : Bool := false
  lost : Bool := false
  links : BitVec 4 := 0
  hops : Nat := 0
  deriving DecidableEq, Repr

/-- A request of the device's own for another device's Warehouse that has not been answered (10.R275, 19.R479): its number, its
sequencer, its address and length, and whether it writes. -/
structure Asked where
  seq : Nat := 0
  q : SeqId := .house
  addr : Nat := 0
  len : Nat := 0
  write : Bool := false
  deriving DecidableEq, Repr

/-- An answer to a read that no instruction has taken: its bytes, or the fault it brings. -/
structure Answer where
  q : SeqId := .house
  addr : Nat := 0
  len : Nat := 0
  code : Nat := 0
  data : List Byte := []
  deriving DecidableEq, Repr

/-- The fabric (19). -/
structure Fabric where
  links : Vector Link 4 := Vector.replicate 4 {}
  /-- FB_STATUS.FULL. -/
  full : Bool := false
  /-- FB_STATUS.SPLIT. -/
  split : Bool := false
  /-- Member of each id: serial and LOST mark (19.R477). -/
  members : Vector (Option (W64 × Bool)) 8 := (Vector.replicate 8 none).set 0 (some (Config.serial, false))
  routes : Vector Route 8 := (Vector.replicate 8 {}).set 0 { valid := true }
  /-- Members heard of on authenticated links while lists are exchanged (19.R477). -/
  heard : List Member := []
  /-- A received list has not yet settled. -/
  exchanging : Bool := false
  /-- Links waiting for LINK_MAP. -/
  ready : BitVec 4 := 0
  /-- Sequence numbers of the requests applied, of each source id (19.R472). -/
  applied : Vector (List Nat) 8 := Vector.replicate 8 []
  /-- The device's own last source sequence number (19.R472). -/
  seq : Nat := 0
  /-- Frames for an id that no link leads to at present, oldest first: they leave by the next route (19.R478, R483). -/
  held : List (Nat × StitchFrame) := []
  /-- The device's own requests that wait for their answers, and the answers to reads that wait for their instructions (19.R479). -/
  asked : List Asked := []
  answers : List Answer := []
  deriving DecidableEq, Repr

/-! ### The whole -/

/-- Where start-up stands (22.R528, 23.R541). -/
inductive Boot where
  /-- PORST_N is low. -/
  | porst
  /-- The hardware phase waits for REFCLK to run the self-test (23.R546). -/
  | selfTest
  /-- An internal reset holds (22.R528). -/
  | internalReset
  /-- The hardware phase is done. -/
  | hardware
  /-- The boot ROM has verified the firmware. -/
  | rom
  /-- The boot ROM serves the management port in recovery (17.R428). -/
  | recovery
  /-- House firmware runs. -/
  | house
  /-- Service firmware runs. -/
  | service
  deriving DecidableEq, Repr

/-- What the block last gave the outside. -/
structure Latch where
  /-- Data returned by the last RD burst. -/
  rd : List Byte := []
  /-- Data returned by the last MRR. -/
  mrr : Byte := 0
  /-- Data returned by the last register read, debug read or WCK-DQ FIFO read. -/
  reg : W64 := 0
  bytes : List Byte := []
  /-- I3C data of the last private read or CCC; none for a NACK. -/
  i3c : Option (List Byte) := none
  /-- A private write was NACKed (18.R459). -/
  nack : Bool := false
  /-- Mandatory data byte of the last in-band interrupt (18.R455). -/
  ibi : Option Nat := none
  deriving DecidableEq, Repr

/-- Supplies as the block sees them (22.R528, R537). -/
structure Supply where
  vddIo : Bool := true
  /-- Rails outside their limits. -/
  out : List Rail := []
  /-- VPROG falls below 2.45 V during the device's own next PROG (22.R528). -/
  vprogLow : Bool := false
  /-- VDD_AON holds for pending store writes; no new write starts (22.R527). -/
  holding : Bool := false
  deriving DecidableEq, Repr

/-- The state of the block. -/
structure State where
  /-- The queue of commands that wait, first in, first out. -/
  pending : List Instr := []
  boot : Boot := .hardware
  /-- Microseconds since PORST_N, from REFCLK (18.R467, 21.R514). -/
  timeUs : Nat := 0
  fuses : Fuses := {}
  shape : Shape := {}
  refclk : Refclk := {}
  supply : Supply := {}
  cores : Vector Core 64 := Vector.replicate 64 {}
  house : Seqr := { running := true, codeLen := 4096 }
  clusters : Vector Cluster 8 := Vector.replicate 8 {}
  /-- All local byte stores, by internal address without the device id (10.R268, R269). -/
  mem : Memory := []
  /-- Poisoned granules (10.R277), by granule index, rising. -/
  poison : NatMap Bool := []
  /-- Warehouse written bits, by MiB (10.R279). -/
  written : NatMap Bool := []
  /-- Activity cap: requests waiting, in arrival order, and grants held (01.R27). -/
  capWait : List GrantReq := []
  capHeld : List GrantReq := []
  /-- Programming budget: the same (11.R314). -/
  progWait : List GrantReq := []
  progHeld : List GrantReq := []
  port : Port := {}
  /-- Jobs in acceptance order (15). -/
  jobs : List Job := []
  /-- Requests accepted so far. -/
  accepted : Nat := 0
  load : Option LoadReq := none
  models : Vector Model 16 := Vector.replicate 16 {}
  /-- Ply records and residency, by loom-ply number 8 x engine index + ply (02.R76, 11.R287). -/
  plies : NatMap PlyRec := []
  /-- Cells of every loom-ply (02.R40): level 0 when not listed (02.R49). -/
  cells : NatMap PlyCells := []
  /-- The equivalent age that the cells of each cluster have truly reached, in 2^-84 s; it also accrues while no clock of the
  device runs (02.R56, R57). -/
  cellClock : Vector Nat 8 := Vector.replicate 8 0
  assay : Assay := {}
  monitor : Monitor := {}
  power : Power := {}
  chouse : House := {}
  mgmt : Mgmt := {}
  fabric : Fabric := {}
  /-- Package event counters, 48 bits each (21.R510). -/
  pkgEvents : NatMap Nat := []
  /-- PC_PSEL (21.R517). -/
  pcPsel : Nat := 0
  /-- PC_LG_BASE, PC_LG_SIZE, PC_LG_CTRL.EN and K, PC_LG_TAIL (21.R517). -/
  lgBase : Nat := 0
  lgPages : Nat := 1
  lgEn : Bool := false
  lgK : Nat := 12
  lgTail : Nat := 0
  /-- Ledger records queued, oldest first, at most 256 (21.R513). -/
  lgQueue : List (List Byte) := []
  /-- What the block last gave out. -/
  latch : Latch := {}
  /-- The model's own counter of free values: each use advances it (assumption log). -/
  fresh : Nat := 0
  deriving DecidableEq, Repr

/-- Why a step stops. No rule of the manual stops the block: its own faults are recorded state (07.R217). -/
inductive Fault where
  /-- Raised by no command. Safe: a state the manual's rules cannot reach would stop here. -/
  | unreachable
  deriving DecidableEq, Repr

/-- Why a command has no meaning. -/
inductive Refusal where
  /-- The command's mnemonic has no meaning yet. Safe. -/
  | notModelled (mnemonic : String)
  /-- The command is ill-formed (WellFormed.lean): its word spells another row's instruction, or an operand lies outside
  what the row admits. Raised by `exec` of such a command; safe, since no such command exists. -/
  | illFormed
  deriving DecidableEq, Repr

/-- The machine right after reset: PORST_N has deasserted and the hardware phase is done (00.R13, 23.R541). -/
def State.reset : State := {}

end Sys2Proof.Machine
end

