-- ==== Sys2Proof/Machine/Flags.lean ====
section
/-!
DEFINITION. The parts of State by number, the event counters (chapter 21), and the sequencer flags (07.R193, R194).
-/

namespace Sys2Proof.Machine

/-- What a command answers. -/
abbrev Out := Host.Outcome State Fault Refusal

/-! ### Parts of State -/

/-- Core `c` with `f` applied. -/
def State.updCore (s : State) (c : Fin 64) (f : Core → Core) : State :=
  { s with cores := s.cores.set c (f s.cores[c]) }

/-- The sequencer `q`. -/
def State.seqr (s : State) : SeqId → Seqr
  | .core n => s.cores[n].seq
  | .house => s.house

/-- The sequencer `q` with `f` applied. -/
def State.updSeqr (s : State) (q : SeqId) (f : Seqr → Seqr) : State :=
  match q with
  | .core n => s.updCore n (fun k => { k with seq := f k.seq })
  | .house => { s with house := f s.house }

/-- Engine `e` of core `c` with `f` applied. -/
def State.updEngine (s : State) (c : Fin 64) (e : Nat) (f : Engine → Engine) : State :=
  s.updCore c (fun k => { k with engines := updN k.engines e f })

/-- The cluster of a core (01.R17). -/
def clusterOf (c : Fin 64) : Fin 8 := ⟨c.val / 8, by omega⟩

/-- The Loom die of a core: false L0, true L1 (01.R17). -/
def dieOf (c : Fin 64) : Bool := 32 ≤ c.val

/-- Cluster `k` with `f` applied. -/
def State.updCluster (s : State) (k : Fin 8) (f : Cluster → Cluster) : State :=
  { s with clusters := s.clusters.set k (f s.clusters[k]) }

/-- The CORE_MAP bit of core `c` (01.R20). -/
def State.coreBit (s : State) (c : Nat) : Bool := s.shape.coreMap.getLsbD c

/-- CLUSTER_MAP (01.R20): the clusters with a usable core. -/
def State.clusterBit (s : State) (k : Nat) : Bool := (List.range 8).any (fun i => s.coreBit (8 * k + i))

/-- CORE_COUNT (01.R20). -/
def State.coreCount (s : State) : Nat := ((List.range 64).filter s.coreBit).length

/-- Core `c` may take new work: its bit is set and no fence holds it (01.R23, 20.R489). -/
def State.usable (s : State) (c : Fin 64) : Bool :=
  s.coreBit c.val && !s.cores[c].fencedMg && !s.cores[c].fencedLogic

/-- The next free value's number, and the state that has used it (assumption 1). -/
def State.draw (s : State) : Nat × State := (s.fresh, { s with fresh := s.fresh + 1 })

/-- The number of the first of `n` free values, and the state without them. -/
def State.drawMany (s : State) (n : Nat) : Nat × State := (s.fresh, { s with fresh := s.fresh + n })

/-! ### Event counters (21.R503) -/

/-- 48 bits. -/
def wrap48 (n : Nat) : Nat := n % 2 ^ 48

/-- Core event `ev` of core `c` counted `n` times. -/
def State.count (s : State) (c : Fin 64) (ev n : Nat) : State :=
  s.updCore c (fun k => { k with events := NatMap.update 0 k.events ev (fun v => wrap48 (v + n)) })

/-- A core event of the issuing sequencer; the house sequencer has none. -/
def State.countSeq (s : State) (q : SeqId) (ev n : Nat) : State :=
  match q with
  | .core c => s.count c ev n
  | .house => s

/-- Package event `ev` counted `n` times. -/
def State.countPkg (s : State) (ev n : Nat) : State :=
  { s with pkgEvents := NatMap.update 0 s.pkgEvents ev (fun v => wrap48 (v + n)) }

/-! ### Fuses -/

/-- FUSE_SVN: the count of burned bits (17.R426). -/
def Fuses.svn (f : Fuses) : Nat := ((List.range 64).filter (fun i => f.svnBits.getLsbD i)).length

/-- The thermometer burned up to a count. -/
def Fuses.burnSvn (f : Fuses) (n : Nat) : Fuses := { f with svnBits := f.svnBits ||| BitVec.ofNat 64 (2 ^ min n 64 - 1) }

/-! ### SQ_FLAGS -/

/-- A flag bit with its value replaced. -/
def flagPut (f : BitVec 6) (b : Nat) (v : Bool) : BitVec 6 :=
  if v then f ||| BitVec.ofNat 6 (2 ^ b) else f &&& ~~~(BitVec.ofNat 6 (2 ^ b))

/-- The event that counts the setting of a flag (21.R509). -/
def flagEvent : Nat → Option Nat
  | 0 => some EV_FLAG_CHK
  | 1 => some EV_FLAG_SAT
  | 2 => some EV_FLAG_INV
  | _ => none

/-- A unit of the core sets a flag; it stays set until it is cleared (07.R194). -/
def State.setFlag (s : State) (q : SeqId) (b : Nat) : State :=
  let s := s.updSeqr q (fun r => { r with flags := flagPut r.flags b true })
  match flagEvent b with
  | some ev => s.countSeq q ev 1
  | none => s

/-- SQ_FLAGS.CMP written as 1 or 0 (08.R227). -/
def State.writeCmp (s : State) (q : SeqId) (v : Bool) : State :=
  s.updSeqr q (fun r => { r with flags := flagPut r.flags FLAG_CMP v })

/-- Conversion counts of an instruction (04.R117): each invalid sets SQ_FLAGS.INV. -/
def State.countConv (s : State) (q : SeqId) (clips invalids : Nat) : State :=
  let s := if clips = 0 then s else s.countSeq q EV_QZ_CONV_CLIP clips
  if invalids = 0 then s else (s.countSeq q EV_QZ_INVALID invalids).setFlag q FLAG_INV

end Sys2Proof.Machine
end

