-- ==== Sys2Proof/Machine/Ops.lean ====
section
/-!
DEFINITION. Operations that many commands share: interrupts, the event log, completions, shape changes, sync counters,
faults, and internal addresses with the mapping, rights and route checks of 10.R274.
-/

namespace Sys2Proof.Machine

/-! ### Confidential mode, interrupts and status bits (14.R388, 17.R449 to R451) -/

/-- The level that DEV_IRQ_N should have: low (true) while a cause is set and enabled. -/
def Port.pinWanted (p : Port) : Bool := (p.irqStatus &&& p.irqEnable) != 0

/-- DEV_IRQ_N follows the causes; a scrub holds it released, as does the absence of VDD_IO (22.R537), and in confidential
mode it changes at the 1 us tick only. -/
def State.settlePin (s : State) : State :=
  if s.chouse.scrub.isSome || !s.supply.vddIo then { s with port := { s.port with irqPin := false } }
  else if s.chouse.conf then s
  else { s with port := { s.port with irqPin := s.port.pinWanted } }

/-- An interrupt cause is set (14.R388). -/
def State.raiseIrq (s : State) (b : Nat) : State :=
  ({ s with port := { s.port with irqStatus := s.port.irqStatus ||| BitVec.ofNat 8 (2 ^ b) } } : State).settlePin

/-- The condition of the CQ cause (14.R388). -/
def Port.cqDue (p : Port) : Bool :=
  decide (p.modCount ≤ (p.unread.filter (fun e => e.2.1)).length) || p.unread.any (fun e => e.2.2)
    || (p.aged && decide (p.modTime ≠ 0))

/-- The CQ cause is set while its condition holds. -/
def State.settleCq (s : State) : State := if s.port.cqDue then s.raiseIrq IRQ_CQ else s.settlePin

/-- The address form of HP_MISS_ADDR and HP_DROP_ADDR: channel and host offset. -/
def hostAddrWord (ch : Chan) (off : Nat) : Nat := (if ch = .b then 2 ^ 31 else 0) + off % 2 ^ 31

/-- MISS is set, with the first address and the ERR cause (14.R377, R388). -/
def State.setMiss (s : State) (addr : Nat) : State :=
  let s := s.countPkg PE_HP_MISS 1
  if s.port.miss then s
  else ({ s with port := { s.port with miss := true, missAddr := addr } } : State).raiseIrq IRQ_ERR

/-- DROP is set, with the first address where one is given, and the ERR cause (14.R373, R378, R388). -/
def State.setDrop (s : State) (addr : Option Nat) : State :=
  let s := s.countPkg PE_HP_DROP 1
  if s.port.drop then s
  else ({ s with port := { s.port with drop := true, dropAddr := addr.getD s.port.dropAddr } } : State).raiseIrq IRQ_ERR

/-- PROTO is set, and the ERR cause (14.R373, R388). -/
def State.setProto (s : State) : State :=
  if s.port.proto then s
  else ({ s with port := { s.port with proto := true } } : State).raiseIrq IRQ_ERR

/-- An event enters the event log of the management port; a full log discards and counts it (18.R467). -/
def State.logEvent (s : State) (code : Nat) : State :=
  if s.mgmt.log.length < 32 then
    { s with
      mgmt := { s.mgmt with log := s.mgmt.log ++ [(s.timeUs / 1000, code)] }
      latch := if s.mgmt.ibiEn && s.supply.vddIo then { s.latch with ibi := some 2 } else s.latch }
  else { s with mgmt := { s.mgmt with lost := min (s.mgmt.lost + 1) 0xFFFF } }

/-- Requests of some kinds that have finished and are not completed, since their entries are not posted, end with PREEMPTED
(14.R382, R393). -/
def State.preempt (s : State) (kind : Nat → Bool) : State :=
  let end_ (c : Completion) : Completion :=
    if kind c.kind && c.frees then { c with status := PREEMPTED, d0 := 0, d1 := 0, d2 := 0 } else c
  { s with port := { s.port with finished := s.port.finished.map end_, deferred := s.port.deferred.map end_ } }

/-- A request has finished: its completion waits to be posted, in order (14.R387). -/
def State.finishReq (s : State) (c : Completion) : State :=
  { s with port := { s.port with finished := s.port.finished ++ [c] } }

/-- A change of the shape table arises; it is made by its own update, in order of arising (01.R21). -/
def State.shapeChange (s : State) (c : ShapeChange) : State :=
  { s with shape := { s.shape with changes := s.shape.changes ++ [c] } }

/-! ### Sync counters (07.R213 to R215) -/

/-- The cluster and index of a package index. -/
def State.counterAt (s : State) (idx : Nat) : Counter :=
  NatMap.get {} (s.clusters[(⟨idx / 8192 % 8, by omega⟩ : Fin 8)]).counters (idx % 8192)

/-- The counter at a package index replaced. -/
def State.putCounter (s : State) (idx : Nat) (v : Counter) : State :=
  s.updCluster ⟨idx / 8192 % 8, by omega⟩ (fun k => { k with counters := NatMap.put {} k.counters (idx % 8192) v })

/-- A package index names a counter: its cluster exists and has a usable core (07.R213). -/
def State.syncIndexOk (s : State) (idx : Nat) : Bool := decide (idx < 65536) && s.clusterBit (idx / 8192)

/-- The condition of a WAIT (07.R214). -/
def State.waitHolds (s : State) : SeqWait → Bool
  | .ge idx n => decide (n ≤ (s.counterAt idx).value)
  | .epoch idx e => decide ((s.counterAt idx).epoch ≠ e)

/-- ADD v, T on a counter: the new counter, and whether VALUE clamped (07.R214, R215). -/
def counterAdd (k : Counter) (v : Int) (t : Nat) : Counter × Bool :=
  let sum : Int := k.value + v
  let clamped : Nat := if sum < 0 then 0 else if 2 ^ 32 - 1 < sum then 2 ^ 32 - 1 else sum.toNat
  let clip := decide (sum < 0 ∨ 2 ^ 32 - 1 < sum)
  if t ≠ 0 ∧ t ≤ clamped then ({ value := clamped - t, epoch := (k.epoch + 1) % 2 ^ 16 }, clip)
  else ({ k with value := clamped }, clip)

/-- An operation of sequencer `q` is applied to a counter; a clamp sets the issuer's SAT (07.R214, R215). -/
def State.applyCounter (s : State) (q : SeqId) (idx : Nat) (v : Int) (t : Nat) : State :=
  let (k, clip) := counterAdd (s.counterAt idx) v t
  let s := s.putCounter idx k
  if clip then s.setFlag q FLAG_SAT else s

/-! ### Faults of a sequencer (07.R217, R218) -/

/-- What a fault records beyond the instruction: its code, unit and detail (07.R218). -/
structure FaultInfo where
  code : Nat
  unit : Nat := 0
  /-- SQ_FAULT1; none where the rule of the fault gives it no content, which is then a free value. -/
  detail : Option Nat := none
  /-- No fault: the instruction waits for these bytes of another device's Warehouse, address and length (10.R275). -/
  ask : Option (Nat × Nat) := none
  deriving DecidableEq, Repr

/-- Execution of one instruction: a fault keeps what was done before it (10.R274). -/
abbrev ExecM := EStateM FaultInfo State

/-- The unit that executes an opcode: 1 Loom, 2 Mill, 4 to 7 movers (07.R218). -/
def unitOf (opcode mover : Nat) : Nat :=
  let cls := opcode / 4096
  if cls = 3 then 1 else if cls = 4 then 2 else if cls = 2 then 4 + mover else 0

/-- SQ_FAULT0 of a first fault (07.R218); `opcode` is CLASS, OP and FORM as 16 bits. -/
def fault0Word (f : FaultInfo) (opcode pc : Nat) : W64 :=
  BitVec.ofNat 64 (f.unit % 16 * 2 ^ 48 + opcode % 65536 * 2 ^ 32 + pc % 4096 * 2 ^ 16 + f.code % 65536)

/-- MORE incremented, stopping at 255 (07.R218). -/
def bumpMore (w : W64) : W64 :=
  if w.toNat / 2 ^ 56 = 255 then w else w + BitVec.ofNat 64 (2 ^ 56)

/-- A Loom instruction has started: it has begun to integrate, or waits to be re-executed (07.R217, 03.R98). -/
def loomStarted (i : LoomInstr) : Bool :=
  match i.phase with
  | .queued | .waiting => decide (0 < i.retries)
  | _ => true

/-- The MOVE.STAGE whose copies are under way (14.R380). -/
def State.stageStarted (s : State) (q : SeqId) (uid : Nat) : Bool :=
  s.port.stageBusy && (match s.port.stageQ with
    | .move q' u _ _ :: _ => decide (q' = q) && u == uid
    | _ => false)

/-- The Mill and mover instructions that a discard removes: those that have not started, and those that wait in the staging
queue. -/
def State.unstartedMoves (s : State) (q : SeqId) : List Nat :=
  ((s.seqr q).millQ.filter (fun e => e.work.isSome)).map (fun e => e.uid)
    ++ (s.seqr q).moverQ.toList.flatMap (fun l =>
      (l.filter (fun e => e.work.isSome || (e.staging && !s.stageStarted q e.uid))).map (fun e => e.uid))

/-- The serial numbers of the instructions that a discard removes. -/
def State.unstarted (s : State) (q : SeqId) : List Nat :=
  (match q with
    | .core c => (s.cores[c].loomQ.filter (fun i => !loomStarted i)).map (fun i => i.q.uid)
    | .house => []) ++ s.unstartedMoves q

/-- Operations of the sync buffer no longer wait on the instructions named. -/
def unwait (gone : List Nat) (r : Seqr) : Seqr :=
  { r with syncBuf := r.syncBuf.map (fun o => { o with waits := o.waits.filter (fun u => !gone.contains u) }) }

/-- Instructions that have not started are discarded (07.R217 step 3), with their requests for grants and their places
in the staging queue; each counts as a wasted slot (21.R508). -/
def State.discard (s : State) (q : SeqId) : State :=
  let gone := s.unstarted q
  let moves := s.unstartedMoves q
  let s := s.countSeq q EV_SLOT_WASTED gone.length
  let s := s.updSeqr q (fun r =>
    unwait gone { r with
      millQ := r.millQ.filter (fun e => !moves.contains e.uid)
      moverQ := r.moverQ.map (fun l => l.filter (fun e => !moves.contains e.uid)) })
  let s := { s with port := { s.port with stageQ := s.port.stageQ.filter (fun r =>
      match r with
      | .move q' u _ _ => decide (q' ≠ q) || !moves.contains u
      | _ => true) } }
  match q with
  | .core c =>
    let s := s.updCore c (fun k => { k with loomQ := k.loomQ.filter loomStarted })
    { s with
      capWait := s.capWait.filter (fun g => decide (g.core ≠ c.val) || s.cores[c].loomQ.any (fun i => i.phase == .waiting))
      progWait := s.progWait.filter (fun g => decide (g.core ≠ c.val)) }
  | .house => s

/-- SQ_FAULT1 of a fault (07.R218): its detail, or a free value where no rule gives one (assumption 1). -/
def State.faultDetail (s : State) (f : FaultInfo) : W64 × State :=
  match f.detail with
  | some d => (BitVec.ofNat 64 d, s)
  | none =>
    let (n, s) := s.draw
    (Config.unspecified n, s)

/-- A fault on sequencer `q` by the instruction at `pc`: the first is recorded, later ones count in MORE, decode stops,
and unstarted instructions are discarded (07.R217, R218). -/
def State.raiseFault (s : State) (q : SeqId) (f : FaultInfo) (opcode pc : Nat) : State :=
  let s := s.countSeq q EV_FAULTS 1
  let (d, s) := s.faultDetail f
  let s := s.updSeqr q (fun r =>
    if r.faulted then { r with fault0 := bumpMore r.fault0 }
    else { r with faulted := true, fault0 := fault0Word f opcode pc, fault1 := d })
  s.discard q

/-! ### Internal addresses (10.R268 to R275) -/

/-- 51 bits. -/
def wrapAddr (a : Nat) : Nat := a % 2 ^ 51
/-- Bits [50:48]: the device id (10.R268). -/
def addrDev (a : Nat) : Nat := a / 2 ^ 48 % 8
/-- Bits [47:44]: the region. -/
def addrRegion (a : Nat) : Nat := a / 2 ^ 44 % 16
/-- Bits [43:0]: the offset. -/
def addrOff (a : Nat) : Nat := a % 2 ^ 44
/-- Where a local byte store keeps an offset of a region. -/
def storeKey (region off : Nat) : Nat := region * 2 ^ 44 + off
/-- Bytes of the Warehouse. -/
def warehouseBytes : Nat := 2 ^ 34
/-- Bytes of a core store. -/
def coreStoreBytes : Nat := 0x60000
/-- The key of byte `off` of core `c`'s store (10.R269). -/
def coreKey (c off : Nat) : Nat := storeKey 1 (c * 0x100000 + off)
/-- The key of byte `off` of the port buffer. -/
def portKey (off : Nat) : Nat := storeKey 2 off

/-- An offset of the self alias of the core registers becomes the issuing core's own range (10.R270). -/
def unalias (q : SeqId) (off : Nat) : Nat :=
  match q with
  | .core c => if 0x1000000 ≤ off ∧ off < 0x1010000 then c.val * 0x10000 + (off - 0x1000000) else off
  | .house => off

/-- The address is mapped (10.R269 to R272). -/
def State.mapped (s : State) (q : SeqId) (region off : Nat) : Bool :=
  match region with
  | 0 => decide (off < warehouseBytes)
  | 1 => decide (off < 64 * 0x100000) && decide (off % 0x100000 < coreStoreBytes) && s.coreBit (off / 0x100000)
  | 2 => decide (off < 0x800000)
  | 3 => decide (off < 0x40000)
  | 4 =>
    let off := unalias q off
    decide (off < 64 * 0x10000) && decide (off % 0x10000 < 0x8000) && s.coreBit (off / 0x10000)
  | 5 => decide (off < 8 * 0x100000) && decide (off % 0x100000 < 0x3000) && s.clusterBit (off / 0x100000)
  | 6 => decide (off < 0x70000)
  | _ => false

/-- The access is permitted (10.R273); `window` says that it is a MOVE.LOAD's or MOVE.STORE's, which reach the core's own registers
(07.R207). -/
def permitted (q : SeqId) (window write : Bool) (region off : Nat) : Bool :=
  match q with
  | .house => decide (region ≤ 6)
  | .core c =>
    match region with
    | 0 | 1 => true
    | 4 => window && decide (unalias q off / 0x10000 = c.val)
    | 6 => !write && decide (0x1000 ≤ off ∧ off < 0x1100)
    | _ => false

/-- The fault of a remote Warehouse access: no member holds the id, or its member is LOST (19.R479). -/
def State.memberFault (s : State) (dev : Nat) : Option Nat :=
  match getN s.fabric.members dev none with
  | none => some FB_NO_ROUTE
  | some (_, lost) => if lost then some FB_PEER_LOST else none

/-- The checks of 10.R274 in their order; none when the access may be made. -/
def State.accessFault (s : State) (q : SeqId) (window write : Bool) (a : Nat) : Option Nat :=
  let remote := decide (addrDev a ≠ s.shape.fabricId)
  if remote && decide (addrRegion a ≠ 0) then some MEM_REMOTE
  else if !s.mapped q (addrRegion a) (addrOff a) then some MEM_UNMAPPED
  else if !permitted q window write (addrRegion a) (addrOff a) then some MEM_PRIV
  else if remote then s.memberFault (addrDev a)
  else none

/-- The granules that `n` bytes from `a` touch, by first address (10.R267). -/
def granulesOf (a n : Nat) : List Nat :=
  if n = 0 then [] else (List.range ((a % 64 + n + 63) / 64)).map (fun i => a / 64 * 64 + 64 * i)

/-! ### The cluster caches (10.R280, R281, 20.R488) -/

/-- The Warehouse channel of an offset (10.R281). -/
def channelOf (off : Nat) : Nat := Nat.xor (off / 2 ^ 8 % 16) (off / 2 ^ 16 % 16)

/-- Ways of a set. -/
def cacheWays : Nat := 16

/-- A granule enters a set: in the lowest way that is neither used nor disabled, or in place of a line that is not the most
recently used, which `free` chooses; no rule gives the pseudo-LRU order in more detail. -/
def enterSet (off : List Nat) (free : Nat) (l : List (Nat × Nat)) (g : Nat) : List (Nat × Nat) :=
  match (List.range cacheWays).find? (fun w => !off.contains w && l.all (fun e => e.1 != w)) with
  | some w => (w, g) :: l
  | none =>
    match l with
    | [] => []
    | [(w, _)] => [(w, g)]
    | l =>
      let v := 1 + free % (l.length - 1)
      ((l.getD v (0, 0)).1, g) :: l.eraseIdx v

/-- A granule is looked up in a cluster cache for a read, and allocated when it is not there: whether it was, and the state. -/
def State.cacheRead (s : State) (k : Fin 8) (g : Nat) : Bool × State :=
  let n := Config.cacheSet g
  let l := NatMap.get [] s.clusters[k].lines n
  match l.find? (fun e => e.2 == g) with
  | some e => (true, s.updCluster k (fun c => { c with lines := NatMap.put [] c.lines n (e :: l.filter (fun x => x.2 != g)) }))
  | none =>
    let (d, s) := s.draw
    let off := (s.clusters[k].disabled.filter (fun d => d.1 == n)).map (fun d => d.2)
    (false, s.updCluster k (fun c =>
      { c with lines := NatMap.put [] c.lines n (enterSet off (Config.unspecified d).toNat l g) }))

/-- No cluster keeps a copy of the granules of a span of the Warehouse (10.R280). -/
def State.cacheDrop (s : State) (key n : Nat) : State :=
  let out (g : Nat) : Bool := decide (64 * g + 64 ≤ key) || decide (key + n ≤ 64 * g)
  { s with clusters := s.clusters.map (fun (c : Cluster) =>
      { c with lines := (c.lines.map (fun e => (e.1, e.2.filter (fun l => out l.2)))).filter (fun e => e.2 != []) }) }

/-- A write to the Warehouse: it is counted on the channels of its granules, and cached copies of them go (10.R280, R281). -/
def State.warehouseWrite (s : State) (key n : Nat) : State :=
  if key < warehouseBytes then
    (granulesOf key n).foldl (fun s a => s.countPkg (PE_WH_WR + channelOf a) 1) (s.cacheDrop key n)
  else s

/-- Bytes of a local store; the Warehouse's written bits need no look, since an unwritten MiB holds zeros (10.R279). -/
def State.peek (s : State) (key n : Nat) : List Byte := s.mem.bytes key n

/-- The granule lies in a MiB of the Warehouse whose written bit is clear: it reads as zeros, without an ECC check (10.R279). -/
def State.unwritten (s : State) (g : Nat) : Bool :=
  decide (64 * g < warehouseBytes) && !NatMap.get false s.written (64 * g / 2 ^ 20)

/-- A write of `n` bytes from a key sets the written bit of each MiB of the Warehouse it touches; one that was clear is
zero-filled, its poison gone (10.R279). -/
def State.markWritten (s : State) (key n : Nat) : State :=
  let mibs := if key < warehouseBytes ∧ n ≠ 0 then
      (List.range ((key + n - 1) / 2 ^ 20 + 1 - key / 2 ^ 20)).map (fun i => key / 2 ^ 20 + i)
    else []
  let s := { s with poison := NatMap.keep (fun g => !(mibs.contains (64 * g / 2 ^ 20) && s.unwritten g)) s.poison }
  { s with written := mibs.foldl (fun w i => NatMap.put false w i true) s.written }

/-- Bytes written to a local store: the first write to a MiB of the Warehouse zero-fills it and sets its written bit, and a
granule written whole loses its poison (10.R277, R279). -/
def State.poke (s : State) (key : Nat) (bs : List Byte) : State :=
  let s := (({ s with mem := s.mem.write key bs } : State).warehouseWrite key bs.length).markWritten key bs.length
  { s with poison := NatMap.keep (fun g => 64 * g < key || key + bs.length < 64 * g + 64) s.poison }

/-- The `n` bytes from a key of a local store are zero, and no granule among them is poisoned (10.R277). -/
def State.zero (s : State) (key n : Nat) : State :=
  { s with
    mem := s.mem.zero key n
    poison := NatMap.keep (fun g => 64 * g < key || key + n < 64 * g + 64) s.poison }

/-- Some granule of a span reads as poisoned (10.R277, R279). -/
def State.poisoned (s : State) (key n : Nat) : Bool :=
  s.poison.any (fun e => !s.unwritten e.1 && decide (64 * e.1 < key + n) && decide (key < 64 * e.1 + 64) && decide (0 < n))

/-- What a sequencer's abandoned instructions asked of other devices, and its answers, concern nobody any more. -/
def State.forget (s : State) (q : SeqId) : State :=
  { s with fabric := { s.fabric with
    asked := s.fabric.asked.filter (fun x => x.q ≠ q), answers := s.fabric.answers.filter (fun x => x.q ≠ q) } }

/-! ### Waking (16.R419) -/

/-- The sleep state reached or being entered, whichever is deeper (16.R419). -/
def Power.depth (p : Power) : Nat := max p.cur (p.entering.getD 0)

/-- The return to A begins, from a sleep state or from an entry into one. -/
def State.startWake (s : State) : State :=
  if s.power.cur = 0 ∧ s.power.entering.isNone then s
  else { s with power := { s.power with entering := none, waking := decide (s.power.cur ≠ 0) } }

/-- A wake event: it is counted, and the device returns to A. In a forced sleep state only a management command or TRIP
ends the state (16.R420). -/
def State.wakeEvent (s : State) (strong : Bool) : State :=
  let s := { s with power := { s.power with wakes := min (s.power.wakes + 1) 0xFFFF } }
  if s.power.forceEn ∧ s.power.forceState ≠ 0 ∧ !strong then s else s.startWake

end Sys2Proof.Machine
end

