-- ==== Sys2Proof/Machine/Reals.lean ====
section
/-!
DEFINITION. The functions over the reals that chapters 02 and 12 state their formulas with: ln, exp, powers and the root,
to 2^-160 or better (assumption 81). Every quantity they give is rounded to its unit where it is stored.
-/

namespace Sys2Proof.Machine

/-- One in fixed point: 200 fraction bits. -/
def fixOne : Int := 2 ^ 200

/-- A number in fixed point. -/
def toFix (x : Rat) : Int := (x * (2 ^ 200 : Nat)).floor

/-- The number that fixed point stands for. -/
def ofFix (v : Int) : Rat := (v : Rat) / (2 ^ 200 : Nat)

/-- A product in fixed point. -/
def fixMul (a b : Int) : Int := a * b / fixOne

/-- `n` terms of the exponential series at `y`, from term `k`, whose value is `t`. -/
def expTerms (y : Int) : Nat → Nat → Int → Int
  | 0, _, _ => 0
  | n + 1, k, t => t + expTerms y n (k + 1) (fixMul t y / ((k : Int) + 1))

/-- A value squared `n` times. -/
def fixSquares : Nat → Int → Int
  | 0, v => v
  | n + 1, v => fixSquares n (fixMul v v)

/-- e^x. -/
def expQ (x : Rat) : Rat := ofFix (fixSquares 16 (expTerms (toFix (x / (2 ^ 16 : Nat))) 30 0 fixOne))

/-- `n` terms of artanh: odd powers of a number over their exponents, `t` the power of term `k`, `zz` its square. -/
def artanhTerms (zz : Int) : Nat → Nat → Int → Int
  | 0, _, _ => 0
  | n + 1, k, t => t / (2 * (k : Int) + 1) + artanhTerms zz n (k + 1) (fixMul t zz)

/-- ln of a number near 1, as 2 artanh ((m - 1) / (m + 1)). -/
def lnNear (m : Rat) : Rat :=
  let z := toFix ((m - 1) / (m + 1))
  2 * ofFix (artanhTerms (fixMul z z) 70 0 z)

/-- A power of two with an integer exponent. -/
def twoTo (e : Int) : Rat := if 0 ≤ e then ((2 ^ e.toNat : Nat) : Rat) else 1 / ((2 ^ (-e).toNat : Nat) : Rat)

/-- ln x; 0 where x is not positive, which no formula of the manual asks for. -/
def lnQ (x : Rat) : Rat :=
  if x ≤ 0 then 0
  else
    let e : Int := (Nat.log2 x.num.toNat : Int) - (Nat.log2 x.den : Int)
    lnNear (x / twoTo e) + (e : Rat) * lnNear 2

/-- x^p. -/
def powQ (x p : Rat) : Rat := if p = 0 then 1 else expQ (p * lnQ x)

/-- The square root of a number, rounded to the nearest integer, a tie to even. -/
def rneSqrt (x : Rat) : Nat :=
  let n := Nat.sqrt x.floor.toNat
  let mid : Rat := ((n : Rat) + 1 / 2) ^ 2
  if mid < x ∨ (x = mid ∧ n % 2 = 1) then n + 1 else n

/-- A number limited to a range. -/
def withinRat (a b x : Rat) : Rat := max a (min b x)

end Sys2Proof.Machine
end

