-- ==== Sys2Proof/Machine/Age.lean ====
section
/-!
DEFINITION. The equivalent age of a ply, the FP32 form of Assay's figures, and whether a ply is due for re-anneal
(12.R330, R346).
-/

namespace Sys2Proof.Machine

/-- Core, engine and ply of a loom-ply number (02.R76). -/
def plyCore (q : Nat) : Fin 64 := ⟨q / 128 % 64, by omega⟩
def plyEngine (q : Nat) : Nat := q / 8 % 16
/-- The loom-ply number of a core's engine and ply. -/
def plyNo (c : Fin 64) (e p : Nat) : Nat := 8 * (16 * c.val + e) + p

/-- The ply record of a loom-ply (02.R76). -/
def State.plyRec (s : State) (q : Nat) : PlyRec := NatMap.get {} s.plies q

/-- Assay's work on a loom-ply. -/
def State.assayPly (s : State) (q : Nat) : AssayPly := NatMap.get {} s.assay.plies q

/-- The age clock of a ply's cluster, in units of 2^-20 s (12.R329). -/
def State.plyClock (s : State) (q : Nat) : Nat := getN s.assay.age (clusterOf (plyCore q)).val 0

/-- The clock value at the end of the ply's last PROG; PROG_AGE and half a second where the full value is lost (12.R330). -/
def State.progTime (s : State) (q : Nat) : Nat :=
  match (s.assayPly q).progClock with
  | some t => t
  | none => (s.plyRec q).progAge * 2 ^ 20 + 2 ^ 19

/-- The equivalent age in clock units. -/
def State.ageUnits (s : State) (q : Nat) : Nat := s.plyClock q - s.progTime q

/-- The equivalent age in seconds, at least 1 ms (12.R330). -/
def State.plyAge (s : State) (q : Nat) : Rat := max ((s.ageUnits q : Rat) / (2 ^ 20 : Nat)) (1 / 1000)

/-- a(T): how fast a cell ages at `t` in 0.01 degrees C (02.R56). Ea/k is 3,481.7 K, the value under which every entry of the
rule's table holds (DEDUCED, assumption 81). -/
def agingRate (t : Int) : Rat :=
  expQ ((34817 / 10 : Rat) * (1 / (31815 / 100) - 1 / (((27315 + t : Int) : Rat) / 100)))

/-- Equivalent age that one microsecond adds at a temperature, in 2^-84 s. -/
def ageStep (t : Int) : Nat := (rne (agingRate t * ((2 ^ 84 : Nat) : Rat) / 1000000)).toNat

/-- FP32 bits of a number, rounded to nearest even (04.R116). -/
def fp32Of (x : Rat) : W32 := BitVec.ofNat 32 (toFloat .fp32 (.val x)).1

/-- An owned ply is due for re-anneal (12.R335, R346). -/
def State.plyDue (s : State) (q : Nat) : Bool :=
  let a := s.assayPly q
  (s.plyRec q).owner.isSome
    && (a.limit || decide (s.assay.annealLimit < a.cal.spread) || decide (31536000 ≤ s.plyAge q))

end Sys2Proof.Machine
end

