-- ==== Sys2Proof/Machine/Stitch.lean ====
section
/-!
DEFINITION. Frames that leave the device over the Stitch links (19.R472, R475, R478).
-/

namespace Sys2Proof.Machine

/-- Link `n` with `f` applied. -/
def State.updLink (s : State) (n : Nat) (f : Link → Link) : State :=
  { s with fabric := { s.fabric with links := updN s.fabric.links n f } }

/-- The links carry idle symbols only: REFCLK is absent, or the device scrubs (01.R32, 17.R451, 19.R483). -/
def State.linksIdle (s : State) : Bool := !s.refclk.present || s.chouse.scrub.isSome

/-- A frame leaves by a link under the next counter, and the last 64 are kept; while the link is idle or not UP it waits
(19.R475, R476). -/
def State.sendOn (s : State) (n : Nat) (f : StitchFrame) : State :=
  if (getN s.fabric.links n {}).st = .up ∧ !s.linksIdle then
    (s.updLink n (fun l => { l with txCtr := l.txCtr + 1, sent := ((l.txCtr + 1, f) :: l.sent).take 64 })).countPkg
      (PE_SL_TX_FRAMES + n) 1
  else s.updLink n (fun l => { l with waiting := l.waiting ++ [f] })

/-- The frames that waited on a link leave by it. -/
def State.flushLink (s : State) (n : Nat) : State :=
  let l := getN s.fabric.links n {}
  l.waiting.foldl (fun s f => s.sendOn n f) (s.updLink n (fun l => { l with waiting := [] }))

/-- Every link sends what waited on it. -/
def State.flushLinks (s : State) : State := (List.range 4).foldl (fun s n => s.flushLink n) s

/-- The link that a frame for an id and an address takes: of the route's usable links, the one that address bits [9:8]
choose (19.R478). -/
def State.linkFor (s : State) (dest addr : Nat) : Option Nat :=
  let r := getN s.fabric.routes dest {}
  let ls := (List.range 4).filter (fun n => r.links.getLsbD n && s.shape.linkMap.getLsbD n)
  ls[addr / 256 % 4 % ls.length]?

/-- A frame goes towards an id; without a link to it, it is held for the next route. -/
def State.sendFrame (s : State) (dest addr : Nat) (f : StitchFrame) : State :=
  match s.linkFor dest addr with
  | some n => s.sendOn n f
  | none => { s with fabric := { s.fabric with held := s.fabric.held ++ [(dest, f)] } }

/-- The device's own request, for a sequencer, for a granule of another device's Warehouse: kind 0 a read, 1 a write (10.R275,
19.R472). It is outstanding until it is answered. -/
def State.request (s : State) (q : SeqId) (kind addr len : Nat) (payload : List Byte) : State :=
  let s := { s with fabric := { s.fabric with
    seq := s.fabric.seq + 1
    asked := s.fabric.asked ++
      [({ seq := s.fabric.seq + 1, q := q, addr := addr, len := len, write := kind == 1 } : Asked)] } }
  let op : Config.StitchOp :=
    { dest := addrDev addr, src := s.shape.fabricId, seq := s.fabric.seq, kind := kind, addr := addr, len := len }
  s.sendFrame op.dest addr { header := Config.stitchRequest op, payload := payload }

end Sys2Proof.Machine
end

