-- ==== Sys2Proof/Machine/Tensor.lean ====
section
/-!
DEFINITION. The layout of tensors: fields of a descriptor (07.R200), its geometry (R202 to R204, 05.R138, R139), and the
checks of R205 and R547. Layout follows the declared extents, iteration the effective ones (07.R206).
-/

namespace Sys2Proof.Machine

/-- The fields of a 64-byte descriptor (07.R200); effective extents are the declared ones until a register limits
them. -/
def parseTd (b : List Byte) : TD :=
  { base := leAt b 0 8 % 2 ^ 51
    ext0 := leAt b 8 4, ext1 := leAt b 12 4, ext2 := leAt b 16 4, ext3 := leAt b 20 4
    str1 := leAt b 24 4, str2 := leAt b 28 4, str3 := leAt b 32 4
    bound := leAt b 36 4
    format := leAt b 40 1, skind := leAt b 41 1 % 4, alsel := leAt b 42 1 % 64, stream := leAt b 43 1
    sideCap := leAt b 44 2
    scaleBase := leAt b 48 8 % 2 ^ 51, sideBase := leAt b 56 8 % 2 ^ 51
    eff0 := leAt b 8 4, eff1 := leAt b 12 4, eff2 := leAt b 16 4, eff3 := leAt b 20 4 }

/-- The descriptor's bytes (07.R200). -/
def tdBytes (t : TD) : List Byte :=
  leBytes 8 t.base ++ leBytes 4 t.ext0 ++ leBytes 4 t.ext1 ++ leBytes 4 t.ext2 ++ leBytes 4 t.ext3 ++ leBytes 4 t.str1
    ++ leBytes 4 t.str2 ++ leBytes 4 t.str3 ++ leBytes 4 t.bound ++ leBytes 1 t.format ++ leBytes 1 t.skind
    ++ leBytes 1 t.alsel ++ leBytes 1 t.stream ++ leBytes 2 t.sideCap ++ leBytes 2 0 ++ leBytes 8 t.scaleBase
    ++ leBytes 8 t.sideBase

/-- The element format; meaningful after the check of R205. -/
def tdFmt (t : TD) : Fmt := (fmtOf t.format).getD .a8u

/-- The least of an extent and an actual-length register (07.R206). -/
def limitBy (e : Nat) (l : Nat) : Nat := min e l

/-- The descriptor with the effective extent that ALSEL's register gives (07.R206). -/
def withActual (t : TD) (al : Vector W32 8) : TD :=
  let n := t.alsel % 16
  if n = 0 ∨ 8 < n then t
  else
    let l := (getN al (n - 1) 0).toNat
    match t.alsel / 16 % 4 with
    | 0 => { t with eff0 := min t.ext0 l }
    | 1 => { t with eff1 := min t.ext1 l }
    | 2 => { t with eff2 := min t.ext2 l }
    | _ => { t with eff3 := min t.ext3 l }

/-- Some effective extent is 0 (07.R206). -/
def tdEmpty (t : TD) : Bool := t.eff0 == 0 || t.eff1 == 0 || t.eff2 == 0 || t.eff3 == 0

/-- Bytes of one innermost run of `n` elements (07.R204). -/
def runBytes (f : Fmt) (n : Nat) : Nat := (n * fmtBits f + 7) / 8

/-- Rounded up to 64. -/
def roundUp64 (n : Nat) : Nat := (n + 63) / 64 * 64

/-- Bytes of a tagged block of 32 rows (07.R204, 05.R139). -/
def blkBytes (t : TD) : Nat := 64 + roundUp64 (31 * t.str1 + runBytes (tdFmt t) t.ext0)

/-- The span of one plane of dimensions 0 and 1 (07.R547). -/
def plane1 (t : TD) : Nat :=
  let run := runBytes (tdFmt t) t.ext0
  if t.skind = 1 then
    (ceilDiv t.ext1 32 - 1) * blkBytes t + 64 + (t.ext1 - 1) % 32 * t.str1 + run
  else (t.ext1 - 1) * t.str1 + run

/-- The footprint's span in bytes (07.R204), with all extents non-zero. -/
def tdSpan (t : TD) : Nat := plane1 t + (t.ext2 - 1) * t.str2 + (t.ext3 - 1) * t.str3

/-- The bytes that a tensor's scale tensor takes (07.R203), with all extents non-zero. -/
def scaleSpan (t : TD) : Nat :=
  match t.skind with
  | 1 => 128 * ((t.ext1 + 31) / 32 * t.ext2 * t.ext3)
  | 2 => 2 * ((t.ext0 + 127) / 128 * t.ext1 * t.ext2 * t.ext3)
  | 3 => 16 * t.ext0
  | _ => 0

/-- The bytes that a tensor's side lists take (07.R202). -/
def sideSpan (t : TD) : Nat := 8 * t.sideCap * ((t.ext0 + 511) / 512 * ((t.ext1 + 1023) / 1024) * t.ext2 * t.ext3)

/-- Granules that the footprint touches (07.R204). -/
def tdNeed (t : TD) : Nat := (t.base % 64 + tdSpan t + 63) / 64

/-- Some declared extent is 0. -/
def tdNone (t : TD) : Bool := t.ext0 == 0 || t.ext1 == 0 || t.ext2 == 0 || t.ext3 == 0

/-- SKIND is valid for FORMAT (07.R203). -/
def skindOk (t : TD) : Bool :=
  match t.skind with
  | 1 => fmtA (tdFmt t)
  | 3 => fmtA (tdFmt t) || tdFmt t == .int8
  | _ => true

/-- The strides of a destination (07.R547). -/
def stridesOk (t : TD) : Bool :=
  (t.ext1 ≤ 1 || runBytes (tdFmt t) t.ext0 ≤ t.str1) && (t.ext2 ≤ 1 || plane1 t ≤ t.str2)
    && (t.ext3 ≤ 1 || (t.ext2 - 1) * t.str2 + plane1 t ≤ t.str3)

/-- The checks of 07.R205 but the stream one, in their order: the code of the first that fails. -/
def tdFault (t : TD) (dest : Bool) : Option Nat :=
  if (fmtOf t.format).isNone then some DESC_FORMAT
  else if !tdNone t && decide (t.bound < tdNeed t) then some DESC_BOUND
  else if !skindOk t || decide (8 < t.alsel % 16)
      || (t.skind == 1 && (t.base % 64 != 0 || t.scaleBase % 64 != 0)) || (dest && !stridesOk t) then some DESC_INVALID
  else none

/-- The address of the first element of row (i1, i2, i3) (07.R200, R204, 05.R139). -/
def rowAddr (t : TD) (i1 i2 i3 : Nat) : Nat :=
  let off := if t.skind = 1 then i1 / 32 * blkBytes t + 64 + i1 % 32 * t.str1 else i1 * t.str1
  wrapAddr (t.base + off + i2 * t.str2 + i3 * t.str3)

/-- The address of the data block header of block `b` of plane (i2, i3) (05.R139). -/
def headerAddr (t : TD) (b i2 i3 : Nat) : Nat := wrapAddr (t.base + b * blkBytes t + i2 * t.str2 + i3 * t.str3)

/-- The number of the scale block that serves row i1 of plane (i2, i3): blocks are numbered plane by plane
(05.R138, assumption 13). -/
def scaleBlockNo (t : TD) (i1 i2 i3 : Nat) : Nat := (i3 * t.ext2 + i2) * ceilDiv t.ext1 32 + i1 / 32

/-- The address of scale block `b` (07.R203). -/
def scaleBlockAddr (t : TD) (b : Nat) : Nat := wrapAddr (t.scaleBase + 128 * b)

/-- The address of the BF16 block scale of element (i0, i1, i2, i3) (07.R203). -/
def blockScaleAddr (t : TD) (i0 i1 i2 i3 : Nat) : Nat :=
  wrapAddr (t.scaleBase + 2 * (((i3 * t.ext2 + i2) * t.ext1 + i1) * ceilDiv t.ext0 128 + i0 / 128))

/-- The address of column record `j` (07.R203). -/
def columnRecAddr (t : TD) (j : Nat) : Nat := wrapAddr (t.scaleBase + 16 * j)

/-- The block of R126 that holds an element (07.R202). -/
def sideBlock (t : TD) (i0 i1 i2 i3 : Nat) : Nat :=
  ((i3 * t.ext2 + i2) * ceilDiv t.ext1 1024 + i1 / 1024) * ceilDiv t.ext0 512 + i0 / 512

/-- The address of the side list of block `b` (07.R202). -/
def sideListAddr (t : TD) (b : Nat) : Nat := wrapAddr (t.sideBase + 8 * t.sideCap * b)

/-- The rows (i1, i2, i3) within effective extents, in order (04.R110). -/
def tdRows (t : TD) : List (Nat × Nat × Nat) :=
  (List.range t.eff3).flatMap (fun i3 => (List.range t.eff2).flatMap (fun i2 =>
    (List.range t.eff1).map (fun i1 => (i1, i2, i3))))

/-- The indices (i0, i1, i2, i3) within effective extents, in order (04.R110). -/
def tdIndices (t : TD) : List (Nat × Nat × Nat × Nat) :=
  (tdRows t).flatMap (fun r => (List.range t.eff0).map (fun i0 => (i0, r.1, r.2.1, r.2.2)))

/-- The bytes that the data of a tensor's rows take: address and length of each run. -/
def tdRuns (t : TD) : List (Nat × Nat) :=
  (tdRows t).map (fun r => (rowAddr t r.1 r.2.1 r.2.2, runBytes (tdFmt t) t.eff0))

/-! ### Abandonment (20.R489) -/

/-- The bytes from a store key on are left unspecified: each takes a free value (20.R489). -/
def State.scramble (s : State) (key n : Nat) : State :=
  let (d, s) := s.draw
  s.poke key ((List.range n).map (fun i => Config.unspecifiedByte d (key + i)))

/-- The destinations that instructions were writing become unspecified. -/
def State.scrambleTds (s : State) (tds : List TD) : State :=
  (tds.flatMap tdRuns).foldl (fun s r =>
    if addrDev r.1 = s.shape.fabricId ∧ addrRegion r.1 ≤ 3 then s.scramble (r.1 % 2 ^ 48) r.2 else s) s

/-- Everything in a core's queues is abandoned at once (20.R489). -/
def State.abandon (s : State) (c : Fin 64) : State :=
  let k := s.cores[c]
  let es := k.seq.millQ ++ k.seq.moverQ.toList.flatten
  let s := s.scrambleTds (es.flatMap (fun e => e.dst)
    ++ (k.loomQ.filter (fun i => i.phase == .done)).flatMap (fun i => i.q.dst))
  let s := (s.discard (.core c)).forget (.core c)
  let gone := es.map (fun e => e.uid) ++ k.loomQ.map (fun i => i.q.uid)
  let s := s.updCore c (fun k => { k with
    loomQ := []
    seq := unwait gone { k.seq with
      millQ := [], moverQ := Vector.replicate 4 [], running := false, wait := none, stepOne := false } })
  { s with
    capHeld := s.capHeld.filter (fun g => decide (g.core ≠ c.val))
    progHeld := s.progHeld.filter (fun g => decide (g.core ≠ c.val)) }

end Sys2Proof.Machine
end

