-- ==== Sys2Proof/Machine/JobOps.lean ====
section
/-!
DEFINITION. Operations on jobs and loads that several chapters share: stopping a core, ending and striking a job
(15.R401, 20.R491), and the end of a load that fails (11.R317, R321, R326).
-/

namespace Sys2Proof.Machine

/-- Core number as an index; numbers below 64 are themselves. -/
def coreIx (n : Nat) : Fin 64 := ⟨n % 64, by omega⟩

/-- The job of a submission slot. -/
def State.jobOf (s : State) (slot : Nat) : Option Job := s.jobs.find? (fun j => j.slot == slot)

/-- The job of a submission slot with `f` applied. -/
def State.updJob (s : State) (slot : Nat) (f : Job → Job) : State :=
  { s with jobs := s.jobs.map (fun j => if j.slot = slot then f j else j) }

/-- The core's part of the job is over: its sequencer decodes nothing more, a WAIT ends unsatisfied without WTO, and
instructions that have not started are discarded (07.R217, 15.R401). -/
def State.stopCore (s : State) (c : Fin 64) : State :=
  let s := s.updCore c (fun k => { k with seq := { k.seq with running := false, wait := none, stepOne := false } })
  s.discard (.core c)

/-- Every core of the job but those listed stops. -/
def State.stopCores (s : State) (j : Job) (except : List Nat) : State :=
  j.cores.foldl (fun s e => if except.contains e.2 then s else s.stopCore (coreIx e.2)) s

/-- A dispatched job ends with a status before its cores have joined (15.R399, R401, R403). -/
def State.endJob (s : State) (slot status d0 d1 : Nat) : State :=
  match s.jobOf slot with
  | none => s
  | some j =>
    let s := s.updJob slot (fun j => { j with st := .ending, status := some status, d0 := d0, d1 := d1 })
    s.stopCores j []

/-- The core has executed JOIN with END: rank 0 leaves what the next run takes over (15.R406), and when every core of the set has,
the job is ending (15.R399). -/
def State.joinEnd (s : State) (c : Fin 64) : State :=
  let s := s.updCore c (fun k => { k with seq := { k.seq with ended := true } })
  match s.cores[c].job.bind s.jobOf with
  | none => s
  | some j =>
    let k := s.cores[c]
    let s := if k.rank = 0 then
        s.updJob j.slot (fun j => { j with joinAl := k.seq.al.toList, joinCmp := k.seq.flags.getLsbD FLAG_CMP })
      else s
    if j.st = .running ∧ j.cores.all (fun e => s.cores[coreIx e.2].seq.ended) then
      s.updJob j.slot (fun j => { j with st := .ending })
    else s

/-- A core of a dispatched, running or ending job is fenced: the job is struck (20.R491). -/
def State.strike (s : State) (c : Fin 64) : State :=
  match s.jobs.find? (fun j => j.st != .waiting && j.cores.any (fun e => e.2 == c.val)) with
  | none => s
  | some j =>
    let s := s.updJob j.slot (fun j =>
      { j with st := .ending, struck := some (j.struck.getD c.val), lastFenced := c.val })
    s.stopCores j [c.val]

/-! ### Loads -/

/-- The Warehouse offset of the ply directory entry of a loom-ply (11.R309). -/
def dirAddr (q : Nat) : Nat := 0x3FFF80000 + 64 * q

/-- A ply directory entry from its bytes (11.R309). -/
def parseDir (b : List Byte) : DirEntry :=
  { valid := bit (leAt b 0 8) 63, bundle := bits (leAt b 0 8) 0 44, sideCount := leAt b 8 2, outs := leAt b 10 2
    rows := leAt b 12 2, slot := leAt b 14 1, unit := leAt b 15 1, layerId := leAt b 16 2 }

/-- The bytes of a ply directory entry (11.R309). -/
def dirBytes (d : DirEntry) : List Byte :=
  leBytes 8 (b2n d.valid * 2 ^ 63 + d.bundle % 2 ^ 44) ++ leBytes 2 d.sideCount ++ leBytes 2 d.outs ++ leBytes 2 d.rows
    ++ leBytes 1 d.slot ++ leBytes 1 d.unit ++ leBytes 2 d.layerId ++ List.replicate 46 0

/-- The directory entry of a loom-ply. -/
def State.dirOf (s : State) (q : Nat) : DirEntry := parseDir (s.peek (dirAddr q) 64)

/-- The directory entry of a loom-ply written. -/
def State.putDir (s : State) (q : Nat) (d : DirEntry) : State := s.poke (dirAddr q) (dirBytes d)

/-- The directory entry of a loom-ply marked not VALID. -/
def State.dropDir (s : State) (q : Nat) : State := s.putDir q { s.dirOf q with valid := false }

/-- The completion of a load: its status, its counts, and its third detail (14.R385, 11.R296). -/
def LoadReq.completion (l : LoadReq) (status d2 : Nat) : Completion :=
  { l.done with
    status := status, d0 := l.clipped % 2 ^ 32 + l.sideTotal % 2 ^ 32 * 2 ^ 32
    d1 := l.outTol % 2 ^ 32 + l.reprogrammed % 2 ^ 32 * 2 ^ 32, d2 := d2 }

/-- Plies of the placement whose steps have completed for the new model, that no model owns yet; in a RESTORE, those whose
entries have been written (11.R317, R325). -/
def State.newPlies (s : State) (l : LoadReq) : List Nat :=
  l.programmed.filter (fun q => l.restore || (NatMap.get {} s.plies q).owner.isNone)

/-- Another device of a load hears how it has ended here (11.R305, assumption 146). -/
def State.tellLoad (s : State) (dest status d2 : Nat) : State :=
  let op : Config.StitchOp := { dest := dest, src := s.shape.fabricId, seq := 0, kind := 4, addr := status, len := d2 }
  s.sendFrame dest 0 { header := Config.stitchLoadEnd op, payload := [] }

/-- The other devices of a load: from the intake device the holders of its shards, from a holder the intake device. -/
def State.loadPeers (s : State) (l : LoadReq) : List Nat :=
  if !l.intake then [l.intakeId]
  else match l.manifest with
    | some m => (List.range 8).filter (fun i => i != s.shape.fabricId && m.chunks.any (fun c => c.shard == i))
    | none => []

/-- The request is over with a status: before admission its newly written plies are free again, and its heap and bundles
are freed (11.R317). Only the intake device posts a completion. -/
def State.closeLoad (s : State) (status d2 : Nat) : State :=
  match s.load with
  | none => s
  | some l =>
    let s := if l.admitted then s else (s.newPlies l).foldl (fun s q => s.dropDir q) s
    let s := { s with load := none }
    if l.intake then s.finishReq (l.completion status d2) else s

/-- A load fails: before admission it ends at once; after admission the rollback of 11.R321 follows, with the code of the
first failure. The other devices of the load hear of it. -/
def State.loadFailure (s : State) (status d2 : Nat) : State :=
  match s.load with
  | none => s
  | some l =>
    if l.admitted && decide (l.done.status ≠ 0) then s
    else
      let s := (s.loadPeers l).foldl (fun s i => s.tellLoad i status d2) s
      if l.admitted then { s with load := some { l with done := { l.done with status := status, d2 := d2 } } }
      else s.closeLoad status d2

end Sys2Proof.Machine
end

