-- ==== Sys2Proof/Machine/Fence.lean ====
section
/-!
DEFINITION. Fencing (chapter 20): what a fence of a core does, and the detections and thresholds of 20.R486.
-/

namespace Sys2Proof.Machine

/-- A 64-bit map with the bit of one core. -/
def coreMask (c : Fin 64) : W64 := BitVec.ofNat 64 (2 ^ c.val)

/-- A number inserted in rising order, once. -/
def insertRising (l : List Nat) (n : Nat) : List Nat :=
  if l.contains n then l else l.filter (· < n) ++ n :: l.filter (n < ·)

/-- The slot owns a ply on the core (11.R287). -/
def State.ownsOn (s : State) (mslot : Nat) (c : Fin 64) : Bool :=
  s.plies.any (fun e => e.1 / 128 == c.val && e.2.owner == some mslot)

/-- Every slot that owns plies on a fenced core awaits a remap, in fenced-core order; a fenced stand-in that computed
digitally gives its place up, and the core it stood for awaits the remap again (20.R495, R498, R501). -/
def State.needRemaps (s : State) (c : Fin 64) : State :=
  { s with models := s.models.mapFinIdx (fun m k _ =>
      let k := if k.digital.contains c.val then
          { k with
            remaps := (k.pairs.filter (fun p => p.2 == c.val)).foldl (fun l p => insertRising l p.1) k.remaps
            digital := k.digital.filter (· ≠ c.val)
            pairs := k.pairs.filter (fun p => p.2 != c.val) }
        else k
      let k := if (k.remapTo.map (fun p => p.2)) = some c.val then { k with remapTo := none } else k
      if s.ownsOn m c then { k with remaps := insertRising k.remaps c.val } else k) }

/-- The load in progress places a ply on the core. -/
def State.loadOn (s : State) (c : Fin 64) : Bool :=
  match s.load with
  | some l => l.map.any (fun p => p.device == s.shape.fabricId && p.engine / 16 == c.val)
  | none => false

/-- What a fence does at once, outside the shape table: the core stops, what it ran is abandoned, its pending calibration
is discarded, its job is struck, re-anneals and loads on it end, and its plies await a remap (20.R489, R491, R501). -/
def State.fenceEffects (s : State) (c : Fin 64) : State :=
  let s := s.abandon c
  let s := s.updCore c (fun k => { k with pending := [], applyMark := false, calCore := [], service := false })
  let s := { s with progWait := s.progWait.filter (fun g => decide (g.core ≠ c.val)) }
  let s := s.strike c
  let s := if s.loadOn c then s.loadFailure WL_ABORTED 0 else s
  s.needRemaps c

/-- The fencing logic fences a core: its cause is logged, its CORE_MAP bit is cleared by an update of the shape table, and
it stops (20.R489, R492). -/
def State.fenceCore (s : State) (c : Fin 64) (cause : Nat) : State :=
  let k := s.cores[c]
  if k.fencedLogic then s
  else
    let s := (s.updCore c (fun k => { k with fencedLogic := true })).logEvent cause
    if k.fencedMg then s
    else (s.shapeChange (.cores (coreMask c) 0)).fenceEffects c

/-! ### Detections (20.R486) -/

/-- The times of a sliding window of `w` us that still count at `now`. -/
def inWindow (now w : Nat) (ts : List Nat) : List Nat := ts.filter (fun t => now < t + w)

/-- A check miss on an engine: 4 within 100 ms fence its core. -/
def State.checkMiss (s : State) (c : Fin 64) (e : Nat) : State :=
  let ms := s.timeUs :: inWindow s.timeUs 100000 (getN s.cores[c].engines e {}).misses
  let s := s.updEngine c e (fun g => { g with misses := ms })
  if 4 ≤ ms.length then s.fenceCore c FN_CHECK else s

/-- An uncorrectable error in a core's SRAMs fences it at once. -/
def State.coreEcc (s : State) (c : Fin 64) : State := s.fenceCore c FN_ECC

/-- A corrected error in a core's SRAMs, of its store or of its accumulators by the event `ev`: 256 within 1 h fence it
(21.R509). -/
def State.coreCorrected (s : State) (c : Fin 64) (ev : Nat) : State :=
  let s := s.count c ev 1
  let ts := s.timeUs :: inWindow s.timeUs 3600000000 s.cores[c].corrected
  let s := s.updCore c (fun k => { k with corrected := ts })
  if 256 ≤ ts.length then s.fenceCore c FN_ECC else s

/-- The granule whose line stands at a cache location. -/
def Cluster.lineAt (u : Cluster) (set way : Nat) : Option Nat :=
  ((NatMap.get [] u.lines set).find? (fun e => e.1 == way)).map (fun e => e.2)

/-- An uncorrectable error at a cache location poisons the granule it holds and disables the location, whose line is gone; the
256th fences every core of the cluster (10.R277, 20.R486, R488). -/
def State.disableCacheLine (s : State) (k : Fin 8) (set way : Nat) : State :=
  if s.clusters[k].disabled.contains (set, way) then s
  else
    let s := match s.clusters[k].lineAt set way with
      | some g => { s with poison := NatMap.put false s.poison g true }
      | none => s
    let s := s.updCluster k (fun u => { u with
      disabled := u.disabled ++ [(set, way)]
      lines := NatMap.put [] u.lines set ((NatMap.get [] u.lines set).filter (fun e => e.1 != way)) })
    if s.clusters[k].disabled.length = 256 then
      (List.range 8).foldl (fun s i => s.fenceCore (coreIx (8 * k.val + i)) FN_CACHE) s
    else s

/-- An RF7 variance report of an engine, or its absence: 2 consecutive ones fence its core (12.R332). -/
def State.rf7Report (s : State) (c : Fin 64) (e : Nat) (reported : Bool) : State :=
  let n := if reported then (getN s.cores[c].engines e {}).rf7 + 1 else 0
  let s := s.updEngine c e (fun g => { g with rf7 := n })
  if 2 ≤ n then s.fenceCore c FN_CONVERTER else s

/-- The outcome of the converter self-test of a core (20.R487): each engine passes or fails, which the manual leaves to
the analogue hardware. -/
def State.selfTest (s : State) (c : Fin 64) : Bool × State :=
  let pass := (List.range 16).all (fun e => Config.selfTestPasses (s.fresh + e))
  let s := { s with fresh := s.fresh + 16 }
  (pass, if pass then s else s.fenceCore c FN_CONVERTER)

end Sys2Proof.Machine
end

