-- ==== Sys2Proof/Machine/Grants.lean ====
section
/-!
DEFINITION. The activity cap and the programming budget (01.R27, 03.R107, 11.R314): requests wait in arrival order, and
the one at the head is granted whole, or waits.
-/

namespace Sys2Proof.Machine

/-- Engines that a list of grants holds. -/
def grantSum (l : List GrantReq) : Nat := l.foldl (fun a g => a + g.count) 0

/-- The limit on integrating engines in force: the effective cap, never above ACT_CAP (16.R413). -/
def State.capLimit (s : State) : Nat := min s.power.capEff s.shape.actCap

/-- A request against the activity cap fits: the whole count, and in A4 the 128 engines of 03.R107; or nothing is held
(01.R27). -/
def State.capFits (s : State) (g : GrantReq) : Bool :=
  s.capHeld.isEmpty
    || (decide (grantSum s.capHeld + g.count ≤ s.capLimit)
        && (!g.a4 || decide (grantSum (s.capHeld.filter (fun h => h.a4)) + g.count ≤ 128)))

/-- A request against the programming budget it was made under fits, or nothing is held (11.R314, 16.R410). -/
def State.progFits (s : State) (g : GrantReq) : Bool :=
  s.progHeld.isEmpty || decide (grantSum s.progHeld + g.count ≤ g.budget)

/-- Engines may start to integrate: REFCLK is present and the delay lines have locked (01.R32), the device is not in TRIP
(16.R415) and is in state A (16.R416). -/
def State.engineReady (s : State) : Bool :=
  s.refclk.present && s.refclk.locked && !s.power.inTrip && decide (s.power.cur = 0)

/-- The head of the activity cap's queue is granted when it fits. -/
def State.grantCap (s : State) : Option (GrantReq × State) :=
  match s.capWait with
  | g :: rest =>
    if s.engineReady && s.capFits g then some (g, { s with capWait := rest, capHeld := s.capHeld ++ [g] }) else none
  | [] => none

/-- The head of the programming budget's queue is granted when it fits. -/
def State.grantProg (s : State) : Option (GrantReq × State) :=
  match s.progWait with
  | g :: rest =>
    if s.engineReady && s.progFits g then some (g, { s with progWait := rest, progHeld := s.progHeld ++ [g] }) else none
  | [] => none

/-- The grant of a core's instruction is released (03.R106). -/
def State.releaseCap (s : State) (c : Fin 64) : State :=
  { s with capHeld := s.capHeld.filter (fun g => decide (g.core ≠ c.val)) }

/-- The programming grant of a core's instruction is released. -/
def State.releaseProg (s : State) (c : Fin 64) : State :=
  { s with progHeld := s.progHeld.filter (fun g => decide (g.core ≠ c.val)) }

/-- Work of the device's own on one core needs no more than what nobody else holds or waits for: its grant of `n` engines
is taken and given back within one command. -/
def State.capFree (s : State) (c : Fin 64) (n : Nat) : Bool :=
  s.engineReady && s.capWait.isEmpty && s.capFits { core := c.val, count := n }

/-- The same for the programming budget (11.R314). -/
def State.progFree (s : State) (c : Fin 64) (n : Nat) : Bool :=
  s.engineReady && s.progWait.isEmpty && s.progFits { core := c.val, count := n, budget := s.power.progBudget }

end Sys2Proof.Machine
end

