-- ==== Sys2Proof/Machine/Trims.lean ====
section
/-!
DEFINITION. Trim records in the Warehouse and in the engines' trim memories (12.R335, R336), ply records, and the loss
and return of an engine's analogue domain (01.R34).
-/

namespace Sys2Proof.Machine

/-- x_max (02, The ideal result). -/
def xMax (a4 : Bool) : Nat := if a4 then 15 else 255
/-- X_FS and Y_FS. -/
def xFs (a4 : Bool) : Nat := 1024 * xMax a4
def yFs (a4 : Bool) : Nat := 15 * xFs a4

/-- The Warehouse offset of a loom-ply's trim record (12.R335). -/
def trimAddr (q : Nat) : Nat := 0x3FEF80000 + 2048 * q

/-- Column trims of a record: (column, (gain, offset)) where either is not 0 (12.R335). -/
def parseCols (b : List Byte) : Nat → Nat → NatMap (Int × Int)
  | 0, _ => []
  | n + 1, i =>
    let g := signed 8 (leAt b (0x41 + 2 * i) 1)
    let o := signed 8 (leAt b (0x40 + 2 * i) 1)
    let rest := parseCols b n (i + 1)
    if g = 0 ∧ o = 0 then rest else (i, (g, o)) :: rest

/-- A trim record from its bytes (12.R335). -/
def parseTrim (b : List Byte) : Trim :=
  { gain := leAt b 0 4, offset := signed 32 (leAt b 4 4), tCal := signed 16 (leAt b 8 2)
    valid := bit (leAt b 10 2) 0, cols := bit (leAt b 10 2) 1, ageM := BitVec.ofNat 32 (leAt b 12 4)
    chkA := leAt b 0x10 1, chkB := leAt b 0x11 1, rawG := BitVec.ofNat 32 (leAt b 0x12 4), col := parseCols b 516 0 }

/-- The bytes of a trim record (12.R335). -/
def trimBytes (t : Trim) : List Byte :=
  leBytes 4 t.gain ++ leBytes 4 (unsigned 32 t.offset) ++ leBytes 2 (unsigned 16 t.tCal)
    ++ leBytes 2 (b2n t.valid + 2 * b2n t.cols) ++ leBytes 4 t.ageM.toNat ++ leBytes 1 t.chkA ++ leBytes 1 t.chkB
    ++ leBytes 4 t.rawG.toNat ++ List.replicate 42 (0 : Byte)
    ++ (List.range 516).flatMap (fun i =>
        let (g, o) := NatMap.get (0, 0) t.col i
        leBytes 1 (unsigned 8 o) ++ leBytes 1 (unsigned 8 g))
    ++ List.replicate 952 (0 : Byte)

/-- The trim record of a loom-ply as it stands in the Warehouse. -/
def State.trimOf (s : State) (q : Nat) : Trim := parseTrim (s.peek (trimAddr q) 2048)


/-- The ply record with `f` applied. -/
def State.updPly (s : State) (q : Nat) (f : PlyRec → PlyRec) : State :=
  { s with plies := NatMap.update {} s.plies q f }

/-- Assay's work on a loom-ply with `f` applied. -/
def State.updAssay (s : State) (q : Nat) (f : AssayPly → AssayPly) : State :=
  { s with assay := { s.assay with plies := NatMap.update {} s.assay.plies q f } }

/-- A trim record takes effect: it is written to the Warehouse and loaded into the engine's trim memory (12.R328); the age at
which it does is kept (12.R341), and AGE and TEMP are seen anew against it (12.R342). -/
def State.setTrim (s : State) (q : Nat) (t : Trim) : State :=
  let old := s.trimOf q
  let now := s.ageUnits q
  let s := s.poke (trimAddr q) (trimBytes t)
  let s := s.updEngine (plyCore q) (plyEngine q) (fun e => { e with trims := updN e.trims (q % 8) (fun _ => some t) })
  s.updAssay q (fun a => { a with
    appliedAge := now, firedAge := a.firedAge && old.ageM == t.ageM, firedTemp := a.firedTemp && old.tCal == t.tCal })

/-- The trims made neutral at a write opening: column offset trims are kept, any pending record is discarded and any
measurement, and the full run it belongs to, abandoned (12.R336). -/
def State.neutralTrim (s : State) (q : Nat) : State :=
  let old := s.trimOf q
  let col := (old.col.map (fun e => (e.1, ((0 : Int), e.2.2)))).filter (fun e => decide (e.2 ≠ (0, 0)))
  let s := s.setTrim q { old with gain := 0x1000000, offset := 0, cols := false, valid := true, col := col }
  let s := s.updCore (plyCore q) (fun k => { k with pending := NatMap.erase k.pending q })
  s.updAssay q (fun a => { a with meas := {}, cols := none, fullRun := false })

/-- The retained part of an engine loses power: its trim memory and open write openings are lost, and its selected ply
is P0 when power returns (01.R34, 02.R48, R73). -/
def unpowerEngine (e : Engine) : Engine :=
  { e with active := false, retained := false, trims := Vector.replicate 8 none, openings := [], selected := 0 }

/-- Power returns to an engine and its trim memory loads from the trim records (12.R340); a record that is not VALID
loads nothing, and the ply then reads under neutral trims. -/
def State.powerEngines (s : State) : State :=
  { s with cores := s.cores.mapFinIdx (fun c k hc =>
      { k with
        gated := false
        engines := k.engines.mapFinIdx (fun e g _ =>
          { g with
            retained := true
            trims := Vector.ofFn (fun p : Fin 8 =>
              let t := s.trimOf (plyNo ⟨c, hc⟩ e p.val)
              if t.valid then some t else none) }) }) }

/-! ### Triggers (12.R342) -/

/-- House firmware runs: only its CAL instructions drive engines, measure, apply and write the calibration store (01.R37). -/
def State.houseRuns (s : State) : Bool := (s.boot == .house || s.boot == .service) && s.house.running

/-- Assay's measurements, full runs, applications and re-anneals may start (01.R37, 12.R350 EN). -/
def State.assayActs (s : State) : Bool := s.assay.en && s.houseRuns

/-- The ply is owned and its core usable (12.R342). -/
def State.calPly (s : State) (q : Nat) : Bool := (s.plyRec q).owner.isSome && s.usable (plyCore q)

/-- The temperature of a ply's cluster, that of its age clock (12.R329). -/
def State.plyTemp (s : State) (q : Nat) : Int := getN s.assay.rate (clusterOf (plyCore q)).val 4500

/-- The engines of a core that hold an owned ply of a plane (12.R333), as a mask. -/
def State.ownedEngines (s : State) (c : Fin 64) (ply : Nat) : Nat :=
  ((List.range 16).filter (fun e => (s.plyRec (plyNo c e ply)).owner.isSome)).foldl (fun m e => m + 2 ^ e) 0

/-- The full run of the plane of a ply is scheduled, once (12.R333, R342). -/
def State.scheduleFull (s : State) (q : Nat) : State :=
  let c := plyCore q
  let p := q % 8
  if s.cores[c].calCore.any (fun w => w.verify && w.ply == p) then s
  else s.updCore c (fun k => { k with calCore := k.calCore ++ [{ verify := true, emask := s.ownedEngines c p, ply := p }] })

/-- A trigger starts a light measurement of an owned ply of a usable core, with `full` also a full run, and wakes the device
(16.R419); while EN is 0 or no house firmware runs it is held; while a run of the kind is active it is absorbed into it
(12.R342, R350). -/
def State.trigger (s : State) (q : Nat) (full : Bool) : State :=
  if !s.calPly q then s
  else if !s.assayActs then
    if s.assay.held.contains (q, full) then s
    else { s with assay := { s.assay with held := s.assay.held ++ [(q, full)] } }
  else
    let begun := (s.assayPly q).fullRun
    let s := (s.wakeEvent false).updAssay q (fun a =>
      { a with
        meas := if a.meas.active then a.meas else { active := true, t0 := s.plyTemp q }
        fullRun := a.fullRun || full })
    if full && !begun then s.scheduleFull q else s

/-- The loom-plies a predicate selects among those with a record. -/
def State.pliesWhere (s : State) (p : PlyRec → Bool) : List Nat := (s.plies.filter (fun e => p e.2)).map (fun e => e.1)

/-- The loom-plies a slot owns, rising (11.R287). -/
def State.pliesOf (s : State) (mslot : Nat) : List Nat := s.pliesWhere (fun r => r.owner == some mslot)

/-- Triggers that were held start their work, where they now may (12.R350). -/
def State.releaseHeld (s : State) : State :=
  let held := s.assay.held
  if !s.assayActs then s
  else held.foldl (fun s h => s.trigger h.1 h.2) { s with assay := { s.assay with held := [] } }

/-- The POWER trigger of every owned ply: an age estimate and a light measurement (12.R342). -/
def State.powerTrigger (s : State) : State :=
  (s.pliesWhere (fun r => r.owner.isSome)).foldl (fun s q =>
    (s.updAssay q (fun a => { a with ageEstimate := true })).trigger q false) s

end Sys2Proof.Machine
end

