-- ==== Sys2Proof/Machine/Analog.lean ====
section
/-!
DEFINITION. What the cells of a ply carry when they are read (chapter 02): drift and the spread of its exponents (R54, R55), the
temperature (R58), what the columns and rows integrate (R38 to R41, R69), and the residual that compensation leaves
(R59, 12.R341). Levels count in level steps; integrated values in partial units (03.R88).
-/

namespace Sys2Proof.Machine

/-! ### A ply as it stands at a read -/

/-- A ply at the moment of a read: its cells, their true age clock in 2^-84 s, the junction temperature in 0.01 degrees C, the
trims in effect, and, where compensation bounds the residual, the gain error that the age adds to it (12.R341). -/
structure PlyView where
  q : Nat
  cells : PlyCells
  clock : Nat
  temp : Int
  trim : Trim
  late : Option Rat
  deriving DecidableEq, Repr

/-- The trims that an engine's converters use for its ply; neutral where its trim memory holds none (03.R86, 12.R336). -/
def Engine.trimOf (g : Engine) (ply : Nat) : Trim := (getN g.trims ply none).getD {}

/-- The gain error that a read long after the last application adds, as a part of the reading (12.R341). -/
def State.lateError (s : State) (q : Nat) : Rat :=
  let then_ := max (((s.assayPly q).appliedAge : Rat) / (2 ^ 20 : Nat)) (1 / 1000)
  max 0 ((54 : Rat) / 1000 * (lnQ (s.plyAge q / then_) - (s.assay.ageLimit : Rat) / 1024))

/-- Compensation applies to a ply (02.R59): it is written, its age is known and at most a year, its trims are loaded and no
write opening holds them neutral. -/
def State.compensated (s : State) (c : Fin 64) (e ply : Nat) : Bool :=
  let q := plyNo c e ply
  let g := getN s.cores[c].engines e {}
  (s.plyRec q).written && !(s.assayPly q).ageEstimate && decide (s.plyAge q ≤ 31536000) && (getN g.trims ply none).isSome
    && !g.openings.any (fun o => o.ply == ply)

/-- A ply as a read finds it; draw `n` gives how far its junction stands from the last reading. -/
def State.plyView (s : State) (c : Fin 64) (e ply n : Nat) : PlyView :=
  let q := plyNo c e ply
  { q := q, cells := NatMap.get {} s.cells q, clock := getN s.cellClock (clusterOf c).val 0
    temp := s.plyTemp q + Config.junctionShift n, trim := (getN s.cores[c].engines e {}).trimOf ply
    late := if s.compensated c e ply then some (s.lateError q) else none }

/-! ### Drift and temperature (02.R54, R55, R58) -/

/-- ν̄ of a ply (02.R55). -/
def plyNu (q : Nat) : Rat := withinRat (2 / 100) (5 / 100) (Config.plyNu q)

/-- The exponent of one cell (02.R55). -/
def cellNu (q row col : Nat) (minus : Bool) : Rat :=
  plyNu q + withinRat (-4 / 1000) (4 / 1000) (Config.cellNu q row col minus)

/-- α of a ply per 0.01 degrees C (02.R58). -/
def alphaOf (q : Nat) : Rat := withinRat (5 / 10000) (10 / 10000) (Config.tempCoefficient q) / 100

/-- The age in seconds of a row's cells, at least 1 ms (02.R54, 12.R330). -/
def PlyView.age (v : PlyView) (row : Nat) : Rat :=
  max (1 / 1000) (((v.clock - (NatMap.get (0, 0) v.cells.prog row).1 : Nat) : Rat) / ((2 ^ 84 : Nat) : Rat))

/-- 1 + α · (T − T'). -/
def PlyView.warm (v : PlyView) (t from_ : Int) : Rat := 1 + alphaOf v.q * ((t - from_ : Int) : Rat)

/-- The temperature factor of a row as the tap reads it, relative to its programming; and as the converters read it, which is
1 + α · (T − T_cal) of that at the last applied calibration (02.R58). -/
def PlyView.tapHeat (v : PlyView) (row : Nat) : Rat := v.warm v.temp (NatMap.get (0, v.temp) v.cells.prog row).2
def PlyView.heat (v : PlyView) (row : Nat) : Rat :=
  if v.trim.valid then v.warm v.trim.tCal (NatMap.get (0, v.temp) v.cells.prog row).2 * v.warm v.temp v.trim.tCal
  else v.tapHeat row

/-- The conductance of one cell in level steps, from its level at t0: G_min is 5/6 level (02.R40, R54). -/
def PlyView.cell (v : PlyView) (row col : Nat) (minus : Bool) (level : Rat) : Rat :=
  (5 / 6 + level) * powQ (v.age row) (-(cellNu v.q row col minus))

/-- The difference of a pair whose value at t0 is `w` in 1/128 level (02.R41, R54). -/
def PlyView.pair (v : PlyView) (row col : Nat) (w : Int) : Rat :=
  v.cell row col false ((max w 0 : Int) / 128) - v.cell row col true ((max (-w) 0 : Int) / 128)

/-! ### Integration (02, The ideal result; 02.R69) -/

/-- The cells of a loom-ply. -/
def State.cellsOf (s : State) (q : Nat) : NatMap (List Int) := (NatMap.get {} s.cells q).rows

/-- `acc` plus `x` times a row of cells. -/
def addScaled (x : Int) : List Int → List Int → List Int
  | a :: as, w :: ws => (a + x * w) :: addScaled x as ws
  | as, [] => as
  | [], _ => []

/-- The ideal integrated value of the 516 user and check columns under codes per row, in 1/128 partial units. -/
def columnSums (cells : NatMap (List Int)) (codes : List Nat) : List Int :=
  cells.foldl (fun acc e =>
    let x := codes.getD e.1 0
    if x = 0 then acc else addScaled x acc e.2) (List.replicate 516 0)

/-- The ideal integrated value of row `r` under codes per physical column, in 1/128 partial units (02.R69). -/
def rowSum (cells : NatMap (List Int)) (drive : List Nat) (r : Nat) : Int :=
  ((NatMap.get [] cells r).zip drive).foldl (fun a e => a + e.1 * (e.2 : Int)) 0

/-- What column `col` integrates under codes per row (R38 to R42), `heat` giving each row's temperature factor. -/
def PlyView.column (v : PlyView) (heat : Nat → Rat) (codes : List Nat) (col : Nat) : Rat :=
  v.cells.rows.foldl (fun a e =>
    let x := codes.getD e.1 0
    if x = 0 then a else a + (x : Rat) * (v.pair e.1 col (e.2.getD col 0) * heat e.1)) 0

/-- What row `r` integrates under codes per physical column (02.R69). -/
def PlyView.row (v : PlyView) (drive : List Nat) (r : Nat) : Rat :=
  (((NatMap.get [] v.cells.rows r).zip drive).mapIdx (fun col e =>
    if e.2 = 0 then (0 : Rat) else (e.2 : Rat) * (v.pair r col e.1 * v.heat r))).foldl (· + ·) 0

/-- The reference columns' places in a row of cells (02.R38). -/
def refColumn (col : Nat) : Nat := 516 + col

/-- The pair value of a reference column in row `r` (02.R67). -/
def refLevel (col r : Nat) : Int :=
  match col with
  | 0 => 15
  | 1 => 11
  | 2 => 7
  | 3 => 3
  | 4 => 0
  | 5 => -7
  | 6 => -15
  | _ => if r % 2 = 0 then 15 else -15

/-- What the tap takes of a reference column, before any trim acts, in 1/128 partial units; `n` numbers the noise (02.R39,
R68). -/
def PlyView.tap (v : PlyView) (codes : List Nat) (col n : Nat) : Int :=
  rne (v.column v.tapHeat codes (refColumn col) * 128) + Config.readError n

/-! ### Conversion (03.R84 to R86) -/

/-- b of a mode (03.R84). -/
def convB (transposed a4 : Bool) : Nat :=
  if transposed then (if a4 then 4 else 8) else if a4 then 5 else 9

/-- A value converted: the smallest range that contains it, rounded to the nearest step; whether it clips (03.R85). -/
def convertTo (b : Nat) (v : Rat) : Int × Bool :=
  match [0, 1, 2, 3].find? (fun r =>
      decide (-(128 : Rat) * (2 ^ (b + 2 * r) : Nat) ≤ v ∧ v ≤ (127 : Rat) * (2 ^ (b + 2 * r) : Nat))) with
  | some r => (rne (v / (2 ^ (b + 2 * r) : Nat)) * (2 ^ (b + 2 * r) : Nat), false)
  | none => ((if v < 0 then -128 else 127) * (2 ^ (b + 6) : Nat), true)

/-- An integrated value as the converter sees it, after the trims of 12.R335: OFFSET and the column's gain and offset. -/
def trimmed (t : Trim) (b col x : Nat) (raw : Rat) : Rat :=
  let (g, o) := NatMap.get (0, 0) t.col col
  (raw - (t.offset : Rat) * (x : Rat) / (2 ^ 20 : Nat)) * ((t.gain : Rat) / (2 ^ 24 : Nat)) * (1 + (g : Rat) / 4096)
    + (o : Rat) * ((2 ^ b : Nat) : Rat) / 64

/-- A trimmed value within the residual that compensation leaves: at most 0.5 % of full scale about the ideal value under
1 + α · (T − T_cal), and the late gain error beside it (02.R58, R59, 12.R341). `ideal` counts in 1/128. -/
def PlyView.settled (v : PlyView) (fullScale : Nat) (ideal : Int) (value : Rat) : Rat :=
  match v.late with
  | none => value
  | some l =>
    let y := (ideal : Rat) / 128 * v.warm v.temp v.trim.tCal
    let bound := (fullScale : Rat) / 200 + l * (if y < 0 then -y else y)
    withinRat (y - bound) (y + bound) value

/-- How a converter reads: the mode's b, its full scale, X, and the draw of its first column. -/
structure ReadMode where
  b : Nat
  fullScale : Nat
  x : Nat
  draw : Nat
  deriving DecidableEq, Repr

/-- One conversion under trims `t`: what was integrated, trimmed and settled, with its noise. -/
def PlyView.convert (v : PlyView) (t : Trim) (m : ReadMode) (col : Nat) (ideal : Int) (raw : Rat) : Int × Bool :=
  convertTo m.b (v.settled m.fullScale ideal (trimmed t m.b col m.x raw) + (Config.readError (m.draw + col) : Rat) / 128)

/-- Conversions of the columns listed under codes per row. -/
def PlyView.convertColumns (v : PlyView) (m : ReadMode) (codes : List Nat) (cols : List Nat) : List (Int × Bool) :=
  let ideal := columnSums v.cells.rows codes
  cols.map (fun c => v.convert v.trim m c (ideal.getD c 0) (v.column v.heat codes c))

/-! ### Reads of single rows (02.R43, 08.R240) -/

/-- A reading in levels of one pair with only its row driven at code 255 in A8, under the trims in effect; draw `n`. -/
def PlyView.reading (v : PlyView) (row col n : Nat) (w : Int) : Rat :=
  (trimmed v.trim 9 col 255 (255 * (v.pair row col w * v.heat row)) + (Config.readError n : Rat) / 128) / 255

/-- The drift of a row's cells at its age under the ply's mean exponent (02.R54, R55). -/
def PlyView.drift (v : PlyView) (row : Nat) : Rat := powQ (v.age row) (-(plyNu v.q))

/-- What compensation multiplies the targets of a row by: its drift at the age at which it is read, so that a target is met by the
same value at t0, under the gain trim in effect (02.R43, R54, 12.R328; DEDUCED, assumption 156). -/
def PlyView.comp (v : PlyView) (row : Nat) : Rat := v.drift row * ((v.trim.gain : Rat) / (2 ^ 24 : Nat))

/-- What the iterations of a PROG aim a pair at: the value at t0, in 1/128 level, whose reading is the compensated target
(11.R313, 02.R54). -/
def PlyView.aim (v : PlyView) (row col : Nat) (target : Rat) : Int :=
  let zero := trimmed v.trim 9 col 255 0
  let slope := (trimmed v.trim 9 col 255 255 - zero) * v.drift row * v.heat row
  rne (128 * ((255 * v.comp row * target - zero) / slope))

end Sys2Proof.Machine
end

