-- ==== Sys2Proof/Machine/Registers.lean ====
section
/-!
DEFINITION. What every register reads as: the core blocks (07.R193, 05.R157, 21.R517), TL_ (09.R261), the control page
block and the shape table (14.R394, 01.R20), and the package blocks CH_, AS_, PW_, FB_, MG_ and PC_. A register is
read as 32-bit words at offsets that are multiples of 4; a reserved offset reads 0 (00.R12).
-/

namespace Sys2Proof.Machine

/-- Word `off / 4` of a 64-bit register at a multiple of 8. -/
def halfOf (v off : Nat) : Nat := v / 2 ^ (32 * (off / 4 % 2)) % 2 ^ 32

/-! ### Core blocks -/

/-- SQ_ words of a sequencer (07.R193). Loop stack entry 0 is the outermost (assumption 12). -/
def sqWord (r : Seqr) (off : Nat) : Nat :=
  if off = 0x000 then r.pc % 4096
  else if off = 0x008 then r.flags.toNat
  else if off / 8 = 0x010 / 8 then halfOf r.fault0.toNat off
  else if off / 8 = 0x018 / 8 then halfOf r.fault1.toNat off
  else if off = 0x020 then r.tdBase % 2 ^ 32
  else if 0x040 ≤ off ∧ off < 0x060 then (getN r.al ((off - 0x040) / 4) 0).toNat
  else if 0x080 ≤ off ∧ off < 0x0A0 then
    match r.loops.reverse[(off - 0x080) / 8]? with
    | some e => halfOf (e.first % 4096 * 2 ^ 32 + e.remaining % 2 ^ 32) off
    | none => 0
  else if 0x100 ≤ off ∧ off < 0x200 then halfOf (getN r.s ((off - 0x100) / 8) 0).toNat off
  else 0

/-- QZ_QSn_CFG (05.R157). -/
def qsCfgWord (q : QStat) : Nat :=
  b2n q.en * 2 ^ 31 + unsigned 8 q.adapt * 2 ^ 16 + q.hi % 256 * 2 ^ 8 + q.clipf % 256

/-- QZ_ words of a core (05.R157), offsets from the QZ_ base. -/
def qzWord (z : Quant) (off : Nat) : Nat :=
  if off = 0x000 then b2n z.satPolicy * 4 + z.retryMax % 4
  else if off = 0x008 then z.seed % 256
  else if off / 8 = 0x010 / 8 then
    halfOf (z.skewBlock % 2 ^ 27 * 2 ^ 32 + z.skewScaleTag % 256 * 2 ^ 8 + z.skewDataTag % 256) off
  else if 0x040 ≤ off ∧ off < 0x080 then
    let (m, sh) := getN z.rs ((off - 0x040) / 8) (0, 0)
    halfOf (sh % 64 * 2 ^ 32 + m % 2 ^ 31) off
  else if 0x100 ≤ off ∧ off < 0x300 then
    let q := getN z.qs ((off - 0x100) / 0x20) {}
    match off % 0x20 with
    | 0x00 => q.err.toNat
    | 0x04 => q.cnt % 2 ^ 32
    | 0x08 => q.clip % 2 ^ 32
    | 0x0C => q.ref.toNat
    | 0x10 => qsCfgWord q
    | _ => 0
  else 0

/-- A core event that chapter 21 defines (21.R509). -/
def coreEventDefined (ev : Nat) : Bool := ev ≤ 0x53 || (0x80 ≤ ev && ev ≤ 0xDF)

/-- A package event that chapter 21 defines (21.R510). -/
def pkgEventDefined (ev : Nat) : Bool := ev ≤ 0x3B || (0x40 ≤ ev && ev ≤ 0x47)

/-- Core events that count cycles or bank conflicts: the model keeps no time of these, so their counts are
free values (assumption 9). -/
def coreEventTimed (ev : Nat) : Bool :=
  [0x02, 0x03, 0x0A, 0x0C, 0x0D, 0x0E, 0x0F, 0x10, 0x11, 0x12, 0x22, 0x2B, 0x3A, 0x3B, 0x3C, 0x3D, 0x3E, 0x3F, 0x40,
   0x41, 0x42, 0x48, 0x4B].contains ev

/-- Package events of the same kind, and Warehouse reads, which the patrol and the house make at times of their own (assumption 9). -/
def pkgEventTimed (ev : Nat) : Bool := decide (ev < 0x10) || ev == 0x20 || ev == 0x31 || ev == 0x32

/-- The count of a core event of core `c`, and the state after a free value is drawn for it. -/
def State.coreEvent (s : State) (c : Fin 64) (ev : Nat) : Nat × State :=
  if coreEventTimed ev then
    let (n, s) := s.draw
    (wrap48 (Config.unspecified n).toNat, s)
  else (NatMap.get 0 s.cores[c].events ev, s)

/-- The count of a package event, and the state after a free value is drawn for it. -/
def State.pkgEvent (s : State) (ev : Nat) : Nat × State :=
  if pkgEventTimed ev then
    let (n, s) := s.draw
    (wrap48 (Config.unspecified n).toNat, s)
  else (NatMap.get 0 s.pkgEvents ev, s)

/-- Rounded down to a multiple of 1,024 in confidential mode (17.R449, 21.R515). -/
def State.coarse (s : State) (v : Nat) : Nat := if s.chouse.conf then v / 1024 * 1024 else v

/-- A sample of a core event as a program or a dump reads it: the value, whether it repeats the last one, and the state
(21.R505, R515). -/
def State.sampleCore (s : State) (c : Fin 64) (ev : Nat) : Nat × Bool × State :=
  let k := s.cores[c]
  match k.lastRead with
  | some (v, t) =>
    if s.chouse.conf ∧ s.timeUs < t + 10 then (v, true, s)
    else
      let (v, s) := s.coreEvent c ev
      let v := s.coarse v
      (v, false, s.updCore c (fun k => { k with lastRead := some (v, s.timeUs) }))
  | none =>
    let (v, s) := s.coreEvent c ev
    let v := s.coarse v
    (v, false, s.updCore c (fun k => { k with lastRead := some (v, s.timeUs) }))

/-- PC_DATA of a core as its program reads it (21.R506, R517). -/
def State.pcData (s : State) (c : Fin 64) : Nat × State :=
  let k := s.cores[c]
  if !k.pcAccess || !coreEventDefined k.pcSel then (0, s)
  else
    let (v, _, s) := s.sampleCore c k.pcSel
    (2 ^ 63 + v, s)

/-- PC_ words of a core (21.R517), offsets from the block base 0x2000. -/
def State.pcWord (s : State) (c : Fin 64) (off : Nat) : Nat × State :=
  let k := s.cores[c]
  if off = 0x000 then (k.pcSel % 256, s)
  else if off / 8 = 0x008 / 8 then
    let (v, s) := s.pcData c
    (halfOf v off, s)
  else if 0x040 ≤ off ∧ off < 0x068 then (getN k.pcQual ((off - 0x040) / 4) 0 % 128, s)
  else (0, s)

/-- A word of a core's register range (10.R270). -/
def State.coreWord (s : State) (c : Fin 64) (off : Nat) : Nat × State :=
  if off < 0x1000 then (sqWord s.cores[c].seq off, s)
  else if off < 0x2000 then (qzWord s.cores[c].qz (off - 0x1000), s)
  else s.pcWord c (off - 0x2000)

/-! ### Tally (09.R261) -/

/-- TL_ words. -/
def tlWord (t : Tally) (off : Nat) : Nat :=
  if off = 0x000 then (match t.owner with | some j => 2 ^ 31 + j % 2 ^ 16 | none => t.oldJob % 2 ^ 16)
  else if off / 8 = 0x008 / 8 then halfOf (b2n t.open_ * 2 ^ 48 + t.opnum % 2 ^ 16 * 2 ^ 32 + t.count % 2 ^ 17) off
  else if off / 8 = 0x010 / 8 then halfOf (t.ndone % 2 ^ 17 * 2 ^ 32 + t.next % 2 ^ 17) off
  else if off = 0x018 then t.resets % 2 ^ 16 * 2 ^ 16 + t.dups % 2 ^ 16
  else if 0x1000 ≤ off ∧ off < 0x3000 then
    (List.range 32).foldl (fun a i => a + b2n (NatMap.get false t.map (8 * (off - 0x1000) + i)) * 2 ^ i) 0
  else 0

/-! ### Shape table (01.R20) -/

/-- CLUSTER_MAP as a number. -/
def State.clusterMap (s : State) : Nat := (List.range 8).foldl (fun a k => a + b2n (s.clusterBit k) * 2 ^ k) 0

/-- The 256 bytes of the shape table. -/
def State.shapeBytes (s : State) : List Byte :=
  leBytes 2 1 ++ leBytes 2 0x100 ++ leBytes 4 s.shape.gen.toNat ++ leBytes 1 s.fuses.orderId ++ leBytes 1 s.clusterMap
    ++ leBytes 1 s.coreCount ++ leBytes 1 16 ++ leBytes 1 8 ++ leBytes 1 s.shape.linkMap.toNat
    ++ leBytes 2 s.fuses.actCapMax ++ leBytes 8 s.shape.coreMap.toNat ++ leBytes 2 s.shape.actCap
    ++ leBytes 2 s.fuses.powerLimit ++ leBytes 2 384 ++ leBytes 2 4096 ++ leBytes 2 8192 ++ leBytes 2 256
    ++ leBytes 4 16384 ++ leBytes 2 8192 ++ leBytes 2 1024 ++ leBytes 2 512 ++ leBytes 1 s.shape.fabricId
    ++ List.replicate 209 0

/-! ### Power (16.R417, R418, R422) -/

/-- The device is without work (16.R417). -/
def State.withoutWork (s : State) : Bool :=
  s.jobs.isEmpty && !(s.port.finished ++ s.port.deferred).any (fun c => c.kind == 1) && s.load.isNone
    && s.port.stageQ.isEmpty
    && !s.cores.toList.any (fun k => k.applyMark) && s.port.frames.isEmpty

/-- Worst-case exit of a state in us (16.R416). -/
def exitUs : Nat → Nat
  | 0 => 0 | 1 => 2 | 2 => 40 | 3 => 600 | _ => 45000

/-- The state may be entered under the latency budget and the host's idleness (16.R418). -/
def State.sleepAllowed (s : State) (g : Nat) : Bool :=
  decide (exitUs g ≤ s.port.budget) && (g ≤ 2 || s.port.idle)
    && (g ≤ 3 || (s.power.g4En && s.shape.linkMap == 0))

/-- The target of the state selection (16.R418, R420). -/
def State.sleepTarget (s : State) : Nat :=
  if s.power.forceEn then s.power.forceState
  else if !s.withoutWork then 0
  else if s.sleepAllowed 4 then 4 else if s.sleepAllowed 3 then 3 else if s.sleepAllowed 2 then 2
  else if s.sleepAllowed 1 then 1 else 0

/-- CREDIT in whole ms (16.R414, assumption 20). -/
def Power.creditMs (p : Power) : Nat := p.credit / 400

/-- PW_CEIL, PW_CAP, PW_WH, PW_VDDC, PW_EST and PW_BURST (16.R422). -/
def pwCeil (p : Power) : Nat := p.progBudget % 64 * 2 ^ 20 + p.short % 1024 * 2 ^ 10 + p.sustain % 1024
def pwCap (p : Power) : Nat := p.capEff % 512 * 2 ^ 16 + p.cap % 512
def pwWh (p : Power) : Nat := p.whEff % 1024 * 2 ^ 16 + p.whCeil % 1024
def pwVddc (p : Power) : Nat := p.vddcSet % 256 * 2 ^ 24 + p.vddcMax % 256 * 2 ^ 8 + p.vddcMin % 256
def pwEst (p : Power) : Nat := p.p1s % 2 ^ 16 * 2 ^ 16 + p.p100 % 2 ^ 16
def pwBurst (p : Power) : Nat :=
  b2n (decide (0 < p.creditMs) && decide (p.sustain * 100 < p.p100)) * 2 ^ 31 + p.creditMs % 2048

/-- PW_STATE. -/
def State.pwState (s : State) : Nat :=
  s.power.wakes % 2 ^ 16 * 2 ^ 16 + b2n s.port.idle * 2 ^ 7 + s.sleepTarget % 8 * 2 ^ 4 + s.power.cur % 8

/-- PW_THERM. -/
def pwTherm (p : Power) : Nat :=
  p.tTrip % 256 * 2 ^ 24 + p.tThrottle % 256 * 2 ^ 16 + p.tAlert % 256 * 2 ^ 8 + b2n p.tripped * 4
    + b2n p.throttling * 2 + b2n p.alerting

/-- PW_ words. -/
def State.pwWord (s : State) (off : Nat) : Nat :=
  let p := s.power
  match off with
  | 0x000 => b2n p.g4En * 8 + b2n p.burstEn * 4 + b2n p.profileP
  | 0x004 => pwCeil p
  | 0x008 => pwCap p
  | 0x00C => pwWh p
  | 0x010 => pwVddc p
  | 0x014 => pwEst p
  | 0x018 => pwBurst p
  | 0x01C => s.pwState
  | 0x020 => b2n p.forceEn * 2 ^ 31 + p.forceState % 8
  | 0x024 => pwTherm p
  | _ => 0

/-! ### Host port (14.R394) -/

/-- HP_STATUS.STATE codes. -/
def portStateCode : PortState → Nat
  | .boot => 0 | .ready => 1 | .scrubbing => 2 | .updating => 3 | .halted => 15

/-- HP_STATUS; in a scrub every field but STATE reads 0 (17.R451). -/
def State.hpStatus (s : State) : Nat :=
  if s.chouse.scrub.isSome then 2 * 2 ^ 28
  else portStateCode s.port.state * 2 ^ 28 + b2n s.chouse.conf * 2 ^ 7 + b2n s.power.forceEn * 2 ^ 6
    + b2n s.port.idle * 2 ^ 5 + b2n s.port.hostLost * 8 + b2n s.port.proto * 4 + b2n s.port.drop * 2 + b2n s.port.miss

/-- A chunk is released (11.R303). -/
def chunkReleased (own : Nat) (r : ChunkRec) (c : ChunkState) : Bool :=
  c.verified && (c.converted || r.shard != own) && c.pulled

/-- The window base W of an intake: the offset of the lowest chunk not released (11.R303). -/
def LoadReq.windowBase (l : LoadReq) (own : Nat) : Nat :=
  match l.manifest with
  | none => 0
  | some m =>
    ((m.chunks.zip l.chunks).filter (fun e => !chunkReleased own e.1 e.2)).foldl (fun w e => min w e.1.offset) l.pkgLen

/-- An intake is open on this device (11.R300). -/
def State.intakeOpen (s : State) : Bool :=
  match s.load with
  | some l => l.intake && !l.admitted
  | none => false

/-- HP_CREDIT.WHARF (11.R303, 14.R376). -/
def State.wharfCredit (s : State) : Nat :=
  match s.load with
  | some l => if s.intakeOpen then (l.windowBase s.shape.fabricId + 2 ^ 30 - l.top) / 4096 else 0
  | none => 0

/-- Free write frames (14.R376). -/
def State.freeFrames (s : State) : Nat := s.port.pool - s.port.frames.length

/-- HP_CREDIT. -/
def State.hpCredit (s : State) : Nat := s.wharfCredit % 2 ^ 20 * 2 ^ 32 + s.freeFrames % 2 ^ 11

/-- RESULT, SEQ and QUEUED of HP_STAGE_STAT (14.R394). -/
def Port.stageNow (p : Port) : Nat × Nat × Nat := (p.stageResult, p.stageSeq, p.stageQ.length)

/-- HP_CQ_TAIL and HP_STAGE_STAT as a read sees them: in confidential mode, as at the last 1 us tick (17.R449). -/
def State.cqTailWord (s : State) : Nat :=
  let (t, p) := if s.chouse.conf then s.port.tailShown else (s.port.cqTail, s.port.cqPhase)
  b2n p * 2 ^ 16 + t % 2 ^ 12
def State.stageStatWord (s : State) : Nat :=
  let (r, n, k) := if s.chouse.conf then s.port.stageShown else s.port.stageNow
  k % 256 * 2 ^ 16 + r % 16 * 2 ^ 12 + n % 2 ^ 12

/-- Control page words; the shape table stands at 0x1000 (01.R19). -/
def State.ctrlWord (s : State) (off : Nat) : Nat :=
  let p := s.port
  if 0x1000 ≤ off ∧ off < 0x1100 then leAt s.shapeBytes (off - 0x1000) 4
  else match off with
  | 0x0000 => 0x4816 * 2 ^ 16 + 0x6B
  | 0x0004 => s.fuses.rev.toNat
  | 0x0008 => halfOf s.fuses.serial.toNat 0
  | 0x000C => halfOf s.fuses.serial.toNat 4
  | 0x0010 => s.hpStatus
  | 0x0018 => p.missAddr % 2 ^ 32
  | 0x001C => p.dropAddr % 2 ^ 32
  | 0x0020 => p.refCnt.toNat
  | 0x0024 => p.live % 256
  | 0x0028 => halfOf s.hpCredit 0
  | 0x002C => halfOf s.hpCredit 4
  | 0x0030 => p.irqStatus.toNat
  | 0x0034 => p.irqEnable.toNat
  | 0x0038 => p.modTime % 2 ^ 16 * 2 ^ 16 + p.modCount % 2 ^ 16
  | 0x003C => p.budget % 2 ^ 32
  | 0x0040 => p.cqLog % 16 * 2 ^ 8 + p.sqLog % 16
  | 0x0048 => p.sqHead % 2 ^ 12
  | 0x004C => p.cqHead % 2 ^ 12
  | 0x0050 => s.cqTailWord
  | 0x0058 => halfOf (p.apaBase % 1024 * 2 ^ 24) 0
  | 0x005C => halfOf (p.apaBase % 1024 * 2 ^ 24) 4
  | 0x0060 => halfOf (p.apbBase % 1024 * 2 ^ 24) 0
  | 0x0064 => halfOf (p.apbBase % 1024 * 2 ^ 24) 4
  | 0x0068 => p.split % 64
  | 0x006C => p.pool % 2048
  | 0x0078 => s.stageStatWord
  | _ => 0

/-- A read of HP_STATUS clears its RS fields (00.R11, 14.R394); in a scrub it reads none of them. -/
def State.clearStatus (s : State) : State :=
  if s.chouse.scrub.isSome then s
  else { s with port := { s.port with hostLost := false, proto := false, drop := false, miss := false } }

/-! ### Counting House (17.R454) -/

/-- CH_STATE. -/
def State.chState (s : State) : Nat :=
  let h := s.chouse
  (match h.debug with | .locked => 0 | .unlocked => 1 | .disabled => 2) * 2 ^ 18 + b2n h.consent * 2 ^ 17
    + b2n h.scrub.isSome * 2 ^ 16
    + (if h.session.prevLive then (h.session.rekeys.toNat + 3) % 4 * 2 ^ 8 + 2 ^ 7 else 0)
    + (if h.session.live then h.session.rekeys.toNat % 4 * 2 ^ 4 + 2 ^ 3 else 0) + b2n h.conf

/-- CH_FW. -/
def State.chFw (s : State) : Nat := s.fuses.revoke.toNat * 2 ^ 20 + s.chouse.bank % 2 * 2 ^ 16 + s.fuses.svn % 128

/-- CH_ words. -/
def State.chWord (s : State) (off : Nat) : Nat :=
  match off with
  | 0x000 => s.chState
  | 0x004 => s.chFw
  | 0x008 => s.chouse.secCount % 2 ^ 16 * 2 ^ 16 + s.chouse.secCode % 2 ^ 16
  | 0x00C => if s.chouse.session.live then s.chouse.session.rekeys.toNat else 0
  | 0x010 => halfOf s.chouse.sealCtr 0
  | 0x014 => halfOf s.chouse.sealCtr 4
  | _ => 0

/-! ### Assay and the monitor converters (12.R350, 13.R363) -/

/-- Plies due for re-anneal (12.R350 AS_STATUS.DUE). -/
def State.plysDue (s : State) : Nat := (s.plies.filter (fun e => s.plyDue e.1)).length

/-- AS_RESn (13.R357). -/
def resWord (r : MonResult) : Nat :=
  r.pass % 2 ^ 14 * 2 ^ 50 + r.x % 2 ^ 18 * 2 ^ 32 + r.engine % 16 * 2 ^ 27 + b2n r.a4 * 2 ^ 26 + r.ply % 8 * 2 ^ 23
    + r.source % 128 * 2 ^ 16 + b2n r.clip * 2 ^ 15 + b2n r.stale * 2 ^ 14 + b2n r.fresh * 2 ^ 13 + b2n r.valid * 2 ^ 12
    + unsigned 12 r.code

/-- AS_ words. -/
def State.asWord (s : State) (off : Nat) : Nat :=
  let a := s.assay
  let m := s.monitor
  if 0x040 ≤ off ∧ off < 0x060 then
    match getN a.temp ((off - 0x040) / 4) none with
    | some t => 2 ^ 16 + unsigned 16 t
    | none => 0
  else if 0x080 ≤ off ∧ off < 0x0C0 then halfOf (getN a.age ((off - 0x080) / 8) 0 % 2 ^ 64) off
  else if 0x8100 ≤ off ∧ off < 0x8180 then
    let e := getN m.entries ((off - 0x8100) / 4) {}
    e.filt % 4 * 2 ^ 10 + e.gain % 4 * 2 ^ 8 + e.source % 128
  else if 0x8200 ≤ off ∧ off < 0x8300 then halfOf (resWord (getN m.results ((off - 0x8200) / 8) {})) off
  else match off with
  | 0x000 => b2n a.en
  | 0x004 => b2n a.storeBad * 2 ^ 31 + b2n a.ageLost * 2 ^ 30 + s.plysDue % 2 ^ 16
  | 0x008 => a.ageLimit % 2 ^ 11 * 2 ^ 8 + a.tempDelta % 256
  | 0x00C => a.annealWait % 256 * 2 ^ 24 + a.annealLimit % 256 * 2 ^ 16 + a.fullLimit % 2 ^ 13
  | 0x010 => a.sampleWait % 2 ^ 16 * 2 ^ 16 + a.minSamples % 2 ^ 16
  | 0x014 => a.epoch.toNat
  | 0x8000 => m.last % 32 * 2 ^ 8 + b2n m.ilv * 4 + b2n m.cont * 2
  | 0x8004 => m.pass % 2 ^ 14 * 2 ^ 16 + b2n m.clip * 4 + b2n m.pending * 2 + b2n m.run
  | _ => 0

/-! ### Fabric (19.R484) -/

/-- FB_LINKn.STATE codes. -/
def linkCode : LinkState → Nat
  | .down => 0 | .train => 1 | .auth => 2 | .up => 3 | .rekey => 4 | .lowpower => 5

/-- FB_LINKn. -/
def linkWord (l : Link) : Nat :=
  l.errors % 2 ^ 16 * 2 ^ 48 + l.retrains % 2 ^ 16 * 2 ^ 32 + l.lastCode % 2 ^ 16 * 2 ^ 16 + l.peerId % 8 * 2 ^ 13
    + l.peerLink % 4 * 2 ^ 11 + b2n l.half * 2 ^ 10 + linkCode l.st

/-- Members of the fabric that hold (or with `lost`, lost) their ids. -/
def State.memberBits (s : State) (lost : Bool) : Nat :=
  (List.range 8).foldl (fun a i =>
    a + b2n (match getN s.fabric.members i none with | some (_, l) => l == lost | none => false) * 2 ^ i) 0

/-- FB_STATUS. -/
def State.fbStatus (s : State) : Nat :=
  b2n s.fabric.full * 2 ^ 31 + b2n s.fabric.split * 2 ^ 30 + s.memberBits false * 2 ^ 16 + s.memberBits true * 2 ^ 8
    + s.shape.fabricId % 8

/-- FB_ words. -/
def State.fbWord (s : State) (off : Nat) : Nat :=
  if off = 0 then s.fbStatus
  else if 0x010 ≤ off ∧ off < 0x030 then halfOf (linkWord (getN s.fabric.links ((off - 0x010) / 8) {})) off
  else if 0x040 ≤ off ∧ off < 0x060 then
    let r := getN s.fabric.routes ((off - 0x040) / 4) {}
    b2n r.valid * 2 ^ 31 + b2n r.lost * 2 ^ 30 + r.links.toNat * 2 ^ 4 + r.hops % 8
  else if 0x080 ≤ off ∧ off < 0x0C0 then
    match getN s.fabric.members ((off - 0x080) / 8) none with
    | some (n, _) => halfOf n.toNat off
    | none => 0
  else 0

/-! ### Management port (18.R469) -/

/-- MG_STATUS.BUSY: a request executes; that of a scrub until its end (18.R459). -/
def State.mgBusy (s : State) : Bool := s.mgmt.waiting.isSome || s.chouse.scrub.isSome

/-- MG_ words. -/
def State.mgWord (s : State) (off : Nat) : Nat :=
  let m := s.mgmt
  match off with
  | 0x000 => b2n s.chouse.principal.isSome * 2 ^ 31 + b2n s.mgBusy * 2 ^ 30 + b2n m.lockout * 2 ^ 29
      + m.log.length % 64 * 2 ^ 16 + m.lost % 2 ^ 16
  | 0x004 => (match m.daddr with | some a => 2 ^ 7 + a % 128 | none => 0x5A)
  | 0x008 => halfOf m.ctr 0
  | 0x00C => halfOf m.ctr 4
  | 0x010 => m.failTotal % 2 ^ 16 * 2 ^ 16 + m.failRun % 16
  | _ => 0

/-! ### Package counters (21.R517) -/

/-- PC_LG_CTRL. In confidential mode EN reads 1 if it was set (21.R515). -/
def State.lgCtrl (s : State) : Nat := b2n s.lgEn * 2 ^ 31 + s.lgK % 32

/-- PC_ words of the package. House firmware's own reads are exact (17.R449). -/
def State.pkgPcWord (s : State) (off : Nat) : Nat × State :=
  if off / 8 = 1 then
    if pkgEventDefined s.pcPsel then
      let (v, s') := s.pkgEvent s.pcPsel
      (halfOf (2 ^ 63 + v) off, s')
    else (0, s)
  else
    (match off with
      | 0x000 => s.pcPsel % 256
      | 0x010 => halfOf s.lgBase 0
      | 0x014 => halfOf s.lgBase 4
      | 0x018 => s.lgPages % 2 ^ 17
      | 0x020 => s.lgCtrl
      | 0x028 => s.lgTail % 2 ^ 32
      | _ => 0, s)

/-- A word of the package register region (10.R272), with the clearing of RS fields that the read causes (00.R11). -/
def State.pkgWord (s : State) (off : Nat) : Nat × State :=
  let o := off % 0x10000
  match off / 0x10000 with
  | 0 => (s.ctrlWord o, if o = 0x0010 then s.clearStatus else s)
  | 1 => (s.chWord o, if o = 0x008 then { s with chouse := { s.chouse with secCode := 0, secCount := 0 } } else s)
  | 2 => (s.asWord o,
      if o = 0x004 then { s with assay := { s.assay with storeBad := false, ageLost := false } }
      else if o = 0x8004 then { s with monitor := { s.monitor with clip := false } }
      else s)
  | 3 => (s.pwWord o, if o = 0x024 then { s with power := { s.power with tripped := false } } else s)
  | 4 => (s.fbWord o,
      if o = 0 then { s with fabric := { s.fabric with full := false, split := false } }
      else if 0x010 ≤ o ∧ o < 0x030 then
        { s with fabric := { s.fabric with
          links := updN s.fabric.links ((o - 0x010) / 8) (fun l =>
            if o / 4 % 2 = 0 then { l with lastCode := 0 } else { l with errors := 0, retrains := 0 }) } }
      else s)
  | 5 => (s.mgWord o, if o = 0x010 then { s with mgmt := { s.mgmt with failTotal := 0 } } else s)
  | 6 => s.pkgPcWord o
  | _ => (0, s)

/-- A word of a register region: 4 core, 5 cluster, 6 package. The offset is a multiple of 4, mapped and unaliased. -/
def State.regWord (s : State) (region off : Nat) : Nat × State :=
  match region with
  | 4 => s.coreWord ⟨off / 0x10000 % 64, by omega⟩ (off % 0x10000)
  | 5 => (tlWord s.clusters[(⟨off / 0x100000 % 8, by omega⟩ : Fin 8)].tally (off % 0x100000), s)
  | 6 => s.pkgWord off
  | _ => (0, s)

/-- The offset is that of PC_DATA, of a core or of the package, whose halves come from one sample (07.R207, 21.R505). -/
def sampledPair (region off : Nat) : Bool := (region == 4 && off % 0x10000 == 0x2008) || (region == 6 && off == 0x60008)

/-- PC_DATA whole. -/
def State.samplePair (s : State) (region off : Nat) : Nat × State :=
  if region = 4 then s.pcData ⟨off / 0x10000 % 64, by omega⟩
  else if pkgEventDefined s.pcPsel then
    let (v, s) := s.pkgEvent s.pcPsel
    (2 ^ 63 + v, s)
  else (0, s)

/-- `n` words from an offset that is a multiple of 4, read in ascending order. -/
def State.regWords (s : State) (region off : Nat) : Nat → List Nat × State
  | 0 => ([], s)
  | 1 =>
    let (v, s) := s.regWord region off
    ([v], s)
  | n + 2 =>
    if sampledPair region off then
      let (v, s) := s.samplePair region off
      let (vs, s) := s.regWords region (off + 8) n
      (v % 2 ^ 32 :: v / 2 ^ 32 :: vs, s)
    else
      let (v, s) := s.regWord region off
      let (vs, s) := s.regWords region (off + 4) (n + 1)
      (v :: vs, s)

end Sys2Proof.Machine
end

