-- ==== Sys2Proof/Machine/Complete.lean ====
section
/-!
DEFINITION. The completion of an instruction (07.R210): its counts, its DONE increment, the stream slots it frees or hands
over, the operations that waited on it, its Ledger sample (21.R513), and the WAITs that its DONE satisfies.
-/

namespace Sys2Proof.Machine

/-- The event that counts completions of a class (21.R509). -/
def classEvent (opcode : Nat) : Option Nat :=
  match opcode / 4096 with
  | 0 => some EV_SEQ
  | 1 => some EV_SYNC
  | 2 => some EV_MOVE
  | 3 => some EV_LOOM
  | 4 => some EV_MILL
  | _ => none

/-! ### The Ledger (21.R513, R514) -/

/-- A Ledger record without its SEQNO, which the write supplies. LATENCY, QWAIT and STALL measure cycles that the model does
not keep: free values (assumption 9). -/
def State.ledgerRecord (s : State) (c : Fin 64) (e : QEntry) (flags : Nat) : List Byte × State :=
  let (n, s) := s.draw
  let v := (Config.unspecified n).toNat
  (leBytes 8 (s.timeUs * 1000) ++ leBytes 2 (s.cores[c].job.getD 0) ++ leBytes 1 c.val ++ leBytes 1 (v / 2 ^ 56 % 13)
    ++ leBytes 2 (e.pc % 4096) ++ leBytes 2 e.opcode ++ leBytes 4 v ++ leBytes 4 (v / 2 ^ 24) ++ leBytes 4 0
    ++ leBytes 1 flags ++ List.replicate 3 (0 : Byte), s)

/-- A completion is counted while the Ledger is on, and sampled when the low K bits of the count become 0; a full queue
discards the record (21.R513, R515). -/
def State.ledger (s : State) (c : Fin 64) (e : QEntry) (flags : Nat) : State :=
  if !s.lgEn then s
  else
    let n := s.cores[c].retired + 1
    let s := s.updCore c (fun k => { k with retired := n })
    if n % 2 ^ s.lgK = 0 ∧ s.cores[c].pcAccess ∧ s.cores[c].job.isSome ∧ !s.chouse.conf then
      if s.lgQueue.length < 256 then
        let (r, s) := s.ledgerRecord c e flags
        { s with lgQueue := s.lgQueue ++ [r] }
      else s.countPkg PE_LEDGER_DROPS 1
    else s

/-! ### Stream slots (07.R212) -/

/-- The oldest slot of an in stream, which the completing instruction read, is freed. -/
def freeSlot (k : Core) (n : Nat) : Core :=
  { k with streams := updN k.streams n (fun o => o.map (fun m => { m with full := m.full.drop 1, busy := m.busy - 1 })) }

/-- The slot of an out stream, which the completing instruction wrote, is handed to the mover. -/
def handSlot (k : Core) (n : Nat) : Core :=
  { k with streams := updN k.streams n (fun o => o.map (fun m =>
      { m with full := m.full ++ [m.moved + m.full.length], busy := m.busy - 1 })) }

/-! ### QSTAT totals (05.R151, R152) -/

/-- A value from FP32 bits is positive and finite. -/
def posFinite (x : Num) : Bool := x.finite && decide (0 < x.rat)

/-- The evaluation of 05.R152. -/
def evalQStat (q : QStat) : QStat :=
  let ref := ofFp32 q.ref.toNat
  let err := ofFp32 q.err.toNat
  if !q.en || decide (q.cnt < 1024) || !posFinite ref then q
  else if ltN (.val ((q.cnt : Rat) * ref.rat * (q.hi : Rat) / 16)) err then
    { q with
      adapt := if q.cnt * q.clipf < q.clip * 1024 then min (q.adapt + 1) 31 else max (q.adapt - 1) (-32)
      err := 0, cnt := 0, clip := 0 }
  else q

/-- Totals added to an entry in one step, and its evaluation (05.R151, R152). -/
def addQStat (q : QStat) (t : QTotals) : QStat :=
  evalQStat { q with
    err := BitVec.ofNat 32 (fp32Bits (add32 (ofFp32 q.err.toNat) t.err).1)
    cnt := min (q.cnt + t.cnt) (2 ^ 32 - 1)
    clip := min (q.clip + t.clip) (2 ^ 32 - 1) }

/-- Totals of an instruction that ends, added to their entries (05.R151). -/
def State.addTotals (s : State) (c : Fin 64) (ts : List (Nat × QTotals)) : State :=
  ts.foldl (fun s e =>
    let old := getN s.cores[c].qz.qs e.1 {}
    let new := addQStat old e.2
    let s := s.updCore c (fun k => { k with qz := { k.qz with qs := updN k.qz.qs e.1 (fun _ => new) } })
    if old.adapt = new.adapt then s else s.count c EV_QZ_ADAPT 1) s

/-- An instruction that a fault ends adds the totals it has made (05.R151). -/
def State.flushTotals (s : State) (q : SeqId) : State :=
  match q with
  | .core c => (s.addTotals c s.cores[c].qzEnd).updCore c (fun k => { k with qzEnd := [] })
  | .house => s

/-- The totals that the instruction just executed has made, for its end. -/
def State.takeTotals (s : State) (q : SeqId) : List (Nat × QTotals) × State :=
  match q with
  | .core c => (s.cores[c].qzEnd, s.updCore c (fun k => { k with qzEnd := [] }))
  | .house => ([], s)

/-! ### Completion -/

/-- An instruction completes: it is counted, its slots are freed or handed over, its QSTAT totals are added, operations that waited on it wait no
more, its DONE increment is made, and the Ledger may sample it. -/
def State.retire (s : State) (q : SeqId) (e : QEntry) (flags : Nat) : State :=
  let s := s.countSeq q EV_SLOT_RETIRED 1
  let s := match classEvent e.opcode with
    | some ev => s.countSeq q ev 1
    | none => s
  let s := if e.noop then s.countSeq q EV_NOOPS 1 else s
  let s := s.updSeqr q (fun r => unwait [e.uid] r)
  let s := match q with
    | .core c => (s.updCore c (fun k => e.hands.foldl handSlot (e.frees.foldl freeSlot k))).addTotals c e.totals
    | .house => s
  let s := match e.done with
    | some idx => s.applyCounter q idx 1 0
    | none => s
  match q with
  | .core c => s.ledger c e flags
  | .house => s

/-- Every sequencer, cores in rising order and the house sequencer last (07.R215). -/
def allSeqs : List SeqId := (List.finRange 64).map SeqId.core ++ [.house]

/-- The sequencer's WAIT holds (07.R211). -/
def State.waitOver (s : State) (q : SeqId) : Bool :=
  match (s.seqr q).wait with
  | some w => s.waitHolds w.cond
  | none => false

/-- A WAIT ends, and with it its instruction (07.R211). -/
def State.endWait (s : State) (q : SeqId) : State :=
  match (s.seqr q).wait with
  | some w => (s.updSeqr q (fun r => { r with wait := none })).retire q w.entry 0
  | none => s

/-- WAITs whose condition holds end satisfied, one at a time: a DONE of one may satisfy another. -/
def State.settleN : Nat → State → State
  | 0, s => s
  | n + 1, s =>
    match allSeqs.find? s.waitOver with
    | some q => State.settleN n (s.endWait q)
    | none => s

/-- Every WAIT whose condition holds ends; no WAIT begins meanwhile, so 65 ends suffice. -/
def State.settle (s : State) : State := State.settleN 65 s

/-- An instruction of a queue completes, and WAITs are looked at. -/
def State.complete (s : State) (q : SeqId) (e : QEntry) (flags : Nat) : State := (s.retire q e flags).settle

end Sys2Proof.Machine
end

