-- ==== Sys2Proof/Machine/Crypto.lean ====
section
/-!
DEFINITION. The named public algorithms that chapters 11, 17, 18 and 19 use: SHA-512, HMAC and HKDF with it,
AES-256-GCM, X25519 and Ed25519, and the CRC-32C of the calibration store. The manual names them and does not restate
them: they are PRESUMED from their public standards (assumption 5).
-/

namespace Sys2Proof.Machine

/-! ### SHA-512 -/

/-- The initial hash value. -/
def shaInit : List W64 :=
  [0x6A09E667F3BCC908, 0xBB67AE8584CAA73B, 0x3C6EF372FE94F82B, 0xA54FF53A5F1D36F1,
   0x510E527FADE682D1, 0x9B05688C2B3E6C1F, 0x1F83D9ABFB41BD6B, 0x5BE0CD19137E2179]

/-- The round constants. -/
def shaK : List W64 :=
  [0x428A2F98D728AE22, 0x7137449123EF65CD, 0xB5C0FBCFEC4D3B2F, 0xE9B5DBA58189DBBC,
   0x3956C25BF348B538, 0x59F111F1B605D019, 0x923F82A4AF194F9B, 0xAB1C5ED5DA6D8118,
   0xD807AA98A3030242, 0x12835B0145706FBE, 0x243185BE4EE4B28C, 0x550C7DC3D5FFB4E2,
   0x72BE5D74F27B896F, 0x80DEB1FE3B1696B1, 0x9BDC06A725C71235, 0xC19BF174CF692694,
   0xE49B69C19EF14AD2, 0xEFBE4786384F25E3, 0x0FC19DC68B8CD5B5, 0x240CA1CC77AC9C65] ++
  [0x2DE92C6F592B0275, 0x4A7484AA6EA6E483, 0x5CB0A9DCBD41FBD4, 0x76F988DA831153B5,
   0x983E5152EE66DFAB, 0xA831C66D2DB43210, 0xB00327C898FB213F, 0xBF597FC7BEEF0EE4,
   0xC6E00BF33DA88FC2, 0xD5A79147930AA725, 0x06CA6351E003826F, 0x142929670A0E6E70,
   0x27B70A8546D22FFC, 0x2E1B21385C26C926, 0x4D2C6DFC5AC42AED, 0x53380D139D95B3DF,
   0x650A73548BAF63DE, 0x766A0ABB3C77B2A8, 0x81C2C92E47EDAEE6, 0x92722C851482353B] ++
  [0xA2BFE8A14CF10364, 0xA81A664BBC423001, 0xC24B8B70D0F89791, 0xC76C51A30654BE30,
   0xD192E819D6EF5218, 0xD69906245565A910, 0xF40E35855771202A, 0x106AA07032BBD1B8,
   0x19A4C116B8D2D0C8, 0x1E376C085141AB53, 0x2748774CDF8EEB99, 0x34B0BCB5E19B48A8,
   0x391C0CB3C5C95A63, 0x4ED8AA4AE3418ACB, 0x5B9CCA4F7763E373, 0x682E6FF3D6B2B8A3,
   0x748F82EE5DEFB2FC, 0x78A5636F43172F60, 0x84C87814A1F0AB72, 0x8CC702081A6439EC] ++
  [0x90BEFFFA23631E28, 0xA4506CEBDE82BDE9, 0xBEF9A3F7B2C67915, 0xC67178F2E372532B,
   0xCA273ECEEA26619C, 0xD186B8C721C0C207, 0xEADA7DD6CDE0EB1E, 0xF57D4F7FEE6ED178,
   0x06F067AA72176FBA, 0x0A637DC5A2C898A6, 0x113F9804BEF90DAE, 0x1B710B35131C471B,
   0x28DB77F523047D84, 0x32CAAB7B40C72493, 0x3C9EBE0A15C9BEBC, 0x431D67C49C100D4C,
   0x4CC5D4BECB3E42B6, 0x597F299CFC657E2A, 0x5FCB6FAB3AD6FAEC, 0x6C44198C4A475817]

/-- Rotation right of a 64-bit word. -/
def rotr64 (x : W64) (n : Nat) : W64 := x.rotateRight n

/-- 64-bit big-endian words of a block. -/
def beWords : Nat → List Byte → List W64
  | 0, _ => []
  | n + 1, bs => BitVec.ofNat 64 (beNat (bs.take 8)) :: beWords n (bs.drop 8)

/-- The message schedule: the last 16 words, newest last, extended `n` times. -/
def shaSchedule : Nat → List W64 → List W64
  | 0, _ => []
  | n + 1, w =>
    let w0 := w.getD 0 0
    let w1 := w.getD 1 0
    let w14 := w.getD 14 0
    let s0 := rotr64 w1 1 ^^^ rotr64 w1 8 ^^^ (w1 >>> 7)
    let s1 := rotr64 w14 19 ^^^ rotr64 w14 61 ^^^ (w14 >>> 6)
    let t := w0 + s0 + w.getD 9 0 + s1
    t :: shaSchedule n (w.drop 1 ++ [t])

/-- One round. -/
def shaRound (v : List W64) (kw : W64 × W64) : List W64 :=
  match v with
  | [a, b, c, d, e, f, g, h] =>
    let s1 := rotr64 e 14 ^^^ rotr64 e 18 ^^^ rotr64 e 41
    let ch := (e &&& f) ^^^ (~~~e &&& g)
    let t1 := h + s1 + ch + kw.1 + kw.2
    let s0 := rotr64 a 28 ^^^ rotr64 a 34 ^^^ rotr64 a 39
    let maj := (a &&& b) ^^^ (a &&& c) ^^^ (b &&& c)
    [t1 + s0 + maj, a, b, c, d + t1, e, f, g]
  | v => v

/-- One 128-byte block. -/
def shaBlock (h : List W64) (b : List Byte) : List W64 :=
  let w := beWords 16 b
  let ws := w ++ shaSchedule 64 w
  List.zipWith (· + ·) h ((shaK.zip ws).foldl shaRound h)

/-- `n` blocks. -/
def shaBlocks : Nat → List W64 → List Byte → List W64
  | 0, h, _ => h
  | n + 1, h, bs => shaBlocks n (shaBlock h (bs.take 128)) (bs.drop 128)

/-- SHA-512 of a message: 64 bytes. -/
def sha512 (m : List Byte) : List Byte :=
  let z := (128 - (m.length + 17) % 128) % 128
  let p := m ++ [0x80] ++ List.replicate z 0 ++ beBytes 16 (8 * m.length)
  (shaBlocks (p.length / 128) shaInit p).flatMap (fun w => beBytes 8 w.toNat)

/-- HMAC with SHA-512. -/
def hmac (key m : List Byte) : List Byte :=
  let k := if 128 < key.length then sha512 key else key
  let k := k ++ List.replicate (128 - k.length) 0
  sha512 (k.map (· ^^^ 0x5C) ++ sha512 (k.map (· ^^^ 0x36) ++ m))

/-- HKDF-Expand blocks from number `i`. -/
def hkdfBlocks (prk info : List Byte) : Nat → Nat → List Byte → List Byte
  | 0, _, _ => []
  | n + 1, i, prev =>
    let t := hmac prk (prev ++ info ++ [BitVec.ofNat 8 i])
    t ++ hkdfBlocks prk info n (i + 1) t

/-- HKDF-Expand to `n` bytes. -/
def hkdfExpand (prk info : List Byte) (n : Nat) : List Byte := (hkdfBlocks prk info ((n + 63) / 64) 1 []).take n

/-- HKDF with SHA-512: input key, salt, info, output length. -/
def hkdf (ikm salt info : List Byte) (n : Nat) : List Byte :=
  hkdfExpand (hmac (if salt.isEmpty then List.replicate 64 0 else salt) ikm) info n

/-! ### AES-256 and GCM -/

/-- Doubling in the AES field. -/
def xtime (b : Byte) : Byte := (b <<< 1) ^^^ (if b.msb then 0x1B else 0)

/-- Multiplication in the AES field, over the 8 bits of `b`. -/
def gmul8 (a b : Byte) : Byte :=
  ((List.range 8).foldl (fun (r : Byte × Byte) i =>
    ((if b.getLsbD i then r.1 ^^^ r.2 else r.1), xtime r.2)) (0, a)).1

/-- The inverse in the AES field: the 254th power. -/
def ginv8 (a : Byte) : Byte :=
  let a2 := gmul8 a a
  let a4 := gmul8 a2 a2
  let a8 := gmul8 a4 a4
  let a16 := gmul8 a8 a8
  let a32 := gmul8 a16 a16
  let a64 := gmul8 a32 a32
  let a128 := gmul8 a64 a64
  [a4, a8, a16, a32, a64, a128].foldl gmul8 a2

/-- The S-box. -/
def sbox (a : Byte) : Byte :=
  let b := ginv8 a
  b ^^^ b.rotateLeft 1 ^^^ b.rotateLeft 2 ^^^ b.rotateLeft 3 ^^^ b.rotateLeft 4 ^^^ 0x63

/-- One word of the AES-256 key schedule: `i` is its number, `ws` the last eight words, newest last. -/
def aesWord (i : Nat) (rcon : Byte) (ws : List (List Byte)) : List Byte :=
  let t := ws.getD 7 []
  let t := if i % 8 = 0 then List.zipWith (· ^^^ ·) ((t.drop 1 ++ t.take 1).map sbox) [rcon, 0, 0, 0]
    else if i % 8 = 4 then t.map sbox else t
  List.zipWith (· ^^^ ·) (ws.getD 0 []) t

/-- The key schedule from word `i`. -/
def aesSchedule : Nat → Nat → Byte → List (List Byte) → List (List Byte)
  | 0, _, _, _ => []
  | n + 1, i, rcon, ws =>
    let w := aesWord i rcon ws
    w :: aesSchedule n (i + 1) (if i % 8 = 0 then xtime rcon else rcon) (ws.drop 1 ++ [w])

/-- Four-byte words of a byte list. -/
def words4 : Nat → List Byte → List (List Byte)
  | 0, _ => []
  | n + 1, bs => bs.take 4 :: words4 n (bs.drop 4)

/-- The 15 round keys of AES-256, 16 bytes each. -/
def aesKeys (key : List Byte) : List (List Byte) :=
  let w := words4 8 key
  let all := w ++ aesSchedule 52 8 1 w
  (List.range 15).map (fun r => ((all.drop (4 * r)).take 4).flatten)

/-- ShiftRows on 16 bytes in column order. -/
def shiftRows (b : List Byte) : List Byte :=
  (List.range 16).map (fun i => b.getD ((i + 4 * (i % 4)) % 16) 0)

/-- MixColumns on 16 bytes. -/
def mixColumns (b : List Byte) : List Byte :=
  (List.range 16).map (fun i =>
    let c := i / 4 * 4
    let a := fun k => b.getD (c + (i + k) % 4) 0
    xtime (a 0) ^^^ (xtime (a 1) ^^^ a 1) ^^^ a 2 ^^^ a 3)

/-- Bytewise exclusive or. -/
def xorBytes (a b : List Byte) : List Byte := List.zipWith (· ^^^ ·) a b

/-- The rounds after the first key addition; the last has no MixColumns. -/
def aesRounds : List (List Byte) → List Byte → List Byte
  | [], b => b
  | [k], b => xorBytes (shiftRows (b.map sbox)) k
  | k :: ks, b => aesRounds ks (xorBytes (mixColumns (shiftRows (b.map sbox))) k)

/-- AES-256 of one block under expanded keys. -/
def aesBlock (keys : List (List Byte)) (b : List Byte) : List Byte :=
  match keys with
  | k :: ks => aesRounds ks (xorBytes b k)
  | [] => b

/-- Multiplication in the GCM field, on numbers whose bit 127 is the first bit. -/
def ghashMul (x y : BitVec 128) : BitVec 128 :=
  ((List.range 128).foldl (fun (r : BitVec 128 × BitVec 128) i =>
    ((if x.getLsbD (127 - i) then r.1 ^^^ r.2 else r.1),
      (r.2 >>> 1) ^^^ (if r.2.getLsbD 0 then (0xE1 : BitVec 128) <<< 120 else 0))) (0, y)).1

/-- Blocks of 16 bytes, the last padded with zeros. -/
def blocks16 : Nat → List Byte → List (List Byte)
  | 0, _ => []
  | n + 1, bs => (bs.take 16 ++ List.replicate (16 - (bs.take 16).length) 0) :: blocks16 n (bs.drop 16)

/-- GHASH of additional data and text. -/
def ghash (h : BitVec 128) (aad text : List Byte) : List Byte :=
  let bl := blocks16 ((aad.length + 15) / 16) aad ++ blocks16 ((text.length + 15) / 16) text
    ++ [beBytes 8 (8 * aad.length) ++ beBytes 8 (8 * text.length)]
  beBytes 16 (bl.foldl (fun y b => ghashMul (y ^^^ BitVec.ofNat 128 (beNat b)) h) 0).toNat

/-- The counter-mode key stream from counter `c`, `n` blocks. -/
def gctr (keys : List (List Byte)) (nonce : List Byte) : Nat → Nat → List Byte
  | 0, _ => []
  | n + 1, c => aesBlock keys (nonce ++ beBytes 4 c) ++ gctr keys nonce n (c + 1)

/-- AES-256-GCM: the text under the key stream, and the tag over the ciphertext `ct`. -/
def gcmText (key nonce text : List Byte) : List Byte :=
  xorBytes text (gctr (aesKeys key) nonce ((text.length + 15) / 16) 2)
def gcmTag (key nonce aad ct : List Byte) : List Byte :=
  let keys := aesKeys key
  let h := BitVec.ofNat 128 (beNat (aesBlock keys (List.replicate 16 0)))
  xorBytes (ghash h aad ct) (aesBlock keys (nonce ++ beBytes 4 1))

/-- Sealing: ciphertext and tag. -/
def gcmSeal (key nonce aad pt : List Byte) : List Byte × List Byte :=
  let ct := gcmText key nonce pt
  (ct, gcmTag key nonce aad ct)

/-- Opening: the plaintext when the tag passes. -/
def gcmOpen (key nonce aad ct tag : List Byte) : Option (List Byte) :=
  if gcmTag key nonce aad ct = tag then some (gcmText key nonce ct) else none

/-! ### Curve25519 -/

/-- The field prime 2^255 - 19. -/
def p25519 : Nat := 2 ^ 255 - 19
/-- The group order. -/
def l25519 : Nat := 2 ^ 252 + 27742317777372353535851937790883648493

/-- `b ^ e mod p`, over `n` bits of `e`. -/
def powMod : Nat → Nat → Nat → Nat → Nat
  | 0, _, _, _ => 1
  | n + 1, b, e, p => (if e % 2 = 1 then b else 1) * powMod n (b * b % p) (e / 2) p % p

/-- Field operations. -/
def fAdd (a b : Nat) : Nat := (a + b) % p25519
def fSub (a b : Nat) : Nat := (a + p25519 - b % p25519) % p25519
def fMul (a b : Nat) : Nat := a * b % p25519
def fInv (a : Nat) : Nat := powMod 256 a (p25519 - 2) p25519

/-- The Montgomery ladder over the bits of `k` from bit `n - 1` down (X25519). -/
def ladder (u k : Nat) : Nat → Nat × Nat → Nat × Nat → Nat × Nat
  | 0, a, _ => a
  | n + 1, (x2, z2), (x3, z3) =>
    let sw := k / 2 ^ n % 2 = 1
    let (x2, z2, x3, z3) := if sw then (x3, z3, x2, z2) else (x2, z2, x3, z3)
    let a := fAdd x2 z2
    let aa := fMul a a
    let b := fSub x2 z2
    let bb := fMul b b
    let e := fSub aa bb
    let da := fMul (fSub x3 z3) a
    let cb := fMul (fAdd x3 z3) b
    let x3' := fMul (fAdd da cb) (fAdd da cb)
    let z3' := fMul u (fMul (fSub da cb) (fSub da cb))
    let x2' := fMul aa bb
    let z2' := fMul e (fAdd aa (fMul 121665 e))
    if sw then ladder u k n (x3', z3') (x2', z2') else ladder u k n (x2', z2') (x3', z3')

/-- A clamped X25519 scalar. -/
def clamp25519 (k : Nat) : Nat := k % 2 ^ 254 / 8 * 8 + 2 ^ 254

/-- X25519 of a private scalar and a peer's point, 32 little-endian bytes each. -/
def x25519 (priv peer : List Byte) : List Byte :=
  let u := leNat peer % 2 ^ 255
  let r := ladder u (clamp25519 (leNat priv)) 255 (1, 0) (u, 1)
  leBytes 32 (fMul r.1 (fInv r.2))

/-- The X25519 public key. -/
def x25519Pub (priv : List Byte) : List Byte := x25519 priv (leBytes 32 9)

/-- The Edwards curve constant d. -/
def edD : Nat := fMul (fSub 0 121665) (fInv 121666)

/-- Points in extended coordinates. -/
abbrev EdPoint := Nat × Nat × Nat × Nat

/-- Point addition. -/
def edAdd (p q : EdPoint) : EdPoint :=
  let (x1, y1, z1, t1) := p
  let (x2, y2, z2, t2) := q
  let a := fMul (fSub y1 x1) (fSub y2 x2)
  let b := fMul (fAdd y1 x1) (fAdd y2 x2)
  let c := fMul (fMul t1 t2) (fMul 2 edD)
  let d := fMul 2 (fMul z1 z2)
  let e := fSub b a
  let f := fSub d c
  let g := fAdd d c
  let h := fAdd b a
  (fMul e f, fMul g h, fMul f g, fMul e h)

/-- Scalar multiplication over `n` bits. -/
def edMul : Nat → Nat → EdPoint → EdPoint
  | 0, _, _ => (0, 1, 1, 0)
  | n + 1, k, p =>
    let r := edMul n (k / 2) (edAdd p p)
    if k % 2 = 1 then edAdd p r else r

/-- The square root of a field element, where it has one. -/
def fSqrt (a : Nat) : Option Nat :=
  let r := powMod 256 a ((p25519 + 3) / 8) p25519
  if fMul r r = a % p25519 then some r
  else
    let r := fMul r (powMod 256 2 ((p25519 - 1) / 4) p25519)
    if fMul r r = a % p25519 then some r else none

/-- The point that 32 bytes encode. -/
def edDecode (bs : List Byte) : Option EdPoint :=
  let v := leNat bs
  let y := v % 2 ^ 255
  let sign := v / 2 ^ 255 % 2
  if p25519 ≤ y then none
  else
    let yy := fMul y y
    match fSqrt (fMul (fSub yy 1) (fInv (fAdd (fMul edD yy) 1))) with
    | none => none
    | some x =>
      if x = 0 ∧ sign = 1 then none
      else
        let x := if x % 2 = sign then x else p25519 - x
        some (x, y, 1, fMul x y)

/-- The 32 bytes of a point. -/
def edEncode (p : EdPoint) : List Byte :=
  let zi := fInv p.2.2.1
  let x := fMul p.1 zi
  let y := fMul p.2.1 zi
  leBytes 32 (y + x % 2 * 2 ^ 255)

/-- The base point: y is 4/5 and x is even. -/
def edBase : EdPoint := (edDecode (leBytes 32 (fMul 4 (fInv 5)))).getD (0, 1, 1, 0)

/-- The Ed25519 public key of a 32-byte private key. -/
def edPub (sk : List Byte) : List Byte :=
  edEncode (edMul 256 (clamp25519 (leNat ((sha512 sk).take 32))) edBase)

/-- The Ed25519 signature of a message. -/
def edSign (sk m : List Byte) : List Byte :=
  let h := sha512 sk
  let a := clamp25519 (leNat (h.take 32))
  let pk := edEncode (edMul 256 a edBase)
  let r := leNat (sha512 (h.drop 32 ++ m)) % l25519
  let rb := edEncode (edMul 256 r edBase)
  let k := leNat (sha512 (rb ++ pk ++ m)) % l25519
  rb ++ leBytes 32 ((r + k * a) % l25519)

/-- Ed25519 verification. -/
def edVerify (pk m sig : List Byte) : Bool :=
  match edDecode pk, edDecode (sig.take 32) with
  | some a, some _ =>
    let s := leNat ((sig.drop 32).take 32)
    let k := leNat (sha512 (sig.take 32 ++ pk ++ m)) % l25519
    let (x, y, z, t) := a
    decide (sig.length = 64) && decide (s < l25519)
      && (edEncode (edAdd (edMul 256 s edBase) (edMul 256 k (fSub 0 x, y, z, fSub 0 t))) == sig.take 32)
  | _, _ => false

/-! ### CRC-32C -/

/-- CRC-32C of bytes. -/
def crc32c (bs : List Byte) : BitVec 32 :=
  ~~~(bs.foldl (fun (c : BitVec 32) b =>
    (List.range 8).foldl (fun (c : BitVec 32) _ => (c >>> 1) ^^^ (if c.getLsbD 0 then 0x82F63B78 else 0))
      (c ^^^ b.setWidth 32)) 0xFFFFFFFF)

end Sys2Proof.Machine
end

