-- ==== Sys2Proof/Machine/MonitorOps.lean ====
section
/-!
DEFINITION. The sequencer of the monitor converters (13.R354 to R361): dealing entries, triggers and restarts, writes of an
entry, and the loss and return of power.
-/

namespace Sys2Proof.Machine

/-- Conversions that carry VALID = 0 after SOURCE changed to what the entry names (13.R359). -/
def sourceCount (e : MonEntry) : Nat := if e.source < 64 then 2 else 1

/-- The tap that a source names. -/
def tapCore (source : Nat) : Fin 64 := coreIx source

/-- A conversion of an entry starts, for result register `reg`: it is one of those that the entry's count leaves without VALID or
not (13.R359), and a tap's held sample is taken and counts as converted (13.R353, 02.R68). -/
def State.startConversion (s : State) (am1 : Bool) (entry reg : Nat) : State :=
  let e := getN s.monitor.entries entry {}
  let tap := s.cores[tapCore e.source].tap
  let cv : Converting := { entry := entry, source := e.source, gain := e.gain, reg := reg, valid := decide (e.invalid = 0) }
  let cv : Converting := if e.source < 64 then { cv with sample := tap.sample, stale := tap.stale } else cv
  let s : State := { s with monitor := { s.monitor with
    entries := updN s.monitor.entries entry (fun e => { e with invalid := e.invalid - 1 }) } }
  let s := if am1 then { s with monitor := { s.monitor with am1 := some cv } }
    else { s with monitor := { s.monitor with am0 := some cv } }
  if e.source < 64 then s.updCore (tapCore e.source) (fun k => { k with tap := { k.tap with stale := true } }) else s

/-- The first entry from `n` up to LAST that names a source (13.R354). -/
def Monitor.nextEntry (m : Monitor) (n : Nat) : Option Nat :=
  (List.range (m.last + 1)).find? (fun i => n ≤ i && (getN m.entries i {}).source != 127)

/-- The next entry is dealt to a free converter (13.R355); with CONT = 1 a new pass begins as soon as the last is dealt. -/
def State.dealDual (s : State) (am1 : Bool) : State :=
  let m := s.monitor
  match m.nextEntry m.next with
  | some i => ({ s with monitor := { m with next := i + 1 } } : State).startConversion am1 i i
  | none =>
    if !m.cont then s
    else match m.nextEntry 0 with
      | some i =>
        ({ s with monitor := { m with next := i + 1, pass := (m.pass + 1) % 2 ^ 14 } } : State).startConversion am1 i i
      | none => s

/-- In interleaved operation the next conversion of entry 0 starts; a pass is LAST + 1 conversions (13.R356). -/
def State.dealIlv (s : State) (am1 : Bool) : State :=
  let m := s.monitor
  if (getN m.entries 0 {}).source = 127 then s
  else if m.next ≤ m.last then
    ({ s with monitor := { m with next := m.next + 1 } } : State).startConversion am1 0 m.next
  else if m.cont then
    ({ s with monitor := { m with next := 1, pass := (m.pass + 1) % 2 ^ 14 } } : State).startConversion am1 0 0
  else s

/-- A free converter takes its next conversion, unless a trigger waits (13.R358). -/
def State.deal (s : State) (am1 : Bool) : State :=
  let busy := if am1 then s.monitor.am1.isSome else s.monitor.am0.isSome
  if busy || !s.monitor.run || s.monitor.pending || !s.monitor.powered then s
  else if s.monitor.ilv then s.dealIlv am1 else s.dealDual am1

/-- Both converters that are free are dealt to, AM0 first; the sequence stops when neither has work and CONT is 0. -/
def State.dealBoth (s : State) : State :=
  let s := (s.deal false).deal true
  if s.monitor.am0.isNone && s.monitor.am1.isNone && !s.monitor.cont then
    { s with monitor := { s.monitor with run := false } }
  else s

/-- Both converters are free. -/
def Monitor.free (m : Monitor) : Bool := m.am0.isNone && m.am1.isNone

/-- The sequence restarts at entry 0: FRESH and PENDING clear (13.R358), and a pass begins. -/
def State.monRestart (s : State) : State :=
  let s : State := { s with monitor := { s.monitor with
    pending := false, run := true, next := 0, pass := (s.monitor.pass + 1) % 2 ^ 14
    results := s.monitor.results.map (fun r => { r with fresh := false }) } }
  s.dealBoth

/-- A trigger: a stopped sequence restarts at once, a running one sets PENDING (13.R358). -/
def State.monTrigger (s : State) : State :=
  if !s.monitor.powered then s
  else if !s.monitor.run && s.monitor.free then s.monRestart
  else { s with monitor := { s.monitor with pending := true } }

/-- The count of 13.R359 that a write of an entry loads: the largest that applies to what changed. -/
def changeCount (old new : MonEntry) : Nat :=
  max (if old.source ≠ new.source ∧ new.source ≠ 127 then sourceCount new else 0)
    (max (if old.gain ≠ new.gain ∧ new.source < 64 then 4 else 0) (if old.filt ≠ new.filt then 8 else 0))

/-- A conversion of the entry in progress is finished and discarded (13.R360). -/
def discardEntry (n : Nat) (c : Option Converting) : Option Converting :=
  c.map (fun v => if v.entry = n then { v with discard := true } else v)

/-- A sequence entry is written (13.R360, R363): an unchanged value has no effect; otherwise VALID and FRESH of its
result clear, and the larger of the remaining and the new count stands. -/
def State.writeEntry (s : State) (n v : Nat) : State :=
  let old := getN s.monitor.entries n {}
  let src := bits v 0 7
  let new : MonEntry :=
    { filt := bits v 10 2, gain := bits v 8 2, source := if 95 < src then 127 else src, invalid := old.invalid }
  if new = old then s
  else
    let new := { new with invalid := max old.invalid (changeCount old new) }
    let m := s.monitor
    let s := { s with monitor := { m with
      entries := updN m.entries n (fun _ => new)
      results := updN m.results n (fun r => { r with valid := false, fresh := false })
      am0 := discardEntry n m.am0, am1 := discardEntry n m.am1 } }
    s.dealBoth

/-- The monitor converters lose VDD_A: conversions stop, and VALID and FRESH clear (13.R361, R362). -/
def State.monitorOff (s : State) : State :=
  { s with
    monitor := { s.monitor with
      powered := false, run := false, pending := false, am0 := none, am1 := none
      results := s.monitor.results.map (fun r => { r with valid := false, fresh := false })
      latest := Vector.replicate 96 none }
    assay := { s.assay with temp := Vector.replicate 8 none } }

/-- Power returns: every entry that names a source takes the SOURCE count, and the return acts as a trigger (13.R361). -/
def State.monitorOn (s : State) : State :=
  if s.monitor.powered then s
  else
    let s : State := { s with monitor := { s.monitor with
      powered := true
      entries := s.monitor.entries.map (fun e => if e.source = 127 then e else { e with invalid := max e.invalid (sourceCount e) }) } }
    s.monTrigger

end Sys2Proof.Machine
end

