-- ==== Sys2Proof/Machine/Power.lean ====
section
/-!
DEFINITION. Power (chapter 16): the registers of R422, the governor, thermal thresholds, sleep states, and the commands of
this family.
-/

namespace Sys2Proof.Machine

/-- The nearer limit of a range (16.R422). -/
def clampNat (lo hi v : Nat) : Nat := max lo (min hi v)

/-! ### Register writes (16.R409, R410, R422) -/

/-- PW_CAP.CAP takes a value: it is clamped (00.R4), CAP_EFF never exceeds it, and a changed cap changes the shape table
(16.R410, R421). -/
def State.writeCap (s : State) (v : Nat) : State :=
  let c := clampNat 16 s.fuses.actCapMax v
  let changed := decide (c ≠ s.power.cap)
  let s := { s with power := { s.power with cap := c, capEff := min s.power.capEff c } }
  if changed then s.shapeChange (.cap c) else s

/-- A fraction of a ceiling, rounded (04.R115). -/
def partOf (n d : Nat) : Nat := (rne ((n : Rat) / d)).toNat

/-- The levers at their throttled values (16.R415). -/
def throttled (p : Power) : Power := { p with capEff := 16, vddcSet := p.vddcMin, whEff := partOf p.whCeil 4 }

/-- THROTTLE holds the levers whatever is written meanwhile (16.R415). -/
def holdLevers (p : Power) : Power := if p.throttling then throttled p else p

/-- WH_CEIL takes a value; WH_EFF equals it in profile P and never exceeds it (16.R412, R422). -/
def State.writeWhCeil (s : State) (v : Nat) : State :=
  let c := clampNat 32 768 v
  let p : Power := { s.power with whCeil := c, whEff := if s.power.profileP then c else min s.power.whEff c }
  { s with power := holdLevers p }

/-- SHORT and SUSTAIN take values (16.R422): SHORT is limited first, then SUSTAIN by SHORT (assumption 21). -/
def State.writeLimits (s : State) (sustain short : Nat) : State :=
  let sh := clampNat 10 s.fuses.powerLimit short
  { s with power := { s.power with short := sh, sustain := clampNat 10 sh sustain } }

/-- A write of PW_PROFILE: the profile's values are loaded, clamped to the fused limits (16.R409). -/
def State.writeProfile (s : State) (g4En burstEn profileP : Bool) : State :=
  let s := { s with power := { s.power with g4En := g4En, burstEn := burstEn, profileP := profileP } }
  let s := if profileP then s.writeLimits 90 120 else s.writeLimits 35 60
  let s := s.writeCap (if profileP then 256 else 128)
  s.writeWhCeil (if profileP then 768 else 250)

/-- A write of PW_CEIL. -/
def State.writeCeil (s : State) (v : Nat) : State :=
  let s := { s with power := { s.power with progBudget := clampNat 1 64 (bits v 20 6) } }
  s.writeLimits (bits v 0 10) (bits v 10 10)

/-- A write of PW_VDDC: MAX is limited first, then MIN by MAX (assumption 21). -/
def State.writeVddc (s : State) (v : Nat) : State :=
  let mx := clampNat 100 170 (bits v 8 8)
  let p : Power := { s.power with vddcMax := mx, vddcMin := clampNat 100 mx (bits v 0 8) }
  { s with power := holdLevers p }

/-- A write of PW_THERM: ALERT is limited first, then THROTTLE, then TRIP (assumption 21). -/
def State.writeTherm (s : State) (v : Nat) : State :=
  let al := clampNat 60 105 (bits v 8 8)
  let th := clampNat al 110 (bits v 16 8)
  { s with power := { s.power with tAlert := al, tThrottle := th, tTrip := clampNat (th + 1) 115 (bits v 24 8) } }

/-- A write of PW_FORCE (16.R420): a state deeper than what is forced, or than what the restarted selection asks for, is
left. -/
def State.writeForce (s : State) (en : Bool) (st : Nat) : State :=
  let s := { s with power := { s.power with forceEn := en, forceState := min st 4 } }
  if s.sleepTarget < s.power.depth then s.startWake else s

/-! ### Thermal (16.R415) -/

/-- Degrees C times 100 of a temperature code (13.R362). -/
def tempOf (code : Nat) : Int := rne ((25 / 4 : Rat) * code) - 6400

/-- Tmax: the highest valid latest reading among T00 to T23, sources 64 to 87 (16.R415). -/
def State.tMax (s : State) : Option Int :=
  ((List.range 24).filterMap (fun i => getN s.monitor.latest (64 + i) none)).foldl
    (fun m c => match m with
      | none => some (tempOf c)
      | some t => some (max t (tempOf c))) none

/-- Loom-class instructions whose engines integrate are abandoned: nothing of them is written (01.R32, 16.R415). They
leave the queue and release their grants; operations that waited on them wait no more. -/
def State.abandonLoom (s : State) (c : Fin 64) : State :=
  let run (i : LoomInstr) : Bool := i.phase == .integrating
  let gone := (s.cores[c].loomQ.filter run).map (fun i => i.q.uid)
  if gone = [] then s
  else
    let s := s.count c EV_SLOT_WASTED gone.length
    let s := s.updCore c (fun k => { k with
      loomQ := k.loomQ.filter (fun i => !run i), seq := unwait gone k.seq
      engines := k.engines.map (fun e => { e with active := false }) })
    (s.releaseCap c).releaseProg c

/-- Every core abandons what its engines integrate. -/
def State.abandonLooms (s : State) : State := (List.finRange 64).foldl (fun s c => s.abandonLoom c) s

/-- Every running job ends with a status (15.R401). -/
def State.endRunning (s : State) (status : Nat) : State :=
  (s.jobs.filter (fun j => j.st == .running)).foldl (fun s j => s.endJob j.slot status 0 0) s

/-- A port that serves the host halts (16.R415). -/
def State.haltPort (s : State) : State :=
  if s.port.state = .ready ∨ s.port.state = .updating then ({ s with port := { s.port with state := .halted } } : State).raiseIrq IRQ_HALT else s

/-- The trip is recorded. -/
def State.markTrip (s : State) : State := { s with power := { s.power with inTrip := true, tripped := true } }

/-- Entry into TRIP: engines stop, running jobs end, a READY port halts, the device leaves sleep (16.R415, 14.R388); before
READY the port halts when READY would be reached (23.R546). -/
def State.enterTrip (s : State) : State :=
  if s.power.inTrip then s
  else ((((s.markTrip.endRunning PW_THERMAL_TRIP).abandonLooms).logEvent PW_THERMAL_TRIP).haltPort).wakeEvent true

/-- ALERT is entered or left. -/
def State.alertAt (s : State) (t : Int) : State :=
  let p := s.power
  if !p.alerting ∧ 100 * (p.tAlert : Int) ≤ t then
    ({ s with power := { p with alerting := true } } : State).logEvent MG_THERM_ALERT
  else if p.alerting ∧ t < 100 * ((p.tAlert : Int) - 3) then { s with power := { p with alerting := false } }
  else s

/-- THROTTLE is entered or left. -/
def State.throttleAt (s : State) (t : Int) : State :=
  let p := s.power
  if !p.throttling ∧ 100 * (p.tThrottle : Int) ≤ t then
    { s with power := throttled { p with throttling := true } }
  else if p.throttling ∧ t < 100 * ((p.tThrottle : Int) - 5) then { s with power := { p with throttling := false } }
  else s

/-- The thresholds are looked at after a change of Tmax (16.R415). -/
def State.thermal (s : State) : State :=
  match s.tMax with
  | none => s
  | some t =>
    let s := (s.alertAt t).throttleAt t
    if 100 * (s.power.tTrip : Int) ≤ t then s.enterTrip else s

/-- Doorbells recorded while nothing was acted on take effect (14.R382, 16.R415). -/
def State.actRecorded (s : State) : State :=
  match s.port.recorded with
  | some t => { s with port := { s.port with sqTail := t, recorded := none } }
  | none => s

/-! ### The governor (16.R412 to R414) -/

/-- Burst credit over one estimate of 10 us, in units of 1/400 ms (16.R414, assumption 20). -/
def creditStep (p : Power) : Power :=
  if p.sustain * 100 < p.p100 then { p with credit := p.credit - 4 } else { p with credit := min 800000 (p.credit + 1) }

/-- Burst holds: profile P with BURST_EN and CREDIT above 0. -/
def bursting (p : Power) : Bool := p.profileP && p.burstEn && decide (0 < p.creditMs)

/-- The limits in force in mW: that of P100, and that of P1S where one applies (16.R412, R414). -/
def shortLimit (fused : Nat) (p : Power) : Nat := (if bursting p then min 160 fused else p.short) * 100
def sustainLimit (p : Power) : Option Nat := if bursting p then none else some (p.sustain * 100)

/-- The estimate's averages: P100 is the mean of the last ten, P1S the exponential average of P100 over 1 s (16.R411). -/
def takeEstimate (p : Power) (mw : Nat) : Power :=
  let es := (mw :: p.estimates).take 10
  let p100 := partOf (es.foldl (fun a e => a + e) 0) 10
  let avg := p.avg + p100 - partOf p.avg 100000
  { p with estimates := es, avg := avg, p100 := min p100 0xFFFF, p1s := min (partOf avg 100000) 0xFFFF }

/-- The three levers move by one estimate (16.R412); fractions of WH_CEIL are rounded (04.R115). -/
def govern (fused : Nat) (p : Power) : Power :=
  let above := decide (shortLimit fused p < p.p100) || (sustainLimit p).any (fun l => decide (l < p.p1s))
  let below := decide (10 * p.p100 < 9 * shortLimit fused p)
    && (sustainLimit p).all (fun l => decide (10 * p.p1s < 9 * l))
  let p := { p with whEff := if p.profileP then p.whCeil else p.whEff }
  if above then
    { p with
      capEff := max 16 (p.capEff - ceilDiv p.capEff 8)
      vddcSet := max p.vddcMin (p.vddcSet - 2)
      whEff := if p.profileP then p.whCeil else max (partOf p.whCeil 8) (p.whEff - partOf p.whCeil 8) }
  else if below then
    { p with
      capEff := min p.cap (p.capEff + 8)
      vddcSet := min p.vddcMax (p.vddcSet + 2)
      whEff := if p.profileP then p.whCeil else min p.whCeil (p.whEff + partOf p.whCeil 16) }
  else p

/-! ### Loss of power in sleep (16.R416) -/

/-- Core stores, descriptor tables, accumulators, sync counters and Tallies lose their contents; they read 0 when power
returns (10.R279). -/
def State.loseCores (s : State) : State :=
  { s with
    mem := NatMap.keep (fun a => a / 2 ^ 44 ≠ 1) s.mem
    poison := NatMap.keep (fun g => g / 2 ^ 38 ≠ 1) s.poison
    cores := s.cores.map (fun k => { k with acc := [], zsum := [], chain := false, mill := {} })
    clusters := s.clusters.map (fun k => { k with counters := [], tally := {} }) }

/-- The Warehouse domain loses its contents: every written bit clears and every RESIDENT slot becomes DORMANT
(10.R279, 11.R288). -/
def State.loseWarehouse (s : State) : State :=
  { s with
    mem := NatMap.keep (fun a => a / 2 ^ 44 ≠ 0) s.mem
    poison := NatMap.keep (fun g => g / 2 ^ 38 ≠ 0) s.poison
    written := []
    models := s.models.map (fun m => if m.st = .resident then { m with st := .dormant } else m) }

/-- A sleep state is reached: what it powers off is lost. -/
def State.sleepIn (s : State) (g : Nat) : State :=
  let s := { s with power := { s.power with cur := g, entering := none } }
  match g with
  | 1 => { s with cores := s.cores.map (fun k => { k with engines := k.engines.map unpowerEngine }) }
  | 2 => ({ s with cores := s.cores.map (fun k => { k with gated := true }) } : State).monitorOff
  | 3 => ({ s with fabric := { s.fabric with
      links := s.fabric.links.map (fun l => if l.st = .up then { l with st := .lowpower } else l) } } : State).loseCores
  | 4 => s.loseWarehouse
  | _ => s

/-! ### Commands -/

/-- POWER_ESTIMATE: every 10 us the estimate is taken from its two sources in mW, the events weighted by their trimmed
energies and the leakage, neither of which any rule gives a value for (16.R411 to R414); THROTTLE holds the levers. -/
def execPowerEstimate (events leakage : Nat) (s : State) : Out :=
  let p := creditStep (takeEstimate s.power (events + leakage))
  .next { s with power := if p.throttling then throttled p else govern s.fuses.powerLimit p }

/-- PW_PROFILE_WRITE (16.R409, R422). -/
def execPwProfileWrite (v : W32) (s : State) : Out :=
  .next (s.writeProfile (bit v.toNat 3) (bit v.toNat 2) (bit v.toNat 0))

/-- PW_CAP_WRITE (16.R410). -/
def execPwCapWrite (v : W32) (s : State) : Out := .next (s.writeCap (bits v.toNat 0 9))

/-- PW_FORCE_WRITE (16.R420, R422). -/
def execPwForceWrite (v : W32) (s : State) : Out := .next (s.writeForce (bit v.toNat 31) (bits v.toNat 0 3))

/-- PW_THERM_READ: the register is returned and TRIPPED clears (00.R11, 16.R422). -/
def execPwThermRead (s : State) : Out :=
  let (v, s') := s.pkgWord 0x30024
  .next { s' with latch := { s'.latch with reg := BitVec.ofNat 64 v } }

/-- The conditions of a sleep state hold: the device is without work and its target is at least as deep, or the state is
forced and no job is dispatched; it passes through the shallower states (16.R418, R420). A scrub keeps it awake (17.R451). -/
def State.sleepReady (s : State) (g : Nat) : Bool :=
  s.chouse.scrub.isNone && decide (0 < g) && decide (s.power.cur + 1 = g) && s.power.entering.isNone && !s.power.waking
    && decide (g ≤ s.sleepTarget) && (!s.power.forceEn || s.jobs.all (fun j => j.st == .waiting))

/-- SLEEP_HOLD_EXPIRY: the hold time of a state has passed with its conditions met, and its entry begins (16.R418). -/
def execSleepHoldExpiry (g : Fin 5) (s : State) : Out :=
  .next (if s.sleepReady g.val then { s with power := { s.power with entering := some g.val } } else s)

/-- A sleep state is entered (16.R416, R418). -/
def State.enterSleep (s : State) : State :=
  match s.power.entering with
  | some g => s.sleepIn g
  | none => s

/-- A FW_COMMIT that was accepted still waits for dispatched jobs (17.R429, 18.R465). -/
def State.commitWaits (s : State) : Bool := s.mgmt.waiting.any (fun r => r.cmd == 0x09)

/-- TRIP_EXIT: Tmax has been below ALERT for 1 s; the port is READY again and recorded doorbells are acted on (16.R415). -/
def execTripExit (s : State) : Out :=
  .next (match s.power.inTrip, s.tMax with
    | true, some t =>
      if t < 100 * (s.power.tAlert : Int) then
        let s := { s with power := { s.power with inTrip := false } }
        if s.port.state = .halted ∧ s.boot = .service then
          if s.commitWaits then { s with port := { s.port with state := .updating } }
          else ({ s with port := { s.port with state := .ready } } : State).actRecorded
        else s
      else s
    | _, _ => s)

/-- SLEEP_COMPARATOR_TRIP: in G2 to G4 a comparator drives THERM_ALERT_N and enters TRIP (16.R415). -/
def execSleepComparatorTrip (s : State) : Out :=
  .next (if 2 ≤ s.power.cur then
      let s := if s.power.alerting then s
        else ({ s with power := { s.power with alerting := true } } : State).logEvent MG_THERM_ALERT
      s.enterTrip
    else s)

end Sys2Proof.Machine
end

