-- ==== Sys2Proof/Machine/Shape.lean ====
section
/-!
DEFINITION. The shape table's updates (01.R21, R23) and the lasting loss of REFCLK (01.R32).
-/

namespace Sys2Proof.Machine

/-- The fields of the table after a change. -/
def applyChange (t : Shape) : ShapeChange → Shape
  | .cores cl st => { t with coreMap := (t.coreMap &&& ~~~cl) ||| st }
  | .links cl st => { t with linkMap := (t.linkMap &&& ~~~cl) ||| st }
  | .cap v => { t with actCap := v }
  | .fabric m id => { t with linkMap := t.linkMap ||| m, fabricId := id }
  | .coresLinks cl st lcl lst =>
    { t with coreMap := (t.coreMap &&& ~~~cl) ||| st, linkMap := (t.linkMap &&& ~~~lcl) ||| lst }

/-- An update is open: SHAPE_GEN is odd. -/
def State.updating (s : State) : Bool := s.shape.gen.getLsbD 0

/-- A change that waits will set the LINK_MAP bit. -/
def setsLink (n : Nat) : ShapeChange → Bool
  | .cores _ _ => false
  | .links _ st => st.getLsbD n
  | .cap _ => false
  | .fabric m _ => m.getLsbD n
  | .coresLinks _ _ _ st => st.getLsbD n

/-- A link goes down: its LINK_MAP bit is cleared by an update, and its frames that waited go by another route (01.R21,
19.R471, R478). -/
def State.linkDown (s : State) (n : Nat) : State :=
  let wasUp := s.shape.linkMap.getLsbD n || s.shape.changes.any (setsLink n)
  let l := getN s.fabric.links n {}
  let s : State := { s with fabric := { s.fabric with
    links := updN s.fabric.links n (fun l => { l with st := .down, nonce := [], mySealDigest := [], waiting := [] })
    held := s.fabric.held ++ l.waiting.map (fun f => ((Config.stitchHeader f.header).dest, f))
    ready := s.fabric.ready &&& ~~~(BitVec.ofNat 4 (2 ^ n)) } }
  if wasUp then s.shapeChange (.links (BitVec.ofNat 4 (2 ^ n)) 0) else s

/-- The cores whose bit has returned take the UNFENCE trigger (12.R342, 20.R492). -/
def State.coresBack (s : State) (old : W64) : State :=
  (s.pliesWhere (fun r => r.owner.isSome)).foldl (fun s q =>
    if s.coreBit (plyCore q).val && !old.getLsbD (plyCore q).val then s.trigger q false else s) s

/-- SHAPE_UPDATE_BEGIN: the oldest change that waits begins its update, when none is open: SHAPE_GEN becomes odd and the
changed fields are written (01.R21). -/
def execShapeUpdateBegin (s : State) : Out :=
  .next (match s.updating, s.shape.changes with
    | false, c :: rest =>
      ({ s with shape := { applyChange s.shape c with gen := s.shape.gen + 1, changes := rest } } : State).coresBack
        s.shape.coreMap
    | _, _ => s)

/-- The open update ends: SHAPE_GEN becomes even, and the SHAPE cause is set (01.R21, R23). -/
def State.endUpdate (s : State) : State :=
  if s.updating then
    ({ s with shape := { s.shape with gen := s.shape.gen + 1 } } : State).raiseIrq IRQ_SHAPE
  else s

/-- REFCLK_LOST: absent for 100 us. REFCLK_LOST is raised against every running job and logged (01.R32, 18.R467), and
the Stitch links are no routes any more (19.R481). -/
def execRefclkLost (s : State) : Out :=
  .next (if s.refclk.present || s.refclk.lost || decide (s.boot ≠ .service) then s
    else
      let s := { s with refclk := { s.refclk with lost := true } }
      let s := (s.endRunning REFCLK_LOST).logEvent REFCLK_LOST
      (List.range 4).foldl (fun s n => s.linkDown n) s)

end Sys2Proof.Machine
end

