-- ==== Sys2Proof/Machine/Port.lean ====
section
/-!
DEFINITION. Operations of the host port (chapter 14, 17.R441 to R446): where an access goes, write frames and their drains,
ordering points, register writes, staging requests, completion posting.
-/

namespace Sys2Proof.Machine

/-! ### Where an access goes (14.R369 to R371) -/

/-- The port answers its balls: PORST_N is high and no internal reset holds (22.R528). -/
def State.portOn (s : State) : Bool := s.boot != .porst && s.boot != .internalReset

/-- A channel's state, and the state with it changed. -/
def State.chan (s : State) : Chan → ChanState
  | .a => s.port.chanA
  | .b => s.port.chanB
def State.updChan (s : State) (ch : Chan) (f : ChanState → ChanState) : State :=
  match ch with
  | .a => { s with port := { s.port with chanA := f s.port.chanA } }
  | .b => { s with port := { s.port with chanB := f s.port.chanB } }

/-- The host offset of an access; none when the bank has no active row (14.R369). -/
def State.hostOff (s : State) (a : HostAddr) : Option Nat :=
  ((s.chan a.ch).rows[a.bank]).map (fun r => r * 32768 + a.bank.val * 2048 + a.col.val)

/-- What stands at a host offset (14.R370). -/
inductive Target where
  | control
  | subRing
  | compRing
  | unmapped
  | aperture
  | wharf
  deriving DecidableEq, Repr

/-- The target of a host offset (14.R370); only the mapped part of a ring is a ring. -/
def State.target (s : State) (ch : Chan) (off : Nat) : Target :=
  match ch with
  | .a =>
    if off < 0x10000 then .control
    else if off < 0x10000 + 64 * 2 ^ s.port.sqLog then .subRing
    else if 0x50000 ≤ off ∧ off < 0x50000 + 64 * 2 ^ s.port.cqLog then .compRing
    else if off < 0x1000000 then .unmapped
    else .aperture
  | .b => if off < 0x40000000 then .wharf else .aperture

/-- First host offset of a channel's aperture. -/
def apFirst (ch : Chan) : Nat := if ch = .a then 0x1000000 else 0x40000000

/-- The Warehouse offset that an aperture page reaches (14.R371). -/
def State.reach (s : State) (ch : Chan) (page : Nat) : Nat :=
  (if ch = .a then s.port.apaBase else s.port.apbBase) * 2 ^ 24 + (page - apFirst ch)

/-- The page is closed: it reaches the device's part of the Warehouse or beyond it (14.R371). -/
def State.closedPage (s : State) (ch : Chan) (page : Nat) : Bool :=
  decide (s.port.split * 2 ^ 28 ≤ s.reach ch page) || decide (warehouseBytes ≤ s.reach ch page)

/-- First offset of the page that holds an offset. -/
def pageOf (off : Nat) : Nat := off / 4096 * 4096

/-! ### Confidential pages (17.R441 to R446) -/

/-- Index of a page in its group of 64 (17.R441). -/
def groupIx (ch : Chan) (page : Nat) : Nat := (page - apFirst ch) / 4096 % 64

/-- The page lies in the public area (17.R443). -/
def publicPage (ch : Chan) (page : Nat) : Bool := ch = .a && decide (page < 0x1010000)

/-- The data page whose header stands at an offset of a header page, and the offset in the header (17.R441). -/
def headerSlot (ch : Chan) (off : Nat) : Nat × Nat :=
  let k := off % 4096 / 64
  (apFirst ch + (off - apFirst ch) / 0x40000 * 0x40000 + 4096 * k, off % 64)

/-- The nonce and additional data of a page (17.R442). -/
def pageNonce (ctrEp : List Byte) (dev : Bool) : List Byte := ctrEp ++ leBytes 4 (b2n dev)
def pageAad (ch : Chan) (page : Nat) (ctrEp : List Byte) : List Byte :=
  leBytes 8 ((if ch = .b then 2 ^ 63 else 0) + page % 2 ^ 31) ++ ctrEp

/-- The key of an epoch (17.R424): slot 2 + e. -/
def State.pageKey (s : State) (e : Nat) : List Byte :=
  match getN s.chouse.keys (2 + e) none with
  | some k => k.bytes
  | none => []

/-- The session's current epoch, and its previous one while it is live (17.R438, R439). -/
def Session.current (x : Session) : Nat := x.rekeys.toNat % 4
def Session.previous (x : Session) : Option Nat := if x.prevLive then some ((x.rekeys.toNat + 3) % 4) else none
def Session.liveEpoch (x : Session) (e : Nat) : Bool := e == x.current || x.previous == some e

/-- An event of CH_SECERR, reported to the management port (17.R444, R446). -/
def State.secEvent (s : State) (code : Nat) : State :=
  ({ s with chouse := { s.chouse with secCode := code, secCount := min (s.chouse.secCount + 1) 0xFFFF } } : State).logEvent
    code

/-- A counter is fresh in its epoch's window (17.R444). -/
def Session.fresh (x : Session) (e ctr : Nat) : Bool :=
  let high := getN x.high e 0
  decide (high < ctr + 256) && !(getN x.accepted e []).contains ctr

/-- A counter is accepted: HIGH and the window's map move (17.R444). -/
def Session.accept (x : Session) (e ctr : Nat) : Session :=
  let high := max (getN x.high e 0) ctr
  { x with
    high := updN x.high e (fun _ => high)
    accepted := updN x.accepted e (fun l => (ctr :: l).filter (fun c => high < c + 256)) }

/-! ### Frames (14.R373 to R375) -/

/-- A frame's bytes as a masked page. -/
def frameBytes (f : Frame) : List (Option Byte) := (List.range 4096).map (fun i => NatMap.get none f.bytes i)

/-- Bytes with enables written to the Warehouse (10.R276). -/
def State.pokeMasked (s : State) (key : Nat) : List (Option Byte) → State
  | [] => s
  | bs =>
    -- a granule written whole loses its poison
    let s : State := { s with mem := s.mem.writeMasked key bs }
    let s := if bs.any (fun b => b.isSome) then (s.warehouseWrite key bs.length).markWritten key bs.length else s
    let full (g : Nat) : Bool := (List.range 64).all (fun i => ((bs[64 * g + i]?).bind id).isSome)
    { s with poison := NatMap.keep (fun g => !(decide (key / 64 ≤ g) && decide (key % 64 = 0)
      && decide (g < key / 64 + bs.length / 64) && full (g - key / 64))) s.poison }

/-- Clear staged copies of the page's Warehouse page take the write too (14.R379). -/
def State.snoop (s : State) (wh : Nat) (data : Burst) : State :=
  let base := pageOf wh
  { s with port := { s.port with staged := s.port.staged.map (fun g =>
      if s.reach g.ch g.page = base ∧ g.header = [] then
        { g with data := g.data.writeMasked (wh % 4096) data }
      else g) } }

/-- What the Warehouse page at an offset holds, a poisoned granule reading as zeros (10.R277). -/
def State.pageImage (s : State) (wh : Nat) : Memory :=
  (s.mem.filter (fun e => decide (wh ≤ e.1) && decide (e.1 < wh + 4096) && !s.poisoned e.1 1)).map
    (fun e => (e.1 - wh, e.2))

/-- A page's copy, encrypted under the current epoch with the next device counter (17.R442, R445). -/
def State.sealPage (s : State) (ch : Chan) (page : Nat) : Staged × State :=
  let e := s.chouse.session.current
  let ctr := getN s.chouse.session.devCtr e 0 + 1
  let ctrEp := leBytes 8 (e * 2 ^ 62 + ctr)
  let (ct, tag) := gcmSeal (s.pageKey e) (pageNonce ctrEp true) (pageAad ch page ctrEp)
    ((s.pageImage (s.reach ch page)).bytes 0 4096)
  ({ ch := ch, page := page, data := Memory.write [] 0 ct, header := ctrEp ++ tag, epoch := some e },
    { s with chouse := { s.chouse with session :=
      { s.chouse.session with devCtr := updN s.chouse.session.devCtr e (fun _ => ctr) } } })

/-- The encrypted copies of a Warehouse page follow a write that has drained to it: each is encrypted afresh (14.R379, 17.R445,
assumption 145). -/
def State.resealCopies (s : State) (wh : Nat) : State :=
  (s.port.staged.filter (fun g => decide (s.reach g.ch g.page = wh) && g.header != [] && !g.dead)).foldl (fun s g =>
    let (h, s) := s.sealPage g.ch g.page
    { s with port := { s.port with staged := s.port.staged.map (fun x =>
      if x.ch = g.ch ∧ x.page = g.page then { h with copied := g.copied } else x) } }) s

/-- An encrypted page drains: it is authenticated, replay-checked and decrypted, or refused (17.R444). -/
def State.drainConf (s : State) (f : Frame) : State :=
  let hdr := (List.range 24).map (fun i => (NatMap.get none f.header i).getD 0)
  let ctrEp := hdr.take 8
  let e := leNat ctrEp / 2 ^ 62
  let ctr := leNat ctrEp % 2 ^ 62
  let data := (frameBytes f).map (fun b => b.getD 0)
  let refuse (s : State) (code : Nat) : State := (s.setDrop (some (hostAddrWord f.ch f.page))).secEvent code
  if !s.chouse.session.live then refuse s SEC_NO_SESSION
  else if !s.chouse.session.liveEpoch e then refuse s SEC_EPOCH_RETIRED
  else match gcmOpen (s.pageKey e) (pageNonce ctrEp false) (pageAad f.ch f.page ctrEp) data (hdr.drop 8) with
    | none => refuse s SEC_PAGE_AUTH
    | some pt =>
      if !s.chouse.session.fresh e ctr then refuse s SEC_PAGE_REPLAY
      else
        let s := { s with chouse := { s.chouse with session := s.chouse.session.accept e ctr } }
        let wh := s.reach f.ch f.page
        ((s.poke wh pt).snoop wh (pt.map some)).resealCopies wh

/-- The page goes by the rules of confidential pages. -/
def State.confPage (s : State) (ch : Chan) (page : Nat) : Bool := s.chouse.conf && !publicPage ch page

/-- A frame's written bytes reach the Warehouse. -/
def State.drainFrame (s : State) (f : Frame) : State :=
  if s.confPage f.ch f.page then s.drainConf f
  else
    let wh := s.reach f.ch f.page
    (s.pokeMasked wh (frameBytes f)).resealCopies wh

/-- The frame holds every byte that its drain needs (14.R374, 17.R444). -/
def State.frameFull (s : State) (f : Frame) : Bool :=
  decide (f.bytes.length = 4096) && (!s.confPage f.ch f.page || decide (24 ≤ f.header.length))

/-- An open frame of a page. -/
def isFrame (ch : Chan) (page : Nat) (f : Frame) : Bool :=
  decide (f.ch = ch) && f.page == page && !f.draining && !f.due

/-- A frame starts to drain: its bytes are in the Warehouse from here on, and the frame is freed when its drain is
done (assumption 25). Outside state A the drain waits (16.R419). -/
def State.startDrain (s : State) (f : Frame) : State :=
  let s := if s.power.cur = 0 then s.drainFrame f else s
  { s with port := { s.port with frames := s.port.frames.map (fun g =>
      if isFrame f.ch f.page g then { g with draining := decide (s.power.cur = 0), due := decide (s.power.cur ≠ 0) } else g) } }

/-- Bases and the pool that wait for frames take effect once they have drained (14.R379, R394). -/
def State.settleBases (s : State) : State :=
  let p := s.port
  let openOn (ch : Chan) : Bool := p.frames.any (fun f => decide (f.ch = ch))
  let p := if !openOn .a then { p with apaBase := p.apaNext.getD p.apaBase, apaNext := none } else p
  let p := if !openOn .b then { p with apbBase := p.apbNext.getD p.apbBase, apbNext := none } else p
  let p := if p.frames.isEmpty then { p with pool := p.poolNext.getD p.pool, poolNext := none } else p
  { s with port := p }

/-- An ordering point (14.R375): every aperture write absorbed before is drained; an incomplete confidential frame is
discarded (17.R444). -/
def State.orderPoint (s : State) : State :=
  let fs := s.port.frames.filter (fun f => !f.draining && !f.due)
  let s := fs.foldl (fun s f =>
    if s.confPage f.ch f.page && !s.frameFull f then
      let s := { s with port := { s.port with frames := s.port.frames.filter (fun g => !isFrame f.ch f.page g) } }
      s.setDrop (some (hostAddrWord f.ch f.page))
    else s.startDrain f) s
  let s := s.settleBases
  { s with port := { s.port with pointWaits := s.port.frames.any (fun f => f.due) } }

/-- Drains that waited for state A start, in the order of the frames; an ordering point that waited for them is passed, and a
self-refresh entry then makes the host idle (14.R375, R390, 16.R419). -/
def State.drainDue (s : State) : State :=
  let s := (s.port.frames.filter (fun f => f.due)).foldl State.drainFrame s
  let p := s.port
  ({ s with port := { p with
      frames := p.frames.map (fun g => { g with draining := g.draining || g.due, due := false })
      pointWaits := false, idle := p.idle || p.idleNext, idleNext := false } } : State).settleBases

/-- Bytes of a burst entered in a frame's map. -/
def mergeBytes (m : NatMap (Option Byte)) (o : Nat) : Burst → NatMap (Option Byte)
  | [] => m
  | none :: bs => mergeBytes m (o + 1) bs
  | some b :: bs => mergeBytes (NatMap.insert m o (some b)) (o + 1) bs

/-- A write of the page is absorbed: a frame of it is open, or one is free (14.R373, R376). -/
def State.frameTakes (s : State) (ch : Chan) (page : Nat) : Bool :=
  s.port.frames.any (isFrame ch page) || decide (s.freeFrames ≠ 0)

/-- A write of data or header bytes of an open page: merged into its frame, or a frame opened if one is free, or dropped
(14.R373, R376); a frame that is full drains. -/
def State.frameWrite (s : State) (ch : Chan) (page : Nat) (header : Bool) (o : Nat) (data : Burst) (addr : Nat) : State :=
  if !s.frameTakes ch page then s.setDrop (some addr)
  else
    let s := if s.port.frames.any (isFrame ch page) then s
      else ({ s with port := { s.port with
        frames := s.port.frames ++ [{ ch := ch, page := page }], framesUsed := true } } : State).wakeEvent false
    let s := { s with port := { s.port with frames := s.port.frames.map (fun f =>
      if isFrame ch page f then
        if header then { f with header := mergeBytes f.header o data } else { f with bytes := mergeBytes f.bytes o data }
      else f) } }
    match s.port.frames.find? (isFrame ch page) with
    | some f => if s.frameFull f then s.startDrain f else s
    | none => s

/-- A burst to an aperture (14.R373, 17.R441, R444). -/
def State.writeAperture (s : State) (ch : Chan) (off : Nat) (data : Burst) : State :=
  let page := pageOf off
  let addr := hostAddrWord ch off
  let s := s.countPkg PE_HP_WR_LINES 1
  if s.chouse.conf ∧ groupIx ch page = 63 then
    let (dp, o) := headerSlot ch off
    if off % 4096 / 64 = 63 ∨ publicPage ch dp then s
    else if s.closedPage ch dp then s.setDrop (some addr)
    else s.frameWrite ch dp true o (data.take (24 - o)) addr
  else if s.closedPage ch page then s.setDrop (some addr)
  else
    let s := if s.confPage ch page || !s.frameTakes ch page then s else s.snoop (s.reach ch page + off % 4096) data
    s.frameWrite ch page false (off % 4096) data addr

/-! ### Registers of the control page block (14.R394) -/

/-- Staged pages of an aperture, or all, are freed (14.R379). -/
def State.unstageAll (s : State) (ch : Option Chan) : State :=
  { s with port := { s.port with staged := s.port.staged.filter (fun g =>
      match ch with
      | some c => decide (g.ch ≠ c)
      | none => false) } }

/-- HP_DB_SQ (14.R382): an ordering point and a wake event; recorded while nothing is accepted (16.R415, 17.R428). -/
def State.doorbell (s : State) (v : Nat) : State :=
  let t := v % 2 ^ s.port.sqLog
  let s := s.orderPoint
  let s := if s.port.state = .ready then { s with port := { s.port with sqTail := t } }
    else { s with port := { s.port with recorded := some t } }
  s.wakeEvent false

/-- HP_DB_STAGE (14.R378): a request is queued, or discarded when the queue is full; an ordering point and a wake event. -/
def State.stageBell (s : State) (unstage : Bool) (v : Nat) : State :=
  let s := s.orderPoint
  let s :=
    if s.port.stageQ.length < 16 then
      { s with port := { s.port with stageQ := s.port.stageQ ++
        [.host unstage (bits v 52 11) (if bit v 51 then .b else .a) (bits v 12 19 * 4096) (bits v 0 12)] } }
    else s.setDrop none
  s.wakeEvent false

/-- HP_RING_CFG (14.R381). -/
def State.ringCfg (s : State) (v : Nat) : State :=
  let p := s.port
  if p.sqHead = p.recorded.getD p.sqTail ∧ p.inUse = [] ∧ p.cqHead = p.cqTail then
    let s := { s with port := { p with
      sqLog := clampNat 6 12 (bits v 0 4), cqLog := clampNat 6 12 (bits v 8 4), recorded := none
      sqHead := 0, sqTail := 0, cqHead := 0, cqTail := 0, cqPhase := true, unread := [], aged := false } }
    (s.zero (portKey 0) 0x80000).settleCq
  else s

/-- HP_IRQ_STATUS: a 1 clears a cause; a cause whose condition still holds is set again (14.R388). -/
def State.irqClear (s : State) (v : Nat) : State :=
  ({ s with port := { s.port with irqStatus := s.port.irqStatus &&& ~~~(BitVec.ofNat 8 v) } } : State).settleCq

/-- HP_IRQ_ENABLE. -/
def State.irqEnableSet (s : State) (v : Nat) : State :=
  ({ s with port := { s.port with irqEnable := BitVec.ofNat 8 v } } : State).settlePin

/-- HP_IRQ_MOD: COUNT of 0 is stored as 1; with a TIME of 0 no entry ages (14.R388). -/
def State.irqMod (s : State) (v : Nat) : State :=
  ({ s with port := { s.port with
    modTime := bits v 16 16, modCount := max 1 (bits v 0 16), aged := s.port.aged && bits v 16 16 != 0 } } : State).settleCq

/-- HP_CQ_HEAD: entries before the new head are read (14.R387, R388). -/
def State.cqHeadSet (s : State) (v : Nat) : State :=
  let h := v % 2 ^ s.port.cqLog
  let left := if h = s.port.cqTail then [] else s.port.unread.dropWhile (fun e => e.1 != h)
  let counts (e : Nat × Bool × Bool) : Bool := e.2.1 || e.2.2
  let same := decide (left.find? counts = s.port.unread.find? counts)
  ({ s with port := { s.port with cqHead := h, unread := left, aged := s.port.aged && same } } : State).settleCq

/-- HP_APA_BASE and HP_APB_BASE: every page of the aperture is unstaged, and the base waits for its frames (14.R379). -/
def State.baseSet (s : State) (ch : Chan) (v : Nat) : State :=
  let b := bits v 24 10
  let s := s.unstageAll (some ch)
  (match ch with
    | .a => ({ s with port := { s.port with apaNext := some b } } : State)
    | .b => { s with port := { s.port with apbNext := some b } }).settleBases

/-- HP_POOL: every page is unstaged, and the split waits until no frame is open (14.R379, R394). -/
def State.poolSet (s : State) (v : Nat) : State :=
  let s := s.unstageAll none
  ({ s with port := { s.port with poolNext := some (clampNat 64 1024 (bits v 0 11)) } } : State).settleBases

/-- HP_WH_SPLIT: ignored while a slot is not EMPTY or an intake is open (14.R371). -/
def State.splitSet (s : State) (v : Nat) : State :=
  if s.models.toList.any (fun m => m.st != .empty) || s.intakeOpen then s
  else { s with port := { s.port with split := max 1 (bits v 0 6) } }

/-- HP_LATENCY_BUDGET: a value below the exit of the state held is a wake event (16.R419). -/
def State.budgetSet (s : State) (v : Nat) : State :=
  let s := { s with port := { s.port with budget := v } }
  if v < exitUs s.power.depth then s.wakeEvent false else s

/-- A write of a whole register of the control page block; read-only and reserved offsets ignore it (00.R11). -/
def State.hpWrite (s : State) (off v : Nat) : State :=
  match off with
  | 0x24 => { s with port := { s.port with live := max 1 (bits v 0 8) } }
  | 0x30 => s.irqClear (v % 256)
  | 0x34 => s.irqEnableSet (v % 256)
  | 0x38 => s.irqMod v
  | 0x3C => s.budgetSet v
  | 0x40 => s.ringCfg v
  | 0x44 => s.doorbell v
  | 0x4C => s.cqHeadSet v
  | 0x58 => s.baseSet .a v
  | 0x60 => s.baseSet .b v
  | 0x68 => s.splitSet v
  | 0x6C => s.poolSet v
  | 0x70 => s.stageBell (bit v 63) v
  | _ => s

/-- The registers of the control page block: offset and width in bytes (14.R394). -/
def hpRegs : List (Nat × Nat) :=
  [(0x00, 8), (0x08, 8), (0x10, 4), (0x18, 4), (0x1C, 4), (0x20, 4), (0x24, 4), (0x28, 8), (0x30, 4), (0x34, 4), (0x38, 4),
   (0x3C, 4), (0x40, 4), (0x44, 4), (0x48, 4), (0x4C, 4), (0x50, 4), (0x58, 8), (0x60, 8), (0x68, 4), (0x6C, 4),
   (0x70, 8), (0x78, 4)]

/-- The enabled bytes of a burst from `off` that fall in `n` bytes from `a`. -/
def burstSpan (off : Nat) (data : Burst) (a n : Nat) : List (Option Byte) :=
  (List.range n).map (fun i => if a + i < off then none else (data[a + i - off]?).bind id)

/-- A burst to the control page block: each register covered whole is written, in ascending order; one covered in part
is not, and sets PROTO (14.R373). -/
def State.writeControl (s : State) (off : Nat) (data : Burst) : State :=
  hpRegs.foldl (fun s r =>
    let b := burstSpan off data r.1 r.2
    if b.all (fun x => x.isNone) then s
    else if b.all (fun x => x.isSome) then s.hpWrite r.1 (leNat (b.map (fun x => x.getD 0)))
    else s.setProto) s

/-! ### Completions (14.R385, R387) -/

/-- The 64 bytes of a completion entry. -/
def completionBytes (c : Completion) (phase : Bool) : List Byte :=
  leBytes 1 c.kind ++ leBytes 1 (b2n phase) ++ leBytes 2 c.slot ++ leBytes 4 c.tag.toNat ++ leBytes 2 c.status ++ leBytes 2 0
    ++ leBytes 4 c.gen ++ leBytes 8 c.mask ++ leBytes 8 c.d0 ++ leBytes 8 c.d1 ++ leBytes 8 c.d2 ++ leBytes 16 0

/-- The completion ring is full (14.R387). -/
def Port.cqFull (p : Port) : Bool := (p.cqTail + 1) % 2 ^ p.cqLog == p.cqHead

/-- A completion is posted: its entry stands at the tail, the tail moves, its slot is free, and the CQ cause is looked at. -/
def State.post (s : State) (c : Completion) : State :=
  let p := s.port
  let s := s.poke (portKey (0x40000 + 64 * p.cqTail)) (completionBytes c p.cqPhase)
  let t := (p.cqTail + 1) % 2 ^ p.cqLog
  let s := { s with port := { s.port with
    cqTail := t, cqPhase := if t = 0 then !p.cqPhase else p.cqPhase
    unread := p.unread ++ [(p.cqTail, c.irq && c.frees, !c.frees)]
    inUse := if c.frees then p.inUse.filter (fun n => n != c.slot) else p.inUse } }
  let s := { s with chouse := { s.chouse with undo := s.chouse.undo.filter (fun u => !(c.frees && u.slot == c.slot)) } }
  (s.countPkg PE_HP_COMPLETIONS 1).settleCq

/-- Completions that were held for the 1 us tick are posted, as far as the ring has room (17.R449). -/
def State.postDeferred : Nat → State → State
  | 0, s => s
  | n + 1, s =>
    match s.port.deferred with
    | [] => s
    | c :: rest =>
      if s.port.cqFull then s
      else State.postDeferred n (({ s with port := { s.port with deferred := rest } } : State).post c)

end Sys2Proof.Machine
end

