-- ==== Sys2Proof/Machine/RegWrite.lean ====
section
/-!
DEFINITION. Writes of registers through internal addresses: the core blocks that the register window reaches (07.R207), and
for the house sequencer TL_ and the package blocks (10.R273). A register is written whole; writes of read-only and reserved
places are ignored (00.R11, R12).
-/

namespace Sys2Proof.Machine

/-- Width in bits of the register at a block offset of a core's range; 0 when reserved (07.R193, 05.R157, 21.R517). -/
def coreRegWidth (off : Nat) : Nat :=
  if off = 0x010 ∨ off = 0x018 ∨ off = 0x1010 ∨ off = 0x2008 then 64
  else if off % 8 = 0 ∧ ((0x080 ≤ off ∧ off < 0x0A0) ∨ (0x100 ≤ off ∧ off < 0x200) ∨ (0x1040 ≤ off ∧ off < 0x1080)) then 64
  else if off = 0x000 ∨ off = 0x008 ∨ off = 0x020 ∨ off = 0x1000 ∨ off = 0x1008 ∨ off = 0x2000 then 32
  else if 0x040 ≤ off ∧ off < 0x060 ∨ (0x1100 ≤ off ∧ off < 0x1300 ∧ (off - 0x1100) % 0x20 < 0x14)
      ∨ (0x2040 ≤ off ∧ off < 0x2068) then 32
  else 0

/-- Width of the register at an offset of a register region; a reserved word counts as 32 bits that ignore writes. -/
def regWidth (region off : Nat) : Nat :=
  match region with
  | 4 => coreRegWidth (off % 0x10000)
  | 5 => if off % 0x100000 = 0x008 ∨ off % 0x100000 = 0x010 then 64 else 32
  | _ =>
    let o := off % 0x10000
    match off / 0x10000 with
    | 0 => if (o, 8) ∈ hpRegs then 64 else 32
    | 1 => if o = 0x010 then 64 else 32
    | 2 => if o % 8 = 0 ∧ ((0x080 ≤ o ∧ o < 0x0C0) ∨ (0x8200 ≤ o ∧ o < 0x8300)) then 64 else 32
    | 4 => if o % 8 = 0 ∧ ((0x010 ≤ o ∧ o < 0x030) ∨ (0x080 ≤ o ∧ o < 0x0C0)) then 64 else 32
    | 5 => if o = 0x008 then 64 else 32
    | 6 => if o = 0x008 ∨ o = 0x010 then 64 else 32
    | _ => 32

/-- A write of a SQ_ register (07.R193, R194): SQ_FLAGS, SQ_ALn and SQ_Sn take values. -/
def sqWrite (r : Seqr) (off v : Nat) : Seqr :=
  if off = 0x008 then { r with flags := BitVec.ofNat 6 v }
  else if 0x040 ≤ off ∧ off < 0x060 then { r with al := updN r.al ((off - 0x040) / 4) (fun _ => BitVec.ofNat 32 v) }
  else if 0x100 ≤ off ∧ off < 0x200 then { r with s := updN r.s ((off - 0x100) / 8) (fun _ => BitVec.ofNat 64 v) }
  else r

/-- QZ_QSn_CFG takes a value: ADAPT is limited (05.R157). -/
def qsCfg (q : QStat) (v : Nat) : QStat :=
  { q with en := bit v 31, adapt := (clampInt (-32) 31 (signed 8 (bits v 16 8))).1, hi := bits v 8 8, clipf := bits v 0 8 }

/-- A write of a QZ_ register (05.R157). -/
def qzWrite (z : Quant) (off v : Nat) : Quant :=
  if off = 0x000 then { z with satPolicy := bit v 2, retryMax := bits v 0 2 }
  else if off = 0x008 then { z with seed := bits v 0 8 }
  else if 0x040 ≤ off ∧ off < 0x080 then
    { z with rs := updN z.rs ((off - 0x040) / 8) (fun _ => (bits v 0 31, min 62 (bits v 32 6))) }
  else if 0x100 ≤ off ∧ off < 0x300 then
    { z with qs := updN z.qs ((off - 0x100) / 0x20) (fun q =>
        match off % 0x20 with
        | 0x00 => { q with err := BitVec.ofNat 32 v }
        | 0x04 => { q with cnt := v % 2 ^ 32 }
        | 0x08 => { q with clip := v % 2 ^ 32 }
        | 0x0C => { q with ref := BitVec.ofNat 32 v }
        | 0x10 => qsCfg q v
        | _ => q) }
  else z

/-- PC_SEL of a core takes a value (21.R517); a program's write is ignored while PC_ACCESS is 0 (21.R506). -/
def pcSelSet (v : Nat) (k : Core) : Core := { k with pcSel := bits v 0 8 }

/-- PC_QUALq of a core takes a value: N above 31 is stored as 31 for q up to 5 (21.R507, R517). -/
def pcQualSet (n v : Nat) (k : Core) : Core :=
  { k with pcQual := updN k.pcQual n (fun _ => if n ≤ 5 then min 31 (bits v 0 7) else bits v 0 7) }

/-- A write of a register of a core's range by sequencer `q`. -/
def State.coreWrite (s : State) (q : SeqId) (c : Fin 64) (off v : Nat) : State :=
  if off < 0x1000 then
    s.updCore c (fun k => { k with seq := sqWrite k.seq off v })
  else if off < 0x2000 then s.updCore c (fun k => { k with qz := qzWrite k.qz (off - 0x1000) v })
  else if decide (q ≠ .house) && !s.cores[c].pcAccess then s
  else if off = 0x2000 then s.updCore c (pcSelSet v)
  else if 0x2040 ≤ off ∧ off < 0x2068 then s.updCore c (pcQualSet ((off - 0x2040) / 4) v)
  else s

/-- A write of a TL_ register (09.R261): TL_OWNER alone takes values. -/
def tlWrite (t : Tally) (off v : Nat) : Tally :=
  if off = 0x000 then { t with owner := if bit v 31 then some (bits v 0 16) else none, oldJob := bits v 0 16 } else t

/-- FORCE: every owned ply of a usable core takes a light measurement and a full run (12.R342). -/
def State.asForce (s : State) : State :=
  (s.pliesWhere (fun r => r.owner.isSome)).foldl (fun s q => s.trigger q true) s

/-- AS_CTRL.EN takes a value; triggers that were held start their work when it becomes 1 (12.R350). -/
def State.asEnable (s : State) (on : Bool) : State :=
  ({ s with assay := { s.assay with en := on } } : State).releaseHeld

/-- A write of AS_MCTRL (13.R363): a write of LAST or ILV is a trigger, as is TRIG. -/
def State.mctrlWrite (s : State) (v : Nat) : State :=
  ({ s with monitor := { s.monitor with last := bits v 8 5, ilv := bit v 2, cont := bit v 1 } } : State).monTrigger

/-- A write of an AS_ register (12.R350, 13.R363). -/
def State.asWrite (s : State) (off v : Nat) : State :=
  if 0x8100 ≤ off ∧ off < 0x8180 then s.writeEntry ((off - 0x8100) / 4) v
  else match off with
  | 0x000 =>
    let s := s.asEnable (bit v 0)
    if bit v 1 then s.asForce else s
  | 0x008 => { s with assay := { s.assay with
      ageLimit := clampNat 16 1024 (bits v 8 11), tempDelta := clampNat 1 64 (bits v 0 8) } }
  | 0x00C => { s with assay := { s.assay with
      annealWait := clampNat 1 255 (bits v 24 8), annealLimit := clampNat 10 200 (bits v 16 8)
      fullLimit := clampNat 256 4096 (bits v 0 13) } }
  | 0x010 => { s with assay := { s.assay with
      sampleWait := clampNat 10 65535 (bits v 16 16), minSamples := clampNat 16 4096 (bits v 0 16) } }
  | 0x8000 => s.mctrlWrite v
  | _ => s

/-- A write of a PW_ register (16.R422). -/
def State.pwWrite (s : State) (off v : Nat) : State :=
  match off with
  | 0x000 => s.writeProfile (bit v 3) (bit v 2) (bit v 0)
  | 0x004 => s.writeCeil v
  | 0x008 => s.writeCap (bits v 0 9)
  | 0x00C => s.writeWhCeil (bits v 0 10)
  | 0x010 => s.writeVddc v
  | 0x020 => s.writeForce (bit v 31) (bits v 0 3)
  | 0x024 => s.writeTherm v
  | _ => s

/-- PC_LG_CTRL takes a value (21.R517). -/
def State.lgCtrlSet (s : State) (v : Nat) : State := { s with lgEn := bit v 31, lgK := clampNat 8 20 (bits v 0 5) }

/-- A write of a package PC_ register (21.R517). -/
def State.pkgPcWrite (s : State) (off v : Nat) : State :=
  match off with
  | 0x000 => { s with pcPsel := bits v 0 8 }
  | 0x010 => { s with lgBase := bits v 12 32 * 4096 }
  | 0x018 => { s with lgPages := clampNat 1 65536 (bits v 0 17) }
  | 0x020 => s.lgCtrlSet v
  | _ => s

/-- A write of a register of the package region (10.R272); CH_, FB_ and MG_ hold no writable register. -/
def State.pkgWrite (s : State) (off v : Nat) : State :=
  let o := off % 0x10000
  match off / 0x10000 with
  | 0 => s.hpWrite o v
  | 2 => s.asWrite o v
  | 3 => s.pwWrite o v
  | 6 => s.pkgPcWrite o v
  | _ => s

/-- A register of a register region written whole; the offset is unaliased. -/
def State.regWrite (s : State) (q : SeqId) (region off v : Nat) : State :=
  match region with
  | 4 => s.coreWrite q ⟨off / 0x10000 % 64, by omega⟩ (off % 0x10000) v
  | 5 => s.updCluster ⟨off / 0x100000 % 8, by omega⟩ (fun k => { k with tally := tlWrite k.tally (off % 0x100000) v })
  | 6 => s.pkgWrite off v
  | _ => s

/-- 32-bit words written to consecutive offsets: a 64-bit register takes two words at once, and half of one is ignored. -/
def State.regWriteWords (s : State) (q : SeqId) (region off : Nat) : List Nat → State
  | [] => s
  | [v] => if regWidth region off = 64 ∨ (off % 8 = 4 ∧ regWidth region (off - 4) = 64) then s else s.regWrite q region off v
  | v :: w :: rest =>
    if regWidth region off = 64 then (s.regWrite q region off (v + w * 2 ^ 32)).regWriteWords q region (off + 8) rest
    else if off % 8 = 4 ∧ regWidth region (off - 4) = 64 then s.regWriteWords q region (off + 4) (w :: rest)
    else (s.regWrite q region off v).regWriteWords q region (off + 4) (w :: rest)

end Sys2Proof.Machine
end

