-- ==== Sys2Proof/Machine/Access.lean ====
section
/-!
DEFINITION. Accesses by instructions to internal addresses, granule by granule (10.R274 to R277): the checks, the fault of
the first granule that fails, and what was done before it.
-/

namespace Sys2Proof.Machine

/-- An instruction cannot be decoded yet: nothing changes (07.R208, R195). No fault has the code 0. -/
def stall {α : Type} : ExecM α := throw { code := 0 }

/-- A fault with its unit and detail (07.R218). -/
def fail {α : Type} (code : Nat) (unit : Nat := 0) (detail : Option Nat := none) : ExecM α := throw { code, unit, detail }

/-- A fault unless the condition holds. -/
def demand (b : Bool) (code : Nat) (unit : Nat := 0) (detail : Option Nat := none) : ExecM Unit :=
  if b then pure () else fail code unit detail

/-- SQ_FAULT1 of TILE_OVERFLOW (09.R249). -/
def overflowDetail (res amount : Nat) : Nat := min amount (2 ^ 32 - 1) * 2 ^ 16 + res

/-- The state changed. -/
def change (f : State → State) : ExecM Unit := modify f

/-- A free value of 64 bits. -/
def free64 : ExecM Nat := do
  let s ← get
  let (n, s) := s.draw
  set s
  return (Config.unspecified n).toNat

/-- `n` free values: the number of the first. -/
def freeMany (n : Nat) : ExecM Nat := do
  let s ← get
  set { s with fresh := s.fresh + n }
  return s.fresh

/-- The part of a span of `n` bytes from `a` that lies in the first granule it touches. -/
def firstPart (a n : Nat) : Nat := min n (64 - a % 64)

/-- The core whose store serves an access by another requester (21.R509 CS_REMOTE_SERVED). -/
def servedBy (q : SeqId) (a : Nat) : Option (Fin 64) :=
  if addrRegion a = 1 then
    let c := coreIx (addrOff a / 0x100000)
    if q = .core c then none else some c
  else none

/-- A core's read of a local Warehouse granule goes through its cluster's cache (10.R280, 21.R509). -/
def readCached (q : SeqId) (a : Nat) : ExecM Unit := do
  let s ← get
  match q with
  | .core c =>
    if addrRegion a = 0 ∧ addrDev a = s.shape.fabricId then
      let (hit, s) := s.cacheRead (clusterOf c) (addrOff a / 64)
      set (s.count c (if hit then EV_CC_HIT else EV_CC_MISS) 1)
    else pure ()
  | .house => pure ()

/-- One granule access counted: by its mover (21.R509), and by the core store that served it. -/
def countGranule (q : SeqId) (unit a : Nat) (write : Bool) : ExecM Unit := do
  if !write then readCached q a
  if 4 ≤ unit then change (fun s => s.countSeq q ((if write then EV_MV_GRAN_WR else EV_MV_GRAN_RD) + (unit - 4)) 1)
  match servedBy q a with
  | some c => change (fun s => s.count c EV_CS_REMOTE_SERVED 1)
  | none => pure ()

/-- The answer to the device's own read of another device's granule; without one the instruction waits for it (10.R275, 19.R479). -/
def takeAnswer (q : SeqId) (unit a n : Nat) : ExecM (List Byte) := do
  let s ← get
  match s.fabric.answers.find? (fun x => decide (x.q = q) && x.addr == a && x.len == n) with
  | some x =>
    set ({ s with fabric := { s.fabric with answers := s.fabric.answers.erase x } } : State)
    if x.code = 0 then return (List.range n).map (fun i => x.data.getD i 0) else fail x.code unit (some a)
  | none => throw { code := 0, ask := some (a, n) }

/-- What a stalled instruction leaves: nothing but its request for the bytes it waits for, made once (10.R275). -/
def State.await (s : State) (q : SeqId) (e : FaultInfo) : State :=
  match e.ask with
  | none => s
  | some (a, n) =>
    if s.fabric.asked.any (fun x => decide (x.q = q) && x.addr == a && x.len == n && !x.write) then s else s.request q 0 a n []

/-- Port buffer offsets of the frames, whose order no rule gives. -/
def inFrames (a : Nat) : Bool := addrRegion a == 2 && decide (0x80000 ≤ addrOff a)

/-- The bytes of an access within one granule, which has passed the checks. -/
def fetch (q : SeqId) (unit a n : Nat) : ExecM (List Byte) := do
  let s ← get
  if addrDev a ≠ s.shape.fabricId then
    takeAnswer q unit a n
  else if 4 ≤ addrRegion a then
    let off := unalias q (addrOff a)
    let lo := off / 4 * 4
    let (ws, s) := s.regWords (addrRegion a) lo ((off % 4 + n + 3) / 4)
    set s
    return ((ws.flatMap (leBytes 4)).drop (off % 4)).take n
  else if s.poisoned (a % 2 ^ 48) n then fail MEM_ECC unit (some a)
  else if inFrames a && s.port.framesUsed then
    let (d, s) := s.draw
    set s
    return (List.range n).map (fun i => Config.unspecifiedByte d (a + i))
  else return s.peek (a % 2 ^ 48) n

/-- The checks of a granule access, at its first byte (10.R274). -/
def checkAccess (q : SeqId) (unit a : Nat) (write : Bool) : ExecM Unit := do
  let s ← get
  match s.accessFault q (decide (4 ≤ unit)) write a with
  | some code => fail code unit (some a)
  | none => countGranule q unit a write

/-- `n` bytes from an address, granule by granule; `k` bounds the granules. -/
def readParts (q : SeqId) (unit : Nat) : Nat → Nat → Nat → ExecM (List Byte)
  | 0, _, _ => pure []
  | k + 1, a, n =>
    if n = 0 then pure []
    else do
      let a := wrapAddr a
      let m := firstPart a n
      checkAccess q unit a false
      let b ← fetch q unit a m
      let rest ← readParts q unit k (a + m) (n - m)
      return b ++ rest

/-- `n` bytes read from an internal address. -/
def readMem (q : SeqId) (unit a n : Nat) : ExecM (List Byte) := readParts q unit (n / 64 + 2) a n

/-- Bytes written to a local store by a sequencer: a core's own cluster cache keeps its line, updated (10.R280). -/
def State.storeLocal (s : State) (q : SeqId) (key : Nat) (bs : List Byte) : State :=
  match q with
  | .core c =>
    let l := s.clusters[clusterOf c].lines
    (s.poke key bs).updCluster (clusterOf c) (fun k => { k with lines := l })
  | .house => s.poke key bs

/-- Bytes written within one granule that has passed the checks. A write to another device goes there as a request. -/
def store (q : SeqId) (a : Nat) (bs : List Byte) : ExecM Unit :=
  change (fun s =>
    if addrDev a ≠ s.shape.fabricId then s.request q 1 a bs.length bs
    else if 4 ≤ addrRegion a then
      let off := unalias q (addrOff a)
      if off % 4 = 0 then
        s.regWriteWords q (addrRegion a) off ((List.range (bs.length / 4)).map (fun i => leAt bs (4 * i) 4))
      else s
    else s.storeLocal q (a % 2 ^ 48) bs)

/-- Bytes written from an address, granule by granule. -/
def writeParts (q : SeqId) (unit : Nat) : Nat → Nat → List Byte → ExecM Unit
  | 0, _, _ => pure ()
  | k + 1, a, bs =>
    if bs = [] then pure ()
    else do
      let a := wrapAddr a
      let m := firstPart a bs.length
      checkAccess q unit a true
      store q a (bs.take m)
      writeParts q unit k (a + m) (bs.drop m)

/-- Bytes written to an internal address. -/
def writeMem (q : SeqId) (unit a : Nat) (bs : List Byte) : ExecM Unit := writeParts q unit (bs.length / 64 + 2) a bs

end Sys2Proof.Machine
end

