-- ==== Sys2Proof/WellFormed.lean ====
section
/-!
DEFINITION. Which commands are well formed: an instruction row carries a word that the row encodes, or one that no row
encodes (which raises DEC_CLASS, 07.R199); a host burst has the 32 bytes of BL16 or the 64 of BL32, from a column of its size
(14.R364, R377); a management row carries a frame of its CMD, or of none.
-/

namespace Sys2Proof

/-- The word of an instruction row is the row's, or nobody's. -/
def Instr.wordOk (i : Instr) : Bool :=
  match i.word with
  | some (r, w) => r.has w || !listedWord w
  | none => true

/-- A burst of `n` bytes is BL16 or BL32 on the x16 channel, from a column of its own size (14.R364, assumption 141). -/
def burstOk (a : HostAddr) (n : Nat) : Bool := (decide (n = 32) || decide (n = 64)) && decide (a.col.val % n = 0)

/-- The burst of a host access row is one the port takes. -/
def Instr.burstWf : Instr → Bool
  | .sqRingWrite a d => burstOk a d.length
  | .apertureWrite a d => burstOk a d.length
  | .wharfWrite a d => burstOk a d.length
  | .ctrlRegWrite a d => burstOk a d.length
  | .unmappedWrite a d => burstOk a d.length
  | .apertureRead a n => burstOk a n.val
  | _ => true

/-- A frame's CMD is the row's, or nobody's (18.R457, R462). -/
def frameIs (cmd : Nat) (f : List Byte) : Bool :=
  match f.head? with
  | none => true
  | some b => b.toNat == cmd || !decide (1 ≤ b.toNat ∧ b.toNat ≤ 13)

/-- A DEBUG_UNLOCK frame in its permanent-lock form (18.R462). -/
def lockForm (f : List Byte) : Bool := f.head? == some 0x0B && f[0x10]? == some 1

/-- A frame of DEBUG_UNLOCK in form 0, and in form 1. -/
def unlockFrame (f : List Byte) : Bool := frameIs 0x0B f && !lockForm f
def lockFrame (f : List Byte) : Bool := frameIs 0x0B f && (f.head? != some 0x0B || lockForm f)

/-- The frame of a management row is the row's, or nobody's. -/
def Instr.frameWf : Instr → Bool
  | .mgGetStatus f => frameIs 0x01 f
  | .mgTelemetry f => frameIs 0x02 f
  | .mgFence f => frameIs 0x03 f
  | .mgUnfence f => frameIs 0x04 f
  | .mgScrub f => frameIs 0x05 f
  | .mgSetMode f => frameIs 0x06 f
  | .mgSetProfile f => frameIs 0x07 f
  | .mgFwStage f => frameIs 0x08 f
  | .mgFwCommit f => frameIs 0x09 f
  | .mgRotateKeys f => frameIs 0x0A f
  | .mgDebugUnlock f => unlockFrame f
  | .mgDebugPermanentLock f => lockFrame f
  | .mgProvision f => frameIs 0x0C f
  | .mgForceState f => frameIs 0x0D f
  | _ => true

/-- The command is well formed. -/
def Instr.wf (i : Instr) : Bool := i.wordOk && i.burstWf && i.frameWf

end Sys2Proof
end

