-- ==== Sys2Proof/Machine/Issue.lean ====
section
/-!
DEFINITION. The decode of one instruction (07.R196, R199, R219, R224): what holds decode, the checks of its word, the next
instruction index with the loop-end step (08.R225), and what a fault leaves (07.R217).
-/

namespace Sys2Proof.Machine

/-- Where decode continues: after the instruction, at another one, or after the END of a body that is left. -/
inductive Flow where
  | next
  | jump (pc : Nat)
  | leave (last : Nat)
  deriving DecidableEq, Repr

/-! ### What holds decode -/

/-- A register-window store has not completed (07.R207). -/
def Seqr.regHeld (r : Seqr) : Bool := r.moverQ.toList.any (fun l => l.any (fun e => e.regStore))

/-- The sequencer decodes: its job or firmware runs, no fault, WAIT or debug halt holds it (07.R207, R211, R217, 17.R452). -/
def Seqr.decodes (r : Seqr) : Bool :=
  r.running && !r.ended && !r.faulted && (!r.halted || r.stepOne) && r.wait.isNone && !r.regHeld

/-- The sequencer decodes now; the house sequencer runs firmware from the house phase on (23.R541). -/
def State.decodes (s : State) (q : SeqId) : Bool :=
  (s.seqr q).decodes && (match q with
    | .core _ => true
    | .house => s.boot == .house || s.boot == .service)

/-! ### Checks of the word (07.R199, R214, R219, 01.R36) -/

/-- CLASS, OP and FORM as 16 bits. -/
def wOpcode (w : W128) : Nat := w.toNat / 2 ^ 112

/-- Bits of the operands a, b and c that a MILL.VEC form uses (06.R167): 1, 2 and 4. -/
def vecUses (form : Nat) : Nat :=
  if form = 0x03 ∨ form = 0x0B then 7
  else if form = 0x05 ∨ form = 0x08 ∨ form = 0x09 ∨ form = 0x0C then 1
  else 3

/-- The single-element forms of MILL.VEC and MILL.RED (08.R243, R244). -/
def singleElement (w : W128) : Bool :=
  wClass w == 4 &&
    ((wOp w == 1 && wFlag w 3 && decide (vecUses (wForm w) &&& wFlags w % 8 = vecUses (wForm w)))
      || (wOp w == 2 && wFlag w 3 && wFlag w 4 && wForm w != 6))

/-- The word raises DEC_PRIV on the sequencer (07.R214, R219, 01.R36). -/
def decPriv (q : SeqId) (w : W128) : Bool :=
  match q with
  | .core _ => wClass w == 0xC || wClass w == 0xD
  | .house => wDoneEn w || wClass w == 3 || (wClass w == 4 && !singleElement w)

/-! ### The next instruction (07.R196, 08.R225) -/

/-- The loop-end step at instruction `pc`: the loops that end there take it in turn, innermost first. -/
def loopEnd (pc : Nat) : List LoopEntry → Nat × List LoopEntry
  | [] => (pc + 1, [])
  | e :: es =>
    if e.last = pc then
      if 1 < e.remaining then (e.first, { e with remaining := e.remaining - 1 } :: es) else loopEnd pc es
    else (pc + 1, e :: es)

/-- The sequencer after an instruction at `pc`. SQ_PC has 12 bits. -/
def Seqr.advance (r : Seqr) (pc : Nat) (f : Flow) : Seqr :=
  match f with
  | .jump t => { r with pc := t, stepOne := false }
  | .next => { r with pc := (loopEnd pc r.loops).1, loops := (loopEnd pc r.loops).2, stepOne := false }
  | .leave e => { r with pc := (loopEnd e r.loops).1, loops := (loopEnd e r.loops).2, stepOne := false }

/-! ### Decode -/

/-- The checks of steps 1 of 08.R224 and 07.R196, then the instruction itself. -/
def decodeSteps (q : SeqId) (w : W128) (body : ExecM Flow) : ExecM Flow := do
  let s ← get
  demand (decide ((s.seqr q).pc < (s.seqr q).codeLen)) SEQ_PC_RANGE
  demand (listedWord w) DEC_CLASS
  demand (!decPriv q w) DEC_PRIV
  body

/-- The instruction that the sequencer decodes next is `w`, whose own checks and effects are `body`. A fault found at
decode leaves the instruction index; one of execution, which names a unit, comes after decode has gone on. -/
def State.decode (s : State) (q : SeqId) (w : W128) (body : ExecM Flow) : State :=
  if !s.decodes q then s
  else
    let pc := (s.seqr q).pc
    match (decodeSteps q w body).run s with
    | .ok f t => t.updSeqr q (fun r => r.advance pc f)
    | .error e t =>
      if e.code = 0 then s.await q e
      else if e.unit = 0 then (t.raiseFault q e (wOpcode w) pc).updSeqr q (fun r => { r with stepOne := false })
      else (t.updSeqr q (fun r => r.advance pc .next)).raiseFault q e (wOpcode w) pc

/-- What an instruction row answers: the decode of its word, which must be the row's or nobody's. -/
def State.instr (s : State) (i : Instr) (q : SeqId) (w : W128) (body : ExecM Flow) : Out :=
  if i.wordOk then .next (s.decode q w body) else .refused .illFormed

/-! ### Queues (07.R208) -/

/-- The package index that DONE_IDX names on a core (07.R213). -/
def donesTo (q : SeqId) (w : W128) : Option Nat :=
  match q with
  | .core c => if wDoneEn w then some ((clusterOf c).val * 8192 + wDoneIdx w) else none
  | .house => none

/-- A new queue entry for the instruction at the sequencer's index. -/
def newEntry (q : SeqId) (w : W128) : ExecM QEntry := do
  let s ← get
  let uid := (s.seqr q).nextUid + 1
  set (s.updSeqr q (fun r => { r with nextUid := uid }))
  return { uid := uid, pc := (s.seqr q).pc, opcode := wOpcode w, done := donesTo q w }

/-- Decode stalls while the Mill queue is full. -/
def roomMill (q : SeqId) : ExecM Unit := do
  let s ← get
  if 16 ≤ (s.seqr q).millQ.length then stall

/-- Decode stalls while the mover's queue is full. -/
def roomMover (q : SeqId) (m : Nat) : ExecM Unit := do
  let s ← get
  if 32 ≤ (getN (s.seqr q).moverQ m []).length then stall

/-- Decode stalls while the Loom queue is full. -/
def roomLoom (c : Fin 64) : ExecM Unit := do
  let s ← get
  if 8 ≤ s.cores[c].loomQ.length then stall

/-- The entry joins the Mill queue. -/
def putMill (q : SeqId) (e : QEntry) : ExecM Unit :=
  change (fun s => s.updSeqr q (fun r => { r with millQ := r.millQ ++ [e] }))

/-- The entry joins the mover's queue. -/
def putMover (q : SeqId) (m : Nat) (e : QEntry) : ExecM Unit :=
  change (fun s => s.updSeqr q (fun r => { r with moverQ := updN r.moverQ m (fun l => l ++ [e]) }))

/-- An instruction that the sequencer executes itself completes at its decode (07.R208). -/
def completeNow (q : SeqId) (w : W128) : ExecM Unit := do
  let e ← newEntry q w
  change (fun s => s.complete q e 0)

/-- Bits of a QMASK (08.R220): serial numbers of the instructions now in the masked queues. -/
def State.inQueues (s : State) (q : SeqId) (mask : Nat) : List Nat :=
  let r := s.seqr q
  let loom := match q with
    | .core c => s.cores[c].loomQ.map (fun i => i.q.uid)
    | .house => []
  (if bit mask 0 then loom else []) ++ (if bit mask 1 then r.millQ.map (fun e => e.uid) else [])
    ++ (List.range 4).flatMap (fun m => if bit mask (2 + m) then (getN r.moverQ m []).map (fun e => e.uid) else [])

/-! ### Scalar registers -/

/-- A scalar register's value. -/
def Seqr.scalar (r : Seqr) (n : Nat) : W64 := getN r.s n 0

/-- The value of scalar register `n` of the sequencer. -/
def scalar (q : SeqId) (n : Nat) : ExecM Nat := do
  let s ← get
  return ((s.seqr q).scalar n).toNat

/-- Scalar register `n` written. -/
def putScalar (q : SeqId) (n v : Nat) : ExecM Unit :=
  change (fun s => s.updSeqr q (fun r => { r with s := updN r.s n (fun _ => BitVec.ofNat 64 v) }))

end Sys2Proof.Machine
end

