-- ==== Sys2Proof/Machine/Operands.lean ====
section
/-!
DEFINITION. The operand forms of MOVE, LOOM and MILL instructions: tensor descriptors sampled at decode (07.R200 to R206),
stream slots (07.R212, 09.R264), output records (08.R221), chain records (08.R222), and the rows of a source tensor with
its scales, tags and side lists (04.R126 to R129, 05.R138 to R142, 07.R203).
-/

namespace Sys2Proof.Machine

/-! ### Sampling (07.R201) -/

/-- The store key of a descriptor slot: in the core's store, or for the house sequencer in secure SRAM (assumption 28). -/
def slotKey (q : SeqId) (tdBase slot : Nat) : Nat :=
  match q with
  | .core c => coreKey c.val (tdBase + 64 * slot)
  | .house => storeKey 3 (tdBase + 64 * slot)

/-- `m` bytes from an internal address overlap a span of the device's store bytes. -/
def spanTouches (fabricId a m key n : Nat) : Bool :=
  addrDev a == fabricId && decide (a % 2 ^ 48 < key + n) && decide (key < a % 2 ^ 48 + m)

/-- What is written of a tensor, its scale tensor or its side lists may overlap a span of store bytes (07.R202, R203). -/
def tdTouches (fabricId : Nat) (t : TD) (key n : Nat) : Bool :=
  !tdNone t && (spanTouches fabricId t.base (tdSpan t) key n || spanTouches fabricId t.scaleBase (scaleSpan t) key n
    || spanTouches fabricId t.sideBase (sideSpan t) key n)

/-- The tensors that a destination may be: itself, or one for every slot of its out stream (08.R233). -/
def State.slotsOf (s : State) (q : SeqId) (t : TD) : List TD :=
  match q with
  | .core c =>
    if bit t.stream 7 then
      match getN s.cores[c].streams (t.stream % 8) none with
      | some m => (List.range m.slots).map (fun n => { t with base := wrapAddr (t.base + 64 * m.slot.bound * n) })
      | none => [t]
    else [t]
  | .house => [t]

/-- The tensors that a drain chain writes: those of its STAT and REQUANT steps (06.R187, 08.R222). -/
def chainDests (l : List ChainStep) : List TD := (l.filter (fun st => st.step == 7 || st.step == 8)).filterMap (fun st => st.td)

/-- The drain chain of a queued instruction. -/
def QueueWork.chain : QueueWork → List ChainStep
  | .matmul _ _ _ _ _ _ o => o.chain
  | .vec o _ _ => o.chain
  | _ => []

/-- The tensors that an instruction of a queue writes. -/
def QEntry.writes (e : QEntry) : List TD :=
  if e.noop then [] else e.dst ++ (match e.work with
    | some k => e.dsts ++ chainDests k.chain
    | none => [])

/-- Some instruction that has not completed writes into the span (07.R201, R210). -/
def State.writesPending (s : State) (q : SeqId) (key n : Nat) : Bool :=
  let r := s.seqr q
  let loom := match q with
    | .core c => s.cores[c].loomQ.map (fun i => i.q)
    | .house => []
  ((loom ++ r.millQ ++ r.moverQ.toList.flatten).flatMap (fun e => e.writes.flatMap (fun t => s.slotsOf q t))).any
    (fun t => tdTouches s.shape.fabricId t key n)

/-- Bytes of the store that holds the descriptor slots of a sequencer. -/
def slotEnd : SeqId → Nat
  | .core c => coreKey c.val coreStoreBytes
  | .house => storeKey 3 0x40000

/-- The 64 bytes of a descriptor slot, held back while an earlier write into the slot is pending (07.R201). A slot that lies beyond
the store is unmapped (10.R274; DEDUCED, assumption 137). -/
def sampleSlot (q : SeqId) (slot : Nat) : ExecM (List Byte) := do
  let s ← get
  let key := slotKey q (s.seqr q).tdBase slot
  if s.writesPending q key 64 then stall
  demand (decide (key + 64 ≤ slotEnd q)) MEM_UNMAPPED 0 (some (s.shape.fabricId * 2 ^ 48 + key))
  if s.poisoned key 64 then fail MEM_ECC 0 (some (s.shape.fabricId * 2 ^ 48 + key))
  return s.peek key 64

/-- The stream check of 07.R205: the stream has been opened, and in the operand's direction. A closed stream still answers its
consumers, as no-ops once it is empty (09.R264). -/
def streamOk (o : Option Stream) (dest : Bool) : Bool :=
  match o with
  | some m => m.out == dest
  | none => false

/-- The descriptor of a slot with its effective extents and the checks of 07.R205; `detail` goes to SQ_FAULT1. -/
def operandAt (q : SeqId) (slot : Nat) (dest : Bool) (detail : Nat) : ExecM TD := do
  let b ← sampleSlot q slot
  let s ← get
  let t := withActual (parseTd b) (s.seqr q).al
  match tdFault t dest with
  | some code => fail code 0 (some detail)
  | none => pure ()
  if bit t.stream 7 then
    match q with
    | .core c => demand (streamOk (getN s.cores[c].streams (t.stream % 8) none) dest) DESC_STREAM 0 (some detail)
    | .house => fail DESC_STREAM 0 (some detail)
  return t

/-- An operand of the instruction word: position 0 TDD, 1 TDA, 2 TDB, 3 TDC (07.R218). -/
def operand (q : SeqId) (w : W128) (pos : Nat) (dest : Bool) : ExecM TD :=
  let slot := match pos with
    | 0 => wTdd w
    | 1 => wTda w
    | 2 => wTdb w
    | _ => wTdc w
  operandAt q slot dest (slot + 256 * pos)

/-! ### Stream slots (07.R212, 08.R233, 09.R264) -/

/-- Tiles of a stream along one dimension. -/
def tilesAlong (eff ext : Nat) : Nat := if ext = 0 then 0 else ceilDiv eff ext

/-- Where tile `n` of a stream lies in its memory tensor, in elements, dimension 0 fastest. -/
def tileOrigin (m : Stream) (n : Nat) : Nat × Nat × Nat × Nat :=
  let n0 := tilesAlong m.mem.eff0 m.slot.ext0
  let n1 := tilesAlong m.mem.eff1 m.slot.ext1
  let n2 := tilesAlong m.mem.eff2 m.slot.ext2
  (n % n0 * m.slot.ext0, n / n0 % n1 * m.slot.ext1, n / n0 / n1 % n2 * m.slot.ext2, n / n0 / n1 / n2 * m.slot.ext3)

/-- The tile's extents within the memory tensor's effective ones. -/
def tileExtents (m : Stream) (n : Nat) : Nat × Nat × Nat × Nat :=
  let (o0, o1, o2, o3) := tileOrigin m n
  (min m.slot.ext0 (m.mem.eff0 - o0), min m.slot.ext1 (m.mem.eff1 - o1), min m.slot.ext2 (m.mem.eff2 - o2),
    min m.slot.ext3 (m.mem.eff3 - o3))

/-- A descriptor moved to a slot of its stream (08.R233). -/
def atSlot (t : TD) (m : Stream) (n : Nat) : TD := { t with base := wrapAddr (t.base + 64 * m.slot.bound * (n % m.slots)) }

/-- What a consumer takes of a stream: its descriptor at the slot; none when the stream is closed and empty, or for an out stream
when its tiles are all written (assumption 29), and the consumer is a no-op (09.R264); the consumer waits while an open stream
has no slot for it. -/
def takeSlot (c : Fin 64) (t : TD) : ExecM (Option TD) := do
  let s ← get
  match getN s.cores[c].streams (t.stream % 8) none with
  | none => return none
  | some m =>
    if m.out then
      if m.closed ∨ m.tiles ≤ m.moved + m.full.length + m.busy then return none
      else if m.slots ≤ m.full.length + m.busy then stall
      else return some (atSlot t m (m.moved + m.full.length + m.busy))
    else match m.full[m.busy]? with
      | some n =>
        let (e0, e1, e2, e3) := tileExtents m n
        return some { atSlot t m n with
          eff0 := min t.eff0 e0, eff1 := min t.eff1 e1, eff2 := min t.eff2 e2, eff3 := min t.eff3 e3 }
      | none => if m.closed then return none else stall

/-- Operands with their stream slots taken; none when the instruction is a no-op. -/
def takeSlots (q : SeqId) : List TD → ExecM (Option (List TD))
  | [] => return some []
  | t :: ts => do
    let h ← match q with
      | .core c => if bit t.stream 7 then takeSlot c t else pure (some t)
      | .house => pure (some t)
    match h with
    | none => return none
    | some t =>
      match ← takeSlots q ts with
      | none => return none
      | some ts => return some (t :: ts)

/-- The streams that the sources of an instruction read, and those that its destinations write. -/
def streamsOf (ts : List TD) : List Nat := (ts.filter (fun t => bit t.stream 7)).map (fun t => t.stream % 8)

/-- Descriptors as resolved to their slots, for what an instruction in flight writes. -/
def resolved (ts : List TD) : List TD := ts.map (fun t => { t with stream := 0 })

/-- The slots that an instruction in flight holds are counted (07.R212). -/
def holdSlots (q : SeqId) (ns : List Nat) : ExecM Unit :=
  match q with
  | .core c => change (fun s => s.updCore c (fun k =>
      ns.foldl (fun k n => { k with streams := updN k.streams n (fun o => o.map (fun m => { m with busy := m.busy + 1 })) }) k))
  | .house => pure ()

/-! ### Output and chain records (08.R221, R222) -/

/-- An output record: s_y and zp_y. -/
structure OutRec where
  sy : W32 := 0
  zpy : Nat := 0
  deriving DecidableEq, Repr

/-- The output record of a scalar register. -/
def outRec (q : SeqId) (n : Nat) : ExecM OutRec := do
  let v ← scalar q n
  return { sy := BitVec.ofNat 32 v, zpy := bits v 32 8 }

/-- STEP codes of a chain record. -/
abbrev STEP_BIAS : Nat := 1
abbrev STEP_TABLE : Nat := 2
abbrev STEP_RESID : Nat := 3
abbrev STEP_SCALE : Nat := 4
abbrev STEP_CLAMP : Nat := 5
abbrev STEP_ESCAPE : Nat := 6
abbrev STEP_STAT : Nat := 7
abbrev STEP_REQUANT : Nat := 8

/-- The step names a tensor descriptor. -/
def stepNames (step opnd : Nat) : Bool :=
  step == STEP_BIAS || step == STEP_RESID || step == STEP_SCALE || step == STEP_ESCAPE || step == STEP_STAT
    || (step == STEP_REQUANT && opnd != 0xFF)

/-- The steps of a record up to its first END, as (STEP, OPND, PARAM). -/
def recordSteps : Nat → List Byte → List (Nat × Nat × Nat)
  | 0, _ => []
  | n + 1, b =>
    let v := leAt b 0 8
    if bits v 0 8 = 0 then [] else (bits v 0 8, bits v 8 8, bits v 16 8) :: recordSteps n (b.drop 8)

/-- The steps with their tensors and scalars sampled; step descriptors are checked in step order (08.R224). -/
def sampleSteps (q : SeqId) : Nat → List (Nat × Nat × Nat) → ExecM (List ChainStep)
  | _, [] => return []
  | i, (step, opnd, param) :: rest => do
    let td ← if stepNames step opnd then do
        let t ← operandAt q opnd (step == STEP_STAT || step == STEP_REQUANT) (opnd + 2 ^ 10 + 2 ^ 11 * i)
        pure (some t)
      else pure none
    let reg := if step = STEP_REQUANT then param % 32 else opnd % 32
    let v ← if step = STEP_CLAMP ∨ step = STEP_REQUANT then scalar q reg else pure 0
    let more ← sampleSteps q (i + 1) rest
    return { step := step, opnd := opnd, param := param, td := td, scalar := BitVec.ofNat 64 v } :: more

/-- CLAMP limits that a record may carry (08.R222). -/
def clampOk (v : W64) : Bool :=
  let lo := ofFp32 (bits v.toNat 0 32)
  let hi := ofFp32 (bits v.toNat 32 32)
  lo != .nan && hi != .nan && !ltN hi lo

/-- The formats a REQUANT may write (06.R187). -/
def requantOk (tdd : TD) : Bool :=
  (fmtA (tdFmt tdd) && tdd.skind == 1) || (fmtBell (tdFmt tdd) && tdd.skind == 2)

/-- A STAT record tensor serves a destination (06.R187). -/
def statOk (r tdd : TD) : Bool :=
  tdFmt r == .int32 && r.ext0 == 4 && decide (tdd.ext1 ≤ r.ext1) && decide (tdd.ext2 ≤ r.ext2)
    && decide (tdd.ext3 ≤ r.ext3)

/-- The order and operands of a chain's steps (06.R187, 08.R222); `tdd` is none for a scalar destination. -/
def chainOrderOk (tdd : Option TD) (steps : List ChainStep) : Bool :=
  steps.mapIdx (fun i st => (i, st)) |>.all (fun (i, st) =>
    match st.step with
    | 1 | 2 | 3 | 4 => true
    | 5 => clampOk st.scalar
    | 6 => i == 0
    | 7 => match st.td, tdd with
      | some r, some t => statOk r t
      | _, _ => false
    | 8 => i + 1 == steps.length && (match tdd with
      | some t => requantOk t
      | none => false)
    | _ => false)

/-- The chain ends in REQUANT. -/
def endsRequant (steps : List ChainStep) : Bool := (steps.getLast?).any (fun st => st.step == STEP_REQUANT)

/-- The chain record that CHN names, checked as step 4 of 08.R224 asks; `span` is the instruction's output count along
dimension 0, none when it writes no row (06.R187). -/
def chainOperand (q : SeqId) (chn : Nat) (tdd : Option TD) (span : Option Nat) : ExecM (List ChainStep) := do
  if chn = 0xFF then return []
  let b ← sampleSlot q chn
  let steps ← sampleSteps q 0 (recordSteps 8 b)
  demand (chainOrderOk tdd steps || (tdd.isNone && endsRequant steps && chainOrderOk tdd steps.dropLast)) DRAIN_ORDER
  if endsRequant steps then
    match tdd, span with
    | some t, some n => demand (decide (t.eff0 ≤ n)) QZ_REQUANT_SPAN
    | _, _ => fail QZ_REQUANT_SPAN
  return steps

/-! ### Elements -/

/-- An element as read: its code's value before zero point and scale, and the two (04.R109, R122, 05.R132). -/
structure Elem where
  code : Num := .val 0
  zp : Nat := 0
  scale : Num := .val 1
  deriving DecidableEq, Repr

/-- A row as read: whether it lies below ROWS of its block (05.R142), its elements, and the fault that the element after
them raised. -/
structure Line where
  valid : Bool := true
  elems : List Elem := []
  err : Option FaultInfo := none
  deriving DecidableEq, Repr

/-- Element `i` of the bytes of a run (04.R110, R111). -/
def elemAt (f : Fmt) (b : List Byte) (i : Nat) : Nat :=
  match fmtBits f with
  | 4 => bits (leAt b (i / 2) 1) (4 * (i % 2)) 4
  | n => leAt b (n / 8 * i) (n / 8)

/-- The first `n` elements of the bytes of a run. -/
def unpack (f : Fmt) (n : Nat) (b : List Byte) : List Nat := (List.range n).map (elemAt f b)

/-- What a computation answered, its fault kept as a value; a stall remains one. -/
def attempt {α : Type} (x : ExecM α) : ExecM (Except FaultInfo α) := fun s =>
  match x s with
  | .ok a t => .ok (.ok a) t
  | .error e t => if e.code = 0 then .error e t else .ok (.error e) t

/-! ### Side lists (04.R126, R129) -/

/-- A side-list entry (04.R126). -/
structure SideEntry where
  value : Nat := 0
  row : Nat := 0
  col : Nat := 0
  kind : Nat := 0
  last : Bool := false
  deriving DecidableEq, Repr

/-- An entry from its 8 bytes. -/
def parseSide (v : Nat) : SideEntry :=
  { value := bits v 0 16, row := bits v 16 10, col := bits v 26 9, kind := bits v 35 2, last := bit v 37 }

/-- The 8 bytes of an entry. -/
def sideBytes (e : SideEntry) : List Byte :=
  leBytes 8 (e.value % 2 ^ 16 + e.row % 2 ^ 10 * 2 ^ 16 + e.col % 2 ^ 9 * 2 ^ 26 + e.kind % 4 * 2 ^ 35 + b2n e.last * 2 ^ 37)

/-- A list of at most `n` entries from an address, up to the first LAST. -/
def readSide (q : SeqId) (unit : Nat) : Nat → Nat → ExecM (List SideEntry)
  | 0, _ => return []
  | n + 1, a => do
    let b ← readMem q unit a 8
    let e := parseSide (leNat b)
    if e.last then return [e]
    else
      let rest ← readSide q unit n (a + 8)
      return e :: rest

/-- A walk along one block's list: what is left, and the coordinates last passed. -/
structure SideWalk where
  block : Nat := 0
  left : List SideEntry := []
  last : Option (Nat × Nat) := none
  deriving DecidableEq, Repr

/-- Coordinates in the order of 04.R110. -/
def before (a b : Nat × Nat) : Bool := decide (a.1 < b.1) || (a.1 == b.1 && decide (a.2 < b.2))

/-- The entries that stand before an element are passed; those that serve no element are counted (04.R129). An entry that is no
REPLACE entry serves none: the rule speaks of REPLACE entries only (DESIGN CHOICE, assumption 138). -/
def sideSkip (q : SeqId) (unit : Nat) (at' : Nat × Nat) : List SideEntry → Option (Nat × Nat) →
    ExecM (List SideEntry × Option (Nat × Nat))
  | [], last => return ([], last)
  | e :: es, last => do
    let p := (e.row, e.col)
    if e.kind = 3 then sideSkip q unit at' es last
    else if e.kind ≠ 0 then
      change (fun s => s.countSeq q EV_QZ_SIDE_SKIP 1)
      sideSkip q unit at' es last
    else if last.any (fun l => before p l) then fail QZ_SIDE_ORDER unit
    else if before p at' || last == some p then
      change (fun s => s.countSeq q EV_QZ_SIDE_SKIP 1)
      sideSkip q unit at' es (some p)
    else return (e :: es, last)

/-- The entries that repeat the coordinates just passed are ignored with them, and counted (04.R129). -/
def sideAfter (q : SeqId) (at' : Nat × Nat) : List SideEntry → ExecM (List SideEntry)
  | [] => return []
  | e :: es => do
    if e.kind = 0 ∧ (e.row, e.col) = at' then
      change (fun s => s.countSeq q EV_QZ_SIDE_SKIP 1)
      sideAfter q at' es
    else return e :: es

/-- The value of a bell-grid code at its coordinates in the block, an escape taking its entry's (04.R129). -/
def bellElem (q : SeqId) (unit : Nat) (f : Fmt) (code : Nat) (at' : Nat × Nat) (k : SideWalk) : ExecM (Num × SideWalk) := do
  let (left, last) ← sideSkip q unit at' k.left k.last
  let k := { k with left := left, last := last }
  match left with
  | e :: es =>
    if (e.row, e.col) = at' then
      let es ← sideAfter q at' es
      let k := { k with left := es, last := some at' }
      if code = bellEscape f then return (floatVal .bf16 e.value, k)
      else
        change (fun s => s.countSeq q EV_QZ_SIDE_SKIP 1)
        return (codeVal f 0 code, k)
    else if code = bellEscape f then fail QZ_ESC_ORPHAN unit
    else return (codeVal f 0 code, k)
  | [] => if code = bellEscape f then fail QZ_ESC_ORPHAN unit else return (codeVal f 0 code, k)

/-! ### Scale blocks and tags (05.R138 to R142) -/

/-- What a scale block and its data header say. -/
structure BlkInfo where
  no : Nat := 0
  tag : Nat := 0
  zp : Nat := 0
  rows : Nat := 0
  scales : List Nat := []
  deriving DecidableEq, Repr

/-- QZ_SKEW on block `b`: both tags are recorded (05.R141, R157). -/
def skew {α : Type} (q : SeqId) (unit b scaleTag dataTag : Nat) : ExecM α := do
  match q with
  | .core c => change (fun s => s.updCore c (fun k => { k with qz :=
      { k.qz with skewBlock := b, skewScaleTag := scaleTag, skewDataTag := dataTag } }))
  | .house => pure ()
  fail QZ_SKEW unit

/-- Scale block `b` of a tensor with its data header, the tags compared (05.R141); `tag0` is block 0's tag. -/
def readBlock (q : SeqId) (unit : Nat) (t : TD) (tag0 : Option Nat) (i1 i2 i3 : Nat) : ExecM BlkInfo := do
  let no := scaleBlockNo t i1 i2 i3
  let h ← readMem q unit (headerAddr t (i1 / 32) i2 i3) 2
  let b ← readMem q unit (scaleBlockAddr t no) 128
  let dataTag := leAt h 0 1
  let tag := leAt b 0x40 1
  if dataTag ≠ tag ∨ leAt h 1 1 ≠ leAt b 0x42 1 ∨ (0 < no ∧ tag0.any (fun t0 => tag != (t0 + no) % 256)) then
    skew q unit no tag dataTag
  else
    return { no := no, tag := tag, zp := leAt b 0x41 1, rows := leAt b 0x42 1, scales := unpack .bf16 32 (b.take 64) }

/-! ### Rows of a source -/

/-- What the reading of a tensor carries from row to row. -/
structure ReadState where
  blk : Option BlkInfo := none
  tag0 : Option Nat := none
  walks : List SideWalk := []
  deriving DecidableEq, Repr

/-- The scale block of a row, read when the row is the first of its block. -/
def blockFor (q : SeqId) (unit : Nat) (t : TD) (r : Nat × Nat × Nat) (k : ReadState) : ExecM (BlkInfo × ReadState) := do
  let no := scaleBlockNo t r.1 r.2.1 r.2.2
  match k.blk with
  | some b =>
    if b.no = no then return (b, k)
    else
      let b ← readBlock q unit t k.tag0 r.1 r.2.1 r.2.2
      return (b, { k with blk := some b })
  | none =>
    let b ← readBlock q unit t k.tag0 r.1 r.2.1 r.2.2
    return (b, { k with blk := some b, tag0 := some b.tag })

/-- The walk along the side list of a block, begun when the block is first touched. -/
def walkFor (q : SeqId) (unit : Nat) (t : TD) (block : Nat) (k : ReadState) : ExecM SideWalk :=
  match k.walks.find? (fun w => w.block == block) with
  | some w => return w
  | none => do
    let l ← readSide q unit t.sideCap (sideListAddr t block)
    return { block := block, left := l }

/-- The walk replaced. -/
def putWalk (k : ReadState) (w : SideWalk) : ReadState :=
  { k with walks := w :: k.walks.filter (fun v => v.block != w.block) }

/-- The elements of a bell-grid row from index `i0` on: those before the first that faults, and its fault. -/
def bellRow (q : SeqId) (unit : Nat) (t : TD) (r : Nat × Nat × Nat) : Nat → List Nat → ReadState →
    ExecM (List Num × Option FaultInfo × ReadState)
  | _, [], k => return ([], none, k)
  | i0, c :: cs, k => do
    let block := sideBlock t i0 r.1 r.2.1 r.2.2
    match ← attempt (do
        let w ← walkFor q unit t block k
        bellElem q unit (tdFmt t) c (r.1 % 1024, i0 % 512) w) with
    | .error e => return ([], some e, k)
    | .ok (v, w) =>
      let (vs, e, k) ← bellRow q unit t r (i0 + 1) cs (putWalk k w)
      return (v :: vs, e, k)

/-- The element scales of a SKIND 2 row (07.R203). -/
def blockScales (q : SeqId) (unit : Nat) (t : TD) (r : Nat × Nat × Nat) : ExecM (List Nat) := do
  let b ← readMem q unit (blockScaleAddr t 0 r.1 r.2.1 r.2.2) (2 * ceilDiv t.eff0 128)
  return unpack .bf16 (ceilDiv t.eff0 128) b

/-- A column record (07.R203). -/
structure ColRec where
  scale : Num := .val 1
  zp : Nat := 0
  sum : Int := 0
  deriving DecidableEq, Repr

/-- `n` column records from bytes. -/
def parseColRecs : Nat → List Byte → List ColRec
  | 0, _ => []
  | n + 1, b => { scale := ofFp32 (leAt b 0 4), zp := leAt b 4 1, sum := signed 64 (leAt b 8 8) } :: parseColRecs n (b.drop 16)

/-- The column records of a SKIND 3 tensor. -/
def colRecs (q : SeqId) (unit : Nat) (t : TD) : ExecM (List ColRec) :=
  if t.skind = 3 then do
    let b ← readMem q unit (columnRecAddr t 0) (16 * t.eff0)
    return parseColRecs t.eff0 b
  else return []

/-- The elements of a row: values with their zero points and scales. -/
def linkElems (t : TD) (cols : List ColRec) (blk : Option BlkInfo) (scales : List Nat) (i1 : Nat) (vs : List Num) :
    List Elem :=
  match t.skind with
  | 1 =>
    let b := blk.getD {}
    let s := floatVal .bf16 (b.scales.getD (i1 % 32) 0)
    vs.map (fun v => { code := v, zp := b.zp, scale := s })
  | 2 => vs.mapIdx (fun i v => { code := v, scale := floatVal .bf16 (scales.getD (i / 128) 0) })
  | 3 => (vs.zip cols).map (fun (v, c) => { code := v, zp := c.zp, scale := c.scale })
  | _ => vs.map (fun v => { code := v })

/-- One row of a source, within its effective extent. -/
def readLine (q : SeqId) (unit : Nat) (t : TD) (cols : List ColRec) (r : Nat × Nat × Nat) (k : ReadState) :
    ExecM (Line × ReadState) := do
  let k ← if t.skind = 1 then do
      let (_, k) ← blockFor q unit t r k
      pure k
    else pure k
  if t.skind = 1 ∧ (k.blk.getD {}).rows ≤ r.1 % 32 then return ({ valid := false }, k)
  let b ← readMem q unit (rowAddr t r.1 r.2.1 r.2.2) (runBytes (tdFmt t) t.eff0)
  let codes := unpack (tdFmt t) t.eff0 b
  let scales ← if t.skind = 2 then blockScales q unit t r else pure []
  if fmtBell (tdFmt t) then
    let (vs, e, k) ← bellRow q unit t r 0 codes k
    return ({ elems := linkElems t cols k.blk scales r.1 vs, err := e }, k)
  else
    return ({ elems := linkElems t cols k.blk scales r.1 (codes.map (codeVal (tdFmt t) 0)) }, k)

/-- The rows of a source in order, up to the first that raises a fault. -/
def readLines (q : SeqId) (unit : Nat) (t : TD) (cols : List ColRec) : List (Nat × Nat × Nat) → ReadState →
    ExecM (List Line)
  | [], _ => return []
  | r :: rs, k => do
    match ← attempt (readLine q unit t cols r k) with
    | .error e => return [{ err := some e }]
    | .ok (l, k) =>
      if l.err.isSome then return [l]
      else
        let ls ← readLines q unit t cols rs k
        return l :: ls

/-- Every row of a source tensor within its effective extents; a fault of its column records comes first. -/
def readSource (q : SeqId) (unit : Nat) (t : TD) : ExecM (List Line) := do
  match ← attempt (colRecs q unit t) with
  | .error e => return [{ err := some e }]
  | .ok cols => readLines q unit t cols (tdRows t) {}

/-! ### Values of elements -/

/-- The integer an element stands for before its scale: the code less its zero point (04.R109, 06.R170). -/
def Elem.plain (e : Elem) : Num :=
  match e.code with
  | .val v => .val (v - e.zp)
  | x => x

/-- The element's value, its scale applied with one rounding to FP32 (04.R109, R122). -/
def Elem.value (e : Elem) : Num := if e.scale = .val 1 then e.plain else (mul32 e.plain e.scale).1

/-- The element as an operand of a float operation: an INT32 source rounds once (06.R167). -/
def Elem.float (e : Elem) : Num := fp32 e.value

/-- The element as an operand of an integer operation, and what its conversion counts (06.R167): a floating or bell-grid source by its
value, its scale applied (04.R122); an integer or A-format one as q − zp, without a row scale (DESIGN CHOICE, assumption 49). -/
def Elem.int32 (f : Fmt) (e : Elem) : Int × Conv :=
  if fmtFloat f || fmtBell f then
    let (c, k) := toInt .int32 0 e.value
    (signed 32 c, k)
  else
    let (c, k) := toInt .int32 0 e.plain
    (signed 32 c, k)

end Sys2Proof.Machine
end

