-- ==== Sys2Proof/Machine/Quantise.lean ====
section
/-!
DEFINITION. Writing a destination tensor: conversion of a row's values, row and block scales (05.R135 to R137, R155),
escapes and outliers with their side lists (04.R128, 08.R223), tags (05.R140), nibbles (04.R111), QSTAT (05.R151 to R153),
and the rescale of integer accumulators (05.R148 to R150).
-/

namespace Sys2Proof.Machine

/-! ### Rows to be written -/

/-- An output before conversion: not written, skipped under TRI (06.R166), or a value. -/
inductive Cell where
  | none
  | skip
  | val (x : Num)
  deriving DecidableEq, Repr

/-- A destination row: its values from dimension-0 index 0 on, and the fault that comes after them. -/
structure OutRow where
  i1 : Nat := 0
  i2 : Nat := 0
  i3 : Nat := 0
  cells : List Cell := []
  err : Option FaultInfo := none
  deriving DecidableEq, Repr

/-- The cell with a function applied to its value. -/
def Cell.map (f : Num → Num) : Cell → Cell
  | .val x => .val (f x)
  | c => c

/-- The value of a cell that has one. -/
def Cell.value : Cell → Option Num
  | .val x => some x
  | _ => Option.none

/-- Two rows stand in one block of 32 rows. -/
def sameBlock (a b : OutRow) : Bool := a.i1 / 32 == b.i1 / 32 && a.i2 == b.i2 && a.i3 == b.i3

/-- Rows grouped by block of 32 rows. -/
def rowBlocks : List OutRow → List (List OutRow)
  | [] => []
  | r :: rs =>
    match rowBlocks rs with
    | (r' :: g) :: gs => if sameBlock r r' then (r :: r' :: g) :: gs else [r] :: (r' :: g) :: gs
    | gs => [r] :: gs

/-- How an instruction writes its destination: the tensor, the zero point of codes without scales of their own, the unit
that a fault names, whether an overflow of the FP32 range is arithmetic (06.R167), the scales it computes, the adaptation
sampled at decode (05.R153), the threshold T, the side-list destination, and the QSTAT entry. -/
structure Sink where
  td : TD
  zp : Nat := 0
  unit : Nat := 2
  arith : Bool := false
  quant : Bool := false
  adapt : Int := 0
  thr : Option Num := none
  side : Option TD := none
  qst : Option Nat := none
  deriving DecidableEq, Repr

/-- The sink writes row scales and tags (05.R135, R140). -/
def Sink.tagged (k : Sink) : Bool := k.quant && k.td.skind == 1

/-- The sink writes block scales (05.R155). -/
def Sink.blocked (k : Sink) : Bool := k.quant && k.td.skind == 2

/-! ### Local totals (05.R151) -/

/-- What the conversions of an instruction count: the totals of 05.R151, and the conversion events (04.R117). -/
structure Totals where
  q : QTotals := {}
  clips : Nat := 0
  invalids : Nat := 0
  deriving DecidableEq, Repr

/-- One tracked conversion: `e` in destination units (05.R151). -/
def Totals.add (t : Totals) (e : Num) (c : Conv) : Totals :=
  { q := { err := (addN t.q.err (mulN e e).1).1, cnt := t.q.cnt + 1, clip := t.q.clip + b2n (c == .clip) }
    clips := t.clips + b2n (c == .clip)
    invalids := t.invalids + b2n (c == .invalid) }

/-- The end of a conversion run: its events are counted, and the totals of a tracked entry wait for the end of the instruction
(05.R151). -/
def State.endTotals (s : State) (q : SeqId) (qst : Option Nat) (t : Totals) : State :=
  let s := s.countConv q t.clips t.invalids
  match q, qst with
  | .core c, some n => s.updCore c (fun k => { k with qzEnd := k.qzEnd ++ [(n, t.q)] })
  | _, _ => s

/-- The factor 2^(ADAPT/4) of 05.R153. -/
def adaptFactor (a : Int) : Rat :=
  let root : Rat := match (a % 4).toNat with
    | 0 => 1
    | 1 => 11892071 / 10000000
    | 2 => 14142135 / 10000000
    | _ => 16817929 / 10000000
  roundGrid .fp32 root * pow2 (a / 4)

/-- A scale adapted in FP32 (05.R153). -/
def adapted (s : Num) (a : Int) : Num := if a = 0 then s else (mul32 s (.val (adaptFactor a))).1

/-- Rounded to BF16, as a value. -/
def bf16 (x : Num) : Num := floatVal .bf16 (bf16Bits x)

/-! ### Conversion of elements -/

/-- A conversion on its way: its totals, the entries appended to each block of the side list it touches, newest first, and
the escapes that found their list full. -/
structure Convert where
  tot : Totals := {}
  sides : List (Nat × List SideEntry) := []
  written : Nat := 0
  full : Nat := 0
  deriving DecidableEq, Repr

/-- The value of a written code in destination units (05.R151). -/
def codeBack (f : Fmt) (zp code : Nat) : Num := codeVal f zp code

/-- One conversion of u to a code with zero point `zp`, tracked (05.R150, R151). -/
def plainCode (k : Sink) (zp : Nat) (u : Num) (v : Convert) : Nat × Convert :=
  let f := tdFmt k.td
  let u := if fmtBell f then fp32 u else u
  let (c, n) := if k.arith then arithTo f zp u else toFmt f zp u
  (c, { v with tot := v.tot.add (subN u (codeBack f zp c)).1 n })

/-- |x| > T. -/
def aboveThr (thr : Option Num) (x : Num) : Bool :=
  match thr with
  | some t => ltN t x.mag
  | none => false

/-- The entries of a block of the side list so far. -/
def Convert.listOf (v : Convert) (b : Nat) : List SideEntry :=
  ((v.sides.find? (fun e => e.1 == b)).map (fun e => e.2)).getD []

/-- The block of the side list noted as touched (08.R223). -/
def Convert.touch (v : Convert) (b : Nat) : Convert :=
  if v.sides.any (fun e => e.1 == b) then v else { v with sides := v.sides ++ [(b, [])] }

/-- An entry appended to a block's list. -/
def Convert.append (v : Convert) (b : Nat) (e : SideEntry) : Convert :=
  { v with sides := v.sides.map (fun p => if p.1 = b then (b, e :: p.2) else p), written := v.written + 1 }

/-- The code and entry VALUE of an element beyond the threshold: the escape of 04.R128 with u itself, or the outlier code
of 05.R137 with the excess over it. -/
def outlier (f : Fmt) (zp : Nat) (u : Num) : Nat × Nat × Nat :=
  if fmtBell f then (bellEscape f, bf16Bits u, 0)
  else
    let c := if u.neg then 1 else 2 ^ fmtBits f - 1
    (c, bf16Bits (subN u (codeVal f zp c)).1, 2)

/-- One element: u converted, or written as an escape or outlier when `x` lies beyond T and its list has room. -/
def convElem (k : Sink) (zp : Nat) (r : OutRow) (i0 : Nat) (x u : Num) (v : Convert) : Nat × Convert :=
  match k.side with
  | none => plainCode k zp u v
  | some sd =>
    let b := sideBlock sd i0 r.i1 r.i2 r.i3
    let v := v.touch b
    let f := tdFmt k.td
    if !aboveThr k.thr x || !(fmtBell f || fmtA f) then plainCode k zp u v
    else if sd.sideCap ≤ (v.listOf b).length then plainCode k zp u { v with full := v.full + 1 }
    else
      let (c, val, kind) := outlier f zp u
      (c, v.append b { value := val, row := r.i1 % 1024, col := i0 % 512, kind := kind })

/-- The code of an output skipped under TRI: −infinity, or the smallest code; no rule names one for a bell grid, whose code
is free (06.R166). -/
def skipCode (f : Fmt) (free : Nat) : Nat :=
  if fmtFloat f then (toFloat f (.inf true)).1
  else if fmtA f then 0
  else if fmtBell f then free % 2 ^ fmtBits f
  else 2 ^ (fmtBits f - 1)

/-- The cells of a row from index `i0` converted, `div i0` the scale that divides each: `none` for bytes not written. -/
def convCells (k : Sink) (zp free : Nat) (scale : Nat → Num) (r : OutRow) : Nat → List Cell → Convert →
    List (Option Nat) × Convert
  | _, [], v => ([], v)
  | i0, c :: cs, v =>
    let (o, v) := match c with
      | .none => (none, v)
      | .skip => (some (skipCode (tdFmt k.td) free), v)
      | .val x =>
        let s := scale i0
        let u := if s = .val 1 then x else (divN x s).1
        let u := if fmtBell (tdFmt k.td) then fp32 u else u
        let (code, v) := convElem k zp r i0 (if fmtBell (tdFmt k.td) then u else x) u v
        (some code, v)
    let (os, v) := convCells k zp free scale r (i0 + 1) cs v
    (o :: os, v)

/-! ### Bytes -/

/-- The bytes of a row of codes that are written, and of each byte the nibbles that are. -/
def packCodes (f : Fmt) (codes : List (Option Nat)) (old : Nat → Nat) : List (Option Byte) :=
  match fmtBits f with
  | 4 => (List.range ((codes.length + 1) / 2)).map (fun i =>
      match (codes[2 * i]?).join, (codes[2 * i + 1]?).join with
      | none, none => none
      | lo, hi => some (BitVec.ofNat 8 (lo.getD (old i % 16) % 16 + 16 * (hi.getD (old i / 16) % 16))))
  | n => codes.flatMap (fun c => match c with
      | some v => (leBytes (n / 8) v).map some
      | none => List.replicate (n / 8) none)

/-- The maximal runs of bytes that are written, with their offsets. -/
def byteRuns : Nat → List (Option Byte) → List (Nat × List Byte)
  | _, [] => []
  | o, none :: bs => byteRuns (o + 1) bs
  | o, some b :: bs =>
    match byteRuns (o + 1) bs with
    | (o', r) :: rest => if o' = o + 1 then (o, b :: r) :: rest else (o, [b]) :: (o', r) :: rest
    | [] => [(o, [b])]

/-- Runs of bytes written from an address. -/
def writeRuns (q : SeqId) (unit a : Nat) : List (Nat × List Byte) → ExecM Unit
  | [] => pure ()
  | (o, b) :: rest => do
    writeMem q unit (a + o) b
    writeRuns q unit a rest

/-- The bytes of a 4-bit row of which one nibble only is written. -/
def halfBytes (codes : List (Option Nat)) : List Nat :=
  (List.range ((codes.length + 1) / 2)).filter (fun i => (codes[2 * i]?).join.isSome != (codes[2 * i + 1]?).join.isSome)

/-- The bytes that nibbles are merged into, read as any byte is (04.R111): those before the first that raises a fault, and its fault. -/
def oldBytes (q : SeqId) (unit a : Nat) : List Nat → ExecM (List (Nat × Nat) × Option (Nat × FaultInfo))
  | [] => return ([], none)
  | i :: is => do
    match ← attempt (readMem q unit (a + i) 1) with
    | .error e => return ([], some (i, e))
    | .ok b =>
      let (os, e) ← oldBytes q unit a is
      return ((i, leNat b) :: os, e)

/-- The codes of a row written within the tensor's effective extent; where a nibble cannot be merged, the bytes of the granules
before it stay written (04.R111, 10.R274). -/
def writeCodes (q : SeqId) (unit : Nat) (t : TD) (r : OutRow) (codes : List (Option Nat)) : ExecM Unit := do
  let a := rowAddr t r.i1 r.i2 r.i3
  let codes := codes.take t.eff0
  let (old, bad) ← if fmtBits (tdFmt t) = 4 then oldBytes q unit a (halfBytes codes) else pure ([], none)
  let bytes := packCodes (tdFmt t) codes (fun i => ((old.find? (fun o => o.1 == i)).map (fun o => o.2)).getD 0)
  match bad with
  | none => writeRuns q unit a (byteRuns 0 bytes)
  | some (i, e) => do
    writeRuns q unit a (byteRuns 0 (bytes.take ((a % 64 + i) / 64 * 64 - a % 64)))
    throw e

/-! ### Scales of a row -/

/-- The largest magnitude among the values not beyond the threshold. -/
def absMax (thr : Option Num) (xs : List Num) : Num :=
  xs.foldl (fun m x => if aboveThr thr x then m else maxN m x.mag) (.val 0)

/-- Q and zp of 05.R135. -/
def quantQ (f : Fmt) : Nat := if f = .a4u then 7 else 127
def quantZp (f : Fmt) : Nat := if f = .a4u then 8 else 128

/-- A scale that rounds to 0 is 1.0 (05.R136). -/
def orOne (s : Num) : Num := if s.isZero then .val 1 else s

/-- s_x of a row (05.R135 to R137, R153). -/
def rowScale (f : Fmt) (thr : Option Num) (adapt : Int) (xs : List Num) : Num :=
  let s := bf16 (divN (absMax thr xs) (.val (quantQ f))).1
  if s.isZero then .val 1 else if adapt = 0 then s else orOne (bf16 (adapted s adapt))

/-- ceil(log2 a) of a positive rational. -/
def clog2 (a : Rat) : Int := if pow2 (ilog2 a) = a then ilog2 a else ilog2 a + 1

/-- s_b of a block (05.R155, R153). -/
def blockScale (f : Fmt) (thr : Option Num) (adapt : Int) (xs : List Num) : Num :=
  let a := absMax (if fmtBell f then none else thr) xs
  let s := if a.isZero then .val 0 else if fmtBell f then bf16 a else bf16 (.val (pow2 (clog2 a.rat - 15)))
  if s.isZero then .val 1 else if adapt = 0 then s else orOne (bf16 (adapted s adapt))

/-- The values of a row. -/
def OutRow.values (r : OutRow) : List Num := r.cells.filterMap Cell.value

/-- Some value is a NaN or an infinity (05.R136). -/
def notFinite (xs : List Num) : Bool := xs.any (fun x => !x.finite)

/-- The cells of a row cut into blocks of 128 (05.R155); `n` bounds the blocks. -/
def cellBlocks : Nat → List Cell → List (List Cell)
  | 0, _ => []
  | n + 1, cs => if cs = [] then [] else cs.take 128 :: cellBlocks n (cs.drop 128)

/-! ### Writers -/

/-- Elements of a row from address `a` that lie in granules before the one at the address a fault names (10.R274). -/
def elemsBefore (f : Fmt) (a : Nat) (e : FaultInfo) : Nat :=
  match e.detail with
  | some d => (wrapAddr (d / 64 * 64 + 2 ^ 51 - wrapAddr a / 64 * 64) - a % 64) * 8 / fmtBits f
  | none => 0

/-- The conversions of a row with the codes written: a fault of a write keeps the conversions of the elements written before it
(05.R151), `conv n` being those of the first `n` cells. -/
def writeConverted (q : SeqId) (k : Sink) (r : OutRow) (conv : Nat → List (Option Nat) × Convert) :
    ExecM (Convert × Option FaultInfo) := do
  let (codes, v) := conv r.cells.length
  match ← attempt (writeCodes q k.unit k.td r codes) with
  | .ok _ => return (v, r.err)
  | .error e => return ((conv (elemsBefore (tdFmt k.td) (rowAddr k.td r.i1 r.i2 r.i3) e)).2, some e)

/-- A row of a destination without scales of its own: the conversions of what it writes, and its fault. -/
def writePlainRow (q : SeqId) (k : Sink) (free : Nat) (r : OutRow) (v : Convert) : ExecM (Convert × Option FaultInfo) :=
  writeConverted q k r (fun n => convCells k k.zp free (fun _ => .val 1) r 0 (r.cells.take n) v)

/-- A row with block scales: its elements, then its scales (05.R155). -/
def writeBlockedRow (q : SeqId) (k : Sink) (free : Nat) (r : OutRow) (v : Convert) : ExecM (Convert × Option FaultInfo) := do
  let f := tdFmt k.td
  let scales := (cellBlocks r.cells.length (r.cells.take k.td.eff0)).map (fun b =>
    blockScale f k.thr k.adapt (b.filterMap Cell.value))
  let (v, e) ← writeConverted q k r (fun n =>
    convCells k 0 free (fun i => scales.getD (i / 128) (.val 1)) r 0 (r.cells.take n) v)
  if e.isSome && e != r.err then return (v, e)
  match ← attempt (writeMem q k.unit (blockScaleAddr k.td 0 r.i1 r.i2 r.i3) (scales.flatMap (fun s => leBytes 2 (bf16Bits s)))) with
  | .ok _ => return (v, e)
  | .error e => return (v, some e)

/-- The conversion of the rows of a tagged block: each row's scale, and its codes. -/
def tagRows (k : Sink) (free : Nat) : List OutRow → Convert → List (OutRow × Num × List (Option Nat)) × Convert
  | [], v => ([], v)
  | r :: rs, v =>
    let f := tdFmt k.td
    let s := rowScale f k.thr k.adapt r.values
    let (codes, v) := convCells k (quantZp f) free (fun _ => s) r 0 r.cells v
    let (rest, v) := tagRows k free rs v
    ((r, s, codes) :: rest, v)

/-- The rows of a block written. -/
def putRows (q : SeqId) (k : Sink) : List (OutRow × Num × List (Option Nat)) → ExecM Unit
  | [] => pure ()
  | (r, _, codes) :: rest => do
    writeCodes q k.unit k.td r codes
    putRows q k rest

/-- The SCALE fields of a scale block that are written: (index, value). -/
def putScales (q : SeqId) (k : Sink) (a : Nat) : List (OutRow × Num × List (Option Nat)) → ExecM Unit
  | [] => pure ()
  | (r, s, _) :: rest => do
    writeMem q k.unit (a + 2 * (r.i1 % 32)) (leBytes 2 (bf16Bits s))
    putScales q k a rest

/-- A block of a tagged destination: header, rows, scale block (05.R135 to R140). A block that holds a row with a fault is
not written. -/
def writeTagged (q : SeqId) (k : Sink) (seed free : Nat) (g : List OutRow) (v : Convert) : ExecM Convert := do
  match g.findSome? (fun r => r.err) with
  | some e => throw e
  | none => pure ()
  if g.any (fun r => notFinite r.values) then fail QZ_SCALE_RANGE k.unit
  let r0 := g.headD {}
  let (rows, w) := tagRows k free g v
  let no := scaleBlockNo k.td r0.i1 r0.i2 r0.i3
  let tag := (seed + no) % 256
  writeMem q k.unit (headerAddr k.td (r0.i1 / 32) r0.i2 r0.i3)
    (leBytes 1 tag ++ leBytes 1 g.length ++ List.replicate 62 (0 : Byte))
  putRows q k rows
  putScales q k (scaleBlockAddr k.td no) rows
  writeMem q k.unit (scaleBlockAddr k.td no + 0x40)
    (leBytes 1 tag ++ leBytes 1 (quantZp (tdFmt k.td)) ++ leBytes 1 g.length ++ leBytes 1 (b2n (v.written < w.written))
      ++ List.replicate 60 (0 : Byte))
  return w

/-- The rows of a block of 32, each in turn, up to the first with a fault. -/
def writeEach (row : OutRow → Convert → ExecM (Convert × Option FaultInfo)) : List OutRow → Convert →
    ExecM (Convert × Option FaultInfo)
  | [], v => return (v, none)
  | r :: rs, v => do
    match ← row r v with
    | (v, none) => writeEach row rs v
    | (v, some e) => return (v, some e)

/-- Blocks of rows written in order up to the first fault. A block of a blocked destination that holds a NaN or an
infinity is not begun (05.R136, R155). -/
def writeBlocks (q : SeqId) (k : Sink) (seed free : Nat) : List (List OutRow) → Convert →
    ExecM (Convert × Option FaultInfo)
  | [], v => return (v, none)
  | g :: gs, v => do
    let (v, e) ← if k.tagged then do
        match ← attempt (writeTagged q k seed free g v) with
        | .ok w => pure (w, none)
        | .error e => pure (v, some e)
      else if k.blocked then
        (if g.any (fun r => notFinite r.values) then pure (v, some { code := QZ_SCALE_RANGE, unit := k.unit })
        else writeEach (writeBlockedRow q k free) g v)
      else writeEach (writePlainRow q k free) g v
    match e with
    | some _ => return (v, e)
    | none => writeBlocks q k seed free gs v

/-- The entries of a block's list with LAST on the newest only, oldest first; a list without entries is one of KIND 3
(04.R128, 08.R223). -/
def sideFinal : List SideEntry → List SideEntry
  | [] => [{ kind := 3, last := true }]
  | e :: es => (es.reverse.map (fun x => { x with last := false })) ++ [{ e with last := true }]

/-- The side lists of the blocks touched, written from entry 0 of each. -/
def writeSides (q : SeqId) (unit : Nat) (sd : TD) : List (Nat × List SideEntry) → ExecM Unit
  | [] => pure ()
  | (b, es) :: rest => do
    if 0 < sd.sideCap then writeMem q unit (sideListAddr sd b) ((sideFinal es).flatMap sideBytes)
    writeSides q unit sd rest

/-- QZ_TAG.SEED increments at the end of a producing instruction (05.R140). -/
def bumpSeed (q : SeqId) : ExecM Unit :=
  match q with
  | .core c => change (fun s => s.updCore c (fun k => { k with qz := { k.qz with seed := (k.qz.seed + 1) % 256 } }))
  | .house => pure ()

/-- QZ_TAG.SEED of a sequencer's core. -/
def State.seed (s : State) (q : SeqId) : Nat :=
  match q with
  | .core c => s.cores[c].qz.seed
  | .house => 0

/-- Some output of the rows is skipped under TRI into a bell grid: its code is free. -/
def needsFree (k : Sink) (rows : List OutRow) : Bool :=
  fmtBell (tdFmt k.td) && rows.any (fun r => r.cells.contains .skip)

/-- Rows converted and written, with all that the end of the conversions brings, and then their fault. -/
def writeOut (q : SeqId) (k : Sink) (rows : List OutRow) : ExecM Unit := do
  let free ← if needsFree k rows then free64 else pure 0
  let s ← get
  let (v, e) ← writeBlocks q k (s.seed q) free (rowBlocks rows) {}
  let e ← match k.side with
    | some sd => do
      match ← attempt (writeSides q k.unit sd v.sides) with
      | .ok _ => pure e
      | .error e' => pure (some (e.getD e'))
    | none => pure e
  change (fun s =>
    let s := s.endTotals q k.qst v.tot
    let s := if v.written = 0 then s else s.countSeq q EV_QZ_ESC_WRITTEN v.written
    if v.full = 0 then s else s.countSeq q EV_QZ_ESC_OVERFLOW v.full)
  match e with
  | some f => throw f
  | none => pure ()

/-! ### Rescale (05.R148 to R150) -/

/-- M and s from S; none when S is out of range (05.R149). -/
def deriveMs (x : Num) : Option (Nat × Nat) :=
  match x with
  | .negZero => some (0, 0)
  | .val s =>
    if s < 0 ∨ 2 ^ 31 ≤ s then none
    else if s = 0 then some (0, 0)
    else
      let sh := (min (30 - ilog2 s) 62).toNat
      let m := (rne (s * pow2 sh)).toNat
      if m = 2 ^ 31 then (if 0 < sh then some (2 ^ 30, sh - 1) else some (2 ^ 31 - 1, 0)) else some (m, sh)
  | _ => none

/-- s_y′ of a derived rescale (05.R148, R153, 08.R221). -/
def FinishOps.sy' (o : FinishOps) : Num :=
  if o.derived then adapted (ofFp32 o.sy.toNat) (if o.qen then o.adapt else 0) else .val 1

/-- The check of s_y′ at the start of execution (08.R221). -/
def checkSy (o : FinishOps) (unit : Nat) : ExecM Unit := demand (!o.derived || posFinite o.sy') QZ_SCALE_RANGE unit

/-- M and s of an entry (05.R148); with a chain s_y′ is taken as 1.0 (06.R185). -/
def FinishOps.pair (o : FinishOps) (sx sw u : Num) : Option (Nat × Nat) :=
  if o.derived then
    let d := if o.chain = [] then o.sy' else .val 1
    deriveMs (div32 (mul32 (mul32 sx sw).1 u).1 d).1
  else some (o.mult, o.shift)

/-- acc_c · M · 2^(p − s), exact (05.R150, 03.R98). -/
def rescaled (acc : Int) (ms : Nat × Nat) (p : Nat) : Rat := (acc : Rat) * (ms.1 : Rat) * pow2 ((p : Int) - (ms.2 : Int))

/-- Rows up to the first block with a row that cannot be rescaled, whose fault then stands in place of the block
(05.R149). `none` marks such a row. -/
def cutBlocks (unit : Nat) (rows : List (OutRow × Bool)) : List OutRow :=
  let gs := rowBlocks (rows.map (fun r => r.1))
  let bad := fun r => rows.any (fun x => !x.2 && sameBlock x.1 r)
  let ok := gs.takeWhile (fun g => !bad (g.headD {}))
  ok.flatten ++ ((gs.drop ok.length).head?.map (fun g =>
    { g.headD {} with cells := [], err := some { code := QZ_SCALE_RANGE, unit := unit } })).toList

end Sys2Proof.Machine
end

