-- ==== Sys2Proof/Machine/Chain.lean ====
section
/-!
DEFINITION. Drain chains (06.R185 to R189): what each step reads at the start of the finish, its effect on the working
values of a row, the table function (06.R176, R177), the wide sums of 06.R171, and the finish itself.
-/

namespace Sys2Proof.Machine

/-! ### Tables (06.R176, R177) -/

/-- The line of segment `i` at `d` beyond its start, with one rounding. -/
def tableLine (t : Table) (i : Nat) (d : Num) : Num × Bool :=
  let (r, inv) := fmaN (ofFp32 (t.slope.getD i 0).toNat) d (ofFp32 (t.base.getD i 0).toNat)
  (fp32 r, inv)

/-- T(u): the value and whether an operation was invalid. -/
def tableAt (t : Table) (clamp : Bool) (u : Num) : Num × Bool :=
  let lo := (ofFp32 t.lo.toNat).rat
  let hi := (ofFp32 t.hi.toNat).rat
  let u := if clamp then (if ltN u (.val lo) then .val lo else if ltN (.val hi) u then .val hi else u) else u
  match u with
  | .nan => (.nan, true)
  | .inf neg => tableLine t (if neg then 0 else 255) (.inf neg)
  | x =>
    let w := hi - lo
    let i := (min (max ((x.rat - lo) * 256 / w).floor 0) 255).toNat
    tableLine t i (.val (x.rat - (lo + (i : Rat) * w / 256)))

/-- A finite value times 2^n, rounded (06.R177); beyond 2^300 and 2^-400 the result does not depend on n. -/
def scale2 (v : Num) (n : Int) : Num :=
  match v with
  | .val x => fp32 (signedVal (decide (x < 0)) (ratAbs x * pow2 (min (max n (-400)) 300)))
  | y => y

/-- The value of an EVAL or TABLE step: an empty table and a NaN give the canonical NaN (06.R176). -/
def tableEval (t : Option Table) (clamp exp2 : Bool) (u : Num) : Num × Bool :=
  match t with
  | none => (.nan, true)
  | some t =>
    if exp2 then
      match u with
      | .nan => (.nan, true)
      | .inf neg => (if neg then .val 0 else .inf false, false)
      | x =>
        let n := x.rat.floor
        let (v, inv) := tableAt t clamp (.val (x.rat - (n : Rat)))
        (scale2 v n, inv)
    else tableAt t clamp u

/-! ### Wide sums (06.R171, R172) -/

/-- RNE to a 48-bit significand. -/
def sig48 (x : Rat) : Rat :=
  if x = 0 then 0
  else
    let ulp := pow2 (ilog2 (ratAbs x) - 47)
    ((rne (x / ulp) : Int) : Rat) * ulp

/-- One addition of a wide sum. -/
def wideAdd (a b : Num) : Num × Bool :=
  let (r, inv) := addN a b
  match r with
  | .val x => (.val (sig48 x), inv)
  | y => (y, inv)

/-- S1 and S2 of float elements in ascending order, and whether the sums met a NaN or infinities of both signs. -/
def wideSums (xs : List Num) : Num × Num × Bool :=
  let (s1, i1) := xs.foldl (fun (s, i) x => let (r, j) := wideAdd s x; (r, i || j || x == .nan)) (.val 0, false)
  let s2 := xs.foldl (fun s x => (wideAdd s (mulN x x).1).1) (.val 0)
  (s1, s2, i1)

/-- n · S2 − S1², exact, with +0 for a negative value; an infinite S2 gives a NaN and is invalid (06.R171, R172). -/
def spread (s1 s2 : Num) (n : Nat) : Num × Bool :=
  match s1, s2 with
  | .nan, _ | _, .nan => (.nan, true)
  | .inf _, _ | _, .inf _ => (.nan, true)
  | a, b =>
    let v := (n : Rat) * b.rat - a.rat * a.rat
    (.val (if v < 0 then 0 else v), false)

/-- Mean and variance of sums, unrounded (06.R172), `spread` given. -/
def meanOf (s1 : Num) (n : Nat) : Num := (divN s1 (.val n)).1

/-- The 16 bytes of a FINAL record (06.R173). -/
def finalRecord (n : Nat) (mean m2 : Num) (sat : Bool) : List Byte :=
  leBytes 4 (n % 2 ^ 31 + b2n sat * 2 ^ 31) ++ leBytes 4 (fp32Bits (fp32 mean)) ++ leBytes 4 (fp32Bits (fp32 m2)) ++ leBytes 4 0

/-- The FINAL record of float elements, and whether it sets the invalid flag. -/
def statRecord (xs : List Num) : List Byte × Bool :=
  let (s1, s2, i) := wideSums xs
  let (d, j) := spread s1 s2 xs.length
  let n : Num := .val xs.length
  (finalRecord xs.length (meanOf s1 xs.length) (mulN (fp32 (divN d (mulN n n).1).1) n).1 false, i || j)

/-! ### What the steps read -/

/-- A step with its operands read: a vector with its elements, or RESID's rows. -/
structure Prep where
  st : ChainStep := {}
  vec : List Num := []
  free : Num := .val 0
  lines : List ((Nat × Nat × Nat) × Line) := []
  table : Option Table := none
  entries : List (Nat × Nat × Num) := []
  deriving DecidableEq, Repr

/-- The rows of a source with their indices; the reading stops at the first that raises a fault. -/
def sourceLines (q : SeqId) (unit : Nat) (t : TD) : ExecM (List ((Nat × Nat × Nat) × Line)) := do
  let ls ← readSource q unit t
  return (tdRows t).zip ls

/-- The elements of a vector along dimension 0. -/
def readVector (q : SeqId) (unit : Nat) (t : TD) : ExecM (List Num) := do
  let t := { t with eff1 := min t.eff1 1, eff2 := min t.eff2 1, eff3 := min t.eff3 1 }
  match ← sourceLines q unit t with
  | (_, l) :: _ =>
    match l.err with
    | some e => throw e
    | none => return l.elems.map Elem.float
  | [] => return []

/-- The ACT_ADD entries of a descriptor's side lists as (t, r, VALUE), in list order (06.R188). -/
def actEntries (q : SeqId) (unit : Nat) (t : TD) : List Nat → ExecM (List (Nat × Nat × Num))
  | [] => return []
  | b :: bs => do
    let es ← readSide q unit t.sideCap (sideListAddr t b)
    let cols := ceilDiv t.ext0 512
    let here := (es.filter (fun e => e.kind == 2)).map (fun e =>
      (b / cols * 1024 + e.row, b % cols * 512 + e.col, floatVal .bf16 e.value))
    let rest ← actEntries q unit t bs
    return here ++ rest

/-- A table of the sequencer's core. -/
def State.tableOf (s : State) (q : SeqId) (n : Nat) : Option Table :=
  match q with
  | .core c => getN s.cores[c].mill.tables n none
  | .house => none

/-- A step's operands read at the start of the finish, RESID's within the rows that are finished. -/
def prepStep (q : SeqId) (unit : Nat) (tdd : TD) (st : ChainStep) : ExecM Prep := do
  let s ← get
  match st.step, st.td with
  | 1, some t | 4, some t => do
    let v ← readVector q unit t
    let f ← free64
    return { st := st, vec := v, free := ofFp32 (f % 2 ^ 32) }
  | 3, some t => do
    let t := { t with eff0 := min t.eff0 tdd.eff0, eff1 := min t.eff1 tdd.eff1, eff2 := min t.eff2 tdd.eff2,
                      eff3 := min t.eff3 tdd.eff3 }
    let ls ← sourceLines q unit t
    let f ← free64
    return { st := st, lines := ls, free := ofFp32 (f % 2 ^ 32) }
  | 6, some t => do
    let es ← if t.sideCap = 0 then pure []
      else actEntries q unit t (List.range (ceilDiv t.ext0 512 * ceilDiv t.ext1 1024))
    return { st := st, entries := es }
  | 2, _ => return { st := st, table := s.tableOf q (st.param % 4) }
  | _, _ => return { st := st }

/-- Every step's operands, in step order. -/
def prepChain (q : SeqId) (unit : Nat) (tdd : TD) : List ChainStep → ExecM (List Prep)
  | [] => return []
  | st :: sts => do
    let p ← prepStep q unit tdd st
    let ps ← prepChain q unit tdd sts
    return p :: ps

/-! ### The effect of a step on a row (06.R186) -/

/-- CLAMP of a value. -/
def clampN (lo hi v : Num) : Num := if v = .nan then .nan else minN (maxN v lo) hi

/-- A row's cells with a function of the column applied to each value, and whether an operation was invalid. -/
def mapCells (f : Nat → Num → Num × Bool) : Nat → List Cell → List Cell × Bool
  | _, [] => ([], false)
  | j, c :: cs =>
    let (cs, i) := mapCells f (j + 1) cs
    match c with
    | .val v => let (r, k) := f j v; (.val r :: cs, i || k)
    | c => (c :: cs, i)

/-- ESCAPE: each entry of row `t` adds its product, the product exact, one rounding per addition (06.R188). `weight r j` is
w[r][j] · s_w[j], exact. -/
def escapeRow (es : List (Nat × Nat × Num)) (sx : Nat → Num) (kLen : Nat) (weight : Nat → Nat → Num) (t j : Nat) (v : Num) :
    Num × Bool :=
  (es.filter (fun e => e.1 == t && decide (e.2.1 < kLen))).foldl (fun (a, i) e =>
    let (p, x) := mulN e.2.2 (sx t)
    let (p, y) := mulN p (weight e.2.1 j)
    let (r, z) := add32 a p
    (r, i || x || y || z)) (v, false)

/-- What ESCAPE takes from the instruction: s_x per row, the input length, and the weights with their scales. -/
structure EscapeOps where
  sx : List Num := []
  kLen : Nat := 0
  weights : List (List Num) := []
  deriving DecidableEq, Repr

/-- What a step does to a row: the row, whether an operation was invalid, and the record it writes. -/
def stepRow (p : Prep) (esc : EscapeOps) (r : OutRow) : OutRow × Bool × Option (List Byte) :=
  let on := fun f => let (cs, i) := mapCells f 0 r.cells; ({ r with cells := cs }, i, none)
  let sc := p.st.scalar.toNat
  match p.st.step with
  | 1 => on (fun j v => add32 v (p.vec.getD j p.free))
  | 2 => on (fun _ v => tableEval p.table (bit p.st.param 2) (bit p.st.param 3) v)
  | 3 =>
    match p.lines.find? (fun l => l.1 == (r.i1, r.i2, r.i3)) with
    | some (_, l) =>
        let (cs, i) := mapCells (fun j v => add32 v ((l.elems[j]?).map Elem.value |>.getD p.free)) 0
          (if l.err.isSome then r.cells.take l.elems.length else r.cells)
        ({ r with cells := cs, err := if l.err.isSome then l.err else r.err }, i, none)
    | none => on (fun _ v => add32 v p.free)
  | 4 => on (fun j v => mul32 v (p.vec.getD (if bit p.st.param 0 then r.i1 else j) p.free))
  | 5 => on (fun _ v => (clampN (ofFp32 (bits sc 0 32)) (ofFp32 (bits sc 32 32)) v, false))
  | 6 => on (fun j v => escapeRow p.entries (fun t => esc.sx.getD t (.val 1)) esc.kLen
      (fun k j => (esc.weights.getD k []).getD j (.val 0)) r.i1 j v)
  | 7 =>
    let xs := r.values
    if xs = [] then (r, false, none)
    else
      let (b, i) := statRecord xs
      (r, i, some b)
  | _ => (r, false, none)

/-- A row after the steps, its STAT records written on the way (06.R187). -/
def chainRow (q : SeqId) (unit : Nat) (esc : EscapeOps) : List Prep → OutRow → Bool → ExecM (OutRow × Bool)
  | [], r, i => return (r, i)
  | p :: ps, r, i => do
    let (r, j, rec) := stepRow p esc r
    match rec, p.st.td with
    | some b, some t => if r.err.isNone then writeMem q unit (rowAddr t r.i1 r.i2 r.i3) b
    | _, _ => pure ()
    chainRow q unit esc ps r (i || j)

/-- The row that RESID would add lies at or beyond ROWS of its block: the output row is not written (05.R142). -/
def Prep.drops (p : Prep) (r : OutRow) : Bool := p.lines.any (fun l => l.1 == (r.i1, r.i2, r.i3) && !l.2.valid)

/-- Rows after the chain, up to the first with a fault, and whether an operation was invalid. -/
def chainRows (q : SeqId) (unit : Nat) (esc : EscapeOps) (ps : List Prep) : List OutRow → Bool →
    ExecM (List OutRow × Bool)
  | [], i => return ([], i)
  | r :: rs, i => do
    if r.cells = [] && r.err.isSome then return ([r], i)
    if ps.any (fun p => p.drops r) then return ← chainRows q unit esc ps rs i
    match ← attempt (chainRow q unit esc ps r false) with
    | .error e => return ([{ r with cells := [], err := some e }], i)
    | .ok (r, j) =>
      if r.err.isSome then return ([r], i || j)
      else
        let (rest, k) ← chainRows q unit esc ps rs (i || j)
        return (r :: rest, k)

/-- Elements that the steps of a chain process (21.R509 FU_ELEM_STEPS). -/
def cellCount (rows : List OutRow) : Nat := rows.foldl (fun n r => n + (r.values).length) 0

/-- Products that the ESCAPE steps form (21.R509 ML_ESC_PRODUCTS). -/
def escCount (ps : List Prep) (kLen : Nat) (rows : List OutRow) : Nat :=
  ps.foldl (fun n p => rows.foldl (fun n r =>
    n + (p.entries.filter (fun e => e.1 == r.i1 && decide (e.2.1 < kLen))).length * r.values.length) n) 0

/-- The REQUANT step of a chain. -/
def requantStep (steps : List ChainStep) : Option ChainStep := (steps.getLast?).filter (fun st => st.step == STEP_REQUANT)

/-- A side-list destination, absent with SIDE_CAP 0 (07.R202). -/
def sideOf (t : Option TD) : Option TD := t.filter (fun t => t.sideCap != 0)

/-- The sink of a chain that ends in REQUANT: scales of its own, with the step's side list and threshold (08.R222). -/
def requantSink (k : Sink) (st : ChainStep) : Sink :=
  { k with
    quant := true
    arith := false
    thr := (sideOf st.td).map (fun _ => ofFp32 (bits st.scalar.toNat 0 32))
    side := sideOf st.td }

/-- The finish of an instruction's rows: its chain, then its destination (06.R185). Without a chain the rows hold what is
written; with one they hold v in FP32, and v / s_y′ is written. -/
def finish (q : SeqId) (o : FinishOps) (k : Sink) (esc : EscapeOps) (rows : List OutRow) : ExecM Unit := do
  if o.chain = [] then writeOut q k rows
  else
    change (fun s => s.countSeq q EV_FU_ELEM_STEPS (cellCount rows * o.chain.length))
    let ps ← prepChain q 3 k.td o.chain
    if ps.any (fun p => p.entries != []) then
      change (fun s => s.countSeq q EV_ML_ESC_PRODUCTS (escCount ps esc.kLen rows))
    let (rows, inv) ← chainRows q 3 esc ps rows false
    if inv then change (fun s => s.setFlag q FLAG_INV)
    match requantStep o.chain with
    | some st => writeOut q { requantSink k st with unit := 3 } rows
    | none =>
      let sy := o.sy'
      writeOut q { k with unit := 3, arith := false }
        (rows.map (fun r => { r with cells := r.cells.map (Cell.map (fun v => if sy = .val 1 then v else (divN v sy).1)) }))

/-- The instruction computes row scales and tags: it produces a scale-linked tensor (05.R140). -/
def produces (tdd : TD) (chain : List ChainStep) (cvt : Bool) : Bool :=
  tdd.skind == 1 && fmtA (tdFmt tdd) && (endsRequant chain || (cvt && chain == []))

/-- Execution with the end-of-instruction effect of 05.R140, whether or not it ends with a fault. -/
def withEnd (q : SeqId) (producer : Bool) (x : ExecM Unit) : ExecM Unit := do
  let r ← attempt x
  if producer then bumpSeed q
  match r with
  | .ok _ => pure ()
  | .error e => throw e

end Sys2Proof.Machine
end

