-- ==== Sys2Proof/Machine/MillOps.lean ====
section
/-!
DEFINITION. The frame of a MILL instruction: its place in the Mill queue, its start with the stream slots it takes, its
end-of-instruction effects (07.R206, R208, R212, 05.R140), and the output record, QSTAT and rescale fields sampled at decode.
-/

namespace Sys2Proof.Machine

/-- A MILL instruction that has passed its checks joins the Mill queue, with what it is to do when it starts (07.R208). -/
def runMill (q : SeqId) (w : W128) (srcs dsts : List TD) (noop producer : Bool) (work : QueueWork) : ExecM Flow := do
  roomMill q
  let e ← newEntry q w
  putMill q { e with noop := noop, work := some work, word := w, srcs := srcs, dsts := dsts, producer := producer }
  return .next

/-- The writes to other devices requested after request number `n` and not yet acknowledged. -/
def State.acksSince (s : State) (n : Nat) : List Nat :=
  (s.fabric.asked.filter (fun a => a.write && decide (n < a.seq))).map (fun a => a.seq)

/-- A Mill or mover instruction starts: it takes its stream slots, and waits while it has none; then it runs, or is a no-op
(07.R212, 09.R264). `run` is what it does with its sources and destinations. -/
def startEntry (q : SeqId) (e : QEntry) (run : List TD → List TD → ExecM Unit) : ExecM QEntry := do
  let from_ := (← get).fabric.seq
  let taken ← if e.noop then pure none else takeSlots q (e.srcs ++ e.dsts)
  match taken with
  | none =>
    if e.producer then bumpSeed q
    return { e with noop := true, work := none }
  | some ts =>
    let ss := ts.take e.srcs.length
    let ds := ts.drop e.srcs.length
    withEnd q e.producer (run ss ds)
    holdSlots q (streamsOf ts)
    let (totals, s) := (← get).takeTotals q
    set s
    return { e with
      work := none, frees := streamsOf ss, hands := streamsOf ds, dst := resolved ds ++ chainDests (e.work.getD .prefetch).chain
      acks := s.acksSince from_, totals := totals }

/-- The QZ_ block of a sequencer. -/
def State.quant (s : State) (q : SeqId) : Quant :=
  match q with
  | .core c => s.cores[c].qz
  | .house => {}

/-- The finish operands of a word, sampled at decode: RSRC, RSN, QST and QEN as IMM places them, OREC when the instruction
carries one (05.R157, 08.R220, R221). -/
def finishOps (q : SeqId) (w : W128) (derived : Bool) (chain : List ChainStep) : ExecM FinishOps := do
  let o ← outRec q (bits (wImm w) 12 5)
  let s ← get
  let z := s.quant q
  let rs := getN z.rs (bits (wImm w) 8 3) (0, 0)
  return {
    derived := derived
    mult := rs.1, shift := rs.2
    sy := o.sy, zpy := o.zpy
    qen := bit (wImm w) 3
    qst := bits (wImm w) 4 4
    adapt := (getN z.qs (bits (wImm w) 4 4) {}).adapt
    satPolicy := z.satPolicy
    retryMax := z.retryMax
    chain := chain }

/-- The sink of a finish into a tensor. -/
def FinishOps.sink (o : FinishOps) (td : TD) (unit : Nat) : Sink :=
  { td := td, zp := o.zpy, unit := unit
    adapt := if o.qen then o.adapt else 0
    qst := if o.qen then some o.qst else none }

/-- A result written to a scalar register: FP32 in the low half (08.R243, R244). -/
def putFloat (q : SeqId) (rd : Nat) (x : Num) : ExecM Unit := putScalar q rd (fp32Bits (fp32 x))

/-- The invalid flag, when an operation was invalid (06.R168). -/
def flagInvalid (q : SeqId) (inv : Bool) : ExecM Unit := if inv then change (fun s => s.setFlag q FLAG_INV) else pure ()

end Sys2Proof.Machine
end

