-- ==== Sys2Proof/Machine/LoomCells.lean ====
section
/-!
DEFINITION. What an engine is programmed with: ply selection and write openings (02.R47, R48, R73), golden images (11.R310,
R312), the targets of its pairs (02.R45, R60, R61, R67), and the bundle's sums and side list (05.R143).
-/

namespace Sys2Proof.Machine

/-! ### Classes and modes -/

/-- Outputs of a ply's class (02.R44). -/
def classOuts (w8 : Bool) : Nat := if w8 then 256 else 512

/-! ### Outputs -/

/-- The outputs of the physical values by class (03.R87 step 1). -/
def combine (w8 : Bool) : List Int → List Int
  | a :: b :: rest => if w8 then (16 * a + b) :: combine w8 rest else a :: combine w8 (b :: rest)
  | [a] => if w8 then [] else [a]
  | [] => []

/-! ### Ply selection (02.R48) and openings (02.R73) -/

/-- The named engines select their plies; a change is counted once for the instruction that pays it. -/
def State.selectPlies (s : State) (c : Fin 64) (es : List (Nat × Nat)) : State :=
  let moved := es.any (fun e => (getN s.cores[c].engines e.1 {}).selected != e.2)
  let s := es.foldl (fun s e => s.updEngine c e.1 (fun g => { g with selected := e.2 })) s
  if moved then s.count c EV_LM_PLY_CHANGE 1 else s

/-- An instruction other than PROG and VERIFY names plies: write openings on them end (02.R73). -/
def State.endOpenings (s : State) (c : Fin 64) (es : List (Nat × Nat)) : State :=
  es.foldl (fun s e => s.updEngine c e.1 (fun g => { g with openings := g.openings.filter (fun o => o.ply != e.2) })) s

/-- The opening active on a ply. -/
def Engine.openingOf (g : Engine) (ply : Nat) : Option Opening := g.openings.find? (fun o => o.ply == ply)

/-- The start of an opening: PROG_COUNT, CLASS, CHK_EN and the check window (02.R65, R73), and the neutral trim of
12.R336. -/
def State.startOpening (s : State) (c : Fin 64) (e ply : Nat) (w8 : Bool) : State :=
  let q := plyNo c e ply
  let s := s.updEngine c e (fun g =>
    { g with openings := g.openings.filter (fun o => o.ply != ply) ++ [{ ply := ply, w8 := w8, rows := [] }] })
  (s.updPly q (fun r =>
    { r with w8 := w8, chkEn := 0, chkA := 80, chkB := 80, progCount := r.progCount + 1 })).neutralTrim q

/-- A PROG of rows to a ply: it joins the active opening, unless it changes the class or writes a row again (02.R73). -/
def State.joinOpening (s : State) (c : Fin 64) (e ply : Nat) (w8 : Bool) (rows : List Nat) : State :=
  match (getN s.cores[c].engines e {}).openingOf ply with
  | some o => if o.w8 = w8 ∧ !rows.any (fun r => o.rows.contains r) then s else s.startOpening c e ply w8
  | none => s.startOpening c e ply w8

/-- Rows written in the active opening of a ply. -/
def State.markRows (s : State) (c : Fin 64) (e ply : Nat) (rows : List Nat) : State :=
  s.updEngine c e (fun g =>
    { g with openings := g.openings.map (fun o => if o.ply = ply then { o with rows := o.rows ++ rows } else o) })

/-- Engines powered or switched off (01.R34). -/
def State.setActive (s : State) (c : Fin 64) (es : List Nat) (on : Bool) : State :=
  es.foldl (fun s e => s.updEngine c e (fun g => { g with active := on })) s

/-! ### Row images (11.R312) and check targets (02.R60, R61) -/

/-- A number limited to ±n. -/
def limitTo (n : Int) (v : Int) : Int := max (-n) (min n v)

/-- The 512 bytes of a row image as numbers. -/
def imageRow (b : List Byte) : List Int := b.map (fun x => signed 8 x.toNat)

/-- Byte `i` of an image limited to its range: c or a level in ±15, r in ±8. -/
def limitByte (w8 : Bool) (i : Nat) (v : Int) : Int := limitTo (if w8 && i % 2 == 1 then 8 else 15) v

/-- An image row within its limits, and the bytes that lay outside (21.R509 image clips). -/
def limitRow (w8 : Bool) (r : List Int) : List Int × Nat :=
  let m := r.mapIdx (fun i v => limitByte w8 i v)
  (m, ((r.zip m).filter (fun e => e.1 != e.2)).length)

/-- Weights of a limited image row in partial units (03.R88, 11.R312). -/
def imageWeights (w8 : Bool) (r : List Int) : List Int := combine w8 r

/-- Targets of the user pairs of a limited row: coarse and fine by 02.R45, each coarse pair read back exactly. -/
def userTargets (w8 : Bool) (r : List Int) : List Int :=
  if !w8 then r
  else (imageWeights true r).mapIdx (fun _ (v : Int) =>
      let c := limitTo 15 (rne ((v : Rat) / 16))
      [c, limitTo 15 (v - 16 * c)]) |>.flatten

/-- Sums of the four groups of 128 user targets. -/
def groupSums (t : List Int) : List Int := (List.range 4).map (fun g => ((t.drop (128 * g)).take 128).foldl (· + ·) 0)

/-- c_rg in 1/128 level (02.R60). -/
def checkTargets (t : List Int) : List Int := (groupSums t).map (fun g => 128 - g)

/-- Groups whose target leaves ±15 levels in some row (02.R61). -/
def unguarded (rows : List (List Int)) : List Bool :=
  (List.range 4).map (fun g => rows.any (fun t =>
    let c := (checkTargets t).getD g 0
    decide (c < -1920 ∨ 1920 < c)))

/-- Targets of a row in 1/128 level: the user pairs, and the check pairs or 0 (11.R313). -/
def rowTargets (off : List Bool) (w8 : Bool) (r : List Int) : List Int :=
  let t := userTargets w8 r
  t.map (fun v => 128 * v) ++ ((checkTargets t).zip off).map (fun e => if e.2 then 0 else e.1)

/-- The groups that an image leaves unguarded (02.R61). -/
def imageUnguarded (w8 : Bool) (img : List (List Int)) : List Bool := unguarded (img.map (userTargets w8))

/-- A pass over the pairs of an image row in the order of 11.R313, as their targets and readings in levels: `read col τ` is the
reading of a pair whose target is τ. The reading of a coarse pair, compensation taken out, sets the target of its fine
pair (02.R45). -/
def rowPass (comp : Rat) (off : List Bool) (w8 : Bool) (r : List Int) (read : Nat → Rat → Rat) : List (Rat × Rat) :=
  let user : List (Int × Rat) :=
    if !w8 then r.mapIdx (fun j v => (v, read j v))
    else (imageWeights true r).mapIdx (fun j (v : Int) =>
      let c := limitTo 15 (rne ((v : Rat) / 16))
      let m := read (2 * j) c
      let f := limitTo 15 (rne ((v : Rat) - 16 * (m / comp)))
      [(c, m), (f, read (2 * j + 1) f)]) |>.flatten
  let checks := ((checkTargets (user.map (fun p => p.1))).zip off).mapIdx (fun g e =>
    let τ : Rat := if e.2 then 0 else (e.1 : Rat) / 128
    (τ, read (512 + g) τ))
  user.map (fun p => ((p.1 : Rat), p.2)) ++ checks

/-- The tolerance of a pair in levels (02.R43). -/
def pairTolerance (w8 : Bool) (col : Nat) : Rat :=
  if 512 ≤ col then 1 / 4 else if w8 && col % 2 == 0 then 2 / 5 else 3 / 10

/-- The columns of a row whose reading leaves the compensated target by more than the tolerance (02.R43). -/
def pairsOut (comp : Rat) (w8 : Bool) (reads : List (Rat × Rat)) : List Nat :=
  (List.range reads.length).filter (fun col =>
    let p := reads.getD col (0, 0)
    let d := p.2 - comp * p.1
    decide (pairTolerance w8 col < (if d < 0 then -d else d)))

/-! ### Bundles (11.R310) -/

/-- The internal address of a byte of this device's Warehouse. -/
def State.warehouseAddr (s : State) (off : Nat) : Nat := s.shape.fabricId * 2 ^ 48 + off

/-- `n` numbers of `k` bytes each. -/
def words (k n : Nat) (b : List Byte) : List Nat := (List.range n).map (fun i => leAt b (k * i) k)

/-- s_w of a ply's outputs; 0 while its directory entry is not VALID (11.R311). -/
def plyScales (q : SeqId) (e : LoomEngine) (n : Nat) : ExecM (List Num) := do
  let s ← get
  if !e.dirValid then return List.replicate n (.val 0)
  let b ← readMem q 1 (s.warehouseAddr (e.bundle + 0x80000)) (4 * n)
  return (words 4 n b).map ofFp32

/-- The side list of a ply, empty while its entry is not VALID. -/
def plySides (q : SeqId) (e : LoomEngine) : ExecM (List SideEntry) := do
  let s ← get
  if !e.dirValid then return []
  readSide q 1 e.sideCount (s.warehouseAddr (e.bundle + 0x81000))

/-- Row `r` of the golden image, limited; zero while the entry is not VALID. -/
def goldenRow (q : SeqId) (e : LoomEngine) (r : Nat) : ExecM (List Int) := do
  let s ← get
  if !e.dirValid then return List.replicate 512 0
  let b ← readMem q 1 (s.warehouseAddr (e.bundle + 512 * r)) 512
  return (limitRow e.w8 (imageRow b)).1

/-- Rows `r` to `r + n - 1` of the golden image as weights in partial units. -/
def goldenRows (q : SeqId) (e : LoomEngine) : Nat → Nat → ExecM (List (List Int))
  | _, 0 => return []
  | r, n + 1 => do
    let row ← goldenRow q e r
    let rest ← goldenRows q e (r + 1) n
    return imageWeights e.w8 row :: rest

/-- A WEIGHT_ADD entry that the drain applies: of its kind, within the class, finite (04.R130). -/
def sideUsable (w8 : Bool) (e : SideEntry) : Bool :=
  e.kind == 1 && decide (e.col < classOuts w8) && (floatVal .bf16 e.value).finite

/-- The part of C[j] that the side list gives: u · Σ v in units 2^-8 (05.R143). -/
def sideColumn (w8 : Bool) (es : List SideEntry) (j : Nat) : Int :=
  rne (((es.filter (fun e => sideUsable w8 e && e.col == j)).foldl (fun a e => a + (floatVal .bf16 e.value).rat) 0)
    * (if w8 then 16 else 1) * 256)

/-- C[j] of a ply's outputs: the stored record, or at a digital position the exact sums (05.R143, 20.R498). -/
def plyColumnSums (q : SeqId) (e : LoomEngine) (n : Nat) : ExecM (List Int) := do
  let s ← get
  if !e.dirValid then return List.replicate n 0
  if e.digital then
    let rows ← goldenRows q e 0 1024
    let es ← plySides q e
    let sums := rows.foldl (fun acc r => addScaled 256 acc r) (List.replicate (classOuts e.w8) 0)
    return (sums.take n).mapIdx (fun j v => v + sideColumn e.w8 es j)
  else
    let b ← readMem q 1 (s.warehouseAddr (e.bundle + 0x80800)) (4 * n)
    return (words 4 n b).map (signed 32)

end Sys2Proof.Machine
end

