-- ==== Sys2Proof/Machine/LoomMv.lean ====
section
/-!
DEFINITION. The execution of LOOM.MVM and LOOM.MVMT after their grant (chapter 03): driven codes, windows, the drain with its
checks and side lists, the plane sum with re-execution and squash, zero points and the finish. Entry (t, j) of the plane
accumulator has the key 8192 t + j, entry j of the zero-point accumulator the key j.
-/

namespace Sys2Proof.Machine

/-! ### The shape of an instruction (08.R235) -/

/-- The instruction runs the array backwards. -/
def LoomInstr.transposed (i : LoomInstr) : Bool := i.kind == .mvmt
/-- Inputs that one engine takes. -/
def LoomInstr.inSpan (i : LoomInstr) : Nat := if i.transposed then classOuts i.w8 else 1024
/-- Outputs that one engine produces. -/
def LoomInstr.outSpan (i : LoomInstr) : Nat := if i.transposed then 1024 else classOuts i.w8
/-- First input and first output of engine `n`. -/
def LoomInstr.inBase (i : LoomInstr) (n : Nat) : Nat := i.inSpan * (n % i.ks)
def LoomInstr.outBase (i : LoomInstr) (n : Nat) : Nat := i.outSpan * (n / i.ks)
/-- Outputs of engine `n` that are not masked (03.R104). -/
def LoomInstr.outCount (i : LoomInstr) (n : Nat) : Nat := min i.outSpan (i.tdd.eff0 - i.outBase n)
/-- Engine `n` among the named ones. -/
def LoomInstr.engineAt (i : LoomInstr) (n : Nat) : LoomEngine := i.engines.getD n {}
/-- Engines that integrate, with their plies: those whose position is not digital (20.R498). -/
def LoomInstr.analogue (i : LoomInstr) : List (Nat × Nat) :=
  (i.engines.filter (fun e => !e.digital)).map (fun e => (e.engine, e.ply))
/-- The driven codes of engine `n`, given those of the whole input. -/
def LoomInstr.codesOf (i : LoomInstr) (n : Nat) (row : List Nat) : List Nat := (row.drop (i.inBase n)).take i.inSpan
/-- Engines that contribute to output j, ascending. -/
def LoomInstr.contributors (i : LoomInstr) (j : Nat) : List Nat :=
  (List.range i.engines.length).filter (fun n => n / i.ks == j / i.outSpan)

/-! ### The Loom queue -/

/-- The instruction of a core's Loom queue by serial number. -/
def State.loomOf (s : State) (c : Fin 64) (uid : Nat) : Option LoomInstr := s.cores[c].loomQ.find? (fun i => i.q.uid == uid)

/-- An instruction of the queue with `f` applied. -/
def State.updLoom (s : State) (c : Fin 64) (uid : Nat) (f : LoomInstr → LoomInstr) : State :=
  s.updCore c (fun k => { k with loomQ := k.loomQ.map (fun i => if i.q.uid = uid then f i else i) })

/-- The grant that an integrating instruction holds is released, and its engines stop integrating (03.R106). -/
def State.releaseLoom (s : State) (c : Fin 64) (i : LoomInstr) : State :=
  if i.kind = .prog then s.releaseProg c else s.releaseCap c

/-- A started instruction faults: it leaves its queue without its DONE increment, and its grant is released; a producer's
seed advances all the same (07.R217, 05.R140). -/
def State.failLoom (s : State) (c : Fin 64) (i : LoomInstr) (e : FaultInfo) : State :=
  let s := if i.phase = .integrating ∨ i.phase = .loading then
      (s.releaseLoom c i).setActive c (i.engines.map (fun g => g.engine)) false
    else s
  let s := s.updCore c (fun k =>
    { k with
      loomQ := k.loomQ.filter (fun x => x.q.uid != i.q.uid)
      seq := unwait [i.q.uid] k.seq
      qz := if i.producer then { k.qz with seed := (k.qz.seed + 1) % 256 } else k.qz })
  (s.flushTotals (.core c)).raiseFault (.core c) e i.q.opcode i.q.pc

/-- A part of an instruction's execution: its fault is the instruction's, unless the instruction is gone by then; a part that
waits for another device's answer changes nothing but that it asks (10.R275). -/
def State.runLoom (s : State) (c : Fin 64) (uid : Nat) (body : LoomInstr → ExecM Unit) : State :=
  match s.loomOf c uid with
  | none => s
  | some i =>
    match (body i).run s with
    | .ok _ t => t
    | .error e t =>
      if e.code = 0 then s.await (.core c) e
      else match t.loomOf c uid with
        | some i => t.failLoom c i e
        | none => t

/-- The instruction of the queue changed within an execution. -/
def setLoom (c : Fin 64) (uid : Nat) (f : LoomInstr → LoomInstr) : ExecM Unit := change (fun s => s.updLoom c uid f)

/-! ### Input (03.R80, R81, 05.R141, R142) -/

/-- x′ of a code. -/
def driven (p x : Nat) : Nat := (rne ((x : Rat) / ((2 ^ p : Nat) : Rat))).toNat

/-- The driven codes of row `t` of the input. -/
def readCodes (c : Fin 64) (i : LoomInstr) (t : Nat) : ExecM (List Nat) := do
  let f := tdFmt i.tda
  let b ← readMem (.core c) 1 (rowAddr i.tda t 0 0) (runBytes f i.tda.eff0)
  return (unpack f i.tda.eff0 b).map (driven i.psh)

/-- The codes of the first `n` vectors that have none yet are loaded. -/
def loadVectors (c : Fin 64) (uid : Nat) (i : LoomInstr) (n : Nat) : ExecM Unit := do
  let rows ← ((i.vecs.drop i.codes.length).take n).mapM (readCodes c i)
  setLoom c uid (fun i => { i with codes := i.codes ++ rows })

/-- Scale blocks of a linked input, up to the first that fails the comparison of 05.R141. -/
def inputBlocks (c : Fin 64) (t : TD) (tag0 : Option Nat) : List Nat → ExecM (List BlkInfo × Option FaultInfo)
  | [] => return ([], none)
  | b :: bs => do
    match ← attempt (readBlock (.core c) 1 t tag0 (32 * b) 0 0) with
    | .error e => if e.code = QZ_SKEW then return ([], some e) else throw e
    | .ok k =>
      let (ks, e) ← inputBlocks c t (some (tag0.getD k.tag)) bs
      return (k :: ks, e)

/-- The rows of the input that run, each with its scale and zero point, and the fault of its blocks with the first row of the
block that fails (05.R141). -/
def inputRows (c : Fin 64) (i : LoomInstr) : ExecM (List (Nat × Num × Nat) × Option (FaultInfo × Nat)) := do
  if i.tda.skind ≠ 1 then return ((List.range i.tda.eff1).map (fun t => (t, Num.val 1, 0)), none)
  else
    let (ks, e) ← inputBlocks c i.tda none (List.range (ceilDiv i.tda.eff1 32))
    let rows := (ks.mapIdx (fun b k => (List.range (min 32 (i.tda.eff1 - 32 * b))).filterMap (fun r =>
      if r < k.rows then some (32 * b + r, floatVal .bf16 (k.scales.getD r 0), k.zp) else none))).flatten
    return (rows, e.map (fun e => (e, 32 * ks.length)))

/-! ### Windows (03.R82, 02.R68) -/

/-- The sample that the tap takes at the end of a window of an MVM (02.R68): the reference column's integrated value. -/
def State.tapSample (s : State) (c : Fin 64) (i : LoomInstr) (row : List Nat) : State :=
  let t := s.cores[c].tap
  match (List.range i.engines.length).find? (fun n => (i.engineAt n).engine == t.engine && !(i.engineAt n).digital) with
  | none => s
  | some n =>
    if i.transposed then s
    else
      let g := i.engineAt n
      let xs := i.codesOf n row
      let (d, s) := s.drawMany 2
      let y := (s.plyView c g.engine g.ply d).tap xs t.col (d + 1)
      s.updCore c (fun k => { k with tap :=
        { k.tap with stale := false, sample :=
          { y := y, x := xs.foldl (· + ·) 0, engine := g.engine, ply := g.ply, a4 := i.a4, col := t.col } } })

/-! ### The drain (03.R87) -/

/-- What the drain of one engine finds. -/
structure DrainRead where
  /-- Outputs of the ply's class before side lists, those not masked. -/
  outs : List Int := []
  clips : Nat := 0
  misses : Nat := 0
  unchecked : Nat := 0
  passes : Nat := 1
  deriving DecidableEq, Repr

/-- |d_g| > tau_g of group g, from the converted user columns and the converted check column (02.R62). -/
def groupMiss (a4 : Bool) (r : PlyRec) (x : Nat) (user : List Int) (check : Int) (g : Nat) : Bool :=
  let sum : Int := ((user.drop (128 * g)).take 128).foldl (· + ·) 0
  let d : Rat := (sum : Rat) / 128 + (check : Rat) - (x : Rat)
  let tau : Rat := ((r.chkA : Rat) + (r.chkB : Rat) * (x : Rat) / (xFs a4 : Rat)) * (yFs a4 : Rat) / 10000
  decide (tau < (if d < 0 then -d else d))

/-- The conversions of an MVM in one engine: the user columns that are not masked and the check columns of the groups that
are evaluated (02.R63, 03.R104); `d` numbers the draws. -/
def State.drainMvm (s : State) (c : Fin 64) (i : LoomInstr) (n d : Nat) (xs : List Nat) : DrainRead :=
  let e := i.engineAt n
  let v := s.plyView c e.engine e.ply d
  let r := s.plyRec v.q
  let x := xs.foldl (· + ·) 0
  let cols := i.outCount n * (if i.w8 then 2 else 1)
  let m : ReadMode := { b := convB false i.a4, fullScale := yFs i.a4, x := x, draw := d + 1 }
  let user := v.convertColumns m xs (List.range cols)
  let on := (List.range 4).filter (fun g => r.chkEn.getLsbD g && decide (128 * (g + 1) ≤ cols))
  let cks := on.zip (v.convertColumns m xs (on.map (fun g => 512 + g)))
  { outs := combine i.w8 (user.map (fun v => v.1))
    clips := (user.filter (fun v => v.2)).length + (cks.filter (fun k => k.2.2)).length
    misses := (cks.filter (fun k => groupMiss i.a4 r x (user.map (fun v => v.1)) k.2.1 k.1)).length
    unchecked := 4 - on.length }

/-- The drive of the physical columns in pass `k` of an MVMT: each code on its column, or on the coarse or the fine column
of its weight (02.R69, R70). -/
def passDrive (w8 : Bool) (k : Nat) (xs : List Nat) : List Nat :=
  if w8 then xs.flatMap (fun x => if k = 0 then [x, 0] else [0, x]) else xs

/-- The conversions of an MVMT in one engine: its rows that are not masked, in one pass or two. -/
def State.drainMvmt (s : State) (c : Fin 64) (i : LoomInstr) (n d : Nat) (xs : List Nat) : DrainRead :=
  let e := i.engineAt n
  let v := s.plyView c e.engine e.ply d
  let t := { v.trim with col := [] }
  let m : Nat → ReadMode := fun k =>
    { b := convB true i.a4, fullScale := (if i.w8 then 256 else 512) * xMax i.a4 * 15, x := xs.foldl (· + ·) 0
      draw := d + 1 + 1024 * k }
  let pass := fun k => (List.range (i.outCount n)).map (fun r =>
    v.convert t (m k) r (rowSum v.cells.rows (passDrive i.w8 k xs) r) (v.row (passDrive i.w8 k xs) r))
  let p0 := pass 0
  let p1 := if i.w8 then pass 1 else []
  { outs := if i.w8 then (p0.zip p1).map (fun v => 16 * v.1.1 + v.2.1) else p0.map (fun v => v.1)
    clips := ((p0 ++ p1).filter (fun v => v.2)).length
    unchecked := 4
    passes := if i.w8 then 2 else 1 }

/-- A digital position's outputs from the golden image (20.R498). -/
def drainDigital (c : Fin 64) (i : LoomInstr) (n : Nat) (xs : List Nat) : ExecM DrainRead := do
  let rows ← goldenRows (.core c) (i.engineAt n) 0 1024
  let outs := if i.transposed then rows.map (fun r => (r.zip xs).foldl (fun (a : Int) e => a + e.1 * (e.2 : Int)) 0)
    else (rows.zip xs).foldl (fun acc e => addScaled (e.2 : Int) acc e.1) (List.replicate (classOuts i.w8) (0 : Int))
  return { outs := outs.take (i.outCount n), passes := 0 }

/-- One side-list addition into a 32-bit output, and its saturation (03.R89). -/
def sideAdd (o : Int × Bool) (x : Nat) (v : Num) (w8 : Bool) : Int × Bool :=
  let sum := o.1 + rne (v.rat * (x : Rat) * (if w8 then 16 else 1))
  if sum < -(2 ^ 31) then (-(2 ^ 31), true)
  else if 2 ^ 31 - 1 < sum then (2 ^ 31 - 1, true)
  else (sum, o.2)

/-- The outputs of an engine after its side list, in list order (03.R89). -/
def sideApply (i : LoomInstr) (xs : List Nat) (es : List SideEntry) (outs : List (Int × Bool)) : List (Int × Bool) :=
  es.foldl (fun os e =>
    let (input, out) := if i.transposed then (e.col, e.row) else (e.row, e.col)
    let x := xs.getD input 0
    if !sideUsable i.w8 e || x = 0 then os
    else updL os out (fun o => sideAdd o x (floatVal .bf16 e.value) i.w8)) outs

/-- Entries that the drain skips and counts, and whether one is not finite (04.R130). -/
def sideSkips (w8 : Bool) (es : List SideEntry) : Nat × Bool :=
  ((es.filter (fun e => !sideUsable w8 e)).length,
    es.any (fun e => e.kind == 1 && decide (e.col < classOuts w8) && !(floatVal .bf16 e.value).finite))

/-- The events of a drain (21.R509). -/
def State.countDrain (s : State) (c : Fin 64) (e : Nat) (r : DrainRead) : State :=
  let s := s.count c (evEngine 0 e) r.passes
  let s := s.count c (evEngine 1 e) r.misses
  let s := s.count c (evEngine 2 e) r.unchecked
  s.count c (evEngine 3 e) r.clips

/-- The checks of an integration that were found: counted, flagged, and each miss reported (02.R62, R63, 20.R486). -/
def State.foundChecks (s : State) (c : Fin 64) (e : Nat) (r : DrainRead) : State :=
  (List.range r.misses).foldl (fun s _ => (s.setFlag (.core c) FLAG_CHK).checkMiss c e) (s.countDrain c e r)

/-- What the conversions of vector `v` in engine `n`, whose position is analogue, find. -/
def State.drainRead (s : State) (c : Fin 64) (i : LoomInstr) (n v d : Nat) : DrainRead :=
  let xs := i.codesOf n (i.codes.getD v [])
  if i.transposed then s.drainMvmt c i n d xs else s.drainMvm c i n d xs

/-- The drain of vector `v` in engine `n` in the order of 03.R87: the conversions and their checks, the side list, and the
partial handed over. -/
def drainBody (c : Fin 64) (n v : Nat) (i : LoomInstr) : ExecM Unit := do
  let e := i.engineAt n
  let xs := i.codesOf n (i.codes.getD v [])
  let d ← freeMany 2049
  let s ← get
  let r ← if e.digital then drainDigital c i n xs else pure (s.drainRead c i n v d)
  change (fun s => s.foundChecks c e.engine r)
  if e.digital then change (fun s => s.count c EV_LM_DIGITAL_VEC 1)
  let es ← plySides (.core c) e
  let (skips, bad) := sideSkips i.w8 es
  let outs := sideApply i xs es (r.outs.map (fun v => (v, false)))
  setLoom c i.q.uid (fun i => { i with
    partials := i.partials ++ [{ vec := v, idx := n, outs := outs.map some }]
    drained := i.drained ++ [(n, v)] })
  change (fun s => s.count c (evEngine 4 e.engine) skips)
  if bad then change (fun s => s.setFlag (.core c) FLAG_INV)

/-- Vectors that engine `n` has drained. -/
def LoomInstr.drainedOf (i : LoomInstr) (n : Nat) : Nat := (i.drained.filter (fun d => d.1 == n)).length

/-- The engine's next drain: the first instruction that names it and has an ended window it has not drained. -/
def nextDrain (l : List LoomInstr) (e : Nat) : Option (Nat × Nat × Nat) :=
  l.findSome? (fun i =>
    if (i.kind == .mvm || i.kind == .mvmt) && (i.phase == .integrating || i.phase == .converting) then
      match (List.range i.engines.length).find? (fun n => (i.engineAt n).engine == e) with
      | some n => if i.drainedOf n < i.windows then some (i.q.uid, n, i.drainedOf n) else none
      | none => none
    else none)

/-! ### The plane sum (03.R93) -/

/-- A sum limited to `n` bits, and whether it was clamped. -/
def clampBits (n : Nat) (v : Int) : Int × Bool :=
  if v < -(2 ^ (n - 1)) then (-(2 ^ (n - 1)), true)
  else if 2 ^ (n - 1) - 1 < v then (2 ^ (n - 1) - 1, true)
  else (v, false)

/-- P20 promoted into ACC32 (03.R95). -/
def AccEntry.promote (e : AccEntry) : AccEntry :=
  let (a, k) := clampBits 32 (e.acc + e.p20)
  { acc := a, p20 := 0, nslice := 0, sat := e.sat || k }

/-- One K-slice added to an entry. -/
def AccEntry.add (e : AccEntry) (k20 : Bool) (v : Int × Bool) : AccEntry :=
  if k20 then
    let (p, k) := clampBits 20 (e.p20 + v.1)
    let e := { e with p20 := p, nslice := e.nslice + 1, sat := e.sat || v.2 || k }
    if e.nslice = 16 then e.promote else e
  else
    let (a, k) := clampBits 32 (e.acc + v.1)
    { e with acc := a, sat := e.sat || v.2 || k }

/-- The key of entry (t, j). -/
def planeKey (t j : Nat) : Nat := 8192 * t + j

/-- The outputs that an instruction touches in a vector. -/
def LoomInstr.outputs (i : LoomInstr) : List Nat :=
  (List.range i.tdd.eff0).filter (fun j => (i.contributors j) != [])

/-- The partial of output j that engine `n` handed over for vector `v`. -/
def LoomInstr.partialOf (i : LoomInstr) (v n j : Nat) : Option (Int × Bool) :=
  match i.partials.find? (fun p => p.vec == v && p.idx == n) with
  | some p => (p.outs[j - i.outBase n]?).join
  | none => none

/-- Entry (t, j) after the vector's partials, from its value before. -/
def LoomInstr.sumEntry (i : LoomInstr) (v j : Nat) (e : AccEntry) : AccEntry :=
  (i.contributors j).foldl (fun e n =>
    match i.partialOf v n j with
    | some p => e.add i.k20 p
    | none => e) e

/-- The sums of vector `v`, whose row is `t`; the entries' values before are kept for re-execution. -/
def sumVector (c : Fin 64) (i : LoomInstr) (v t : Nat) : ExecM Unit := do
  let s ← get
  let acc := s.cores[c].acc
  let first := i.retries = 0 ∧ !i.acc
  let old := i.outputs.map (fun j => (planeKey t j, if first then ({} : AccEntry) else NatMap.get {} acc (planeKey t j)))
  let new := i.outputs.map (fun j =>
    (planeKey t j, i.sumEntry v j (if first then {} else NatMap.get {} acc (planeKey t j))))
  change (fun s => s.updCore c (fun k => { k with acc := new.foldl (fun a e => NatMap.insert a e.1 e.2) k.acc }))
  setLoom c i.q.uid (fun i => { i with
    saved := i.saved ++ old, summed := i.summed + 1, partials := i.partials.filter (fun p => p.vec != v) })
  change (fun s => s.count c EV_LM_PLANE_SUMS 1)

/-- A free entry (03.R91, R100). -/
def freeEntry (n : Nat) : AccEntry :=
  let v := (Config.unspecified n).toNat
  { acc := signed 32 v, p20 := signed 20 (v / 2 ^ 32), nslice := v / 2 ^ 52 % 16, sat := bit v 63 }

/-- Entries become unspecified: each takes a free value. -/
def freePlane (c : Fin 64) (keys : List Nat) : ExecM Unit := do
  let d ← freeMany keys.length
  change (fun s => s.updCore c (fun k => { k with acc :=
    (keys.mapIdx (fun i key => (key, freeEntry (d + i)))).foldl (fun a e => NatMap.insert a e.1 e.2) k.acc }))

/-! ### Re-execution (03.R97 to R101) -/

/-- An entry halved (03.R98). -/
def AccEntry.halve (e : AccEntry) : AccEntry :=
  { e with acc := rne ((e.acc : Rat) / 2), p20 := rne ((e.p20 : Rat) / 2) }

/-- The instruction starts over: it holds no window, code or partial. -/
def LoomInstr.restart (i : LoomInstr) (p : LoomPhase) : LoomInstr :=
  { i with phase := p, windows := 0, codes := [], partials := [], drained := [], summed := 0, saved := [], vecs := [] }

/-- The integrations of an instruction that have ended and that no drain has looked at are checked all the same when it is
squashed (03.R102). -/
def State.checkEnded (s : State) (c : Fin 64) (i : LoomInstr) : State :=
  (List.range i.engines.length).foldl (fun s n =>
    if (i.engineAt n).digital then s
    else ((List.range i.windows).drop (i.drainedOf n)).foldl (fun s v =>
      let d := s.fresh
      let s := { s with fresh := d + 2049 }
      s.foundChecks c (i.engineAt n).engine (s.drainRead c i n v d)) s) s

/-- Instructions after the one that re-executes are squashed: what they integrated is discarded, their grant or request is
withdrawn, and they issue again (03.R101). -/
def State.squash (s : State) (c : Fin 64) (uid : Nat) : State :=
  let later := (s.cores[c].loomQ.dropWhile (fun i => i.q.uid != uid)).drop 1
  let hit := later.filter (fun i => i.phase == .waiting || i.phase == .loading || i.phase == .integrating || i.phase == .converting)
  let begun := (hit.filter (fun i => i.phase != .waiting)).length
  if hit = [] then s
  else
    let s := (hit.filter (fun i => i.kind == .mvm || i.kind == .mvmt)).foldl (fun s i => s.checkEnded c i) s
    let ids := hit.map (fun i => i.q.uid)
    let s := (s.count c EV_LM_SQUASH begun).count c EV_SLOT_WASTED begun
    let s := s.updCore c (fun k => { k with loomQ := k.loomQ.map (fun i => if ids.contains i.q.uid then i.restart .queued else i) })
    let s := (s.releaseCap c).releaseProg c
    let s := { s with
      capWait := s.capWait.filter (fun g => decide (g.core ≠ c.val))
      progWait := s.progWait.filter (fun g => decide (g.core ≠ c.val)) }
    s.setActive c (hit.flatMap (fun i => i.engines.map (fun e => e.engine))) false

/-- The instruction runs again with its entries restored and halved and PSHIFT one higher (03.R98); it must obtain its grant
anew. -/
def State.reexecute (s : State) (c : Fin 64) (i : LoomInstr) : State :=
  let s := s.squash c i.q.uid
  let s := s.updCore c (fun k => { k with
    acc := i.saved.foldl (fun a e => NatMap.insert a e.1 e.2.halve) k.acc, pshift := i.psh + 1 })
  (s.updLoom c i.q.uid (fun i => { i.restart .queued with psh := i.psh + 1, retries := i.retries + 1 })).count c EV_LM_REEXEC 1

/-! ### Zero points (05.R144, R145) -/

/-- The C[j] of every engine added to the columns touched, once per instruction; ACC = 0 begins from 0. A sum outside 48
bits has no stated value: it is free. -/
def addZeroSums (c : Fin 64) (i : LoomInstr) : ExecM Unit := do
  if i.transposed then return ()
  let sums ← i.engines.mapM (fun e => plyColumnSums (.core c) e (classOuts i.w8))
  let f ← free64
  change (fun s => s.updCore c (fun k =>
    { k with zsum := i.outputs.foldl (fun z j =>
        let old := if i.acc then NatMap.get 0 z j else 0
        let v := (i.contributors j).foldl (fun a n => a + (sums.getD n []).getD (j - i.outBase n) 0) old
        NatMap.put 0 z j (if (clampBits 48 v).2 then signed 48 f else v)) k.zsum }))

/-- acc_c, held in 40 bits and not clamped (05.R145): a value beyond them keeps its low 40 bits (DEDUCED, assumption 140). -/
def corrected (acc zsum : Int) (zp p : Nat) : Int :=
  signed 40 (unsigned 40 (acc - rne ((zp : Rat) * (zsum : Rat) * pow2 (-8 - (p : Int)))))

/-! ### The finish (03.R96, 05.R148 to R150, 06.R185) -/

/-- s_w[j] of every output, from the lowest engine that contributes to it; 1.0 in an MVMT chain (08.R236). -/
def weightScales (c : Fin 64) (i : LoomInstr) : ExecM (List Num) := do
  if i.transposed then return List.replicate i.tdd.eff0 (.val 1)
  let rows ← (List.range (i.engines.length / i.ks)).mapM (fun b => plyScales (.core c) (i.engineAt (b * i.ks)) i.outSpan)
  return rows.flatten

/-- w[r][j] · s_w[j] of the inputs for ESCAPE, by input (06.R188): weights of the golden images, in 1/16 level for W8. -/
def escapeWeights (c : Fin 64) (i : LoomInstr) (sw : List Num) : ExecM (List (List Num)) := do
  let blocks ← i.engines.mapM (fun e => goldenRows (.core c) e 0 1024)
  return (List.range i.tda.eff0).map (fun r => (List.range i.tdd.eff0).map (fun j =>
    let n := (j / i.outSpan) * i.ks + r / i.inSpan
    let (row, col) := if i.transposed then (j % i.outSpan, r % i.inSpan) else (r % i.inSpan, j % i.outSpan)
    let w := ((blocks.getD n []).getD row []).getD col 0
    (mulN (.val (w : Rat)) (sw.getD j (.val 1))).1))

/-- Output (t, j) before the chain; false when it cannot be rescaled (05.R149). -/
def planeCell (i : LoomInstr) (k : Core) (sx : Num) (zp : Nat) (sw : List Num) (t j : Nat) : Cell × Bool :=
  if !(i.contributors j != []) then (.none, true)
  else
    let e := NatMap.get {} k.acc (planeKey t j)
    let acc := if i.transposed then e.acc else corrected e.acc (NatMap.get 0 k.zsum j) zp i.psh
    match i.fin.pair sx (sw.getD j (.val 1)) (.val (if i.w8 then 1 / 16 else 1)) with
    | none => (.none, false)
    | some ms =>
      let r := Num.val (rescaled acc ms i.psh)
      (.val (if i.fin.chain = [] then r else fp32 r), true)

/-- The touched entries of a finishing chain promoted in K20 mode (03.R95, R96). -/
def promoteEntries (c : Fin 64) (i : LoomInstr) (keys : List Nat) : ExecM Unit :=
  if i.k20 then
    change (fun s => s.updCore c (fun k => { k with acc := keys.foldl (fun a key =>
      let e := NatMap.get {} a key
      if e.nslice = 0 then a else NatMap.insert a key e.promote) k.acc }))
  else pure ()

/-- The chain finishes: rescale, drain chain, destination. -/
def finishMv (c : Fin 64) (i : LoomInstr) (rows : List (Nat × Num × Nat)) (err : Option (FaultInfo × Nat)) : ExecM Unit := do
  promoteEntries c i (i.saved.map (fun e => e.1))
  let sw ← weightScales c i
  let ws ← if i.fin.chain.any (fun st => st.step == STEP_ESCAPE) then escapeWeights c i sw else pure []
  let s ← get
  let k := s.cores[c]
  let outs := rows.map (fun r =>
    let cs := (List.range i.tdd.eff0).map (fun j => planeCell i k r.2.1 r.2.2 sw r.1 j)
    (({ i1 := r.1, cells := cs.map (fun x => x.1) } : OutRow), cs.all (fun x => x.2)))
  let outs := cutBlocks 3 outs
  let tail := (err.map (fun e => ({ i1 := e.2, err := some e.1 } : OutRow))).toList
  let esc : EscapeOps :=
    { sx := (List.range i.tda.eff1).map (fun t => ((rows.find? (fun r => r.1 == t)).map (fun r => r.2.1)).getD (.val 1))
      kLen := i.tda.eff0, weights := ws }
  finish (.core c) i.fin (i.fin.sink i.tdd 3) esc (outs ++ (if outs.any (fun r => r.err.isSome) then [] else tail))

/-- The instruction has done its work: it waits for its completion, which adds its QSTAT totals (05.R151) and needs the answers
to its writes to other devices since request `from_` (07.R210). -/
def loomDone (c : Fin 64) (i : LoomInstr) (from_ : Nat) : ExecM Unit := do
  let (totals, s) := (← get).takeTotals (.core c)
  set s
  setLoom c i.q.uid (fun i => { i with
    phase := .done, saved := [], codes := [], partials := [], drained := []
    q := { i.q with totals := totals, acks := s.acksSince from_ } })

/-- The end of the last plane sum (03.R96 to R100): re-execution, a final saturation, or the chain's continuation or
finish. -/
def endMv (c : Fin 64) (i : LoomInstr) : ExecM Unit := do
  let s ← get
  let hit := i.saved.any (fun e => !e.2.sat && (NatMap.get {} s.cores[c].acc e.1).sat)
  let had := i.saved.any (fun e => e.2.sat)
  if hit && decide (i.retries < i.fin.retryMax) && decide (i.psh < 7) && !had then
    change (fun s => s.reexecute c i)
  else
    change (fun s => s.count c (if i.a4 then EV_LM_INSTR_A4 else EV_LM_INSTR_A8) 1)
    if hit then
      if !i.fin.satPolicy then
        freePlane c (i.saved.map (fun e => e.1))
        fail ACC_SAT_FINAL 1
      change (fun s => (s.setFlag (.core c) FLAG_SAT).count c EV_LM_FINAL_SAT 1)
    addZeroSums c i
    let (rows, err) ← inputRows c i
    if i.hold then
      match err with
      | some e => throw e.1
      | none => loomDone c i s.fabric.seq
    else
      finishMv c i rows err
      if i.producer then bumpSeed (.core c)
      loomDone c i s.fabric.seq

/-- The plane sum of the next vector of the oldest instruction that has one, when every engine has drained it; the entries
of an abandoned chain become unspecified before the first. -/
def planeSumBody (c : Fin 64) (i : LoomInstr) : ExecM Unit := do
  if i.summed = 0 ∧ i.abandons ∧ i.retries = 0 then
    let s ← get
    freePlane c (s.cores[c].acc.map (fun e => e.1))
  sumVector c i i.summed (i.vecs.getD i.summed 0)
  let s ← get
  match s.loomOf c i.q.uid with
  | some i => if i.summed = i.vecs.length then endMv c i else pure ()
  | none => pure ()

end Sys2Proof.Machine
end

