-- ==== Sys2Proof/Machine/LoomProg.lean ====
section
/-!
DEFINITION. The execution of LOOM.PROG, LOOM.VERIFY and LOOM.PROBE (08.R240, 11.R312, R313, 02.R72 to R75). Each selects its
ply when it starts and does its work when it completes.
-/

namespace Sys2Proof.Machine

/-! ### Start -/

/-- A ply that takes no further PROG (02.R75). -/
def PlyRec.worn (r : PlyRec) : Bool := r.retired || decide (100000 ≤ r.progCount)

/-- The rows that an instruction names. -/
def LoomInstr.rows (i : LoomInstr) : List Nat := (List.range i.nrow).map (fun k => i.row0 + k)

/-- The start of a PROG, VERIFY or PROBE: a PROG that names a worn ply stops before any pulse, and any other joins or begins an
opening; a PROBE ends one (02.R73, R75, 08.R238, R240). -/
def startOther (c : Fin 64) (i : LoomInstr) : ExecM Unit := do
  let es := i.engines.map (fun e => (e.engine, e.ply))
  match i.kind with
  | .prog => do
    let s ← get
    let worn := es.filter (fun e => (s.plyRec (plyNo c e.1 e.2)).worn)
    if worn != [] then
      change (fun s => worn.foldl (fun s e => s.updPly (plyNo c e.1 e.2) (fun r => { r with retired := true })) s)
      fail LOOM_PLY_WORN 1
    change (fun s => es.foldl (fun s e => s.joinOpening c e.1 e.2 i.w8 i.rows) s)
  | .probe => change (fun s => s.endOpenings c es)
  | _ => pure ()

/-! ### Row images -/

/-- The image rows of engine `n`, each limited, and the bytes outside their limits. -/
def readImage (c : Fin 64) (i : LoomInstr) (w8 : Bool) (n : Nat) : ExecM (List (List Int) × Nat) := do
  let rows ← (List.range i.nrow).mapM (fun k => readMem (.core c) 1 (rowAddr i.tda k n 0) i.tda.eff0)
  let ls := rows.map (fun b => limitRow w8 ((imageRow b ++ List.replicate 512 (0 : Int)).take 512))
  return (ls.map (fun l => l.1), (ls.map (fun l => l.2)).foldl (· + ·) 0)

/-- The number of the draw for column `col` of row `k` of engine `n`. -/
def pairDraw (n k col : Nat) : Nat := (n * 1024 + k) * 524 + col

/-- The group whose rows a VERIFY or PROG went over: column `col` belongs to group g, its check column among them. -/
def inGroup (g col : Nat) : Bool := if col < 512 then col / 128 == g else col - 512 == g

/-! ### PROG -/

/-- The cells that a PROG leaves in row `r`: the user and check pairs at what it aims at for their targets, and the reference
pairs at theirs (02.R67), each with where the iterations leave it; `d` is the first draw. -/
def PlyView.progCells (v : PlyView) (r d : Nat) (targets : List Rat) : List Int :=
  (targets ++ (List.range 8).map (fun k => (refLevel k r : Rat))).mapIdx (fun col τ =>
    v.aim r col τ + Config.programError (d + col))

/-- The pass of a PROG over row `r`: the readings that its last iterations make of what it leaves in the cells (11.R313). -/
def PlyView.progPass (v : PlyView) (off : List Bool) (w8 : Bool) (r d : Nat) (img : List Int) :
    List (Rat × Rat) :=
  rowPass (v.comp r) off w8 img (fun col τ => v.reading r col (d + col) (v.aim r col τ + Config.programError (d + col)))

/-- The pass of a verification over row `r`: the readings of its cells as they stand. -/
def PlyView.verifyPass (v : PlyView) (off : List Bool) (w8 : Bool) (r d : Nat) (img : List Int) :
    List (Rat × Rat) :=
  rowPass (v.comp r) off w8 img (fun col _ => v.reading r col (d + col) ((NatMap.get [] v.cells.rows r).getD col 0))

/-- The view of a ply whose row `rows` a PROG has just pulsed: their age begins now (02.R54). -/
def PlyView.pulsed (v : PlyView) (rows : List Nat) : PlyView :=
  { v with cells := { v.cells with prog := rows.foldl (fun m r => NatMap.insert m r (v.clock, v.temp)) v.cells.prog } }

/-- Rows of a ply take their cells at the end of a PROG: WRITTEN, PROG_AGE, and the rows of the opening (11.R313, 02.R73,
R76, 12.R330). -/
def State.pulseRows (s : State) (c : Fin 64) (e ply : Nat) (v : PlyView) (cells : List (Nat × List Int)) (rows : List Nat) :
    State :=
  let q := plyNo c e ply
  let p := (v.pulsed (cells.map (fun x => x.1))).cells
  let p : PlyCells := { p with rows := cells.foldl (fun m (x : Nat × List Int) => NatMap.insert m x.1 x.2) p.rows }
  let s := { s with cells := NatMap.put {} s.cells q p }
  let age := getN s.assay.age (clusterOf c).val 0
  let s := s.updPly q (fun r => { r with written := true, progAge := age / 2 ^ 20 % 2 ^ 32 })
  let s := s.updAssay q (fun a => { a with progClock := some age })
  s.markRows c e ply rows

/-- One ply programmed by image rows with their row numbers: the first `done` of them take their cells (11.R313), and every
row is then read; with how many pairs they leave outside tolerance (08.R239). Draws count from `d`. -/
def State.programRows (s : State) (c : Fin 64) (e ply d : Nat) (w8 : Bool) (off : List Bool) (done : Nat)
    (img : List (Nat × List Int)) : Nat × State :=
  let v := s.plyView c e ply d
  let hot := v.pulsed ((img.take done).map (fun x => x.1))
  let pass (k : Nat) (x : Nat × List Int) := hot.progPass off w8 x.1 (d + 1 + pairDraw 0 k 0) x.2
  let outs := img.mapIdx (fun k x =>
    if k < done then (pairsOut (hot.comp x.1) w8 (pass k x)).length
    else (pairsOut (v.comp x.1) w8 (v.verifyPass off w8 x.1 (d + 1 + pairDraw 0 k 0) x.2)).length)
  let cells := (img.take done).mapIdx (fun k x =>
    (x.1, hot.progCells x.1 (d + 1 + pairDraw 0 k 0) ((pass k x).map (fun p => p.1))))
  (outs.foldl (· + ·) 0, s.pulseRows c e ply v cells (img.map (fun x => x.1)))

/-- Draws that the pairs of `n` engines take. -/
def pairDraws (n : Nat) : Nat := n * (1 + pairDraw 1 0 0)

/-- A PROG's work (08.R240): rows in ascending order, pairs left outside tolerance counted in RD. While VPROG is low a
number of rows that no rule gives still takes its pulses (22.R528). -/
def progBody (c : Fin 64) (i : LoomInstr) : ExecM Unit := do
  let imgs ← (List.range i.engines.length).mapM (readImage c i i.w8)
  let d ← freeMany (pairDraws 16)
  let f ← free64
  let done := if i.vprogLow then f % (i.nrow + 1) else i.nrow
  let step := fun (a : Nat × State) (x : Nat × (List (List Int) × Nat)) =>
    let e := i.engineAt x.1
    let (out, s) := a.2.programRows c e.engine e.ply (d + pairDraws x.1) i.w8 (imageUnguarded i.w8 x.2.1) done
      (x.2.1.mapIdx (fun k r => (i.row0 + k, r)))
    (a.1 + out, s.count c (evEngine 5 e.engine) x.2.2)
  let s ← get
  let (out, s) := (imgs.mapIdx (fun n x => (n, x))).foldl step (0, s)
  set (s.count c EV_LM_PROG_ROWS (i.nrow * i.engines.length))
  putScalar (.core c) i.rd out

/-! ### VERIFY -/

/-- A verification of rows of a ply against image rows: each row's targets and readings, and its columns outside tolerance. -/
def State.verifyRows (s : State) (c : Fin 64) (e ply d : Nat) (w8 : Bool) (off : List Bool) (img : List (Nat × List Int)) :
    List (List (Rat × Rat) × List Nat) :=
  let v := s.plyView c e ply d
  img.mapIdx (fun k x =>
    let reads := v.verifyPass off w8 x.1 (d + 1 + pairDraw 0 k 0) x.2
    (reads, pairsOut (v.comp x.1) w8 reads))

/-- CHK_EN after a VERIFY of all rows: the groups confirmed in every row, unless 02.R61 applies (02.R74). `outs` gives the
columns of each row outside tolerance. -/
def confirmGroups (off : List Bool) (outs : List (List Nat)) (old : BitVec 4) : BitVec 4 :=
  (List.range 4).foldl (fun b g =>
    if outs.all (fun o => !o.any (inGroup g)) && !(off.getD g true) then b ||| BitVec.ofNat 4 (2 ^ g) else b) old

/-- A VERIFY's work (02.R74, 08.R240). -/
def verifyBody (c : Fin 64) (i : LoomInstr) : ExecM Unit := do
  let s ← get
  let cls := fun n => (s.plyRec (plyNo c (i.engineAt n).engine (i.engineAt n).ply)).w8
  let imgs ← (List.range i.engines.length).mapM (fun n => readImage c i (cls n) n)
  let d ← freeMany (pairDraws 16)
  let outs := imgs.mapIdx (fun n x =>
    let e := i.engineAt n
    (s.verifyRows c e.engine e.ply (d + pairDraws n) (cls n) (imageUnguarded (cls n) x.1)
      (x.1.mapIdx (fun k r => (i.row0 + k, r)))).map (fun r => r.2))
  let step := fun (s : State) (x : Nat × (List (List Int) × Nat)) =>
    let e := i.engineAt x.1
    let s := if i.nrow = 1024 then
        s.updPly (plyNo c e.engine e.ply) (fun r =>
          { r with chkEn := confirmGroups (imageUnguarded (cls x.1) x.2.1) (outs.getD x.1 []) r.chkEn })
      else s
    (s.count c (evEngine 5 e.engine) x.2.2).count c (evEngine 0 e.engine) i.nrow
  change (fun s => (imgs.mapIdx (fun n x => (n, x))).foldl step s)
  let bad := (List.range i.nrow).map (fun k => (i.row0 + k, outs.foldl (fun a o => a + (o.getD k []).length) 0))
  change (fun s => s.count c EV_LM_VERIFY_ROWS (i.nrow * i.engines.length))
  putScalar (.core c) i.rd (bad.foldl (fun a b => a + b.2) 0)
  putScalar (.core c) i.re (match bad.find? (fun b => b.2 != 0) with
    | some b => b.1
    | none => 0xFFFFFFFF)

/-! ### PROBE -/

/-- The outputs of a ply under code 255 in every row, summed over `rep` integrations, and the clips (08.R240); `d` numbers
the draws. -/
def State.probeSums (s : State) (c : Fin 64) (e ply rep d : Nat) : List Int × Nat :=
  let v := s.plyView c e ply d
  let reads := (List.range rep).map (fun k => v.convertColumns
    { b := convB false false, fullScale := yFs false, x := 255 * 1024, draw := d + 1024 * k + 1 }
    (List.replicate 1024 255) (List.range 512))
  (combine (s.plyRec v.q).w8 (reads.foldl (fun acc r => addScaled 1 acc (r.map (fun v => v.1))) (List.replicate 512 0)),
    reads.foldl (fun a r => a + (r.filter (fun v => v.2)).length) 0)

/-- A sum over `rep` integrations as PROBE gives it: the mean over 255, in units 2^-8, as INT32. -/
def probeValue (rep : Nat) (v : Int) : Int := (clampBits 32 (rne ((v : Rat) * 256 / (255 * (rep : Rat))))).1

/-- A PROBE's work: the column sums of each engine, a row each. -/
def probeBody (c : Fin 64) (i : LoomInstr) : ExecM Unit := do
  let d ← freeMany (16 * (256 * 1024 + 1))
  let s ← get
  let one (n : Nat) : ExecM Unit := do
    let e := i.engineAt n
    let (sums, clips) := s.probeSums c e.engine e.ply i.rep (d + (256 * 1024 + 1) * n)
    change (fun s => (s.count c (evEngine 0 e.engine) i.rep).count c (evEngine 3 e.engine) clips)
    writeMem (.core c) 1 (rowAddr i.tdd n 0 0)
      ((sums.take i.tdd.eff0).flatMap (fun v => leBytes 4 (unsigned 32 (probeValue i.rep v))))
  let _ ← (List.range i.engines.length).mapM one
  return ()

/-- The work of a PROG, VERIFY or PROBE. -/
def otherBody (c : Fin 64) (i : LoomInstr) : ExecM Unit :=
  match i.kind with
  | .prog => progBody c i
  | .verify => verifyBody c i
  | .probe => probeBody c i
  | _ => pure ()

end Sys2Proof.Machine
end

