-- ==== Sys2Proof/Machine/PlyProgram.lean ====
section
/-!
DEFINITION. Work that the loader, a re-anneal and a remap share: the steps of 11.R315 on one ply, its column sums (05.R143),
its check window (02.R65) and its initial trim (12.R337).
-/

namespace Sys2Proof.Machine

/-! ### Bundles (11.R310), read by the device itself -/

/-- Bytes of a bundle. -/
def bundleBytes : Nat := 0x83000

/-- The golden image of a bundle, within its limits. -/
def State.goldenOf (s : State) (bundle : Nat) (w8 : Bool) : List (List Int) :=
  (List.range 1024).map (fun r => (limitRow w8 (imageRow (s.peek (bundle + 512 * r) 512))).1)

/-- The side list of a bundle, of `n` entries. -/
def State.sidesOf (s : State) (bundle n : Nat) : List SideEntry :=
  (List.range n).map (fun i => parseSide (leNat (s.peek (bundle + 0x81000 + 8 * i) 8)))

/-- C[j] as a bundle holds it. -/
def State.sumsOf (s : State) (bundle : Nat) : List Int := (words 4 512 (s.peek (bundle + 0x80800) 2048)).map (signed 32)

/-- C[j] written to a bundle, from output 0 on, each as INT32; a sum beyond it saturates (DESIGN CHOICE, assumption 151). -/
def State.putSums (s : State) (bundle : Nat) (v : List Int) : State :=
  s.poke (bundle + 0x80800) (v.flatMap (fun x => leBytes 4 (unsigned 32 (clampBits 32 x).1)))

/-! ### The steps of R315 -/

/-- One PROG of rows of a ply by the device: it begins or joins an opening, and its pulses are applied, all of them unless
VPROG is low (22.R528). -/
def State.progRows (s : State) (c : Fin 64) (e ply : Nat) (w8 : Bool) (img : List (List Int)) (rows : List Nat) : State :=
  let s := (s.selectPlies c [(e, ply)]).joinOpening c e ply w8 rows
  let (d, s) := s.drawMany (pairDraws 1)
  let (f, s) := s.draw
  let done := if s.supply.vprogLow then (Config.unspecified f).toNat % (rows.length + 1) else rows.length
  let (_, s) := s.programRows c e ply d w8 (imageUnguarded w8 img) done (rows.map (fun r => (r, img.getD r [])))
  let s := { s with supply := { s.supply with vprogLow := false } }
  s.count c EV_LM_PROG_ROWS rows.length

/-- What a VERIFY of all rows found: the targets and readings of each row, and the columns outside tolerance. -/
structure Verified where
  reads : List (List (Rat × Rat))
  outs : List (List Nat)
  deriving DecidableEq, Repr

/-- Rows with a pair outside tolerance, and the number of such pairs. -/
def Verified.rows (v : Verified) : List Nat := (List.range v.outs.length).filter (fun k => v.outs.getD k [] != [])
def Verified.left (v : Verified) : Nat := v.outs.foldl (fun a o => a + o.length) 0

/-- One VERIFY of all rows by the device, against an image: CHK_EN (02.R74). -/
def State.verifyAll (s : State) (c : Fin 64) (e ply : Nat) (w8 : Bool) (img : List (List Int)) : Verified × State :=
  let (d, s) := s.drawMany (pairDraws 1)
  let off := imageUnguarded w8 img
  let rows := s.verifyRows c e ply d w8 off (img.mapIdx (fun r l => (r, l)))
  let outs := rows.map (fun r => r.2)
  let s := s.updPly (plyNo c e ply) (fun r => { r with chkEn := confirmGroups off outs r.chkEn })
  ({ reads := rows.map (fun r => r.1), outs := outs }, (s.count c (evEngine 0 e) 1024).count c EV_LM_VERIFY_ROWS 1024)

/-- Bytes of the golden image that lie outside their limits. -/
def State.goldenClips (s : State) (bundle : Nat) (w8 : Bool) : Nat :=
  (List.range 1024).foldl (fun a r => a + (limitRow w8 (imageRow (s.peek (bundle + 512 * r) 512))).2) 0

/-- What steps 1 to 4 of R315 found: the pairs left outside tolerance and the rows programmed again; or that the ply was worn
at a PROG, which took no pulse (02.R75). -/
structure ProgResult where
  out : Nat := 0
  again : Nat := 0
  worn : Bool := false
  deriving DecidableEq, Repr

/-- The ply may serve: at most 64 pairs are left outside tolerance (11.R315 step 4). -/
def ProgResult.ok (r : ProgResult) : Bool := !r.worn && decide (r.out ≤ 64)

/-- Steps 1 to 3 of R315 for an image. -/
def State.progImage (s : State) (q : Nat) (w8 : Bool) (img : List (List Int)) : ProgResult × State :=
  let c := plyCore q
  let e := plyEngine q
  let p := q % 8
  if (s.plyRec q).worn then ({ worn := true }, s.updPly q (fun r => { r with retired := true }))
  else
    let s := s.progRows c e p w8 img (List.range 1024)
    let (v, s) := s.verifyAll c e p w8 img
    let bad := v.rows
    if bad = [] then ({}, s)
    else if (s.plyRec q).worn then ({ worn := true }, s.updPly q (fun r => { r with retired := true }))
    else
      let (v, s) := (s.progRows c e p w8 img bad).verifyAll c e p w8 img
      ({ out := v.left, again := bad.length }, s)

/-- Steps 1 to 3 of R315 from the golden image of a bundle. -/
def State.progSteps (s : State) (q bundle : Nat) (w8 : Bool) : ProgResult × State :=
  let clips := if (s.plyRec q).worn then 0 else s.goldenClips bundle w8
  (s.count (plyCore q) (evEngine 5 (plyEngine q)) clips).progImage q w8 (s.goldenOf bundle w8)

/-! ### Column sums (05.R143) -/

/-- The tap samples an integration of the device's own PROBE as it does those of an MVM (12.R332). -/
def State.tapProbe (s : State) (c : Fin 64) (e ply : Nat) : State :=
  let t := s.cores[c].tap
  if t.engine ≠ e then s
  else
    let (d, s) := s.drawMany 2
    let y := (s.plyView c e ply d).tap (List.replicate 1024 255) t.col (d + 1)
    s.updCore c (fun k => { k with tap :=
      { k.tap with stale := false, sample := { y := y, x := 255 * 1024, engine := e, ply := ply, a4 := false, col := t.col } } })

/-- The tap samples every integration of a PROBE in turn; no conversion comes between two of them (assumption 148). -/
def State.tapProbes (s : State) (c : Fin 64) (e ply : Nat) : Nat → State
  | 0 => s
  | n + 1 => (s.tapProbe c e ply).tapProbes c e ply n

/-- A PROBE of one engine by the device: its sums over `rep` integrations (08.R240), which the tap samples. -/
def State.probeOwn (s : State) (c : Fin 64) (e ply rep : Nat) : List Int × State :=
  let s := ((s.selectPlies c [(e, ply)]).endOpenings c [(e, ply)]).tapProbes c e ply rep
  let (d, s) := s.drawMany (1024 * rep + 1)
  let (sums, clips) := s.probeSums c e ply rep d
  (sums.map (probeValue rep), (s.count c (evEngine 0 e) rep).count c (evEngine 3 e) clips)

/-- C[j] from a PROBE with REP 16 and the side list (05.R143). -/
def State.writeSums (s : State) (q bundle sideCount : Nat) (w8 : Bool) : State :=
  let (v, s) := s.probeOwn (plyCore q) (plyEngine q) (q % 8) 16
  let es := s.sidesOf bundle sideCount
  s.putSums bundle (v.mapIdx (fun j (x : Int) => x + sideColumn w8 es j))

/-! ### Check windows (02.R65) -/

/-- The least natural number whose square is at least `x`. -/
def ceilSqrt (x : Rat) : Nat :=
  let n := x.ceil.toNat
  let r := Nat.sqrt n
  if r * r = n then r else r + 1

/-- The variance, in units of Y_FS squared, of one column at [hot] under every row driven at x_max, from the sum of its
levels; with `drive` false, at X = 0 (02.R50, R51). e0 and e1 of the mode count in 0.01 %. -/
def columnVar (e0 e1 : Nat) (drive : Bool) (levels : Rat) : Rat :=
  let m := if drive then (levels + 1024 * (5 / 3)) / (1024 * (15 + 5 / 3)) else 0
  (13 / 10) ^ 2 * (((e0 : Rat) / 10000) ^ 2 + ((e1 : Rat) / 10000) ^ 2 * m)

/-- Sums over the rows of the magnitudes of the 516 targets, in levels. -/
def levelSums (cells : List (List Int)) : List Rat :=
  (cells.foldl (fun acc r => addScaled 1 acc (r.map (fun (v : Int) => (v.natAbs : Int)))) (List.replicate 516 0)).map
    (fun (v : Int) => (v : Rat) / 128)

/-- Seven times the largest predicted standard deviation of d_g of the four groups and the two widths, in 0.01 % of Y_FS,
rounded up. -/
def checkPrediction (levels : List Rat) (drive : Bool) : Nat :=
  let group (e0 e1 g : Nat) : Rat :=
    ((levels.drop (128 * g)).take 128).foldl (fun a l => a + columnVar e0 e1 drive l) 0 / 128 ^ 2
      + columnVar e0 e1 drive (levels.getD (512 + g) 0)
  let all := [(10, 48), (20, 45)].flatMap (fun m => (List.range 4).map (group m.1 m.2))
  ceilSqrt ((70000 : Rat) ^ 2 * all.foldl max 0)

/-- A number limited to 40 to 150. -/
def windowLimit (n : Nat) : Nat := max 40 (min 150 n)

/-- CHK_A and CHK_B of a golden image. -/
def plyWindow (w8 : Bool) (img : List (List Int)) : Nat × Nat :=
  let levels := levelSums (img.map (rowTargets (imageUnguarded w8 img) w8))
  let a := windowLimit (checkPrediction levels false)
  (a, windowLimit (checkPrediction levels true - a))

/-! ### The initial trim (12.R337) -/

/-- 32 unsigned bits of a number in units 2^-24, limited (12.R335). -/
def gain32 (x : Rat) : Nat := (max 0 (min (2 ^ 32 - 1) (rne (x * (2 ^ 24 : Nat))))).toNat

/-- NU_MEAN as an exponent (02.R76). -/
def PlyRec.nu (r : PlyRec) : Rat := (r.nuMean : Rat) / 10000

/-- The initial trim of a ply: its gain and raw gain by the ply's age and exponent, treated as a measurement; and its check
window. -/
def State.initialTrim (s : State) (q bundle : Nat) (w8 : Bool) : State :=
  let t := s.plyAge q
  let nu := (s.plyRec q).nu
  let g := powQ t (-nu)
  let temp := s.plyTemp q
  let (a, b) := plyWindow w8 (s.goldenOf bundle w8)
  let old := s.trimOf q
  let s := s.setTrim q { old with
    gain := gain32 (powQ t nu), tCal := temp, valid := true, ageM := fp32Of t, chkA := a, chkB := b, rawG := fp32Of g }
  let s := s.updPly q (fun r => { r with chkA := a, chkB := b })
  let p := (rne (g * 2 ^ 15)).toNat % 2 ^ 16
  s.updAssay q (fun x => { x with
    cal := { x.cal with gp := p, gn := p, off := 0, tM := temp, ageM := fp32Of t, valid := true }
    fullAge := fp32Of t, fullG := fp32Of g, fullT := temp, fullDone := false, firedFull := false })

end Sys2Proof.Machine
end

