-- ==== Sys2Proof/Machine/CalOps.lean ====
section
/-!
DEFINITION. What Assay computes (chapter 12): the fit of a light measurement (R331), the RF7 report (R332), the fits of a
full run (R333), the exponent (R334), the age estimate (R343), and the steps of an application (R338, R339).
-/

namespace Sys2Proof.Machine

/-! ### Light measurement (12.R331) -/

/-- A quotient; 0 where the divisor is 0, which no completed measurement has. -/
def ratio (a b : Rat) : Rat := if b = 0 then 0 else a / b

/-- A measured value in level steps times code steps. -/
def MeasSample.val (m : MeasSample) : Rat := (m.y : Rat) / 128

/-- Samples of one reference column. -/
def samplesOf (ss : List MeasSample) (col : Nat) : List MeasSample := ss.filter (fun m => m.col == col)

/-- The offset o per unit of X, from RF4. -/
def fitOffset (ss : List MeasSample) : Rat :=
  let l := samplesOf ss 4
  ratio (l.foldl (fun a m => a + m.val * (m.x : Rat)) 0) (l.foldl (fun a m => a + (m.x : Rat) * (m.x : Rat)) 0)

/-- The gain over the reference columns given. -/
def fitGain (ss : List MeasSample) (o : Rat) (cols : List Nat) : Rat :=
  let l := ss.filter (fun m => cols.contains m.col)
  let lev (m : MeasSample) : Rat := (refLevel m.col 0 : Rat)
  ratio (l.foldl (fun a m => a + lev m * (m.x : Rat) * (m.val - o * (m.x : Rat))) 0)
    (l.foldl (fun a m => a + lev m * lev m * (m.x : Rat) * (m.x : Rat)) 0)

/-- The result of a light measurement. -/
structure LightFit where
  /-- The ply's age at its last sample, in clock units. -/
  age : Nat
  o : Rat
  gp : Rat
  gn : Rat
  t : Int
  deriving DecidableEq, Repr

/-- The mean gain. -/
def LightFit.g (f : LightFit) : Rat := (f.gp + f.gn) / 2

/-- The fit of the accepted samples. -/
def fitLight (ss : List MeasSample) : LightFit :=
  let o := fitOffset ss
  { age := (ss.getLast?.map (fun m => m.age)).getD 0, o := o, gp := fitGain ss o [0, 1, 2, 3], gn := fitGain ss o [5, 6]
    t := rne (ratio (ss.foldl (fun a m => a + (m.t : Rat)) 0) (ss.length : Rat)) }

/-- Each of the seven columns holds enough samples. -/
def lightDone (ss : List MeasSample) (n : Nat) : Bool :=
  (List.range 7).all (fun c => decide (n ≤ (samplesOf ss c).length))

/-- The R50 bound on the variance of an RF7 sample under its drive, in squared level steps times code steps. -/
def rf7Bound (m : MeasSample) : Rat :=
  let e0 : Rat := (if m.a4 then 20 else 10) / 10000
  let e1 : Rat := (if m.a4 then 45 else 48) / 10000
  (yFs m.a4 : Rat) ^ 2 * (e0 ^ 2 + e1 ^ 2 * ((m.x : Rat) / (xFs m.a4 : Rat)))

/-- The variance of the RF7 samples exceeds twice the bound for their drive (12.R332). -/
def rf7Bad (ss : List MeasSample) : Bool :=
  let l := samplesOf ss 7
  let n : Rat := (l.length : Rat)
  let mean := ratio (l.foldl (fun a m => a + m.val) 0) n
  let var := ratio (l.foldl (fun a m => a + (m.val - mean) ^ 2) 0) n
  decide (2 * ratio (l.foldl (fun a m => a + rf7Bound m) 0) n < var)

/-! ### Age estimate (12.R343) -/

/-- The number that FP32 bits stand for. -/
def fp32Rat (w : W32) : Rat := (floatVal .fp32 w.toNat).rat

/-- The estimated age of a ply, in clock units, from a light measurement. -/
def State.estimatedAge (s : State) (q : Nat) (f : LightFit) : Nat :=
  let k := (s.assayPly q).cal
  let gm : Rat := ((k.gp + k.gn : Nat) : Rat) / 2 / 2 ^ 15
  let gc := ratio f.g (1 + 75 / 100000 * (((f.t - k.tM : Int) : Rat) / 100))
  let m := fp32Rat k.ageM
  (max 0 (rne (max m (m * powQ (ratio gm gc) (ratio 1 (s.plyRec q).nu)) * (2 ^ 20 : Nat)))).toNat

/-- A number inserted in a rising list, repeats kept. -/
def insertSorted (l : List Int) (n : Int) : List Int := l.filter (· ≤ n) ++ n :: l.filter (n < ·)

/-- The median: the middle number, or the mean of the middle two rounded to even (04.R115). -/
def median (l : List Int) : Int :=
  let r := l.foldl insertSorted []
  let n := r.length
  rne (((r.getD ((n - 1) / 2) 0 + r.getD (n / 2) 0 : Int) : Rat) / 2)

/-- The owned plies of a cluster. -/
def State.ownedIn (s : State) (k : Nat) : List Nat :=
  (s.pliesWhere (fun r => r.owner.isSome)).filter (fun q => (clusterOf (plyCore q)).val == k)

/-- A ply's clock value is set so that its age is its estimate. -/
def State.placeAge (s : State) (q : Nat) : State :=
  match (s.assayPly q).estimate with
  | none => s
  | some t =>
    let v := s.plyClock q - t
    (s.updAssay q (fun a => { a with progClock := some v, estimate := none })).updPly q (fun r =>
      { r with progAge := v / 2 ^ 20 % 2 ^ 32 })

/-- A cluster all of whose owned plies have their estimates advances its clock by the median gain, and every ply takes its
own age. -/
def State.settleAges (s : State) (k : Nat) : State :=
  let qs := s.ownedIn k
  if qs.any (fun q => (s.assayPly q).ageEstimate) then s
  else
    let ds := qs.filterMap (fun q => (s.assayPly q).estimate.map (fun (t : Nat) => (t : Int) - (s.ageUnits q : Int)))
    let adv (v : Nat) : Nat := min (2 ^ 64 - 1) ((v : Int) + median ds).toNat
    let s := { s with assay := { s.assay with age := updN s.assay.age k adv, ageLost := true } }
    qs.foldl (fun s q => s.placeAge q) s

/-- The estimate of a ply is made. -/
def State.estimateAge (s : State) (q : Nat) (f : LightFit) : State :=
  let t := s.estimatedAge q f
  (s.updAssay q (fun a => { a with ageEstimate := false, estimate := some t })).settleAges (clusterOf (plyCore q)).val

/-! ### Full run (12.R333, R334) -/

/-- a_c of a column; none where no row has a target. -/
def columnGain (l : List (Rat × Rat)) : Option Rat :=
  let n := l.foldl (fun a p => a + p.1 * p.1) 0
  if n = 0 then none else some (l.foldl (fun a p => a + p.1 * p.2) 0 / n)

/-- b_c of a column; none where fewer than 16 rows have the target 0. -/
def columnOffset (l : List (Rat × Rat)) : Option Rat :=
  let z := l.filter (fun p => p.1 == 0)
  if z.length < 16 then none else some (z.foldl (fun a p => a + p.2) 0 / (z.length : Rat))

/-- A trim limited to 8 signed bits, and whether it was. -/
def trimLimit (v : Int) : Int × Bool := (max (-128) (min 127 v), decide (v < -128 ∨ 127 < v))

/-- The new column trims of a ply from its readings, whether one is at its limit, and the mean square of the residuals. A
reading of one level is 255 partial units, and a unit of an offset trim 1/64 of a step of 512 (12.R335, 03.R84). -/
def fitColumns (old : NatMap (Int × Int)) (reads : List (List (Rat × Rat))) : NatMap (Int × Int) × Bool × Rat :=
  let gains := reads.map columnGain
  let user := (gains.take 512).filterMap id
  let mean := ratio (user.foldl (· + ·) 0) (user.length : Rat)
  let one (c : Nat) (l : List (Rat × Rat)) : (Nat × (Int × Int)) × Bool :=
    let o := NatMap.get (0, 0) old c
    let g := match columnGain l with
      | some a => trimLimit (rne (4096 * ((1 + (o.1 : Rat) / 4096) * ratio mean a - 1)))
      | none => (o.1, false)
    let b := match columnOffset l with
      | some b => trimLimit (o.2 - rne (b * 255 * 64 / (2 ^ 9 : Nat)))
      | none => (o.2, false)
    ((c, (g.1, b.1)), g.2 || b.2)
  let fits := reads.mapIdx one
  let res := reads.flatMap (fun l =>
    let a := (columnGain l).getD 0
    let b := (columnOffset l).getD 0
    (l.filter (fun p => decide (4 ≤ p.1 ∨ p.1 ≤ -4))).map (fun p => (p.2 - a * p.1 - b) / p.1))
  ((fits.map (fun f => f.1)).filter (fun e => decide (e.2 ≠ (0, 0))), fits.any (fun f => f.2),
    ratio (res.foldl (fun a r => a + r * r) 0) (res.length : Rat))

/-- The fit of a full run on one owned ply, from the targets and readings of its VERIFY by rows: its column trims wait for the light measurement that pairs with it. -/
def State.fullFit (s : State) (q : Nat) (rows : List (List (Rat × Rat))) : State :=
  let reads := (List.range 516).map (fun col => rows.map (fun r => r.getD col (0, 0)))
  let (cols, limit, sq) := fitColumns (s.trimOf q).col reads
  let spread := min 65535 (rneSqrt (sq * 10 ^ 8))
  s.updAssay q (fun a => { a with
    cols := some cols, limit := limit, cal := { a.cal with spread := spread }
    meas := if a.meas.active then a.meas else { active := true, t0 := s.plyTemp q } })

/-- NU_MEAN re-estimated at a full run from it and the previous one, where there is one, the ages lie far enough apart and the
temperatures near enough (12.R334). A raw gain that is not positive has no logarithm, and no estimate. -/
def State.nuEstimate (s : State) (q : Nat) (g t : W32) (temp : Int) : State :=
  let a := s.assayPly q
  let ages := lnQ (fp32Rat t) - lnQ (fp32Rat a.fullAge)
  let near := (temp - a.fullT).natAbs ≤ 25 * s.assay.tempDelta
  let nu := rne (withinRat (2 / 100) (5 / 100) (-(ratio (lnQ (fp32Rat g) - lnQ (fp32Rat a.fullG)) ages)) * 10000)
  let s := if a.fullDone ∧ 0 < fp32Rat g ∧ 0 < fp32Rat a.fullG ∧ (1 : Rat) / 2 ≤ ages ∧ near then
      s.updPly q (fun r => { r with nuMean := nu.toNat })
    else s
  s.updAssay q (fun a => { a with fullAge := t, fullG := g, fullT := temp, fullDone := true, firedFull := false })

/-! ### The end of a measurement -/

/-- The record that a completed measurement loads as pending (12.R335, R342), from the record in effect. -/
def newTrim (old : Trim) (f : LightFit) (age : W32) (cols : Option (NatMap (Int × Int))) (w : Nat × Nat) : Trim :=
  { old with
    gain := gain32 (ratio 1 f.g), offset := (clampBits 32 (rne (f.o * 2 ^ 20))).1
    tCal := (clampBits 16 f.t).1, valid := true, cols := old.cols || cols.isSome, ageM := age, chkA := w.1, chkB := w.2
    rawG := fp32Of f.g, col := cols.getD old.col }

/-- The check window that a measurement brings: from the ply's golden image, where it has one (02.R65). -/
def State.newWindow (s : State) (q : Nat) : Nat × Nat :=
  let d := s.dirOf q
  let r := s.plyRec q
  if d.valid then plyWindow r.w8 (s.goldenOf d.bundle r.w8) else (r.chkA, r.chkB)

/-- 16 bits of a number in units 2^-n, limited. -/
def unit16 (n : Nat) (x : Rat) : Nat := (max 0 (min 65535 (rne (x * 2 ^ n)))).toNat

/-- A light measurement completes (12.R331, R334, R342, R343, R348). -/
def State.finishLight (s : State) (q : Nat) : State :=
  let a := s.assayPly q
  let f := fitLight a.meas.samples
  let lag := s.ageUnits q - f.age
  let s := if a.ageEstimate then s.estimateAge q f else s
  let age := fp32Of (max (((s.ageUnits q - lag : Nat) : Rat) / (2 ^ 20 : Nat)) (1 / 1000))
  let full := a.cols.isSome
  let t := newTrim (s.trimOf q) f age a.cols (s.newWindow q)
  let s := s.updCore (plyCore q) (fun k => { k with pending := NatMap.insert k.pending q t })
  let s := if full then (s.nuEstimate q t.rawG age f.t).countPkg PE_CAL_FULL 1 else s
  let s := (s.updAssay q (fun a => { a with
    meas := {}, cols := none, fullRun := a.fullRun && !full, storeLost := a.storeLost && !full
    cal := { a.cal with
      gp := unit16 15 f.gp, gn := unit16 15 f.gn, off := (clampBits 16 (rne (f.o * 2 ^ 12))).1, tM := t.tCal, ageM := age
      valid := true, full := a.cal.full || full } })).countPkg PE_CAL_LIGHT 1
  let s := s.updAssay q (fun a => { a with cal := { a.cal with due := s.plyDue q } })
  s.rf7Report (plyCore q) (plyEngine q) (rf7Bad a.meas.samples)

/-! ### What is due (12.R344, R346) -/

/-- A LOAD or RESTORE of the device is programming. -/
def State.loadProgramming (s : State) : Bool :=
  match s.load with
  | some l => l.restore || l.admitted || !l.entries.isEmpty
  | none => false

/-- The ply is due and its slot keeps the bundle to anneal it from; a DORMANT slot does not. -/
def State.annealWanted (s : State) (q : Nat) : Bool :=
  let m := getN s.models ((s.plyRec q).owner.getD 0) {}
  s.assayActs && s.plyDue q && !s.loadProgramming && decide (m.st ≠ .dormant) && (s.dirOf q).valid

/-- Records of a core that an application makes effective: a re-anneal that is due comes before its ply's (12.R344). -/
def State.applicable (s : State) (c : Fin 64) : NatMap Trim := s.cores[c].pending.filter (fun e => !s.annealWanted e.1)

/-! ### Application (12.R338, R339) -/

/-- The gain that a record gives at the ply's age now. -/
def State.projectedGain (s : State) (q : Nat) (t : Trim) : Nat :=
  gain32 (ratio 1 (fp32Rat t.rawG * powQ (ratio (s.plyAge q) (fp32Rat t.ageM)) (-(s.plyRec q).nu)))

/-- Step 1 for one pending record. -/
def State.applyRecord (s : State) (e : Nat × Trim) : State := s.setTrim e.1 { e.2 with gain := s.projectedGain e.1 e.2 }

/-- Steps 2 and 4 for one ply: re-projected where its gain moves by more than 2^-10 of itself, its column sums rewritten
without a PROBE. A record that no measurement made has nothing to project. -/
def State.reproject (s : State) (q : Nat) : State :=
  let t := s.trimOf q
  let g := s.projectedGain q t
  let d : Int := (g : Int) - (t.gain : Int)
  if !t.valid || decide (fp32Rat t.rawG ≤ 0) || decide (d.natAbs * 1024 ≤ t.gain) then s
  else
    let s := s.setTrim q { t with gain := g }
    let e := s.dirOf q
    if !e.valid then s
    else
      let es := s.sidesOf e.bundle e.sideCount
      let w8 := (s.plyRec q).w8
      s.putSums e.bundle ((s.sumsOf e.bundle).mapIdx (fun j (v : Int) =>
        let side := sideColumn w8 es j
        rne (ratio (((v - side : Int) : Rat) * (g : Rat)) (t.gain : Rat)) + side))

/-- Step 3 for one ply. -/
def State.probeApplied (s : State) (q : Nat) : State :=
  let e := s.dirOf q
  if !e.valid then s
  else s.writeSums q e.bundle e.sideCount (s.plyRec q).w8

/-- Step 5 for one record. -/
def State.applyWindow (s : State) (e : Nat × Trim) : State :=
  s.updPly e.1 (fun r => { r with chkA := e.2.chkA, chkB := e.2.chkB })

/-- The plies of a core with a record, but those listed: only one whose trim record is VALID has a gain to project. -/
def State.otherPlies (s : State) (c : Fin 64) (but : List Nat) : List Nat :=
  ((s.pliesWhere (fun _ => true)).filter (fun q => plyCore q == c)).filter (fun q => !but.contains q)

/-- An application to a core; unless CAL.APPLY marked it, re-projection only. A ply whose re-anneal is due keeps its pending
record, which the re-anneal discards (12.R344). -/
def State.applyCore (s : State) (c : Fin 64) (marked : Bool) : State :=
  let new := if marked then s.applicable c else []
  let qs := new.map (fun e => e.1)
  let rest := s.cores[c].pending.filter (fun e => !qs.contains e.1)
  let s := new.foldl State.applyRecord s
  let s := if marked then s.updCore c (fun k => { k with pending := rest, applyMark := !rest.isEmpty }) else s
  let s := (s.otherPlies c qs).foldl State.reproject s
  let s := qs.foldl State.probeApplied s
  let s := new.foldl State.applyWindow s
  if marked then s.count c EV_CAL_APPLY 1 else s

/-- No job is dispatched to the core, its queues are empty, and the loader and remaps leave it alone (12.R339). -/
def State.coreIdle (s : State) (c : Fin 64) : Bool :=
  s.cores[c].job.isNone && !s.cores[c].service && s.inQueues (.core c) 63 == [] && s.cores[c].seq.syncBuf.isEmpty

/-- A marked core's application may start (01.R37, 12.R350). -/
def State.mayApply (s : State) (c : Fin 64) : Bool := s.cores[c].applyMark && s.assayActs && s.usable c

/-- An application may run on the core now: its PROBE needs no wait for a grant (12.R340). -/
def State.canApply (s : State) (c : Fin 64) : Bool :=
  s.mayApply c && decide (s.power.cur = 0) && ((s.applicable c).isEmpty || s.capFree c 16)

/-- What a job boundary applies on a core: the marked core's records, and re-projection, which Assay's hardware does by itself
(12.R339, 01.R37). -/
def State.boundaryCal (s : State) (c : Fin 64) : State :=
  if !s.assay.en then s else s.applyCore c (s.mayApply c)

/-- A boundary waits for the grants that its cores' applications need (12.R340, 15.R400). -/
def State.boundaryReady (s : State) (c : Fin 64) : Bool := !s.mayApply c || s.canApply c

/-! ### Re-anneal (12.R346) -/

/-- The ply may be re-annealed now. -/
def State.canAnneal (s : State) (q : Nat) : Bool :=
  s.annealWanted q && s.usable (plyCore q) && s.coreIdle (plyCore q) && s.progFree (plyCore q) 1

/-- The slot becomes FAILED, and its event is logged (20.R500). -/
def State.goldenLost (s : State) (mslot : Nat) : State :=
  ({ s with models := updN s.models mslot (fun m => { m with st := .failed }) } : State).logEvent FN_GOLDEN_LOST

/-- A re-anneal from the ply's golden image (12.R346, 20.R486, R500). -/
def State.anneal (s : State) (q : Nat) : State :=
  let e := s.dirOf q
  if s.poisoned e.bundle bundleBytes then s.goldenLost ((s.plyRec q).owner.getD 0)
  else
    let w8 := (s.plyRec q).w8
    let (r, s) := s.progSteps q e.bundle w8
    if !r.ok then s.fenceCore (plyCore q) FN_ANNEAL
    else
      let s := (s.writeSums q e.bundle e.sideCount w8).initialTrim q e.bundle w8
      (s.updAssay q (fun a => { a with
        limit := false, overdue := false, cal := { a.cal with due := false, spread := 0 } })).countPkg PE_ANNEALS 1

/-- A ply of a RESIDENT slot waits for its age estimate, or for the measurements that follow the loss of its calibration record,
before it serves a job (02.R57, 12.R342, 23.R541). -/
def State.plyWaits (s : State) (q : Nat) (a : AssayPly) : Bool :=
  (a.ageEstimate || a.storeLost) && (match (s.plyRec q).owner with
    | some m => decide ((getN s.models m {}).st = .resident)
    | none => false)

/-- Work of Assay's that comes before the core's next job (12.R339, R342, R346, 08 CAL.CORE, 02.R57). -/
def State.calDue (s : State) (c : Fin 64) : Bool :=
  let on := s.assay.plies.filter (fun e => plyCore e.1 == c)
  on.any (fun e => s.plyWaits e.1 e.2)
    || (s.assayActs && (s.cores[c].applyMark && (s.cores[c].pending.isEmpty || !(s.applicable c).isEmpty)
      || !s.cores[c].calCore.isEmpty || on.any (fun e => e.2.overdue && s.annealWanted e.1)))

end Sys2Proof.Machine
end

