-- ==== Sys2Proof/Machine/CalStore.lean ====
section
/-!
DEFINITION. The calibration store (12.R347 to R349): the bytes of its records, what a record written means, and what a
record that fails its check word leads to. Where the manual gives an entry no layout (the model table's), the order of its
fields is the model's choice (assumption 30).
-/

namespace Sys2Proof.Machine

/-! ### Which record holds what (12.R347) -/

/-- What a record holds: the header, two model table entries, 126 residency entries, 15 ply or calibration records from the
number given, or nothing. -/
inductive RecordKind where
  | header
  | model (slot : Nat)
  | residency (ply : Nat)
  | plies (ply : Nat)
  | cal (ply : Nat)
  | reserved
  deriving DecidableEq, Repr

/-- The content of record `n`. -/
def recordKind (n : Nat) : RecordKind :=
  if n < 2 then .header
  else if n < 18 then .model (2 * ((n - 2) % 8))
  else if n < 150 then .residency (126 * ((n - 18) % 66))
  else if n < 1244 then .plies (15 * ((n - 150) % 547))
  else if n < 1791 then .cal (15 * (n - 1244))
  else .reserved

/-- The other copy of a record held twice. -/
def otherCopy (n : Nat) : Option Nat :=
  if n < 2 then some (1 - n)
  else if n < 18 then some (if n < 10 then n + 8 else n - 8)
  else if n < 150 then some (if n < 84 then n + 66 else n - 66)
  else if n < 1244 then some (if n < 697 then n + 547 else n - 547)
  else none

/-! ### Bytes of entries -/

/-- A list cut or filled with zeros to `n` bytes. -/
def toLength (n : Nat) (b : List Byte) : List Byte := b.take n ++ List.replicate (n - b.length) (0 : Byte)

/-- Codes of STATE (11.R287), in the order of its table. -/
def stateCode : ModelState → Nat
  | .empty => 0
  | .resident => 1
  | .dormant => 2
  | .failed => 3

/-- STATE of a code. -/
def stateOf : Nat → ModelState
  | 1 => .resident
  | 2 => .dormant
  | 3 => .failed
  | _ => .empty

/-- A model table entry (11.R287): STATE, digest, MODEL_ID, MODEL_VER, GEN. -/
def modelBytes (m : Model) : List Byte :=
  toLength 126 (leBytes 1 (stateCode m.st) ++ toLength 64 m.digest ++ toLength 16 m.modelId ++ leBytes 4 m.ver
    ++ leBytes 4 m.gen.toNat)

/-- A residency entry (11.R287). -/
def residencyBytes (r : PlyRec) : List Byte :=
  leBytes 2 (match r.owner with
    | some m => 2 ^ 15 + m % 16 * 2 ^ 10 + r.unit % 64
    | none => 0)

/-- A ply record (02.R76). -/
def plyBytes (r : PlyRec) : List Byte :=
  leBytes 1 (b2n r.w8 + 2 * b2n r.written + 4 * b2n r.retired) ++ leBytes 1 r.chkEn.toNat ++ leBytes 1 r.chkA
    ++ leBytes 1 r.chkB ++ leBytes 4 r.progCount ++ leBytes 4 r.progAge ++ leBytes 2 r.nuMean ++ leBytes 2 0

/-- A calibration record (12.R347). -/
def calBytes (k : CalRec) : List Byte :=
  leBytes 2 k.gp ++ leBytes 2 k.gn ++ leBytes 2 (unsigned 16 k.off) ++ leBytes 2 (unsigned 16 k.tM)
    ++ leBytes 4 k.ageM.toNat ++ leBytes 2 k.spread ++ leBytes 1 (b2n k.valid + 2 * b2n k.full + 4 * b2n k.due)
    ++ leBytes 1 0

/-- The 252 payload bytes that the device itself writes to a record: what its state holds, and 0 elsewhere. -/
def State.livePayload (s : State) (n : Nat) : List Byte :=
  toLength 252 (match recordKind n with
    | .header =>
      leBytes 4 s.assay.hdrVersion ++ leBytes 4 s.assay.hdrEpoch.toNat
        ++ (s.assay.hdrAge.toList).flatMap (fun a => leBytes 8 a)
    | .model m => modelBytes (getN s.models m {}) ++ modelBytes (getN s.models (m + 1) {})
    | .residency q => (List.range 126).flatMap (fun i => residencyBytes (s.plyRec (q + i)))
    | .plies q => (List.range 15).flatMap (fun i => plyBytes (s.plyRec (q + i)))
    | .cal q => (List.range 15).flatMap (fun i => calBytes (s.assayPly (q + i)).cal)
    | .reserved => [])

/-- The 252 payload bytes that a record holds: those last written to it with CAL.REC, until the device rewrites it because what
its state gives the record has changed (12.R347, R348). -/
def State.recordPayload (s : State) (n : Nat) : List Byte :=
  let live := s.livePayload n
  match s.assay.stored.find? (fun e => e.1 == n) with
  | some (_, b, then_) => if then_ = live then b else live
  | none => live

/-- The check word of a record (12.R347). -/
def checkWord (n : Nat) (payload : List Byte) : List Byte := leBytes 4 (crc32c (leBytes 2 n ++ payload)).toNat

/-! ### A record written -/

/-- A ply record and its residency from their bytes. -/
def parsePly (r : PlyRec) (b : List Byte) : PlyRec :=
  { r with
    w8 := bit (leAt b 0 1) 0, written := bit (leAt b 0 1) 1, retired := bit (leAt b 0 1) 2
    chkEn := BitVec.ofNat 4 (leAt b 1 1), chkA := leAt b 2 1, chkB := leAt b 3 1, progCount := leAt b 4 4
    progAge := leAt b 8 4, nuMean := leAt b 12 2 }
def parseResidency (r : PlyRec) (v : Nat) : PlyRec :=
  { r with owner := if bit v 15 then some (bits v 10 4) else none, unit := bits v 0 6 }

/-- A model table entry from its bytes. -/
def parseModel (m : Model) (b : List Byte) : Model :=
  { m with
    st := stateOf (leAt b 0 1), digest := (b.drop 1).take 64, modelId := (b.drop 65).take 16, ver := leAt b 81 4
    gen := BitVec.ofNat 32 (leAt b 85 4) }

/-- A calibration record from its bytes. -/
def parseCal (b : List Byte) : CalRec :=
  { gp := leAt b 0 2, gn := leAt b 2 2, off := signed 16 (leAt b 4 2), tM := signed 16 (leAt b 6 2)
    ageM := BitVec.ofNat 32 (leAt b 8 4), spread := leAt b 12 2, valid := bit (leAt b 14 1) 0, full := bit (leAt b 14 1) 1
    due := bit (leAt b 14 1) 2 }

/-- The plies of a record, from `q` on. -/
def recordPlies (q n : Nat) : List Nat := ((List.range n).map (fun i => q + i)).filter (· < 8192)

/-- The content of a record taken from its payload. -/
def State.takeRecord (s : State) (n : Nat) (b : List Byte) : State :=
  match recordKind n with
  | .header =>
    { s with assay := { s.assay with
      hdrVersion := leAt b 0 2, hdrEpoch := BitVec.ofNat 32 (leAt b 4 4)
      hdrAge := Vector.ofFn (fun k : Fin 8 => leAt b (8 + 8 * k.val) 8) } }
  | .model m =>
    { s with models := updN (updN s.models m (fun x => parseModel x b)) (m + 1) (fun x => parseModel x (b.drop 126)) }
  | .residency q =>
    (recordPlies q 126).foldl (fun s p => s.updPly p (fun r => parseResidency r (leAt b (2 * (p - q)) 2))) s
  | .plies q => (recordPlies q 15).foldl (fun s p => s.updPly p (fun r => parsePly r (b.drop (16 * (p - q))))) s
  | .cal q =>
    (recordPlies q 15).foldl (fun s p => s.updAssay p (fun a => { a with cal := parseCal (b.drop (16 * (p - q))) })) s
  | .reserved => s

/-- Copy A of a record, or the record itself where it is single. -/
def firstCopy (n : Nat) : Nat :=
  match otherCopy n with
  | some m => min n m
  | none => n

/-- Record `n` holds payload `b` from now on. -/
def State.keepRecord (s : State) (n : Nat) (b : List Byte) : State :=
  { s with assay := { s.assay with stored := NatMap.put ([], []) s.assay.stored n (b, s.livePayload n) } }

/-- 256 bytes written to a record with CAL.REC. What copy A, or a single record, gives is what the device then works with; copy B
keeps its content until it is written in its turn (12.R348). A wrong check word leaves a record that fails its check. No write
starts while VDD_AON only holds for those under way (22.R527). -/
def State.writeRecord (s : State) (n : Nat) (b : List Byte) : State :=
  if s.supply.holding then s
  else
    let p := b.take 252
    let rest := s.assay.badRecords.filter (· ≠ n)
    if (b.drop 252).take 4 ≠ checkWord n p then
      ({ s with assay := { s.assay with badRecords := rest ++ [n] } } : State).keepRecord n p
    else
      let s : State := { s with assay := { s.assay with badRecords := rest } }
      if n ≠ firstCopy n then s.keepRecord n p
      else
        let other := (otherCopy n).getD n
        let old := s.recordPayload other
        ((s.takeRecord n p).keepRecord other old).keepRecord n p

/-! ### A record that fails (12.R349) -/

/-- The slots named become FAILED. -/
def State.failSlots (s : State) (p : Nat → Model → Bool) : State :=
  { s with models := s.models.mapFinIdx (fun i m _ => if p i m then { m with st := .failed } else m) }

/-- The STORE trigger of a ply: it serves no job before its light measurement and full run (12.R342). -/
def State.storeTrigger (s : State) (q : Nat) : State :=
  if (s.plyRec q).owner.isNone then s else (s.updAssay q (fun a => { a with storeLost := true })).trigger q true

/-- Both copies of the header are lost: the clocks take the largest PROG_AGE of their plies, AS_EPOCH restarts, and the header is
written anew (12.R348, R349). -/
def State.headerLost (s : State) : State :=
  let top (k : Nat) : Nat := ((s.plies.filter (fun e => (clusterOf (plyCore e.1)).val == k)).map (fun e => e.2.progAge)).foldl max 0
  let ages : Vector Nat 8 := Vector.ofFn (fun k => top k.val * 2 ^ 20)
  ({ s with assay := { s.assay with
    age := ages, frac := Vector.replicate 8 0, epoch := 0, hdrEpoch := 0, hdrAge := ages } } : State).powerTrigger

/-- Both copies of a residency record are lost. -/
def State.residencyLost (s : State) (qs : List Nat) : State :=
  let shown := ((qs.map (fun q => s.dirOf q)).filter (fun d => d.valid)).map (fun d => d.slot)
  let s := s.failSlots (fun i m => shown.contains i || decide (m.st = .dormant))
  qs.foldl (fun s q => s.updPly q (fun r => { r with owner := none })) s

/-- Record `n` is written again from its other copy: its check word is right, and what it gives is what the device works with. -/
def State.rebuildRecord (s : State) (n m : Nat) : State :=
  let p := s.recordPayload m
  let s := { s with assay := { s.assay with badRecords := s.assay.badRecords.filter (· ≠ n) } }
  ((s.takeRecord m p).keepRecord m p).keepRecord n p

/-- What the loss of a record leads to; a record with a good second copy is rebuilt from it (12.R349). -/
def State.recordLost (s : State) (n : Nat) : State :=
  let s := { s with assay := { s.assay with storeBad := true } }
  match otherCopy n with
  | some m =>
    if !s.assay.badRecords.contains m then s.rebuildRecord n m
    else
      let s := { s with assay := { s.assay with badRecords := s.assay.badRecords.filter (fun r => r ≠ n ∧ r ≠ m) } }
      match recordKind n with
      | .header => s.headerLost
      | .model m => s.failSlots (fun i _ => i == m || i == m + 1)
      | .residency q => s.residencyLost (recordPlies q 126)
      | .plies q => (recordPlies q 15).foldl (fun s p => s.updPly p (fun r => { r with retired := true, chkEn := 0 })) s
      | _ => s
  | none =>
    let s := { s with assay := { s.assay with badRecords := s.assay.badRecords.filter (· ≠ n) } }
    match recordKind n with
    | .cal q => (recordPlies q 15).foldl State.storeTrigger s
    | _ => s

/-- A record that fails its check when house firmware reads the store at power-up: CAL_STORE_CHECK stands in the house
sequencer's fault registers, and the firmware goes on with the record's outcome (12.R349, assumption 149). -/
def State.recordBad (s : State) (n : Nat) : State :=
  if !s.assay.badRecords.contains n then s
  else
    let (d, s) := s.draw
    let s := s.raiseFault .house { code := CAL_STORE_CHECK } 0xC050 ((Config.unspecified d).toNat % 2 ^ 16)
    (s.updSeqr .house (fun r => { r with faulted := false })).recordLost n

/-- A record read: its 256 bytes, or none where it fails its check. -/
def State.readRecord (s : State) (n : Nat) : Option (List Byte) :=
  if s.assay.badRecords.contains n then none
  else some (s.recordPayload n ++ checkWord n (s.recordPayload n))

end Sys2Proof.Machine
end

