-- ==== Sys2Proof/Machine/HostPort.lean ====
section
/-!
DEFINITION. The commands of the LPDDR target (14.R364 to R368, R389 to R391, 22.R531) and the host's writes (14.R373).
-/

namespace Sys2Proof.Machine

/-- Host commands act: the port answers its balls. -/
def State.whenOn (s : State) (f : State → State) : State := if s.portOn then f s else s

/-- Host writes act: not while a scrub runs (17.R451). -/
def State.whenTaken (s : State) (f : State → State) : State := if s.portOn && s.chouse.scrub.isNone then f s else s

/-- Some channel is in self-refresh. -/
def Port.selfRefresh (p : Port) : Bool := p.chanA.selfRefresh || p.chanB.selfRefresh

/-- The end of the host-idle state that a self-refresh exit makes (14.R390, R391, 16.R419). -/
def State.leaveSelfRefresh (s : State) (ch : Chan) : State :=
  if !(s.chan ch).selfRefresh then s
  else
    let s := s.updChan ch (fun k => { k with selfRefresh := false })
    let s := { s with port := { s.port with idle := false, idleNext := false } }
    if 3 ≤ s.power.depth then s.wakeEvent false else s

/-- A training procedure is done (14.R366). -/
def State.train (s : State) (ch : Chan) (i : Nat) : State :=
  s.updChan ch (fun k => { k with trained := k.trained ||| BitVec.ofNat 5 (2 ^ i) })

/-! ### LPDDR commands -/

/-- LPDDR_ACTIVATE (14.R369). -/
def execLpddrActivate (ch : Chan) (bank : Fin 16) (row : Fin 65536) (s : State) : Out :=
  .next (s.whenOn (fun s => s.updChan ch (fun k => { k with rows := k.rows.set bank (some row.val) })))

/-- LPDDR_REF: counted; it ends the idleness that HOST_LOST began, and in G3 or G4 it then wakes the device (14.R389, R391,
16.R419). -/
def execLpddrRef (_ch : Chan) (s : State) : Out :=
  .next (s.whenOn (fun s =>
    let s := { s with port := { s.port with refCnt := s.port.refCnt + 1 } }
    if s.port.selfRefresh then s
    else
      let s := { s with port := { s.port with idle := false } }
      if s.port.hostLost ∧ 3 ≤ s.power.depth then s.wakeEvent false else s))

/-- LPDDR_RFM: accepted, no effect (14.R364). -/
def execLpddrRfm (_ch : Chan) (s : State) : Out := .next s

/-- SELF_REFRESH_ENTRY: an ordering point, and the host is idle (14.R375, R390); no bank keeps a row active
(assumption 144). -/
def execSelfRefreshEntry (ch : Chan) (s : State) : Out :=
  .next (s.whenOn (fun s =>
    let s := s.updChan ch (fun k => { k with selfRefresh := true, rows := Vector.replicate 16 none })
    let s := if s.chouse.scrub.isSome then s else s.orderPoint
    { s with port := { s.port with idle := s.port.idle || !s.port.pointWaits, idleNext := s.port.pointWaits } }))

/-- SELF_REFRESH_EXIT (14.R390). -/
def execSelfRefreshExit (ch : Chan) (s : State) : Out := .next (s.whenOn (fun s => s.leaveSelfRefresh ch))

/-- POWER_DOWN_ENTRY: accepted; nothing of the device changes (14.R364). -/
def execPowerDownEntry (ch : Chan) (s : State) : Out :=
  .next (s.whenOn (fun s => s.updChan ch (fun k => { k with powerDown := true })))

/-- POWER_DOWN_EXIT (14.R364). -/
def execPowerDownExit (ch : Chan) (s : State) : Out :=
  .next (s.whenOn (fun s => s.updChan ch (fun k => { k with powerDown := false })))

/-- Mode registers whose fields are read only (14.R367). -/
def mrReadOnly (ma : Nat) : Bool := decide (4 ≤ ma ∧ ma ≤ 8)

/-- The writable bits of a mode register: those the standard makes writable, FSP-WR and the ZQ bits among them (assumptions 142,
143). -/
def mrWrites (ma : Nat) : Byte := Config.mrWritable ma ||| (if ma = 0x10 ∨ ma = 0x1C then 3 else 0)

/-- What a register without set points reads as: its writable bits as written, the others as the standard resets them. -/
def mrHeld (k : ChanState) (key ma : Nat) : Byte :=
  (NatMap.get (Config.mrReset ma) k.mr key &&& mrWrites ma) ||| (Config.mrReset ma &&& ~~~mrWrites ma)

/-- Where a mode register is held: one with a copy for each frequency set point at the copy that FSP-WR, MA 0x10 bits [1:0],
selects (14.R364, assumption 142). -/
def mrKey (k : ChanState) (ma : Nat) : Nat :=
  if Config.mrPerPoint ma then 128 * ((mrHeld k 0x10 0x10).toNat % 4) + ma else ma

/-- MODE_REGISTER_WRITE: stored as written, features that are not supported included (14.R365, R367). A write of MA 0x1C that
sets its bit 0 resets ZQ calibration (14.R366, assumption 143). -/
def execModeRegisterWrite (ch : Chan) (ma : Fin 128) (v : Byte) (s : State) : Out :=
  .next (s.whenOn (fun s =>
    if mrReadOnly ma.val then s
    else s.updChan ch (fun k => { k with
      mr := NatMap.insert k.mr (mrKey k ma.val) v
      trained := if ma.val = 0x1C ∧ v.getLsbD 0 then k.trained &&& 0x0F else k.trained })))

/-- A mode register as it reads: the vendor values of 14.R367, what was written, or the standard's reset value. -/
def State.mrValue (s : State) (ch : Chan) (ma : Nat) : Byte :=
  match ma with
  | 4 => Config.mrRefreshCode.setWidth 8
  | 5 => 0x6B
  | 6 => s.fuses.rev
  | 7 => 0
  | 8 => Config.mrDensityCode
  | _ => mrHeld (s.chan ch) (mrKey (s.chan ch) ma) ma

/-- MODE_REGISTER_READ (14.R367). -/
def execModeRegisterRead (ch : Chan) (ma : Fin 128) (s : State) : Out :=
  .next (s.whenOn (fun s => { s with latch := { s.latch with mrr := s.mrValue ch ma.val } }))

/-- What the channel answers to a training whose pattern, or whose pins, no operand gives: free bytes (14.R366). -/
def State.feedback (s : State) : State :=
  let (d, s) := s.draw
  { s with latch := { s.latch with bytes := [Config.unspecifiedByte d 0, Config.unspecifiedByte d 1] } }

/-- COMMAND_BUS_TRAINING: the pattern received is fed back (14.R366). -/
def execCommandBusTraining (ch : Chan) (s : State) : Out := .next (s.whenOn (fun s => (s.train ch 0).feedback))

/-- WCK2CK_LEVELING: the phase found is fed back (14.R366). -/
def execWck2ckLeveling (ch : Chan) (s : State) : Out := .next (s.whenOn (fun s => (s.train ch 1).feedback))

/-- READ_DQ_CALIBRATION: the standard's pattern is returned (14.R366). -/
def execReadDqCalibration (ch : Chan) (s : State) : Out :=
  .next (s.whenOn (fun s =>
    let s := s.train ch 2
    { s with latch := { s.latch with bytes := Config.readDqPattern (s.chan ch).mr } }))

/-- WRITE_DQ_TRAINING: what was written into the WCK-DQ FIFO is read back (14.R366). -/
def execWriteDqTraining (ch : Chan) (fifo : List Byte) (s : State) : Out :=
  .next (s.whenOn (fun s =>
    let s := (s.updChan ch (fun k => { k with fifo := fifo })).train ch 3
    { s with latch := { s.latch with bytes := fifo } }))

/-- ZQ_CALIBRATION: nothing is calibrated while ZQ stop, MA 0x1C bit 1, is set (14.R366, assumption 143). -/
def execZqCalibration (ch : Chan) (s : State) : Out :=
  .next (s.whenOn (fun s => if (s.mrValue ch 0x1C).getLsbD 1 then s else s.train ch 4))

/-- HP_RESET_N: the channel's mode registers and training state return to their reset values; a self-refresh ends
(22.R531). -/
def execHpResetN (ch : Chan) (s : State) : Out :=
  .next (s.whenOn (fun s =>
    let s := s.leaveSelfRefresh ch
    s.updChan ch (fun k => { k with mr := [], trained := 0, fifo := [], rows := Vector.replicate 16 none })))

/-! ### Writes -/

/-- A write burst at a host offset goes on with `f`; without an active row it sets PROTO (14.R394). -/
def State.hostWrite (s : State) (a : HostAddr) (data : Burst) (f : Nat → State → State) : Out :=
  if !burstOk a data.length then .refused .illFormed
  else .next (s.whenTaken (fun s =>
    match s.hostOff a with
    | none => s.setProto
    | some off => f off s))

/-- SQ_RING_WRITE: stored in the port buffer with its byte enables (14.R373). -/
def execSqRingWrite (a : HostAddr) (data : Burst) (s : State) : Out :=
  s.hostWrite a data (fun off s =>
    if s.target a.ch off = .subRing then s.pokeMasked (portKey (off - 0x10000)) data else s)

/-- APERTURE_WRITE (14.R373, 17.R444). -/
def execApertureWrite (a : HostAddr) (data : Burst) (s : State) : Out :=
  s.hostWrite a data (fun off s => if s.target a.ch off = .aperture then s.writeAperture a.ch off data else s)

/-- CTRL_REG_WRITE (00.R11, 14.R373). -/
def execCtrlRegWrite (a : HostAddr) (data : Burst) (s : State) : Out :=
  s.hostWrite a data (fun off s => if s.target a.ch off = .control then s.writeControl off data else s)

/-- UNMAPPED_WRITE: ignored, and PROTO is set (14.R373). -/
def execUnmappedWrite (a : HostAddr) (data : Burst) (s : State) : Out :=
  s.hostWrite a data (fun off s =>
    if s.target a.ch off = .unmapped ∨ s.target a.ch off = .compRing then s.setProto else s)

/-! ### Register writes by name (14.R394) -/

/-- HP_DB_SQ_WRITE (14.R375, R382). -/
def execHpDbSqWrite (v : W32) (s : State) : Out := .next (s.whenTaken (fun s => s.doorbell v.toNat))

/-- STAGE_REQUEST: HP_DB_STAGE with OP STAGE (14.R378). -/
def execStageRequest (v : W64) (s : State) : Out := .next (s.whenTaken (fun s => s.stageBell false v.toNat))

/-- UNSTAGE_REQUEST: HP_DB_STAGE with OP UNSTAGE (14.R378). -/
def execUnstageRequest (v : W64) (s : State) : Out := .next (s.whenTaken (fun s => s.stageBell true v.toNat))

/-- HP_RING_CFG_WRITE (14.R381). -/
def execHpRingCfgWrite (v : W32) (s : State) : Out := .next (s.whenTaken (fun s => s.ringCfg v.toNat))

/-- HP_IRQ_STATUS_CLEAR (14.R388). -/
def execHpIrqStatusClear (v : W32) (s : State) : Out := .next (s.whenTaken (fun s => s.irqClear v.toNat))

/-- HP_IRQ_ENABLE_WRITE (14.R388). -/
def execHpIrqEnableWrite (v : W32) (s : State) : Out := .next (s.whenTaken (fun s => s.irqEnableSet v.toNat))

/-- HP_CQ_HEAD_WRITE (14.R387, R388). -/
def execHpCqHeadWrite (v : W32) (s : State) : Out := .next (s.whenTaken (fun s => s.cqHeadSet v.toNat))

/-- HP_APA_BASE_WRITE (14.R379). -/
def execHpApaBaseWrite (v : W64) (s : State) : Out := .next (s.whenTaken (fun s => s.baseSet .a v.toNat))

/-- HP_APB_BASE_WRITE (14.R379). -/
def execHpApbBaseWrite (v : W64) (s : State) : Out := .next (s.whenTaken (fun s => s.baseSet .b v.toNat))

/-- HP_POOL_WRITE (14.R379). -/
def execHpPoolWrite (v : W32) (s : State) : Out := .next (s.whenTaken (fun s => s.poolSet v.toNat))

/-- HP_WH_SPLIT_WRITE (14.R371). -/
def execHpWhSplitWrite (v : W32) (s : State) : Out := .next (s.whenTaken (fun s => s.splitSet v.toNat))

/-- HP_LATENCY_BUDGET_WRITE (14.R393, 16.R418, R419). -/
def execHpLatencyBudgetWrite (v : W32) (s : State) : Out := .next (s.whenTaken (fun s => s.budgetSet v.toNat))

/-- HP_STATUS_READ: the register is returned, and its RS flags clear (00.R11, 14.R394). -/
def execHpStatusRead (s : State) : Out :=
  .next (s.whenOn (fun s =>
    let v := s.hpStatus
    let s := s.clearStatus
    { s with latch := { s.latch with reg := BitVec.ofNat 64 v } }))

/-! ### Frames, completions, the host's presence -/

/-- FRAME_DRAIN_TIMEOUT: 2 us since the frame's last write, and it drains (14.R374); in confidential mode a frame of a
non-public page does not (17.R444). -/
def execFrameDrainTimeout (ch : Chan) (page : Nat) (s : State) : Out :=
  .next (match s.port.frames.find? (isFrame ch page) with
    | some f => if s.confPage ch page then s else s.startDrain f
    | none => s)

/-- FRAME_DRAIN_DONE: the oldest draining frame of the page is freed (14.R374, R376, R379). -/
def execFrameDrainDone (ch : Chan) (page : Nat) (s : State) : Out :=
  .next (match s.port.frames.find? (fun f => decide (f.ch = ch) && f.page == page && f.draining) with
    | some f => ({ s with port := { s.port with frames := s.port.frames.erase f } } : State).settleBases
    | none => s)

/-- CQ_POST: the oldest finished request's completion is posted when the ring has room; in confidential mode it takes effect
at the next 1 us tick (14.R385, R387, 17.R449). -/
def execCqPost (s : State) : Out :=
  .next (if s.chouse.scrub.isSome then s
    else match s.port.finished with
    | [] => if s.chouse.conf then s else s.postDeferred 1
    | c :: rest =>
      if s.chouse.conf then
        { s with port := { s.port with finished := rest, deferred := s.port.deferred ++ [c] } }
      else if s.port.deferred ≠ [] then s.postDeferred 1
      else if s.port.cqFull then s
      else ({ s with port := { s.port with finished := rest } } : State).post c)

/-- CQ_IRQ_TIMEOUT: the oldest unread entry that counts has stood for TIME us (14.R388). -/
def execCqIrqTimeout (s : State) : Out :=
  .next (if s.port.modTime ≠ 0 ∧ s.port.unread.any (fun e => e.2.1 || e.2.2) then
      ({ s with port := { s.port with aged := true } } : State).settleCq
    else s)

/-- HOST_LOST: no REF and no self-refresh entry for HP_LIVE.TIMEOUT (14.R391, 18.R467). -/
def execHostLost (s : State) : Out :=
  .next (s.whenOn (fun s =>
    if s.port.selfRefresh || (s.port.hostLost && s.port.idle) then s
    else
      let s := { s with port := { s.port with hostLost := true, idle := true } }
      (s.raiseIrq IRQ_LIVE).logEvent MG_HOST_LOST))

/-- CONF_TIMER_TICK: in confidential mode, what waited for the 1 us tick takes effect (17.R449). -/
def execConfTimerTick (s : State) : Out :=
  .next (if !s.chouse.conf || s.chouse.scrub.isSome then s
    else
      let s := s.postDeferred s.port.deferred.length
      { s with port := { s.port with
          tailShown := (s.port.cqTail, s.port.cqPhase)
          stageShown := s.port.stageNow
          irqPin := s.supply.vddIo && s.port.pinWanted } })

end Sys2Proof.Machine
end

