-- ==== Sys2Proof/Machine/Staging.lean ====
section
/-!
DEFINITION. Host reads (14.R377, 17.R446) and the staging queue (14.R378 to R380, 17.R445).
-/

namespace Sys2Proof.Machine

/-! ### Reads (14.R377) -/

/-- Zeros. -/
def zeros (n : Nat) : List Byte := List.replicate n (0 : Byte)

/-- The staged copy of a page whose copy is done. -/
def State.stagedPage (s : State) (ch : Chan) (page : Nat) : Option Staged :=
  s.port.staged.find? (fun g => decide (g.ch = ch) && g.page == page && g.copied)

/-- A read of a page staged under a retired epoch or an ended session (17.R446). -/
def State.deadRead (s : State) (addr : Nat) : State := (s.setMiss addr).secEvent SEC_EPOCH_RETIRED

/-- Bytes of a header slot of a header page (17.R441, R443, R446). -/
def State.readHeader (s : State) (ch : Chan) (off n : Nat) : List Byte × State :=
  let (dp, o) := headerSlot ch off
  if off % 4096 / 64 = 63 ∨ publicPage ch dp then (zeros n, s)
  else match s.stagedPage ch dp with
    | none => (zeros n, s.setMiss (hostAddrWord ch off))
    | some g =>
      if g.dead then (zeros n, s.deadRead (hostAddrWord ch off))
      else (((g.header ++ zeros 104).drop o).take n, s)

/-- Bytes of an aperture line (14.R377, 17.R446). -/
def State.readAperture (s : State) (ch : Chan) (off n : Nat) : List Byte × State :=
  if s.chouse.conf ∧ groupIx ch (pageOf off) = 63 then s.readHeader ch off n
  else match s.stagedPage ch (pageOf off) with
    | none => (zeros n, s.setMiss (hostAddrWord ch off))
    | some g =>
      if g.dead then (zeros n, s.deadRead (hostAddrWord ch off)) else (g.data.bytes (off % 4096) n, s)

/-- Bytes of a ring; a poisoned line's bytes are free values (assumption 26). -/
def State.readRing (s : State) (key n : Nat) : List Byte × State :=
  if s.poisoned key n then
    let (d, s) := s.draw
    ((List.range n).map (fun i => Config.unspecifiedByte d (key + i)), s)
  else (s.peek key n, s)

/-- A host read of `n` bytes that lie in one burst (14.R377, 17.R451). -/
def State.hostRead (s : State) (ch : Chan) (off n : Nat) : List Byte × State :=
  let scrub := s.chouse.scrub.isSome
  match s.target ch off with
  | .control =>
    let (ws, s) := s.regWords 6 (off / 4 * 4) ((off % 4 + n + 3) / 4)
    (((ws.flatMap (leBytes 4)).drop (off % 4)).take n, s)
  | .subRing | .compRing => if scrub then (zeros n, s) else s.readRing (portKey (off - 0x10000)) n
  | .unmapped => if scrub then (zeros n, s) else (zeros n, s.setMiss (hostAddrWord ch off))
  | .wharf => (zeros n, s)
  | .aperture => if scrub then (zeros n, s) else s.readAperture ch off n

/-- APERTURE_READ: a read burst, served by where it goes (14.R368, R377). -/
def execApertureRead (a : HostAddr) (len : Fin 65) (s : State) : Out :=
  if !burstOk a len.val then .refused .illFormed
  else .next (s.whenOn (fun s =>
    let s := s.countPkg PE_HP_RD_LINES 1
    match s.hostOff a with
    | none =>
      let s := if s.chouse.scrub.isSome then s else s.setProto
      { s with latch := { s.latch with rd := zeros len.val } }
    | some off =>
      let (b, s) := s.hostRead a.ch off len.val
      { s with latch := { s.latch with rd := b } }))

/-! ### Copies (14.R378, R379, 17.R445) -/

/-- Free stage frames: 1,920 less the Wharf's 64, the write frames and those in use (14.R372). -/
def State.freeStage (s : State) : Nat := 1920 - 64 - s.port.pool - s.port.staged.length

/-- The page is staged, copied or not. -/
def State.isStaged (s : State) (p : Chan × Nat) : Bool :=
  s.port.staged.any (fun g => decide (g.ch = p.1) && g.page == p.2)

/-- The copy of a page begins: its frame holds the snapshot and is not yet copied (14.R378, R379). -/
def State.stagePage (s : State) (p : Chan × Nat) : State :=
  let (g, s) := if s.confPage p.1 p.2 then s.sealPage p.1 p.2
    else ({ ch := p.1, page := p.2, data := s.pageImage (s.reach p.1 p.2) }, s)
  if s.isStaged p then
    { s with port := { s.port with staged := s.port.staged.map (fun h =>
      if h.ch = p.1 ∧ h.page = p.2 then g else h) } }
  else { s with port := { s.port with staged := s.port.staged ++ [g], framesUsed := true } }

/-- Some page of a request has been set aside because staging in confidential mode passes over header pages (17.R445). -/
def State.passedOver (s : State) (p : Chan × Nat) : Bool := s.chouse.conf && groupIx p.1 p.2 == 63

/-- The page may not be staged: it is closed, or confidential without a session (14.R378, 17.R445). -/
def State.unstageable (s : State) (p : Chan × Nat) : Bool :=
  s.closedPage p.1 p.2 || (s.confPage p.1 p.2 && !s.chouse.session.live)

/-! ### Requests of the staging queue -/

/-- The host pages that a request of HP_DB_STAGE names. -/
def requestPages (n : Nat) (ch : Chan) (addr : Nat) : List (Chan × Nat) :=
  (List.range n).map (fun i => (ch, addr + 4096 * i))

/-- The RESULT of a request that fails, none when it may proceed (14.R378): 2 RANGE, 3 CLOSED, 1 NOSPACE. -/
def State.stageFails (s : State) (unstage : Bool) (ps : List (Chan × Nat)) : Option Nat :=
  if ps.any (fun p => decide (p.2 < apFirst p.1) || decide (2 ^ 31 ≤ p.2)) then some 2
  else if unstage then none
  else
    let ps := ps.filter (fun p => !s.passedOver p)
    if ps.any s.unstageable then some 3
    else if s.freeStage < (ps.filter (fun p => !s.isStaged p)).length then some 1
    else none

/-- A host request ends: HP_STAGE_STAT is written and the STAGE cause set (14.R378). -/
def State.endStage (s : State) (result seqNo : Nat) : State :=
  ({ s with port := { s.port with
      stageQ := s.port.stageQ.drop 1, stageBusy := false, stageResult := result, stageSeq := seqNo } } : State).raiseIrq
    IRQ_STAGE

/-- The pages of a request are freed (14.R378 UNSTAGE). -/
def State.unstagePages (s : State) (ps : List (Chan × Nat)) : State :=
  { s with port := { s.port with staged := s.port.staged.filter (fun g => !ps.contains (g.ch, g.page)) } }

/-- A host request starts at the head of the queue. -/
def State.startHostStage (s : State) (unstage : Bool) (ps : List (Chan × Nat)) (seqNo : Nat) : State :=
  match s.stageFails unstage ps with
  | some r => s.endStage r seqNo
  | none =>
    if unstage then (s.unstagePages ps).endStage 0 seqNo
    else
      let ps := ps.filter (fun p => !s.passedOver p)
      if ps = [] then s.endStage 0 seqNo
      else
        let s := ps.foldl (fun s p => s.stagePage p) s
        { s with port := { s.port with stageBusy := true } }

/-- The host page by which an aperture reaches a Warehouse page; in confidential mode a header page is none. -/
def State.pageVia (s : State) (wh : Nat) (ch : Chan) (base : Nat) : Option (Chan × Nat) :=
  let h := wh - base * 2 ^ 24 + apFirst ch
  if base * 2 ^ 24 ≤ wh ∧ h < 2 ^ 31 ∧ !(s.chouse.conf && groupIx ch h == 63) then some (ch, h) else none

/-- The host page at which a Warehouse page is staged: aperture A's, or aperture B's where A does not reach it
(14.R380). -/
def State.hostPage (s : State) (wh : Nat) : Option (Chan × Nat) :=
  ((s.pageVia wh .a s.port.apaBase).or (s.pageVia wh .b s.port.apbBase)).filter (fun p => !s.unstageable p)

/-- The pages of a MOVE.STAGE from page `wh` on, with the frames still free: the host pages, or the first failing address
(14.R380). -/
def State.movePages (s : State) (dev : Nat) : Nat → Nat → Nat → List (Chan × Nat) → List (Chan × Nat) ⊕ Nat
  | 0, _, _, ps => .inl ps
  | n + 1, wh, free, ps =>
    match s.hostPage wh with
    | none => .inr (dev * 2 ^ 48 + wh)
    | some p =>
      let new := !s.isStaged p && !ps.contains p
      if new ∧ free = 0 then .inr (dev * 2 ^ 48 + wh)
      else s.movePages dev n (wh + 4096) (if new then free - 1 else free) (ps ++ [p])

/-- The pages of a MOVE.STAGE's footprint, or the first failing address (14.R380). -/
def State.moveFoot (s : State) (t : TD) : List (Chan × Nat) ⊕ Nat :=
  let last := addrOff t.base + tdSpan t - 1
  if addrDev t.base ≠ s.shape.fabricId ∨ addrRegion t.base ≠ 0 ∨ warehouseBytes ≤ addrOff t.base then .inr t.base
  else
    let first := pageOf (addrOff t.base)
    let n := (min last (warehouseBytes - 1)) / 4096 - first / 4096 + 1
    match s.movePages (addrDev t.base) n first s.freeStage [] with
    | .inl ps => if warehouseBytes ≤ last then .inr (addrDev t.base * 2 ^ 48 + warehouseBytes) else .inl ps
    | .inr a => .inr a

/-- An instruction of a mover queue, by serial number. -/
def Seqr.moverEntry (r : Seqr) (uid : Nat) : Option QEntry := r.moverQ.toList.flatten.find? (fun e => e.uid == uid)

/-- An instruction that has raised a fault leaves its mover queue; nothing waits on it any more. -/
def State.dropMover (s : State) (q : SeqId) (uid : Nat) : State :=
  s.updSeqr q (fun r => unwait [uid] { r with moverQ := r.moverQ.map (fun l => l.filter (fun e => e.uid != uid)) })

/-- A MOVE.STAGE's copies are done: it may complete (14.R380, 07.R210). -/
def State.doneMover (s : State) (q : SeqId) (uid : Nat) : State :=
  s.updSeqr q (fun r => { r with moverQ := r.moverQ.map (fun l =>
    l.map (fun e => if e.uid = uid then { e with staging := false } else e)) })

/-- A MOVE.STAGE starts at the head of the queue (14.R375, R380). -/
def State.startMoveStage (s : State) (q : SeqId) (uid : Nat) (t : TD) (mover : Nat) : State :=
  let s := s.orderPoint
  match s.moveFoot t with
  | .inl ps =>
    let s := ps.foldl (fun s p => s.stagePage p) s
    { s with port := { s.port with stageBusy := true } }
  | .inr a =>
    let s := { s with port := { s.port with stageQ := s.port.stageQ.drop 1, stageBusy := false } }
    match (s.seqr q).moverEntry uid with
    | none => s
    | some e =>
      (s.dropMover q uid).raiseFault q { code := MOVE_MISMATCH, unit := 4 + mover, detail := some a } e.opcode e.pc

end Sys2Proof.Machine
end

