-- ==== Sys2Proof/Machine/JobImage.lean ====
section
/-!
DEFINITION. Program images (07.R190 to R192), bind tables and core records (15.R397, R398), pipeline records (15.R404), and
the program digests of 17.R435.
-/

namespace Sys2Proof.Machine

/-! ### Images (07.R190, R191) -/

/-- Some bytes of the Warehouse can be read: they exist and hold no poisoned granule. -/
def State.readable (s : State) (off n : Nat) : Bool := decide (off + n ≤ warehouseBytes) && !s.poisoned off n

/-- Warehouse bytes that can be read. -/
def State.readWh (s : State) (off n : Nat) : Option (List Byte) := if s.readable off n then some (s.peek off n) else none

/-- An image header. -/
structure ImgHdr where
  magic : Nat
  version : Nat
  codeLen : Nat
  entry : Nat
  tdCount : Nat
  bindCount : Nat
  codeOff : Nat
  tdOff : Nat
  bindOff : Nat
  constOff : Nat
  constLen : Nat
  need : Nat
  scalarInit : Nat
  deriving DecidableEq, Repr

/-- A header from its 64 bytes. -/
def parseHdr (b : List Byte) : ImgHdr :=
  { magic := leAt b 0 4, version := leAt b 4 2, codeLen := leAt b 6 2, entry := leAt b 8 2, tdCount := leAt b 0xA 2
    bindCount := leAt b 0xC 1, codeOff := leAt b 0x10 4, tdOff := leAt b 0x14 4, bindOff := leAt b 0x18 4
    constOff := leAt b 0x1C 4, constLen := leAt b 0x20 4, need := leAt b 0x24 4, scalarInit := leAt b 0x28 4 }

/-- The sections: offset and length. -/
def ImgHdr.sections (h : ImgHdr) : List (Nat × Nat) :=
  [(h.codeOff, 16 * h.codeLen), (h.tdOff, 64 * h.tdCount), (h.bindOff, 4 * h.bindCount), (h.constOff, h.constLen)]

/-- The checks of the header. -/
def ImgHdr.ok (h : ImgHdr) : Bool :=
  h.magic == 0x4C444853 && h.version == 1 && decide (1 ≤ h.codeLen ∧ h.codeLen ≤ 4096) && decide (h.tdCount ≤ 256)
    && decide (h.bindCount ≤ 32) && decide (64 ≤ h.need) && decide (h.need ≤ coreStoreBytes) && decide (h.entry < h.codeLen)
    && h.sections.all (fun e => decide (e.1 + e.2 ≤ h.need))

/-- The binding entries of an image: descriptor index and bind number. -/
def bindings (h : ImgHdr) (img : List Byte) : List (Nat × Nat) :=
  (List.range h.bindCount).map (fun i => (leAt img (h.bindOff + 4 * i) 1, leAt img (h.bindOff + 4 * i + 1) 1))

/-- An image passes R191 with the bind numbers supplied. -/
def imageOk (img : List Byte) (nbind : Nat) : Bool :=
  let h := parseHdr img
  decide (64 ≤ img.length) && h.ok && decide (img.length = h.need)
    && (bindings h img).all (fun b => decide (b.1 < h.tdCount ∧ b.2 < nbind))

/-- The image at a Warehouse offset as a dispatch reads it: STORE_NEED bytes. -/
def State.imageAt (s : State) (off : Nat) : Option (List Byte) :=
  match s.readWh off 64 with
  | none => none
  | some b => s.readWh off (max 64 (leAt b 0x24 4))

/-- The image at an offset passes the check made at acceptance, which reads its header only (07.R191, 15.R399). -/
def State.headerPasses (s : State) (off : Nat) : Bool :=
  match s.readWh off 64 with
  | none => false
  | some b => (parseHdr b).ok

/-- Initial values of the scalar registers: consecutive 8-byte words of the constant section, for the registers of
SCALAR_INIT in ascending order (assumption 31); a word beyond the section is 0. -/
def initScalars (h : ImgHdr) (img : List Byte) : Vector W64 32 :=
  Vector.ofFn (fun n : Fin 32 =>
    if !bit h.scalarInit n.val then 0
    else
      let k := ((List.range n.val).filter (fun i => bit h.scalarInit i)).length
      if 8 * k + 8 ≤ h.constLen then BitVec.ofNat 64 (leAt img (h.constOff + 8 * k) 8) else 0)

/-! ### Bind tables (15.R397) -/

/-- A bind entry keeps the rules of its layout; `tensors` is the length of the slot's tensor table. -/
def bindOk (tensors v : Nat) : Bool :=
  bits v 51 11 == 0 && !(bit v 63 && bit v 62) && (!bit v 62 || decide (v % 2 ^ 16 < tensors))

/-- The bind table of a job, where it can be read and keeps its rules. -/
def State.bindTable (s : State) (j : Job) : Option (List Nat) :=
  let raw := match j.home with
    | some _ => some ((j.binds.map (fun (v : W64) => v.toNat)).take j.nbind)
    | none =>
      if j.nbind = 0 then some []
      else (s.readWh (j.arg1 % 2 ^ 44) (8 * j.nbind)).map (fun b => (List.range j.nbind).map (fun i => leAt b (8 * i) 8))
  let tensors := if j.mslot < 16 then (getN s.models j.mslot {}).tensors.length else 0
  match raw with
  | some l => if l.all (bindOk tensors) && decide (l.length = j.nbind) then some l else none
  | none => none

/-- The 64 bytes of a descriptor with a bind entry applied, for the core of rank `r`. -/
def State.bound (s : State) (j : Job) (r v : Nat) (td : List Byte) : List Byte :=
  if bit v 62 then
    let t := ((getN s.models j.mslot {}).tensors.getD (v % 2 ^ 16) (0, {})).2
    tdBytes { t with alsel := leAt td 0x2A 1, stream := leAt td 0x2B 1 }
  else leBytes 8 ((v % 2 ^ 51 + if bit v 63 then 64 * r else 0) % 2 ^ 51) ++ td.drop 8

/-! ### Core records (15.R398) -/

/-- The core record of rank `r`. -/
def State.coreRecord (s : State) (j : Job) (r core : Nat) : List Byte :=
  let own := s.clusters[clusterOf (coreIx core)].tally.owner == some j.slot
  let (stage, rep) := match j.pipe with
    | some p => (p.stage, p.runs - 1)
    | none => (0, 0)
  leBytes 1 r ++ leBytes 1 j.cores.length ++ leBytes 1 core ++ leBytes 1 (b2n own + 2 * b2n j.retry) ++ leBytes 2 j.slot
    ++ leBytes 1 stage ++ leBytes 1 0 ++ leBytes 4 rep ++ leBytes 4 j.gen ++ List.replicate 48 (0 : Byte)

/-- The core records of the PERCORE entries written. -/
def writeRecords (j : Job) (binds : List Nat) : ExecM Unit := do
  let s ← get
  let recs := (binds.filter (fun v => bit v 63)).flatMap (fun v =>
    j.cores.mapIdx (fun r e => (v % 2 ^ 51 + 64 * r, s.coreRecord j r e.2)))
  let _ ← recs.mapM (fun x => writeMem .house 0 x.1 x.2)
  return ()

/-! ### Starting a core (07.R192) -/

/-- The descriptor slots beyond the image's hold zeros, except where another section of the image lies over them. -/
def State.clearSlots (s : State) (c : Nat) (h : ImgHdr) (img : List Byte) : State :=
  let lo := h.tdOff + 64 * h.tdCount
  let hi := min (h.tdOff + 64 * 256) coreStoreBytes
  let s := s.poke (coreKey c lo) (List.replicate (hi - lo) (0 : Byte))
  h.sections.foldl (fun s e => s.poke (coreKey c e.1) ((img.drop e.1).take e.2)) s

/-- The image and its bound descriptors in the store of the core of rank `r`. -/
def State.placeImage (s : State) (j : Job) (binds : List Nat) (img : List Byte) (r core : Nat) : State :=
  let h := parseHdr img
  let s := (s.poke (coreKey core 0) img).clearSlots core h img
  (bindings h img).foldl (fun s b =>
    let a := h.tdOff + 64 * b.1
    s.poke (coreKey core a) (s.bound j r (binds.getD b.2 0) (s.peek (coreKey core a) 64))) s

/-- The actual-length registers that a job gives (07.R192). -/
def jobAls (j : Job) : Vector W32 8 :=
  Vector.ofFn (fun n : Fin 8 => if bit j.almask n.val then j.al.getD n.val 0 else 0xFFFFFFFF)

/-- The core of rank `r` starts the job's program. -/
def State.startCore (s : State) (j : Job) (img : List Byte) (r core : Nat) : State :=
  let h := parseHdr img
  let s := s.updCore (coreIx core) (fun k => { k with
    job := some j.slot, rank := r, pcAccess := j.pcAccess
    seq := { k.seq with
      running := true, ended := false, faulted := false, reported := false, wait := none, pc := h.entry, codeLen := h.codeLen
      flags := 0, fault0 := 0, fault1 := 0, tdBase := h.tdOff, al := jobAls j, loops := []
      s := initScalars h img } })
  s.count (coreIx core) EV_JOBS 1

/-! ### Program digests (17.R435) -/

/-- The digest of an image dispatched is recorded, once each, up to 64. -/
def State.recordDigest (s : State) (img : List Byte) : State :=
  let d := sha512 img
  if s.chouse.progs.contains d then s
  else if s.chouse.progs.length < 64 then { s with chouse := { s.chouse with progs := s.chouse.progs ++ [d] } }
  else { s with chouse := { s.chouse with progOvf := true } }

/-! ### Pipelines (15.R404, R405) -/

/-- A stage record keeps its rules. -/
def stageOk (b : List Byte) : Bool :=
  let img (i : Nat) : Nat := leAt b (8 * i) 8
  let al := leAt b 0x32 1
  (List.range 5).all (fun i => decide (img i < 2 ^ 44))
    && (decide (leAt b 0x30 1 < 16) || leAt b 0x30 1 == 0xFF) && decide (leAt b 0x31 1 ≤ 32) && decide (al ≤ 8)
    && decide (leAt b 0x33 1 < 2) && decide (0 < leAt b 0x34 4) && leAt b 0x38 8 == 0
    && (if al = 0 then img 0 != 0 else (List.range 5).any (fun i => img i != 0))

/-- Stage records of a pipeline record. -/
def pipeStages (b : List Byte) : List (List Byte) :=
  (List.range (leAt b 6 1)).map (fun i => (b.drop (0x40 + 64 * i)).take 64)

/-- A pipeline record keeps its rules (15.R404). -/
def pipeOk (b : List Byte) (mslot nbind : Nat) : Bool :=
  mslot == 0xFF && nbind == 0 && leAt b 4 2 == 1 && decide (1 ≤ leAt b 6 1 ∧ leAt b 6 1 ≤ 8)
    && (b.drop 7).take 57 == List.replicate 57 (0 : Byte) && (pipeStages b).all stageOk

/-- The present stage record. -/
def Pipe.stageRec (p : Pipe) : List Byte := (pipeStages p.record).getD p.stage []

/-- Buckets of IMG[0] to IMG[4]. -/
def buckets : List Nat := [256, 512, 1024, 2048, 4096]

/-- The image of a run: the present one of the smallest bucket at or above the length, else the largest present (15.R405). -/
def stageImage (b : List Byte) (al : List W32) : Nat :=
  let sel := leAt b 0x32 1
  if sel = 0 then leAt b 0 8
  else
    let len := (al.getD (sel - 1) 0xFFFFFFFF).toNat
    let present := ((List.range 5).map (fun i => (buckets.getD i 0, leAt b (8 * i) 8))).filter (fun e => e.2 != 0)
    match present.find? (fun e => decide (len ≤ e.1)) with
    | some e => e.2
    | none => (present.getLast?.map (fun e => e.2)).getD 0

/-- The job of a pipeline's next run, its stage already chosen: its slot, image and bind table, and the actual lengths it is
given (15.R405, R406). -/
def Job.nextRun (j : Job) (p : Pipe) (al : List W32) : Job :=
  let b := p.stageRec
  { j with
    mslot := leAt b 0x30 1, nbind := leAt b 0x31 1, arg0 := stageImage b al, arg1 := leAt b 0x28 8, al := al
    almask := 255, st := .waiting, cores := [], status := none, d0 := 0, d1 := 0, retry := false, struck := none
    pipe := some p }

end Sys2Proof.Machine
end

