-- ==== Sys2Proof/Machine/JobRun.lean ====
section
/-!
DEFINITION. The life of a job (15.R395 to R403, 20.R491 to R493): its core set, the order of dispatch, dispatch itself, the
boundary, and what follows it.
-/

namespace Sys2Proof.Machine

/-! ### Ends -/

/-- DETAIL2 of a job's completion: of a pipeline its last stage and that stage's runs (15.R407), of a retry its fenced core
(20.R493). -/
def Job.detail2 (j : Job) : Nat :=
  match j.pipe with
  | some p => p.lastStage % 256 + p.lastRuns % 2 ^ 32 * 2 ^ 8 + b2n (j.retry || p.retried) * 2 ^ 62
  | none => if j.retry then j.lastFenced % 64 * 2 ^ 56 + 2 ^ 62 else 0

/-- A job's completion (14.R385, 15.R407). -/
def Job.completion (j : Job) (status : Nat) : Completion :=
  let (gen, mask) := match j.pipe with
    | some p => (p.gen, p.mask)
    | none => (j.gen, j.mask)
  { kind := 1, slot := j.slot, tag := j.tag, status := status, gen := gen, mask := mask, d0 := j.d0, d1 := j.d1
    d2 := j.detail2, irq := j.irq }

/-- A job has completed: its completion waits to be posted, and after it those of the CANCELs that acted on it. A companion
job has no ring entry (19.R480). -/
def State.completeJob (s : State) (j : Job) (status : Nat) : State :=
  let s := { s with jobs := s.jobs.filter (fun x => x.slot != j.slot) }
  if j.home.isSome then s
  else j.cancels.foldl (fun s c => s.finishReq c) (s.finishReq (j.completion status))

/-! ### The core set (15.R395, 20.R497) -/

/-- The cores of a slot: those that own its plies and have their bit, each counting with its own number, and stand-ins that
count with the number of the core they stand for; in ascending order of the number counted with. -/
def State.slotCores (s : State) (m : Nat) : List (Nat × Nat) :=
  let k := getN s.models m {}
  (List.range 64).flatMap (fun c =>
    let own := s.ownsOn m (coreIx c) && s.coreBit c && !k.pairs.any (fun p => p.2 == c || p.1 == c)
    (if own then [(c, c)] else []) ++ (k.pairs.filter (fun p => p.1 == c && s.coreBit p.2)))

/-- The slot's model owns a ply. -/
def State.ownsPly (s : State) (m : Nat) : Bool := s.plies.any (fun e => e.2.owner == some m)

/-- The core set of a job, empty for a counter request (21.R511); none while a job that needs one core finds no usable core without
a job. -/
def State.coreSet (s : State) (j : Job) : Option (List (Nat × Nat)) :=
  if j.counter then some []
  else if j.mslot < 16 && s.ownsPly j.mslot then some (s.slotCores j.mslot)
  else
    ((List.finRange 64).find? (fun c => s.usable c && s.cores[c].job.isNone)).map (fun c => [(c.val, c.val)])

/-- A core of the slot's model is lost without a stand-in and without a remap to come (20.R501). -/
def State.noStandIn (s : State) (m : Nat) : Bool :=
  let k := getN s.models m {}
  (List.finRange 64).any (fun c =>
    s.ownsOn m c && !s.coreBit c.val && !k.pairs.any (fun p => p.1 == c.val) && !k.remaps.contains c.val)

/-! ### Order of dispatch (15.R396) -/

/-- A core can take a job now. -/
def State.coreFree (s : State) (c : Nat) : Bool :=
  let i := coreIx c
  s.cores[i].job.isNone && !s.cores[i].service && !s.calDue i && s.inQueues (.core i) 63 == []

/-- The slot holds its jobs: a swap barrier, an UNLOAD, or a remap to come of a RESIDENT slot (11.R318, R324, 20.R495, 23.R545). -/
def State.slotHolds (s : State) (m : Nat) : Bool :=
  let k := getN s.models m {}
  m < 16 && (k.barrier || !k.unload.isEmpty || (k.st == .resident && !k.remaps.isEmpty))

/-- Every earlier accepted request has completed: the job's slot is the oldest in use. -/
def State.isOldest (s : State) (slot : Nat) : Bool := s.port.inUse.head? == some slot

/-- The job may be dispatched now, where `blocked` are the cores of earlier jobs that wait. -/
def State.mayDispatch (s : State) (j : Job) (blocked : List Nat) : Bool :=
  (!j.ordered || j.home.isSome || s.isOldest j.slot) && !s.slotHolds j.mslot
    && (match s.coreSet j with
      | some cs => cs.all (fun e => s.coreFree e.2 && !blocked.contains e.2)
      | none => false)

/-- The first job in the order that may be dispatched. -/
def State.firstJob (s : State) : List Job → List Nat → Option Job
  | [], _ => none
  | j :: js, blocked =>
    if j.st != .waiting then s.firstJob js blocked
    else if s.mayDispatch j blocked then some j
    else s.firstJob js (blocked ++ ((s.coreSet j).getD []).map (fun e => e.2))

/-- Jobs are dispatched at all: the device is READY and in state A to stay, no sleep state is forced, and no scrub holds it
(16.R419, R420). -/
def State.dispatches (s : State) : Bool :=
  decide (s.port.state = .ready) && decide (s.boot = .service) && s.chouse.scrub.isNone && decide (s.power.depth = 0)
    && !(s.power.forceEn && decide (s.power.forceState ≠ 0)) && !s.power.inTrip && s.refclk.present

/-! ### Dispatch (15.R399) -/

/-- A holder of a shard of the slot's model is lost, or has not reported since it rejoined (19.R481, R482). -/
def State.holderLost (s : State) (m : Nat) : Bool := !(getN s.models m {}).awaits.isEmpty

/-- The other holders of a sharded slot, to which the home device sends companion jobs (19.R480). -/
def State.otherHolders (s : State) (m : Nat) : List Nat :=
  let h := (getN s.models m {}).holders
  (List.range 8).filter (fun i => i != s.shape.fabricId && (match getN s.fabric.members i none with
    | some (sn, _) => h.contains sn
    | none => false))

/-- The Tallies that a job takes: those of its clusters that are free, unless a stand-in of the job lies in another cluster
than the core it stands for (09.R255, 20.R497). -/
def State.takeTallies (s : State) (j : Job) : State :=
  if j.cores.any (fun e => e.1 / 8 != e.2 / 8) then s
  else { s with clusters := s.clusters.mapFinIdx (fun k u _ =>
    if j.cores.any (fun e => e.2 / 8 == k) && u.tally.owner.isNone then { u with tally := { u.tally with owner := some j.slot } }
    else u) }

/-- The Tallies that a job owns return to their reset values (09.R260). -/
def State.freeTallies (s : State) (slot : Nat) : State :=
  { s with clusters := s.clusters.map (fun (u : Cluster) => if u.tally.owner = some slot then { u with tally := {} } else u) }

/-- The status that ends a job at dispatch before its core set is claimed. -/
def State.dispatchFault (s : State) (j : Job) : Option Nat :=
  if j.mslot < 16 then
    if s.holderLost j.mslot then some FB_PEER_LOST
    else if (getN s.models j.mslot {}).st ≠ .resident then some JOB_MODEL
    else if s.noStandIn j.mslot || s.coreSet j == some [] then some JOB_NOCORE
    else none
  else none

/-- The bytes of the job's image. -/
def State.jobImage (s : State) (j : Job) : Option (List Byte) :=
  match j.home with
  | some _ => some j.image
  | none => s.imageAt (j.arg0 % 2 ^ 44)

/-- A pipeline whose present stage is run once more: its count, and what it reports (15.R407). -/
def Pipe.ran (p : Pipe) (named : Bool) (gen mask : Nat) : Pipe :=
  { p with
    runs := p.runs + 1, lastStage := p.stage, lastRuns := p.runs + 1
    gen := if named then gen else p.gen, mask := if named then mask else p.mask }

/-- A job with its core set claimed, and what it reports of its slot (11.R320). -/
def State.claimed (s : State) (j : Job) : Job :=
  let k := getN s.models j.mslot {}
  let named := j.mslot < 16
  let gen := if named then k.gen.toNat else 0
  let mask := if named then k.swapMask else 0
  { j with
    cores := (s.coreSet j).getD [], gen := gen, mask := mask, st := .running
    companions := if named && j.home.isNone && 1 < k.shards then s.otherHolders j.mslot else []
    pipe := j.pipe.map (fun p => p.ran named gen mask) }

/-- The cores of the set by rank. -/
def Job.ranks (j : Job) : List (Nat × Nat) := j.cores.mapIdx (fun r e => (r, e.2))

/-- The cores and the free Tallies of its clusters are the job's (15.R399, 09.R255). -/
def State.claim (s : State) (j : Job) : State :=
  j.ranks.foldl (fun s x => s.updCore (coreIx x.2) (fun k => { k with job := some j.slot, rank := x.1 }))
    ((s.updJob j.slot (fun _ => j)).takeTallies j)

/-- A claimed job that starts on no core is ending, with its status: the boundary follows (15.R399). -/
def State.failClaimed (s : State) (j : Job) (status : Nat) : State :=
  s.updJob j.slot (fun j => { j with st := .ending, status := some status })

/-- A claimed job whose image holds: the image is copied and bound on each core, the core records are written, and every core
starts (15.R398, R399). -/
def State.launch (s : State) (j : Job) (img : List Byte) (binds : List Nat) : State :=
  let s := j.ranks.foldl (fun s x => s.placeImage j binds img x.1 x.2) (s.claim j)
  match (writeRecords j binds).run s with
  | .error _ t => t.failClaimed j JOB_BIND
  | .ok _ t => j.ranks.foldl (fun t x => t.startCore j img x.1 x.2) (t.recordDigest img)

/-- A job is dispatched, or ends at its dispatch: before its core set is claimed at once, afterwards through its boundary
(15.R397, R399). -/
def State.dispatchJob (s : State) (j : Job) : State :=
  let k := s.claimed j
  match s.dispatchFault j with
  | some st => s.completeJob { j with pipe := k.pipe } st
  | none =>
    match s.jobImage k with
    | some img =>
      if !imageOk img k.nbind then (s.claim k).failClaimed k JOB_IMAGE
      else match s.bindTable k with
        | some binds => s.launch k img binds
        | none => (s.claim k).failClaimed k JOB_BIND
    | none => (s.claim k).failClaimed k JOB_IMAGE

/-! ### The boundary (15.R400) -/

/-- Steps 1, 2 and 4 on a core, and the QZ_ registers of step 3 (05.R154, R157, 06.R163, R176, 21.R507). -/
def resetCore (k : Core) : Core :=
  { k with
    chain := false, chainT := false, chainW8 := false, chainK20 := false, pshift := 0, acc := [], zsum := [], mill := {}
    qz := {}, streams := Vector.replicate 8 none, pcQual := ({} : Core).pcQual, job := none, rank := 0, pcAccess := false
    seq := { k.seq with
      running := false, ended := false, faulted := false, reported := false, stepOne := false, wait := none, flags := 0
      fault0 := 0, fault1 := 0, al := Vector.replicate 8 0, loops := [], s := Vector.replicate 32 0 } }

/-- Steps 1 to 4 on the core; its store is set to 0. -/
def State.boundaryCore (s : State) (c : Fin 64) : State :=
  let s := (s.updCore c resetCore).forget (.core c)
  let s := s.zero (coreKey c.val 0) coreStoreBytes
  s.count c EV_BOUNDARIES 1

/-- Another running job has a core in the cluster (15.R400). -/
def State.clusterShared (s : State) (slot k : Nat) : Bool :=
  s.jobs.any (fun j => j.slot != slot && j.st == .running && j.cores.any (fun e => e.2 / 8 == k))

/-- Sync counters of the job's clusters that no other job shares, and the Tallies it owned (07.R216, 09.R260). -/
def State.boundaryClusters (s : State) (j : Job) : State :=
  ({ s with clusters := s.clusters.mapFinIdx (fun k u _ =>
    if j.cores.any (fun e => e.2 / 8 == k) && !s.clusterShared j.slot k then { u with counters := [] } else u) } :
    State).freeTallies j.slot

/-- The boundary of a job's cores, and the calibration due to each (15.R400, 12.R339); a WAIT elsewhere sees the counters return
to 0 (07.R216). -/
def State.boundary (s : State) (j : Job) : State :=
  let s := (s.boundaryClusters j).settle
  let s := j.cores.foldl (fun s e => s.boundaryCore (coreIx e.2)) s
  j.cores.foldl (fun s e => s.boundaryCal (coreIx e.2)) s

/-- The cores of a job have ended: each has joined, or the job is ending; started instructions and the operations of the sync
buffers are over (07.R197, R217). -/
def State.jobOver (s : State) (j : Job) : Bool :=
  decide (j.st ≠ .waiting) && j.cores.all (fun e =>
    let k := s.cores[coreIx e.2]
    (k.seq.ended || decide (j.st = .ending)) && s.inQueues (.core (coreIx e.2)) 63 == [] && k.seq.syncBuf.isEmpty)

/-! ### After the boundary -/

/-- A struck job waits again at the head of the order, its first run's bytes unchanged (20.R493). -/
def State.retryJob (s : State) (j : Job) : State :=
  let k := { j with
    st := .waiting, retry := true, struck := none, status := none, d0 := 0, d1 := 0, cores := []
    pipe := j.pipe.map (fun p => { p with retried := true, runs := p.runs - 1 }) }
  { s with jobs := k :: s.jobs.filter (fun x => x.slot != j.slot) }

/-- A pipeline's next run waits in the place of its acceptance, which the retry of an earlier run may have left (15.R396,
20.R493). -/
def State.queueRun (s : State) (j : Job) : State :=
  let others := s.jobs.filter (fun x => x.slot != j.slot)
  let before (x : Job) : Bool := x.retry || decide (x.seqNo < j.seqNo)
  { s with jobs := others.takeWhile before ++ j :: others.dropWhile before }

/-- The next run of a pipeline, or its end (15.R406). -/
def State.nextRun (s : State) (j : Job) (p : Pipe) : State :=
  let b := p.stageRec
  if bit (leAt b 0x33 1) 0 && j.joinCmp && decide (p.runs < leAt b 0x34 4) then s.queueRun (j.nextRun p j.joinAl)
  else if p.stage + 1 < p.stages then s.queueRun (j.nextRun { p with stage := p.stage + 1, runs := 0 } j.joinAl)
  else s.completeJob j 0

/-- What follows a job's boundary. -/
def State.afterBoundary (s : State) (j : Job) : State :=
  let cancelled := j.status == some JOB_CANCELLED
  match j.struck with
  | some _ =>
    if cancelled then s.completeJob j JOB_CANCELLED
    else if j.retry then s.completeJob { j with d0 := 0, d1 := 0 } FN_CORE_FENCED
    else s.retryJob j
  | none =>
    match j.status with
    | some st => s.completeJob j st
    | none =>
      match j.pipe with
      | some p => s.nextRun j p
      | none => s.completeJob j 0

/-- A job whose cores have ended passes its boundary. -/
def State.passBoundary (s : State) (j : Job) : State := (s.boundary j).afterBoundary j

end Sys2Proof.Machine
end

