-- ==== Sys2Proof/Machine/Package.lean ====
section
/-!
DEFINITION. Bolt packages (11.R289 to R295): the manifest's layout and checks, its signer (17.R431, R432), placement maps
(11.R298, R299, R319, R325), and where the device may allocate in the Warehouse (14.R371).
-/

namespace Sys2Proof.Machine

/-- Rounded up to 4 KiB. -/
def roundUpPage (n : Nat) : Nat := (n + 4095) / 4096 * 4096

/-! ### Layout -/

/-- A layer record (11.R291). -/
def parseLayer (b : List Byte) : LayerRec :=
  { layerId := leAt b 0 2, target := leAt b 2 1, srcFmt := leAt b 3 1, k := leAt b 4 4, n := leAt b 8 4
    escT := BitVec.ofNat 32 (leAt b 0xC 4), unit := leAt b 0x10 1 }

/-- A chunk record (11.R292). -/
def parseChunk (b : List Byte) : ChunkRec :=
  { digest := b.take 64, offset := leAt b 0x40 8, length := leAt b 0x48 4, shard := leAt b 0x4C 1, kind := leAt b 0x4D 1
    layer := leAt b 0x4E 2, row0 := leAt b 0x50 4, col0 := leAt b 0x54 4, rows := leAt b 0x58 2, cols := leAt b 0x5A 2 }

/-- MANIFEST_LEN that the counts of a header give (11.R290). -/
def manifestLen (layers chunks : Nat) : Nat := 128 + 32 * layers + 96 * chunks + 64

/-- Record `i` of size `n` after `o` bytes. -/
def recordAt (b : List Byte) (o n i : Nat) : List Byte := (b.drop (o + n * i)).take n

/-- A manifest from its bytes, whose counts are within their ranges (11.R290, R294). -/
def parseManifest (b : List Byte) : Manifest :=
  let nl := leAt b 0x1E 2
  let nc := leAt b 0x20 4
  let len := leAt b 0x24 4
  { mixable := bit (leAt b 6 2) 0, modelId := (b.drop 8).take 16, ver := leAt b 0x18 4, shards := leAt b 0x1C 1, len := len
    pkgLen := leAt b 0x28 8, signer := (b.drop 0x30).take 32
    layers := (List.range nl).map (fun i => parseLayer (recordAt b 128 32 i))
    chunks := (List.range nc).map (fun i => parseChunk (recordAt b (128 + 32 * nl) 96 i))
    digest := sha512 (b.take (len - 64)) }

/-! ### Layers and chunks -/

/-- A loom layer: TARGET 0 or 1. -/
def LayerRec.loom (l : LayerRec) : Bool := decide (l.target ≤ 1)
/-- Class W8. -/
def LayerRec.w8 (l : LayerRec) : Bool := l.target == 1
/-- The format of a digital target (11.R291). -/
def LayerRec.fmt (l : LayerRec) : Option Fmt :=
  if l.target < 0x10 then none
  else (fmtOf (l.target - 0x10)).filter (fun f => [Fmt.bf16, .fp16, .fp32, .e4m3, .int8, .g4, .g8].contains f)
/-- The layer needs column scales (11.R292). -/
def LayerRec.scaled (l : LayerRec) : Bool := l.loom || l.fmt == some .int8

/-- The layer record of a chunk. -/
def Manifest.layerOf (m : Manifest) (c : ChunkRec) : LayerRec := m.layers.getD c.layer {}
/-- Chunk `i`. -/
def Manifest.chunk (m : Manifest) (i : Nat) : ChunkRec := m.chunks.getD i {}
/-- A loom chunk: the weights of a loom layer. -/
def Manifest.loomChunk (m : Manifest) (c : ChunkRec) : Bool := c.kind == 0 && (m.layerOf c).loom
/-- Format of a chunk's elements. -/
def Manifest.elemFmt (m : Manifest) (c : ChunkRec) : Fmt := if c.kind = 1 then .fp32 else (fmtOf (m.layerOf c).srcFmt).getD .fp32

/-! ### Form (11.R293) -/

/-- Some byte is not 0: a reserved field that is broken. -/
def anyByte (b : List Byte) (o n : Nat) : Bool := leAt b o n != 0

/-- The header's checks. -/
def headerForm (b : List Byte) (pkgLen : Nat) : Bool :=
  leAt b 0 4 == 0x544C4F42 && leAt b 4 2 == 1 && decide (leAt b 6 2 < 2)
    && decide (1 ≤ leAt b 0x1C 1 ∧ leAt b 0x1C 1 ≤ 8) && decide (1 ≤ leAt b 0x1E 2 ∧ leAt b 0x1E 2 ≤ 4096)
    && decide (1 ≤ leAt b 0x20 4 ∧ leAt b 0x20 4 ≤ 65536)
    && leAt b 0x24 4 == manifestLen (leAt b 0x1E 2) (leAt b 0x20 4)
    && leAt b 0x28 8 == pkgLen && !anyByte b 0x1D 1 && !anyByte b 0x50 48

/-- A layer record's checks. -/
def layerForm (b : List Byte) : Bool :=
  let l := parseLayer b
  (l.loom || l.fmt.isSome) && decide (6 ≤ l.srcFmt ∧ l.srcFmt ≤ 8) && decide (l.unit ≤ 63) && !anyByte b 0x11 15

/-- A chunk record's own checks. -/
def Manifest.chunkForm (m : Manifest) (c : ChunkRec) : Bool :=
  let l := m.layerOf c
  decide (c.layer < m.layers.length) && decide (c.shard < m.shards) && decide (c.kind ≤ 1)
    && c.length == c.rows * c.cols * (fmtBits (m.elemFmt c) / 8)
    && decide (c.row0 + c.rows ≤ l.k ∨ c.kind = 1) && decide (c.col0 + c.cols ≤ l.n)
    && (if c.kind = 1 then c.rows == 1 && c.row0 == 0
        else !l.loom || (decide (c.rows ≤ 1024) && decide (c.cols ≤ (if l.w8 then 256 else 512))))

/-- Two chunks of one layer, shard and kind overlap. -/
def chunksOverlap (a b : ChunkRec) : Bool :=
  a.layer == b.layer && a.shard == b.shard && a.kind == b.kind && decide (a.row0 < b.row0 + b.rows)
    && decide (b.row0 < a.row0 + a.rows) && decide (a.col0 < b.col0 + b.cols) && decide (b.col0 < a.col0 + a.cols)

/-- No two elements of a list are related. -/
def noPair {α : Type} (r : α → α → Bool) : List α → Bool
  | [] => true
  | a :: as => !as.any (r a) && noPair r as

/-- The chunks stand in the package as 11.R289 has it, from offset `from_` on. -/
def chunksPlaced (pkgLen : Nat) : Nat → List ChunkRec → Bool
  | low, [] => roundUpPage low == pkgLen
  | low, c :: cs => c.offset % 4096 == 0 && decide (low ≤ c.offset) && chunksPlaced pkgLen (c.offset + c.length) cs

/-- Each shard has the column scales of every loom and INT8 layer that it holds weights of. -/
def Manifest.scalesCover (m : Manifest) : Bool :=
  m.chunks.all (fun c => c.kind == 1 || !(m.layerOf c).scaled ||
    ((m.chunks.filter (fun x => x.kind == 1 && x.layer == c.layer && x.shard == c.shard)).foldl (fun a x => a + x.cols) 0
      == (m.layerOf c).n))

/-- A manifest passes R293. -/
def manifestOk (b : List Byte) (pkgLen : Nat) : Bool :=
  headerForm b pkgLen &&
    (let m := parseManifest b
     b.length == m.len
      && (List.range m.layers.length).all (fun i => layerForm (recordAt b 128 32 i))
      && (List.range m.chunks.length).all (fun i =>
          !anyByte (recordAt b (128 + 32 * m.layers.length) 96 i) 0x5C 4)
      && m.chunks.all m.chunkForm && noPair chunksOverlap m.chunks && chunksPlaced pkgLen (roundUpPage m.len) m.chunks
      && m.scalesCover)

/-! ### Signature (11.R294, 17.R431, R432) -/

/-- The manifest's signature holds under its SIGNER. -/
def signatureOk (b : List Byte) : Bool :=
  let m := parseManifest b
  edVerify m.signer m.digest (b.drop (m.len - 64))

/-- The signer table entry of a key. -/
def State.signerOf (s : State) (key : List Byte) : Option (Nat × Signer) :=
  (List.range 16).findSome? (fun i =>
    ((getN s.chouse.signers i none).filter (fun e => decide (e.key = key))).map (fun e => (i, e)))

/-- The lowest free PERSONAL entry. -/
def State.freePersonal (s : State) : Option Nat :=
  [12, 13, 14, 15].find? (fun i => (getN s.chouse.signers i none).isNone)

/-- An unknown SIGNER is enrolled where consent is latched and a PERSONAL entry is free; the press is consumed. -/
def State.enrol (s : State) (m : Manifest) : Option State :=
  match s.freePersonal with
  | some i =>
    if s.chouse.consent then
      some { s with chouse := { s.chouse with
        consent := false, signers := updN s.chouse.signers i (fun _ => some { key := m.signer, modelId := m.modelId }) } }
    else none
  | none => none

/-- A PERSONAL signer's package is a MIXABLE replacement of a model with its MODEL_ID (17.R431). -/
def State.personalOk (s : State) (m : Manifest) (mslot : Nat) (e : Signer) : Bool :=
  let k := getN s.models mslot {}
  m.mixable && decide (e.modelId = m.modelId) && decide (k.modelId = m.modelId) && decide (k.st ≠ .empty)

/-- The SIGNER is accepted for the request, after an enrolment where one takes place; none where it is not. -/
def State.acceptSigner (s : State) (m : Manifest) (mslot : Nat) (restore : Bool) : Option State :=
  match s.signerOf m.signer with
  | some (i, e) => if i < 12 || s.personalOk m mslot e then some s else none
  | none =>
    if restore then none
    else (s.enrol m).filter (fun s => s.personalOk m mslot { key := m.signer, modelId := m.modelId })

/-- What an attempt to enrol leaves where the SIGNER is then refused. -/
def State.enrolled (s : State) (m : Manifest) (restore : Bool) : State :=
  if (s.signerOf m.signer).isSome || restore then s else (s.enrol m).getD s

/-! ### Placement maps (11.R298, R299) -/

/-- An entry of a placement map. -/
def parsePlacement (v : Nat) : Placement :=
  { chunk := bits v 32 32, device := bits v 29 3, engine := bits v 19 10, ply := bits v 16 3 }

/-- The loom-ply an entry names. -/
def Placement.q (p : Placement) : Nat := 8 * p.engine + p.ply

/-- Entries of the map on this device. -/
def State.localMap (s : State) (map : List Placement) : List Placement := map.filter (fun p => p.device == s.shape.fabricId)

/-- The local loom-plies of a load. -/
def State.loadPlies (s : State) (l : LoadReq) : List Nat := (s.localMap l.map).map Placement.q

/-- An entry fails a check that needs no manifest: another entry names its ply, or on this device its core is not usable,
its ply is worn, or another slot owns it (11.R299). -/
def State.entryFails (s : State) (map : List Placement) (mslot : Nat) (p : Placement) : Bool :=
  let r := s.plyRec p.q
  decide (1 < (map.filter (fun x => decide (x.device = p.device ∧ x.q = p.q))).length)
    || (p.device == s.shape.fabricId
        && (!s.coreBit (p.engine / 16) || r.worn || (match r.owner with
          | some m => m != mslot
          | none => false)))

/-- An entry fails a check that needs the manifest. -/
def Manifest.entryFails (m : Manifest) (p : Placement) : Bool :=
  !(decide (p.chunk < m.chunks.length) && m.loomChunk (m.chunk p.chunk)) || (m.chunk p.chunk).shard != p.device

/-- The first loom chunk of the package without an entry. -/
def Manifest.unplaced (m : Manifest) (map : List Placement) : Option Nat :=
  (List.range m.chunks.length).find? (fun i => m.loomChunk (m.chunk i) && !map.any (fun p => p.chunk == i))

/-- The places that the model in a slot holds for a chunk (11.R319). -/
def Model.placesOf (k : Model) (l : LayerRec) (c : ChunkRec) : List Nat :=
  (k.places.filter (fun x => x.layer == c.layer && x.row0 == c.row0 && x.col0 == c.col0 && x.w8 == l.w8
    && x.unit == l.unit)).map (fun x => x.ply)

/-- Two lists hold the same numbers. -/
def sameSet (a b : List Nat) : Bool := a.all b.contains && b.all a.contains

/-- An entry of this device breaks R319: its chunk is not placed on the plies that held the old model's. -/
def State.mixableFails (s : State) (m : Manifest) (map : List Placement) (mslot : Nat) (p : Placement) : Bool :=
  let c := m.chunk p.chunk
  p.device == s.shape.fabricId
    && !sameSet (((s.localMap map).filter (fun x => x.chunk == p.chunk)).map Placement.q)
      ((getN s.models mslot {}).placesOf (m.layerOf c) c)

/-- The index of the first element that satisfies a test. -/
def firstIndex {α : Type} (p : α → Bool) (l : List α) : Option Nat :=
  (l.mapIdx (fun i a => (i, a))).findSome? (fun e => if p e.2 then some e.1 else none)

/-- The map fails once the manifest is known: the index that the completion gives (11.R299, R319, R325). -/
def State.mapFails (s : State) (l : LoadReq) (m : Manifest) : Option Nat :=
  let k := getN s.models l.mslot {}
  match firstIndex (fun p => m.entryFails p || s.entryFails l.map l.mslot p) l.map with
  | some i => some i
  | none =>
    match m.unplaced l.map with
    | some c => some c
    | none =>
      if l.restore then
        (if decide (k.st = .dormant) && decide (k.digest = m.digest)
            && sameSet (s.loadPlies l) (s.pliesWhere (fun r => r.owner == some l.mslot)) then none else some 0)
      else if m.mixable then
        (if decide (k.st = .empty) || decide (k.modelId ≠ m.modelId) then some 0
         else firstIndex (s.mixableFails m l.map l.mslot) l.map)
      else none

/-! ### Space (14.R371) -/

/-- The range in which the device allocates: from HP_WH_SPLIT to the reserved range of 11.R309 and 12.R335. -/
def State.allocLow (s : State) : Nat := s.port.split * 2 ^ 28
def allocHigh : Nat := trimAddr 0

/-- The format of a tensor and its parts: elements, block scales or column records, side lists (11.R308). -/
def LayerRec.tensor (l : LayerRec) (base : Nat) : TD :=
  let f := l.fmt.getD .fp32
  let run := runBytes f l.n
  let scale := roundUp64 (base + run * l.k)
  let td : TD :=
    { base := base, ext0 := l.n, ext1 := l.k, ext2 := 1, ext3 := 1, str1 := run, format := l.target - 0x10
      eff0 := l.n, eff1 := l.k, eff2 := 1, eff3 := 1 }
  let td := { td with bound := if l.n = 0 || l.k = 0 then 0 else tdNeed td }
  if fmtBell f then
    { td with skind := 2, scaleBase := scale, sideCap := 1024, sideBase := roundUp64 (scale + 2 * (l.k * ceilDiv l.n 128)) }
  else if f = .int8 then { td with skind := 3, scaleBase := scale }
  else td

/-- One past the last byte of a digital tensor with its scales and side lists. -/
def tensorEnd (t : TD) : Nat :=
  if t.skind = 2 then t.sideBase + 8 * 1024 * (ceilDiv t.ext1 1024 * ceilDiv t.ext0 512)
  else if t.skind = 3 then t.scaleBase + 16 * t.ext0
  else t.base + t.str1 * t.ext1

/-- What the device has allocated: bundles of the ply directory, digital tensors, and those of the load in progress with the
ones it may roll back to and its staging heap, as offset and length. -/
def State.allocated (s : State) : List (Nat × Nat) :=
  let part (t : TD) : Nat × Nat := (addrOff t.base, tensorEnd t - t.base)
  ((List.range 8192).filterMap (fun q => if (s.dirOf q).valid then some ((s.dirOf q).bundle, bundleBytes) else none))
    ++ s.models.toList.flatMap (fun k => k.tensors.map (fun e => part e.2))
    ++ (match s.load with
      | some l =>
        let ours (e : Nat × DirEntry) : Bool := (s.dirOf e.1).valid && (s.dirOf e.1).bundle == e.2.bundle
        let olds := (l.old.filter (fun e => e.2.1.valid)).map (fun e => (e.1, e.2.1))
        ((l.entries ++ olds).filter (fun e => !ours e)).map (fun e => (e.2.bundle, bundleBytes))
          ++ (l.tensors ++ l.oldTensors).map (fun e => part e.2) ++ (l.heapAt.toList.map (fun a => (a, 2 ^ 30)))
      | none => [])

/-- Bytes the device may still allocate. -/
def State.freeSpace (s : State) : Nat := (allocHigh - s.allocLow) - (s.allocated.foldl (fun a r => a + r.2) 0)

/-- The device can allocate `n` bytes at an offset. -/
def State.canPlace (s : State) (place n : Nat) : Bool :=
  place % 4096 == 0 && decide (s.allocLow ≤ place) && decide (place + n ≤ allocHigh)
    && s.allocated.all (fun r => decide (place + n ≤ r.1 ∨ r.1 + r.2 ≤ place))

/-- The lowest offsets that what is allocated leaves free. -/
def State.freeStarts (s : State) : List Nat := roundUpPage s.allocLow :: s.allocated.map (fun r => roundUpPage (r.1 + r.2))

/-- Where the device allocates a staging heap, if anywhere it can: a place of its own choosing (11.R300, assumption 96). -/
def State.heapPlace (s : State) : Option Nat :=
  let p := 4096 * Config.heapPage s.fresh
  if s.canPlace p (2 ^ 30) then some p else s.freeStarts.find? (fun p => s.canPlace p (2 ^ 30))

/-- Digital layers that this device holds weights of. -/
def Manifest.digitalLayers (m : Manifest) (own : Nat) : List Nat :=
  (List.range m.layers.length).filter (fun i =>
    !(m.layers.getD i {}).loom && m.chunks.any (fun c => c.layer == i && c.kind == 0 && c.shard == own))

/-- What the load will allocate on this device: a bundle for every entry of the map, and its digital tensors. -/
def State.loadNeed (s : State) (l : LoadReq) (m : Manifest) : Nat :=
  bundleBytes * (s.localMap l.map).length
    + (m.digitalLayers s.shape.fabricId).foldl (fun a i => a + tensorEnd ((m.layers.getD i {}).tensor 0)) 0

end Sys2Proof.Machine
end

