-- ==== Sys2Proof/Machine/Convert.lean ====
section
/-!
DEFINITION. Conversion of a verified chunk by the loader (11.R306 to R308): the row image, side list and column scales of a
ply, or the tensor of a digital layer.
-/

namespace Sys2Proof.Machine

/-! ### Chunks -/

/-- The elements of a chunk, in order (11.R292). -/
def LoadReq.elements (l : LoadReq) (m : Manifest) (c : ChunkRec) : List Num :=
  let f := m.elemFmt c
  (words (fmtBits f / 8) (c.rows * c.cols) (l.heap.bytes c.offset c.length)).map (floatVal f)

/-- A chunk that R307 refuses. -/
def LoadReq.chunkBad (l : LoadReq) (m : Manifest) (c : ChunkRec) : Bool :=
  if c.kind = 1 then (l.elements m c).any (fun x => !posFinite x) else notFinite (l.elements m c)

/-- The column-scale chunks that serve a chunk: those of its layer and shard. -/
def Manifest.scaleChunks (m : Manifest) (c : ChunkRec) : List Nat :=
  (List.range m.chunks.length).filter (fun i =>
    (m.chunk i).kind == 1 && (m.chunk i).layer == c.layer && (m.chunk i).shard == c.shard)

/-- s_w of columns `col` to `col + n - 1` of a chunk's layer; 1 for a column without one. -/
def LoadReq.scales (l : LoadReq) (m : Manifest) (c : ChunkRec) (col n : Nat) : List Num :=
  let parts := (m.scaleChunks c).map (fun i => ((m.chunk i).col0, (m.chunk i).cols, l.elements m (m.chunk i)))
  (List.range n).map (fun j =>
    match parts.find? (fun p => decide (p.1 ≤ col + j) && decide (col + j < p.1 + p.2.1)) with
    | some p => p.2.2.getD (col + j - p.1) (.val 1)
    | none => .val 1)

/-! ### Ply images (11.R306) -/

/-- A ply being formed: its side list, newest first, its length, and the clipped weights. -/
structure PlyForm where
  side : List SideEntry := []
  count : Nat := 0
  clipped : Nat := 0
  deriving DecidableEq, Repr

/-- The image bytes of one weight. -/
def weightBytes (w8 : Bool) (a b : Int) : List Byte :=
  BitVec.ofInt 8 a :: (if w8 then [BitVec.ofInt 8 b] else [])

/-- One weight x / s: its bytes, and what the side list takes. -/
def convWeight (w8 : Bool) (k n : Nat) (x s : Rat) (f : PlyForm) : List Byte × PlyForm :=
  let v := if w8 then rne (16 * x / s) else rne (x / s)
  if v.natAbs ≤ (if w8 then 247 else 15) then
    (if w8 then let c := rne ((v : Rat) / 16); weightBytes true c (v - 16 * c) else weightBytes false v 0, f)
  else if f.count < 1024 then
    (weightBytes w8 0 0, { f with
      side := { value := bf16Bits (.val (x / s)), row := k % 1024, col := n % 512, kind := 1 } :: f.side, count := f.count + 1 })
  else
    let g : Int := if x < 0 then -1 else 1
    (weightBytes w8 (15 * g) (8 * g), { f with clipped := f.clipped + 1 })

/-- The weights of one chunk row. -/
def convRow (w8 : Bool) (k : Nat) : Nat → List Num → List Num → PlyForm → List Byte × PlyForm
  | n, x :: xs, s :: ss, f =>
    let (b, f) := convWeight w8 k n x.rat s.rat f
    let (bs, f) := convRow w8 k (n + 1) xs ss f
    (b ++ bs, f)
  | _, _, _, f => ([], f)

/-- The rows of a chunk, each 512 bytes. -/
def convRows (w8 : Bool) (cols : Nat) (scales : List Num) : Nat → Nat → List Num → PlyForm → List Byte × PlyForm
  | 0, _, _, f => ([], f)
  | rows + 1, k, xs, f =>
    let (b, f) := convRow w8 k 0 (xs.take cols) scales f
    let (bs, f) := convRows w8 cols scales rows (k + 1) (xs.drop cols) f
    (b ++ List.replicate (512 - b.length) 0 ++ bs, f)

/-- The bytes of a side list, LAST on its final entry. -/
def plySideBytes (f : PlyForm) : List Byte :=
  match f.side with
  | [] => []
  | e :: es => ((es.reverse).flatMap sideBytes) ++ sideBytes { e with last := true }

/-- A bundle written for a loom chunk (11.R310): its golden image, column scales and side list. -/
def State.writeBundle (s : State) (l : LoadReq) (m : Manifest) (c : ChunkRec) (bundle : Nat) : PlyForm × State :=
  let w8 := (m.layerOf c).w8
  let scales := l.scales m c c.col0 c.cols
  let (img, f) := convRows w8 c.cols scales c.rows 0 (l.elements m c) {}
  let s := s.poke bundle (img ++ List.replicate (0x80000 - img.length) 0)
  let sw := (scales ++ List.replicate (512 - c.cols) (Num.val 1)).flatMap (fun (x : Num) => leBytes 4 (fp32Bits x))
  let s := s.poke (bundle + 0x80000) (sw ++ List.replicate 2048 0)
  let side := plySideBytes f
  (f, s.poke (bundle + 0x81000) (side ++ List.replicate (8192 - side.length) 0))

/-- The directory entry that a ply of a chunk takes (11.R309). -/
def plyEntry (l : LoadReq) (m : Manifest) (c : ChunkRec) (bundle : Nat) (f : PlyForm) : DirEntry :=
  let r := m.layerOf c
  { valid := true, bundle := bundle, sideCount := f.count, outs := c.cols, rows := c.rows, slot := l.mslot, unit := r.unit
    layerId := r.layerId }

/-- One placed ply of a loom chunk converted into the bundle at an offset; the directory entry waits for 11.R315. -/
def State.convertPly (s : State) (m : Manifest) (c : ChunkRec) (q bundle : Nat) : State :=
  match s.load with
  | none => s
  | some l =>
    let (f, s) := s.writeBundle l m c bundle
    { s with load := some { l with
        entries := l.entries ++ [(q, plyEntry l m c bundle f)]
        clipped := l.clipped + f.clipped, sideTotal := l.sideTotal + f.count } }

/-- The plies of a loom chunk, one bundle after the other from `place` on. -/
def State.convertPlies (s : State) (m : Manifest) (c : ChunkRec) : Nat → List Nat → State
  | _, [] => s
  | place, q :: qs => (s.convertPly m c q place).convertPlies m c (place + bundleBytes) qs

/-! ### Digital tensors (11.R308) -/

/-- The chunk among `cs` that holds element (k, n), with the element. -/
def elementAt (cs : List (ChunkRec × List Num)) (k n : Nat) : Option Num :=
  (cs.find? (fun e => decide (e.1.row0 ≤ k ∧ k < e.1.row0 + e.1.rows ∧ e.1.col0 ≤ n ∧ n < e.1.col0 + e.1.cols))).map
    (fun e => e.2.getD ((k - e.1.row0) * e.1.cols + (n - e.1.col0)) (.val 0))

/-- A row of the tensor; with scales, each element divided by its own. An element that no chunk of the package gives is
not written, and its bytes are free. -/
def tensorRow (cs : List (ChunkRec × List Num)) (scales : List Num) (n k : Nat) : OutRow :=
  { i1 := k, cells := (List.range n).map (fun j =>
      match elementAt cs k j with
      | some x => .val (match scales[j]? with
        | some s => (divN x s).1
        | none => x)
      | none => .none) }

/-- Rows of a tensor converted and written. -/
def tensorRows (k : Sink) : List OutRow → Convert → ExecM Convert
  | [], v => return v
  | r :: rs, v => do
    match ← (if k.blocked then writeBlockedRow .house k 0 r v else writePlainRow .house k 0 r v) with
    | (v, none) => tensorRows k rs v
    | (_, some e) => throw e

/-- A tensor written: its elements, its block scales, and the side lists of the blocks whose elements were converted. -/
def writeTensor (k : Sink) (rows : List OutRow) : ExecM Unit := do
  let v ← tensorRows k rows {}
  match k.side with
  | some sd => writeSides .house 0 sd v.sides
  | none => return ()

/-- A column record of an INT8 tensor: s_w, zero point 0, and the exact sum of the column's codes (07.R203). -/
def columnRec (s : Num) (codes : List Num) : List Byte :=
  let sum := codes.foldl (fun a u => a + signed 8 (toInt .int8 0 u).1) (0 : Int)
  leBytes 8 (fp32Bits s) ++ leBytes 8 (unsigned 64 sum)

/-- The column records of an INT8 tensor. -/
def columnRecs (rows : List OutRow) (scales : List Num) : List Byte :=
  (scales.mapIdx (fun j s => columnRec s (rows.filterMap (fun r => (r.cells[j]?).bind Cell.value)))).flatten

/-- The tensor of a digital layer formed at an offset, from all its chunks on this device. -/
def State.convertTensor (s : State) (l : LoadReq) (m : Manifest) (layer place : Nat) : State :=
  let r := m.layers.getD layer {}
  let own := s.shape.fabricId
  let cs := (m.chunks.filter (fun c => c.layer == layer && c.kind == 0 && c.shard == own)).map (fun c => (c, l.elements m c))
  let td := r.tensor (s.warehouseAddr place)
  let int8 := r.fmt == some .int8
  let scales := if int8 then (match cs with
    | (c, _) :: _ => l.scales m c 0 r.n
    | [] => []) else []
  let rows := (List.range r.k).map (tensorRow cs scales r.n)
  let bell := td.skind == 2
  let k : Sink :=
    { td := td, unit := 0, quant := bell, thr := if bell then some (ofFp32 r.escT.toNat) else none
      side := if bell then some td else none }
  let s := if rows.any (fun r => r.cells.any (fun x => x == .none)) then s.scramble place (td.str1 * r.k) else s
  let s := match (writeTensor k rows).run s with
    | .ok _ t => t
    | .error _ t => t
  let s := if int8 then s.poke (addrOff td.scaleBase) (columnRecs rows scales) else s
  match s.load with
  | some l => { s with load := some { l with tensors := l.tensors ++ [(layer, td)] } }
  | none => s

/-! ### One chunk -/

/-- A chunk is marked converted. -/
def State.markConverted (s : State) (chunk : Nat) : State :=
  match s.load with
  | some l => { s with load := some { l with chunks := updL l.chunks chunk (fun x => { x with converted := true }) } }
  | none => s

/-- Every chunk of a layer on this device is converted. -/
def LoadReq.layerConverted (l : LoadReq) (m : Manifest) (own layer : Nat) : Bool :=
  (m.chunks.zip l.chunks).all (fun e =>
    e.1.layer != layer || e.1.kind == 1 || e.1.shard != own || e.2.converted)

/-- The column scales that a chunk needs have been verified. -/
def LoadReq.scalesReady (l : LoadReq) (m : Manifest) (c : ChunkRec) : Bool :=
  !(m.layerOf c).scaled || (m.scaleChunks c).all (fun i => (l.chunks.getD i {}).verified)

/-- The bytes that the conversion of a chunk allocates: bundles for its plies, or at the last chunk of a digital layer its
tensor. -/
def State.convertNeed (s : State) (l : LoadReq) (m : Manifest) (chunk : Nat) : Nat :=
  let c := m.chunk chunk
  if c.kind = 1 then 0
  else if m.loomChunk c then bundleBytes * ((s.localMap l.map).filter (fun p => p.chunk == chunk)).length
  else tensorEnd ((m.layerOf c).tensor 0)

/-- A verified chunk of this device's shard converted, what it forms placed at an offset. -/
def State.convertChunk (s : State) (l : LoadReq) (m : Manifest) (chunk place : Nat) : State :=
  let c := m.chunk chunk
  let own := s.shape.fabricId
  let s := s.markConverted chunk
  if c.kind = 1 then s
  else if m.loomChunk c then
    s.convertPlies m c place (((s.localMap l.map).filter (fun p => p.chunk == chunk)).map Placement.q)
  else
    match s.load with
    | some l => if l.layerConverted m own c.layer then s.convertTensor l m c.layer place else s
    | none => s

end Sys2Proof.Machine
end

