-- ==== Sys2Proof/Machine/Submit.lean ====
section
/-!
DEFINITION. Submission entries (14.R382 to R384), the requests JOB, pipeline and CANCEL, companion jobs (19.R480), and the
command that ends a job (15.R400).
-/

namespace Sys2Proof.Machine

/-! ### Entries -/

/-- A submission entry (14.R383). -/
structure Entry where
  kind : Nat := 0
  flags : Nat := 0
  mslot : Nat := 0
  nbind : Nat := 0
  tag : W32 := 0
  arg0 : Nat := 0
  arg1 : Nat := 0
  almask : Nat := 0
  /-- The bytes 0x19 to 0x1F are 0. -/
  clean : Bool := true
  al : List W32 := []
  deriving DecidableEq, Repr

/-- An entry from its 64 bytes. -/
def parseEntry (b : List Byte) : Entry :=
  { kind := leAt b 0 1, flags := leAt b 1 1, mslot := leAt b 2 1, nbind := leAt b 3 1, tag := BitVec.ofNat 32 (leAt b 4 4)
    arg0 := leAt b 8 8, arg1 := leAt b 0x10 8, almask := leAt b 0x18 1, clean := leAt b 0x19 7 == 0
    al := (List.range 8).map (fun i => BitVec.ofNat 32 (leAt b (0x20 + 4 * i) 4)) }

/-- The kinds of 14.R384. -/
def kindListed (k : Nat) : Bool := decide (1 ≤ k ∧ k ≤ 5) || decide (0x10 ≤ k ∧ k ≤ 0x13)

/-- An entry is rejected (14.R384). -/
def Entry.bad (e : Entry) : Bool :=
  !kindListed e.kind || decide (8 ≤ e.flags) || !e.clean || decide (32 < e.nbind)
    || (decide (15 < e.mslot) && e.mslot != 0xFF)

/-- ARG2 word `i`. -/
def Entry.arg2 (e : Entry) (i : Nat) : Nat := (e.al.getD i 0).toNat

/-- The completion of an entry in a slot. -/
def Entry.completion (e : Entry) (slot status : Nat) : Completion :=
  { kind := e.kind, slot := slot, tag := e.tag, status := status, irq := bit e.flags 0 }

/-- Requests are accepted, in every power state: the device is READY, and no ordering point waits for its drains (14.R375,
R382, 16.R415, R419). -/
def State.accepts (s : State) : Bool :=
  decide (s.port.state = .ready) && decide (s.boot = .service) && s.chouse.scrub.isNone && !s.port.pointWaits

/-- Bytes of a ring; those of a poisoned line are free values (10.R277, assumption 26). -/
def State.ringBytes (s : State) (key n : Nat) : List Byte :=
  if s.poisoned key n then (List.range n).map (fun i => Config.unspecifiedByte s.fresh (key + i)) else s.peek key n

/-- The entry at HP_SQ_HEAD, where one stands before the tail and its slot is free. -/
def State.headEntry (s : State) : Option Entry :=
  let p := s.port
  if s.accepts && p.sqHead != p.sqTail && !p.inUse.contains p.sqHead then
    some (parseEntry (s.ringBytes (portKey (64 * p.sqHead)) 64))
  else none

/-- The entry at the head is accepted: the head moves, and its slot is in use. -/
def State.takeHead (s : State) : State :=
  let p := s.port
  let s := { s with
    port := { p with sqHead := (p.sqHead + 1) % 2 ^ p.sqLog, inUse := p.inUse ++ [p.sqHead] }, accepted := s.accepted + 1
    fresh := s.fresh + 1 }
  s.countPkg PE_HP_ACCEPTED 1

/-- The request at the head, where `want` names it: a malformed entry completes with HP_ENTRY_FORM, and any other goes on
with `f`, its slot given. -/
def State.accept (s : State) (want : Entry → Bool) (f : Entry → Nat → State → State) : Out :=
  .next (match s.headEntry with
    | none => s
    | some e =>
      if !want e then s
      else
        let slot := s.port.sqHead
        let s := s.takeHead
        if e.bad then s.finishReq (e.completion slot HP_ENTRY_FORM) else f e slot s)

/-- A request that ends at once. -/
def State.reply (s : State) (e : Entry) (slot status : Nat) : State := s.finishReq (e.completion slot status)

/-! ### JOB -/

/-- The first word at a JOB's ARG0, where it can be read: the MAGIC of what it names. -/
def State.magicOf (s : State) (e : Entry) : Nat :=
  match s.readWh (e.arg0 % 2 ^ 44) 4 with
  | some b => leNat b
  | none => 0

abbrev PIPE_MAGIC : Nat := 0x45504950
abbrev COUNTER_MAGIC : Nat := 0x44524350

/-- The entry is a JOB whose ARG0 names a record with a MAGIC. -/
def State.namesRecord (s : State) (magic : Nat) (e : Entry) : Bool := e.kind == 1 && !e.bad && s.magicOf e == magic

/-- A plain job, or an entry of no listed kind. -/
def State.namesImage (s : State) (e : Entry) : Bool :=
  !kindListed e.kind || (e.kind == 1 && !(s.namesRecord PIPE_MAGIC e || s.namesRecord COUNTER_MAGIC e))

/-- The job of an entry. -/
def Entry.job (e : Entry) (slot seqNo : Nat) : Job :=
  { slot := slot, irq := bit e.flags 0, pcAccess := bit e.flags 1, ordered := bit e.flags 2, mslot := e.mslot
    nbind := e.nbind, tag := e.tag, arg0 := e.arg0, arg1 := e.arg1, almask := e.almask, al := e.al, seqNo := seqNo }

/-- A job waits. -/
def State.addJob (s : State) (j : Job) : State := { s with jobs := s.jobs ++ [j] }

/-- A plain job is accepted: its image's header is checked (15.R399). -/
def State.acceptJob (e : Entry) (slot : Nat) (s : State) : State :=
  if s.headerPasses (e.arg0 % 2 ^ 44) then s.addJob (e.job slot s.accepted) else s.reply e slot JOB_IMAGE

/-- SUBMIT_JOB. -/
def execSubmitJob (s : State) : Out := s.accept s.namesImage State.acceptJob

/-- The actual lengths an entry gives, the others as 07.R192 has them. -/
def Entry.lengths (e : Entry) : List W32 := (List.range 8).map (fun i => if bit e.almask i then e.al.getD i 0 else 0xFFFFFFFF)

/-- The headers of all images that a pipeline record names pass (07.R191, 15.R404). -/
def State.imagesPass (s : State) (b : List Byte) : Bool :=
  (pipeStages b).all (fun g => (List.range 5).all (fun i => leAt g (8 * i) 8 == 0 || s.headerPasses (leAt g (8 * i) 8)))

/-- A pipeline is accepted: its record and the images it names are checked, and its first run waits (15.R404, R405). -/
def State.acceptPipe (e : Entry) (slot : Nat) (s : State) : State :=
  let off := e.arg0 % 2 ^ 44
  let n := match s.readWh off 64 with
    | some b => leAt b 6 1
    | none => 0
  match s.readWh off (64 + 64 * n) with
  | none => s.reply e slot JOB_PIPE_FORM
  | some b =>
    if !pipeOk b e.mslot e.nbind then s.reply e slot JOB_PIPE_FORM
    else if !s.imagesPass b then s.reply e slot JOB_IMAGE
    else s.addJob ((e.job slot s.accepted).nextRun { record := b, stages := leAt b 6 1 } e.lengths)

/-- SUBMIT_PIPELINE (15.R404). -/
def execSubmitPipeline (s : State) : Out := s.accept (s.namesRecord PIPE_MAGIC) State.acceptPipe

/-! ### CANCEL (15.R403) -/

/-- A CANCEL acts on its target, or finds none. -/
def State.acceptCancel (e : Entry) (slot : Nat) (s : State) : State :=
  let ok := e.completion slot 0
  match (s.jobOf (e.arg2 0)).filter (fun j => j.home.isNone && decide (j.st ≠ .ending)) with
  | none => s.reply e slot JOB_NO_TARGET
  | some j =>
    if j.st = .waiting then s.completeJob { j with cancels := j.cancels ++ [ok] } JOB_CANCELLED
    else (s.updJob j.slot (fun j => { j with cancels := j.cancels ++ [ok] })).endJob j.slot JOB_CANCELLED 0 0

/-- SUBMIT_CANCEL. -/
def execSubmitCancel (s : State) : Out := s.accept (fun e => e.kind == 5) State.acceptCancel

/-! ### Dispatch and boundary -/

/-- The cores of the job in the slot have ended, and on the home device its companion jobs with them (15.R400, 19.R480). -/
def State.jobBoundary (s : State) (slot : Nat) : State :=
  match s.jobOf slot with
  | some j => if s.jobOver j && j.cores.all (fun e => s.boundaryReady (coreIx e.2)) then s.passBoundary j else s
  | none => s

/-! ### Companion jobs (19.R480) -/

/-- COMPANION_JOB: it takes the slot 0x8000 + 0x1000 (home id) + (home slot) and no ring entry. -/
def execCompanionJob (home : Fin 8) (homeSlot : Fin 4096) (entry : List Byte) (bind : List W64) (image : List Byte)
    (s : State) : Out :=
  let e := parseEntry entry
  let slot := 0x8000 + 0x1000 * home.val + homeSlot.val
  .next (if s.boot ≠ .service || home.val == s.shape.fabricId || e.bad || e.kind != 1 || (s.jobOf slot).isSome then s
    else s.addJob { e.job slot s.accepted with home := some home.val, image := image, binds := bind, irq := false })

end Sys2Proof.Machine
end

