-- ==== Sys2Proof/Machine/Intake.lean ====
section
/-!
DEFINITION. Intake through the Wharf and from another device (11.R296 to R305): the requests, the staging heap, digest checks,
overdue chunks, and pulls.
-/

namespace Sys2Proof.Machine

/-- The load in progress with `f` applied. -/
def State.updLoad (s : State) (f : LoadReq → LoadReq) : State := { s with load := s.load.map f }

/-- The index that names the manifest (11.R301). -/
abbrev MANIFEST_INDEX : Nat := 0xFFFFFFFF

/-! ### Requests (11.R296 to R300) -/

/-- The placement map a request names, where it can be read. -/
def State.readMap (s : State) (e : Entry) : Option (List Placement) :=
  let n := e.arg2 0
  (s.readWh (e.arg1 % 2 ^ 44) (8 * n)).map (fun b => (words 8 n b).map parsePlacement)

/-- A FENCE that names the core is being executed (14.R393). -/
def State.beingFenced (s : State) (c : Fin 64) : Bool :=
  s.mgmt.waiting.any (fun r => r.cmd == 3 && bit (leAt r.args 0 8) c.val)

/-- A LOAD or RESTORE is accepted: the checks of 11.R297 and R299 that need no manifest, and the staging heap. -/
def State.acceptLoad (restore : Bool) (e : Entry) (slot : Nat) (s : State) : State :=
  if s.load.isSome then s.reply e slot WL_BUSY
  else if 16 ≤ e.mslot then s.reply e slot HP_ENTRY_FORM
  else
    match s.readMap e with
    | none => s.reply e slot WL_PLACEMENT
    | some map =>
      if (s.localMap map).any (fun p => s.beingFenced (coreIx (p.engine / 16))) then s.reply e slot WL_ABORTED
      else match firstIndex (s.entryFails map e.mslot) map with
      | some i => s.finishReq { e.completion slot WL_PLACEMENT with d2 := i }
      | none =>
        if restore && decide ((getN s.models e.mslot {}).st ≠ .dormant) then s.reply e slot WL_PLACEMENT
        else match s.heapPlace with
        | none => s.reply e slot WL_NO_SPACE
        | some a =>
          let l : LoadReq :=
            { done := e.completion slot 0, mslot := e.mslot, restore := restore, pkgLen := e.arg0, map := map, heapAt := some a }
          { s with load := some l, fresh := s.fresh + 1 }

/-- SUBMIT_LOAD (11.R296). -/
def execSubmitLoad (s : State) : Out := s.accept (fun e => e.kind == 2) (State.acceptLoad false)

/-- SUBMIT_RESTORE (11.R325). -/
def execSubmitRestore (s : State) : Out := s.accept (fun e => e.kind == 3) (State.acceptLoad true)

/-- An UNLOAD is accepted: the slot holds its jobs (11.R297, R324). -/
def State.acceptUnload (e : Entry) (slot : Nat) (s : State) : State :=
  if s.load.isSome then s.reply e slot WL_BUSY
  else if 16 ≤ e.mslot then s.reply e slot HP_ENTRY_FORM
  else if (List.finRange 64).any (fun c => s.beingFenced c && s.ownsOn e.mslot c) then s.reply e slot WL_ABORTED
  else { s with models := updN s.models e.mslot (fun k => { k with unload := k.unload ++ [e.completion slot 0] }) }

/-- SUBMIT_UNLOAD. -/
def execSubmitUnload (s : State) : Out := s.accept (fun e => e.kind == 4) State.acceptUnload

/-! ### Staging (11.R300 to R302) -/

/-- Bytes of the manifest's pages: MANIFEST_LEN as the staged header has it, within the package. -/
def LoadReq.manifestPages (l : LoadReq) : Nat :=
  min (roundUpPage (match l.manifest with
    | some m => m.len
    | none => leNat (l.heap.bytes 0x24 4))) l.pkgLen

/-- Every granule of a span of pages holds its written bit. -/
def LoadReq.allWritten (l : LoadReq) (o n : Nat) : Bool :=
  (List.range (roundUpPage n / 64)).all (fun i => l.written.contains (o / 64 + i))

/-- The manifest is staged: its header's first granule tells its length. -/
def LoadReq.manifestStaged (l : LoadReq) : Bool := l.written.contains 0 && l.allWritten 0 l.manifestPages

/-- Chunks whose pages are all written. -/
def LoadReq.chunkStaged (l : LoadReq) (c : ChunkRec) : Bool := l.allWritten c.offset c.length

/-- The span of pages that a written package byte lies in is frozen: a verified chunk's, or the manifest's (11.R301). -/
def LoadReq.frozen (l : LoadReq) (p : Nat) : Bool :=
  match l.manifest with
  | none => false
  | some m =>
    decide (p < roundUpPage m.len)
      || (m.chunks.zip l.chunks).any (fun e =>
          e.2.verified && decide (e.1.offset ≤ p) && decide (p < e.1.offset + roundUpPage e.1.length))

/-- A list without one of its elements. -/
def dropFrom {α : Type} [BEq α] (x : α) (l : List α) : List α := l.filter (fun y => !(y == x))

/-- Chunks that have become staged join those to be checked, lower chunks not yet staged become overdue (11.R301, R302). -/
def LoadReq.stage (l : LoadReq) : LoadReq :=
  match l.manifest with
  | none => if l.manifestStaged && !l.toCheck.contains none then { l with toCheck := l.toCheck ++ [none] } else l
  | some m =>
    let both := m.chunks.zip l.chunks
    let new := (List.range both.length).filter (fun i =>
      match both[i]? with
      | some (c, x) => !x.staged && l.chunkStaged c
      | none => false)
    let top := new.foldl (fun a i => max a (i + 1)) 0
    { l with
      toCheck := l.toCheck ++ new.map some
      chunks := l.chunks.mapIdx (fun i x =>
        if new.contains i then { x with staged := true, overdue := false }
        else if i + 1 < top ∧ !x.staged then { x with overdue := true }
        else x) }

/-- One host write at Wharf offset `a` (11.R300): the package takes it, and the staging heap in the Warehouse, where the manifest's
pages stay as they are until the intake closes (11.R303, assumption 96). -/
def State.writeWharf (s : State) (a : Nat) (data : Burst) : State :=
  let addr := hostAddrWord .b a
  match s.load with
  | none => s.setDrop (some addr)
  | some l =>
    if !s.intakeOpen then s.setDrop (some addr)
    else
      let w := l.windowBase s.shape.fabricId
      let p := w + (a + 2 ^ 30 - w % 2 ^ 30) % 2 ^ 30
      if l.pkgLen ≤ p || l.frozen p then s.setDrop (some addr)
      else if !data.any Option.isSome then s
      else
        let last := (data.mapIdx (fun i b => if b.isSome then i + 1 else 0)).foldl max 0
        let gs := (List.range ((p % 64 + data.length + 63) / 64)).map (fun i => p / 64 + i)
        let l := { l with
          heap := l.heap.writeMasked p data, written := gs.foldl insertRising l.written, top := max l.top (p + last) }
        let s := { s with load := some l.stage, port := { s.port with framesUsed := true } }
        match l.heapAt with
        | some h => if p < 2 ^ 30 || l.manifestPages ≤ p % 2 ^ 30 then s.pokeMasked (h + p % 2 ^ 30) data else s
        | none => s

/-- WHARF_WRITE. -/
def execWharfWrite (a : HostAddr) (data : Burst) (s : State) : Out :=
  s.hostWrite a data (fun off s => if s.target a.ch off = .wharf then s.writeWharf off data else s)

/-! ### Digest checks (11.R301, R304) -/

/-- A RESEND notice (14.R385). -/
def resendNotice (l : LoadReq) (chunk : Nat) : Completion :=
  { kind := 0x80, slot := l.done.slot, d0 := chunk, irq := l.done.irq, frees := false }

/-- The written bits of a span of pages cleared. -/
def LoadReq.clearPages (l : LoadReq) (o n : Nat) : LoadReq :=
  { l with written := l.written.filter (fun g => g < o / 64 || o / 64 + roundUpPage n / 64 ≤ g) }

/-- The manifest's signature has failed: the fourth time ends the request; before, the host writes it again, or a holder reads
it again (11.R301, R305). -/
def State.manifestDamaged (s : State) (l : LoadReq) : State :=
  if !l.intake && decide (l.manifestFails < 3) then { s with load := some { l with manifestFails := l.manifestFails + 1 } }
  else if 4 ≤ l.manifestFails + 1 then s.loadFailure WL_SHARD_CORRUPT MANIFEST_INDEX
  else
    ({ s with load := some { l.clearPages 0 l.manifestPages with
        manifestFails := l.manifestFails + 1, manifestOverdue := true } } : State).finishReq (resendNotice l MANIFEST_INDEX)

/-- Some device that must hold a shard is not there (11.R305). -/
def State.shardMissing (s : State) (m : Manifest) : Bool :=
  m.chunks.any (fun c => c.shard != s.shape.fabricId && (match getN s.fabric.members c.shard none with
    | some (_, lost) => lost || !(getN s.fabric.routes c.shard {}).valid
    | none => true))

/-- The manifest has passed: the map's remaining checks, the space for the model, the other holders, and the chunks that are
staged already (11.R299, R305, R308). -/
def State.manifestPassed (s : State) (l : LoadReq) (m : Manifest) : State :=
  match s.mapFails l m with
  | some i => s.loadFailure WL_PLACEMENT i
  | none =>
    if s.freeSpace < s.loadNeed l m then s.loadFailure WL_NO_SPACE 0
    else if l.intake && s.shardMissing m then s.loadFailure WL_SHARD_MISSING 0
    else
      let l := { l with
        manifest := some m, manifestOverdue := false
        chunks := m.chunks.map (fun (c : ChunkRec) => { pulled := c.shard == s.shape.fabricId }) }
      { s with load := some l.stage }

/-- The checks of a manifest's bytes: form, signer, signature (11.R293, R294, 17.R431, R432). -/
def State.checkManifest (s : State) (l : LoadReq) (b : List Byte) : State :=
  if !manifestOk b l.pkgLen then s.loadFailure WL_MANIFEST_FORM 0
  else
    let m := parseManifest b
    match s.acceptSigner m l.mslot l.restore with
    | none => (s.enrolled m l.restore).loadFailure WL_MANIFEST_SIG 0
    | some s => if signatureOk b then s.manifestPassed l m else s.manifestDamaged l

/-- A chunk's digest fails: the fourth time ends the request (11.R301). -/
def State.chunkDamaged (s : State) (l : LoadReq) (i : Nat) (c : ChunkRec) : State :=
  if 4 ≤ (l.chunks.getD i {}).failures + 1 then s.loadFailure WL_SHARD_CORRUPT i
  else
    ({ s with load := some { l.clearPages c.offset c.length with
        chunks := updL l.chunks i (fun x => { x with staged := false, failures := x.failures + 1, overdue := true }) } } :
      State).finishReq (resendNotice l i)

/-- The check of one staged chunk. -/
def State.checkChunk (s : State) (l : LoadReq) (m : Manifest) (i : Nat) : State :=
  let c := m.chunk i
  if sha512 (l.heap.bytes c.offset c.length) = c.digest then
    { s with load := some { l with chunks := updL l.chunks i (fun x => { x with verified := true, overdue := false }) } }
  else s.chunkDamaged l i c

/-- CHUNK_DIGEST_CHECK: the first staged chunk, or the manifest, is checked. -/
def execChunkDigestCheck (s : State) : Out :=
  .next (match s.load with
    | none => s
    | some l =>
      match l.toCheck with
      | [] => s
      | i :: rest =>
        let l := { l with toCheck := rest }
        match i, l.manifest with
        | none, _ => s.checkManifest l (l.heap.bytes 0 (min (leNat (l.heap.bytes 0x24 4)) l.pkgLen))
        | some i, some m => s.checkChunk l m i
        | some _, none => s)

/-! ### Time limits (11.R302, R305) -/

/-- CHUNK_OVERDUE_EXPIRY: 250 ms since the chunk became overdue; 0xFFFFFFFF names the manifest. -/
def execChunkOverdueExpiry (chunk : Nat) (s : State) : Out :=
  .next (match s.load with
    | none => s
    | some l =>
      let x := l.chunks.getD chunk {}
      let late := if chunk = MANIFEST_INDEX then l.manifestOverdue && l.manifest.isNone && !l.manifestStaged
        else x.overdue && !x.staged
      if l.intake && late then s.loadFailure WL_SHARD_MISSING chunk else s)

/-- INTAKE_IDLE_TIMEOUT: no Wharf write for 250 ms; the lowest chunk not staged becomes overdue. -/
def execIntakeIdleTimeout (s : State) : Out :=
  .next (if !s.intakeOpen then s
    else s.updLoad (fun l =>
      match l.manifest with
      | none => if l.manifestStaged then l else { l with manifestOverdue := true }
      | some _ =>
        match firstIndex (fun (x : ChunkState) => !x.staged) l.chunks with
        | some i => { l with chunks := updL l.chunks i (fun x => { x with overdue := true }) }
        | none => l))

/-! ### Other devices (11.R305) -/

/-- What a holder has of a load it hears of: a manifest copy that failed is read again in the same request. -/
def State.announced (s : State) (peer mslot pkgLen : Nat) (digest : List Byte) (places : List Placement) : Option LoadReq :=
  match s.load with
  | none =>
    let k := getN s.models mslot {}
    some { mslot := mslot, intake := false, intakeId := peer, pkgLen := pkgLen, map := places
           restore := decide (k.st = .dormant) && decide (k.digest = digest) }
  | some l =>
    if !l.intake && l.intakeId == peer && l.mslot == mslot && l.manifest.isNone && decide (0 < l.manifestFails) then some l
    else none

/-- LOAD_ANNOUNCE: a holder hears of a load, and checks its manifest and the map itself; the intake device hears of a failure
(11.R297, R299, R305). -/
def execLoadAnnounce (peer : Fin 8) (mslot : Fin 16) (pkgLen : Nat) (manifest : List Byte) (map : List W64) (s : State) :
    Out :=
  let places := map.map (fun w => parsePlacement w.toNat)
  let known := match getN s.fabric.members peer.val none with
    | some (_, lost) => !lost
    | none => false
  .next (if s.boot ≠ .service || peer.val == s.shape.fabricId || !known then s
    else match s.announced peer.val mslot.val pkgLen (sha512 (manifest.take (manifest.length - 64))) places with
    | none => s.tellLoad peer.val WL_BUSY 0
    | some l =>
      if (s.localMap places).any (fun p => s.beingFenced (coreIx (p.engine / 16))) then s.tellLoad peer.val WL_ABORTED 0
      else match firstIndex (s.entryFails places mslot.val) places with
      | some i => s.tellLoad peer.val WL_PLACEMENT i
      | none => ({ s with load := some l } : State).checkManifest l manifest)

/-- A copy that a holder has pulled: it is checked, and the fourth failure ends the request. On the intake device, a holder
has verified its copy, or not. -/
def State.pullCopy (s : State) (l : LoadReq) (c : ChunkRec) (i : Nat) (data : List Byte) : State :=
  let good := decide (data.length = c.length ∧ sha512 data = c.digest)
  let fails := (l.chunks.getD i {}).failures + 1
  if good then
    { s with load := some { l with
        heap := if l.intake then l.heap else l.heap.write c.offset data
        chunks := updL l.chunks i (fun x => if l.intake then { x with pulled := true } else { x with staged := true, verified := true }) } }
  else if 4 ≤ fails then s.loadFailure WL_SHARD_CORRUPT i
  else { s with load := some { l with chunks := updL l.chunks i (fun x => { x with failures := fails }) } }

/-- CHUNK_PULL. -/
def execChunkPull (chunk : Nat) (data : List Byte) (s : State) : Out :=
  .next (match s.load with
    | none => s
    | some l =>
      match l.manifest with
      | none => s
      | some m =>
        let c := m.chunk chunk
        let x := l.chunks.getD chunk {}
        let here := c.shard == s.shape.fabricId
        if m.chunks.length ≤ chunk || (if l.intake then here || !x.verified || x.pulled else !here || x.verified) then s
        else s.pullCopy l c chunk data)

/-- PULL_TIMEOUT: 250 ms since the intake device verified the chunk. -/
def execPullTimeout (chunk : Nat) (s : State) : Out :=
  .next (match s.load with
    | none => s
    | some l =>
      match l.manifest with
      | none => s
      | some m =>
        let c := m.chunk chunk
        let x := l.chunks.getD chunk {}
        let here := c.shard == s.shape.fabricId
        if chunk < m.chunks.length && (if l.intake then !here && x.verified && !x.pulled else here && !x.verified) then
          s.loadFailure WL_SHARD_MISSING chunk
        else s)

end Sys2Proof.Machine
end

