-- ==== Sys2Proof/Machine/Remap.lean ====
section
/-!
DEFINITION. The remap of a fenced core's plies (20.R495 to R501): the search for a destination, its programming, the digital
fall-back, and the search repeated once plies are free.
-/

namespace Sys2Proof.Machine

/-- The slot's entry with `f` applied. -/
def State.updModel (s : State) (m : Nat) (f : Model → Model) : State := { s with models := updN s.models m f }

/-- The slot's entry. -/
def State.model (s : State) (m : Nat) : Model := getN s.models m {}

/-- The loom-plies that a slot owns on a core, rising. -/
def State.slotPlies (s : State) (m : Nat) (c : Fin 64) : List Nat :=
  (s.pliesWhere (fun r => r.owner == some m)).filter (fun q => plyCore q == c)

/-- The same position on another core. -/
def moveTo (d : Fin 64) (q : Nat) : Nat := plyNo d (plyEngine q) (q % 8)

/-- A core is in the slot's core set, or a stand-in for the slot. -/
def State.inSlot (s : State) (m : Nat) (d : Nat) : Bool :=
  (s.slotCores m).any (fun e => e.2 == d) || (s.model m).pairs.any (fun p => p.2 == d)

/-- The order of search: the cores of the fenced core's cluster, of its die, and of the other die (20.R495). -/
def searchOrder (c : Fin 64) : List (Fin 64) :=
  let all := List.finRange 64
  let die (d : Fin 64) : Nat := d.val / 32
  all.filter (fun d => d.val / 8 == c.val / 8)
    ++ all.filter (fun d => die d == die c && d.val / 8 != c.val / 8)
    ++ all.filter (fun d => die d != die c)

/-- A ply is free for a remap: unowned and not worn. -/
def State.plyFree (s : State) (q : Nat) : Bool := (s.plyRec q).owner.isNone && !(s.plyRec q).worn

/-- A core may be the destination of the slot's plies on a fenced core (20.R495). -/
def State.canTake (s : State) (m : Nat) (c d : Fin 64) : Bool :=
  s.usable d && !s.inSlot m d.val && (s.slotPlies m c).all (fun q => s.plyFree (moveTo d q)) && !s.loadOn d
    && !s.models.toList.any (fun k => (k.remapTo.map (fun p => p.2)) == some d.val)

/-- The destination of the slot's plies on a fenced core. -/
def State.remapDest (s : State) (m : Nat) (c : Fin 64) : Option (Fin 64) := (searchOrder c).find? (s.canTake m c)

/-- Some bundle that the slot owns on the core holds a poisoned granule (20.R500). -/
def State.goldenPoisoned (s : State) (m : Nat) (c : Fin 64) : Bool :=
  (s.slotPlies m c).any (fun q => s.poisoned (s.dirOf q).bundle bundleBytes)

/-- The slot becomes FAILED by a lost bundle, and no remap of it goes on (20.R500). -/
def State.remapLost (s : State) (m : Nat) : State :=
  let s := match (s.model m).remapTo with
    | some (_, d) => s.updCore (coreIx d) (fun k => { k with service := false })
    | none => s
  (s.updModel m (fun k => { k with remaps := [], remapTo := none })).goldenLost m

/-- Digital fall-back: the lowest usable core outside the slot's set stands in (20.R498); with none, the slot's jobs find no
core (20.R501). -/
def State.fallBack (s : State) (m : Nat) (c : Fin 64) : State :=
  if s.goldenPoisoned m c then s.remapLost m
  else
    let done (s : State) : State := s.updModel m (fun k => { k with remaps := k.remaps.filter (fun x => x != c.val) })
    match (List.finRange 64).find? (fun d => s.usable d && !s.inSlot m d.val) with
    | none => done s
    | some d =>
      ((done s).updModel m (fun k => { k with
        pairs := k.pairs ++ [(c.val, d.val)], digital := insertRising k.digital d.val })).logEvent FN_REMAP_DIGITAL

/-- The slot computes a fenced core's positions digitally. -/
def State.isDigital (s : State) (m c : Nat) : Bool :=
  (s.model m).pairs.any (fun p => p.1 == c && (s.model m).digital.contains p.2)

/-- The first core of a slot that awaits a remap gets its destination, or falls back (20.R495). A slot that computes the
positions digitally already stays so when no destination is left. -/
def State.startRemap (s : State) (m : Nat) (c : Fin 64) : State :=
  match s.remapDest m c with
  | some d =>
    (s.updModel m (fun k => { k with remapTo := some (c.val, d.val) })).updCore d (fun k => { k with service := true })
  | none =>
    if s.isDigital m c.val then s.updModel m (fun k => { k with remaps := k.remaps.filter (fun x => x != c.val) })
    else s.fallBack m c

/-- The search is repeated for each slot with digital positions: where a destination is found, the slot is held for a remap
(20.R499). -/
def State.retrySearch (s : State) : State :=
  (List.range 16).foldl (fun s m =>
    let k := s.model m
    if k.remapTo.isSome then s
    else
      match k.pairs.find? (fun p => k.digital.contains p.2 && (s.remapDest m (coreIx p.1)).isSome) with
      | some p => s.updModel m (fun k => { k with remaps := insertRising k.remaps p.1 })
      | none => s) s

/-- A ply changes place: its residency, its place in the model's table, and its directory entry, whose bundle stays
(20.R496). -/
def State.movePly (s : State) (m q q' : Nat) : State :=
  let d := s.dirOf q
  let r := s.plyRec q
  let s := s.updPly q' (fun x => { x with owner := some m, unit := r.unit })
  let s := s.updPly q (fun x => { x with owner := none, unit := 0 })
  let s := s.updModel m (fun k => { k with places := k.places.map (fun x => if x.ply = q then { x with ply := q' } else x) })
  (s.putDir q' d).dropDir q

/-- The steps of 11.R315 for one position on the destination; whether it may serve. -/
def State.remapPly (s : State) (q q' : Nat) : Bool × State :=
  let d := s.dirOf q
  let w8 := (s.plyRec q).w8
  let (r, s) := s.progSteps q' d.bundle w8
  if r.ok then (true, (s.writeSums q' d.bundle d.sideCount w8).initialTrim q' d.bundle w8) else (false, s)

/-- The positions of a fenced core in ascending ply number, then engine; whether all may serve. -/
def State.remapPlies (s : State) (m : Nat) (d : Fin 64) : List Nat → Bool × State
  | [] => (true, s)
  | q :: qs =>
    let (ok, s) := s.remapPly q (moveTo d q)
    if ok then s.remapPlies m d qs else (false, s)

/-- Positions in the order of their ply numbers (20.R496). -/
def byPly (qs : List Nat) : List Nat := (List.range 8).flatMap (fun p => qs.filter (fun q => q % 8 == p))

/-- The destination becomes the fenced core's stand-in; where the fenced core was itself a stand-in, it takes that place
(20.R497). A digital stand-in is released (20.R499). -/
def State.standIn (s : State) (m : Nat) (c d : Nat) : State :=
  s.updModel m (fun k =>
    let orig := ((k.pairs.find? (fun p => p.2 == c)).map (fun p => p.1)).getD c
    let gone := (k.pairs.filter (fun p => p.1 == c)).map (fun p => p.2)
    { k with
      pairs := k.pairs.filter (fun p => p.1 != c && p.2 != c) ++ [(orig, d)]
      digital := k.digital.filter (fun x => !gone.contains x)
      remaps := k.remaps.filter (fun x => x != c), remapTo := none })

/-- The end of a remap: residency, directory and stand-in, the log, and the search repeated (20.R496, R497, R499). -/
def State.endRemap (s : State) (m : Nat) (c d : Fin 64) : State :=
  let s := (s.slotPlies m c).foldl (fun s q => s.movePly m q (moveTo d q)) s
  let s := (s.standIn m c.val d.val).updCore d (fun k => { k with service := false })
  (s.logEvent FN_REMAP_DONE).retrySearch

/-- The remap of a slot's plies from a fenced core to its destination (20.R496): the self-test, every position, and the end;
a destination that fences is abandoned. -/
def State.programRemap (s : State) (m : Nat) (c d : Fin 64) : State :=
  let (pass, s) := s.selfTest d
  if !pass then s
  else if s.goldenPoisoned m c then s.remapLost m
  else
    let (ok, s) := s.remapPlies m d (byPly (s.slotPlies m c))
    if ok then s.endRemap m c d else s.fenceCore d FN_ANNEAL

/-- The destination has no job and nothing in its queues, and its programming needs no wait for a grant. -/
def State.remapReady (s : State) (d : Fin 64) : Bool :=
  s.usable d && s.cores[d].job.isNone && s.inQueues (.core d) 63 == [] && s.cores[d].seq.syncBuf.isEmpty
    && s.progFree d 16 && s.capFree d 16

/-! ### The commands -/

/-- REMAP_START: a slot's first fenced core gets its destination or falls back; a slot that holds 16 pairs and loses a further
core becomes FAILED (20.R495, R497, R498). -/
def execRemapStart (c : Fin 64) (mslot : Fin 16) (s : State) : Out :=
  let m := mslot.val
  let k := s.model m
  .next (if s.boot ≠ .service || k.remaps.head? != some c.val || k.remapTo.isSome || k.st ≠ .resident
      || s.chouse.scrub.isSome then s
    else if 16 ≤ k.pairs.length && !s.isDigital m c.val then
      s.updModel m (fun k => { k with st := .failed, remaps := [] })
    else s.startRemap m c)

/-- REMAP_PROGRAM (20.R496). -/
def execRemapProgram (c : Fin 64) (mslot : Fin 16) (s : State) : Out :=
  .next (match (s.model mslot.val).remapTo with
    | some (f, d) =>
      if f == c.val && s.remapReady (coreIx d) then s.programRemap mslot.val c (coreIx d) else s
    | none => s)

end Sys2Proof.Machine
end

