-- ==== Sys2Proof/Machine/Weights.lean ====
section
/-!
DEFINITION. The loader, admission, the swap and its rollback, and the end of an UNLOAD (11.R306 to R326).
-/

namespace Sys2Proof.Machine

/-! ### Conversion -/

/-- The cores that receive a chunk's plies have no job: the loader runs between their jobs. -/
def State.coresIdle (s : State) (qs : List Nat) : Bool := qs.all (fun q => s.usable (plyCore q) && s.coreIdle (plyCore q))

/-- A verified chunk of this device's shard may be converted, what it forms at `place`. -/
def State.mayConvert (s : State) (l : LoadReq) (m : Manifest) (chunk place : Nat) : Bool :=
  let c := m.chunk chunk
  let x := l.chunks.getD chunk {}
  let need := s.convertNeed l m chunk
  decide (chunk < m.chunks.length) && c.shard == s.shape.fabricId && x.verified && !x.converted && l.scalesReady m c
    && (need == 0 || s.canPlace place need)
    && s.coresIdle (((s.localMap l.map).filter (fun p => p.chunk == chunk)).map Placement.q)

/-- CHUNK_CONVERT (11.R306 to R308). -/
def execChunkConvert (chunk place : Nat) (s : State) : Out :=
  .next (match s.load with
    | none => s
    | some l =>
      match l.manifest with
      | none => s
      | some m =>
        if !s.mayConvert l m chunk place then s
        else if l.chunkBad m (m.chunk chunk) then s.loadFailure WL_CHUNK_FORM chunk
        else s.convertChunk l m chunk place)

/-! ### Programming (11.R315) -/

/-- The end of the steps on a ply: its column sums, its initial trim, and its directory entry, VALID last. -/
def State.registerPly (s : State) (q : Nat) (d : DirEntry) (w8 : Bool) : State :=
  ((s.writeSums q d.bundle d.sideCount w8).initialTrim q d.bundle w8).putDir q d

/-- The class of a ply of the load. -/
def LoadReq.classOf (l : LoadReq) (m : Manifest) (own q : Nat) : Bool :=
  match l.map.find? (fun p => p.device == own && p.q == q) with
  | some p => (m.layerOf (m.chunk p.chunk)).w8
  | none => false

/-- Steps 1 to 6 on one ply of the load; whether it may serve. A ply that fails is not registered. -/
def State.loadPly (s : State) (q : Nat) (d : DirEntry) (w8 : Bool) : Bool × State :=
  let (r, s) := s.progSteps q d.bundle w8
  let s := s.updLoad (fun l => { l with outTol := l.outTol + r.out })
  if r.ok then (true, s.registerPly q d w8) else (false, s)

/-- A ply of a RESTORE: VERIFY against its image, which is a full run too; with more than 64 pairs outside tolerance it is
programmed in full (11.R325, 12.R333). -/
def State.restorePly (s : State) (q : Nat) (d : DirEntry) (w8 : Bool) : Bool × State :=
  let img := s.goldenOf d.bundle w8
  let c := plyCore q
  let s := s.selectPlies c [(plyEngine q, q % 8)]
  let (v, s) := s.verifyAll c (plyEngine q) (q % 8) w8 img
  if 64 < v.left then
    s.updLoad (fun l => { l with reprogrammed := l.reprogrammed + 1 }) |>.loadPly q d w8
  else
    let s := s.updLoad (fun l => { l with outTol := l.outTol + v.left })
    let a := s.assayPly q
    let s := (s.fullFit q v.reads).registerPly q d w8
    (true, s.updAssay q (fun x => { x with fullAge := a.fullAge, fullG := a.fullG, fullT := a.fullT, fullDone := a.fullDone }))

/-- The loader may program the ply before admission: it is converted and not yet programmed, free, or in a RESTORE owned and
its age known (12.R343); its core has no job, and its grants need no wait. -/
def State.mayProgram (s : State) (l : LoadReq) (q : Nat) : Bool :=
  let r := s.plyRec q
  !l.admitted && !l.programmed.contains q
    && (if l.restore then r.owner == some l.mslot && !(s.assayPly q).ageEstimate else r.owner.isNone)
    && s.coresIdle [q] && s.progFree (plyCore q) 1 && s.capFree (plyCore q) 1

/-- LOADER_PLY_PROGRAM. -/
def execLoaderPlyProgram (ply : Fin 8192) (s : State) : Out :=
  let q := ply.val
  .next (match s.load with
    | none => s
    | some l =>
      match l.manifest, l.entries.find? (fun e => e.1 == q) with
      | some m, some (_, d) =>
        if !s.mayProgram l q then s
        else
          let w8 := l.classOf m s.shape.fabricId q
          let (ok, s) := if l.restore then s.restorePly q d w8 else s.loadPly q d w8
          if ok then s.updLoad (fun l => { l with programmed := l.programmed ++ [q] }) else s.loadFailure WL_PROG_FAIL q
      | _, _ => s)

/-! ### Admission (11.R317) -/

/-- Every chunk of this device's shard is verified and converted, and every other chunk that this device takes in has been
pulled. -/
def State.chunksDone (s : State) (l : LoadReq) (m : Manifest) : Bool :=
  (m.chunks.zip l.chunks).all (fun e =>
    if e.1.shard = s.shape.fabricId then e.2.verified && e.2.converted else !l.intake || (e.2.verified && e.2.pulled))

/-- Every ply that was to be programmed before admission is. -/
def State.pliesDone (s : State) (l : LoadReq) : Bool :=
  (s.loadPlies l).all (fun q => l.programmed.contains q || (!l.restore && (s.plyRec q).owner == some l.mslot))

/-- Shard digests of the shards that this device holds, by shard (11.R295). -/
def Manifest.shardDigests (m : Manifest) (own : Nat) : List (List Byte) :=
  (List.range 8).map (fun i =>
    let cs := m.chunks.filter (fun c => c.shard == i)
    if i = own ∧ cs ≠ [] then sha512 (cs.flatMap (fun c => c.digest)) else [])

/-- The places of the chunks on this device (11.R319). -/
def State.placesOf (s : State) (l : LoadReq) (m : Manifest) : List ChunkPlace :=
  (s.localMap l.map).map (fun p =>
    let c := m.chunk p.chunk
    let r := m.layerOf c
    { layer := c.layer, row0 := c.row0, col0 := c.col0, ply := p.q, w8 := r.w8, unit := r.unit })

/-- Serials of the devices that hold a shard. -/
def State.holdersOf (s : State) (m : Manifest) : List W64 :=
  (List.range 8).filterMap (fun i =>
    if m.chunks.any (fun c => c.shard == i) then (getN s.fabric.members i none).map (fun e => e.1) else none)

/-- The model table entry of a package whose model the slot now holds (11.R287). -/
def State.enterModel (s : State) (l : LoadReq) (m : Manifest) : State :=
  let places := s.placesOf l m
  let holders := s.holdersOf m
  let own := s.shape.fabricId
  s.updModel l.mslot (fun k => { k with
    st := .resident, digest := m.digest, modelId := m.modelId, ver := m.ver, shards := m.shards
    shardDigests := m.shardDigests own, tensors := l.tensors, places := places, holders := holders
    awaits := if l.restore then k.awaits else [] })

/-- MODEL_ADMISSION: a LOAD's intake closes, its heap is freed, and the slot's barrier is raised; a RESTORE ends, its slot
RESIDENT (11.R317, R318, R325). -/
def execModelAdmission (peersDone : Bool) (s : State) : Out :=
  .next (match s.load with
    | none => s
    | some l =>
      match l.manifest with
      | none => s
      | some m =>
        if l.admitted || !peersDone && m.chunks.any (fun c => c.shard != s.shape.fabricId) || !s.chunksDone l m
            || !s.pliesDone l then s
        else if l.restore then ((s.enterModel l m).updLoad (fun l => { l with admitted := true })).closeLoad 0 0
        else
          let s := s.updLoad (fun l => { l with
            admitted := true, heap := [], heapAt := none, written := [], oldTensors := (s.model l.mslot).tensors })
          s.updModel l.mslot (fun k => { k with barrier := true, swapMask := 0 }))

/-! ### The swap (11.R318 to R320) -/

/-- A job bound to the slot has been dispatched. -/
def State.slotBusy (s : State) (m : Nat) : Bool := s.jobs.any (fun j => j.mslot == m && decide (j.st ≠ .waiting))

/-- The units of a package, rising. -/
def Manifest.units (m : Manifest) : List Nat := m.layers.foldl (fun a l => insertRising a l.unit) []

/-- The unit a swap step takes, and whether it is the last: all of the package at once, or the next of a MIXABLE one. -/
def LoadReq.nextUnit (l : LoadReq) (m : Manifest) : Option Nat :=
  if m.mixable then (m.units.find? (fun u => !l.unitsDone.contains u)) else none

/-- The plies that a swap step programs: those of the step's unit that the slot's old model owns. -/
def State.swapPlies (s : State) (l : LoadReq) (m : Manifest) : List (Nat × DirEntry) :=
  l.entries.filter (fun e =>
    !l.programmed.contains e.1 && (!m.mixable || some e.2.unit == l.nextUnit m) && (s.plyRec e.1).owner == some l.mslot)

/-- Plies programmed one after the other for the new model, the old entries of those that took pulses kept for a rollback; whether all may serve,
and else the ply that may not. -/
def State.swapEach (s : State) (l : LoadReq) (m : Manifest) : List (Nat × DirEntry) → Option Nat × State
  | [] => (none, s)
  | (q, d) :: rest =>
    let old := (q, s.dirOf q, (s.plyRec q).w8)
    let s := if (s.plyRec q).worn then s else s.updLoad (fun l => { l with old := old :: l.old })
    let (ok, s) := s.loadPly q d (l.classOf m s.shape.fabricId q)
    if ok then (s.updLoad (fun l => { l with programmed := l.programmed ++ [q] })).swapEach l m rest else (some q, s)

/-- The slot owns every ply of the load with its unit. -/
def State.takePlies (s : State) (l : LoadReq) : State :=
  l.entries.foldl (fun s e => s.updPly e.1 (fun r => { r with owner := some l.mslot, unit := e.2.unit })) s

/-- A ply is free again: it keeps its cells. -/
def State.freePly (s : State) (q : Nat) : State := (s.updPly q (fun r => { r with owner := none, unit := 0 })).dropDir q

/-- The plies of the slot outside a new placement are freed. -/
def State.freeOutside (s : State) (m : Nat) (keep : List Nat) : State :=
  ((s.pliesWhere (fun r => r.owner == some m)).filter (fun q => !keep.contains q)).foldl State.freePly s

/-- The swap is complete: the slot holds the new model under the next GEN, the barrier is lowered, and the load completes;
plies that were freed may serve a remap (11.R318, 20.R499). -/
def State.endSwap (s : State) (l : LoadReq) (m : Manifest) : State :=
  let s := (s.freeOutside l.mslot (s.loadPlies l)).takePlies l
  let s := s.enterModel l m
  let s := s.updModel l.mslot (fun k => { k with
    gen := k.gen + 1, barrier := false, swapMask := 0, pairs := [], digital := [], remaps := [], remapTo := none })
  (s.closeLoad 0 0).retrySearch

/-- The tensors of a unit take their places in the slot's tensor table. -/
def swapTensors (m : Manifest) (unit : Nat) (old new : List (Nat × TD)) : List (Nat × TD) :=
  let mine := new.filter (fun e => (m.layers.getD e.1 {}).unit == unit)
  old.filter (fun e => !mine.any (fun x => x.1 == e.1)) ++ mine

/-- A unit has been swapped: its bit in the swap mask is set and the barrier is lowered; after the last, the swap ends. -/
def State.endUnit (s : State) (l : LoadReq) (m : Manifest) (unit : Nat) : State :=
  let s := s.updLoad (fun l => { l with unitsDone := l.unitsDone ++ [unit] })
  let s := s.updModel l.mslot (fun k => { k with
    barrier := false, swapMask := k.swapMask ||| 2 ^ unit, tensors := swapTensors m unit k.tensors l.tensors })
  if m.units.all (fun u => u == unit || l.unitsDone.contains u) then s.endSwap l m else s

/-- One step of the swap, the slot's dispatched jobs having completed. -/
def State.swapStep (s : State) (l : LoadReq) (m : Manifest) : State :=
  let (bad, s) := s.swapEach l m (s.swapPlies l m)
  match bad with
  | some q => s.loadFailure WL_PROG_FAIL q
  | none =>
    match l.nextUnit m with
    | some u => s.endUnit l m u
    | none => s.endSwap l m

/-- SWAP_PROGRAM: raises the barrier of the next unit, or, with it raised and no job of the slot dispatched, makes the step. -/
def execSwapProgram (s : State) : Out :=
  .next (match s.load with
    | none => s
    | some l =>
      match l.manifest with
      | none => s
      | some m =>
        if !l.admitted || l.done.status ≠ 0 then s
        else if !(s.model l.mslot).barrier then s.updModel l.mslot (fun k => { k with barrier := true })
        else
          let qs := (s.swapPlies l m).map (fun e => e.1)
          if s.slotBusy l.mslot || !s.coresIdle qs || !qs.all (fun q => s.progFree (plyCore q) 1 && s.capFree (plyCore q) 1)
          then s
          else s.swapStep l m)

/-! ### Rollback (11.R321, R323) -/

/-- Plies programmed back from their old bundles in their old classes, newest first; whether all may serve. A ply whose core is fenced moves with
its remap (11.R322). -/
def State.rollEach (s : State) : List (Nat × DirEntry × Bool) → Bool × State
  | [] => (true, s)
  | (q, d, w8) :: rest =>
    if !s.usable (plyCore q) then (s.putDir q d).rollEach rest
    else if !d.valid then (false, s)
    else
      let (ok, s) := s.loadPly q d w8
      if ok then s.rollEach rest else (false, s)

/-- The held jobs of a slot complete with the rejection status (11.R323, R324, 15.R399). -/
def State.rejectHeld (s : State) (m : Nat) : State :=
  (s.jobs.filter (fun j => j.mslot == m && decide (j.st = .waiting))).foldl (fun s j => s.completeJob j JOB_MODEL) s

/-- The rollback itself has failed: the slot is FAILED. -/
def State.rollbackFailed (s : State) (l : LoadReq) : State :=
  let s := (s.pliesWhere (fun r => r.owner == some l.mslot)).foldl State.dropDir s
  let s := s.updModel l.mslot (fun k => { k with st := .failed, barrier := false, swapMask := 0 })
  (s.rejectHeld l.mslot).closeLoad WL_ROLLBACK_FAIL 0

/-- LOAD_ROLLBACK: a load that has failed after admission. -/
def execLoadRollback (s : State) : Out :=
  .next (match s.load with
    | none => s
    | some l =>
      let qs := (l.old.map (fun e => e.1)).filter (fun q => s.usable (plyCore q))
      if !l.admitted || l.done.status = 0 || s.slotBusy l.mslot || !s.coresIdle qs
          || !qs.all (fun q => s.progFree (plyCore q) 1 && s.capFree (plyCore q) 1) then s
      else
        let s := (s.newPlies l).foldl State.dropDir s
        let (ok, s) := s.rollEach l.old
        if !ok then s.rollbackFailed l
        else
          let s := s.updModel l.mslot (fun k => { k with barrier := false, swapMask := 0, tensors := l.oldTensors })
          s.closeLoad l.done.status l.done.d2)

/-! ### The end of an UNLOAD (11.R324) -/

/-- The slot is EMPTY: its plies, bundles and tensors are free. GEN goes on counting. -/
def State.emptySlot (s : State) (m : Nat) : State :=
  let s := s.freeOutside m []
  s.updModel m (fun k => { gen := k.gen })

/-- UNLOAD_FREE: no job of the slot is dispatched; its held jobs complete, and every UNLOAD that waits. -/
def execUnloadFree (mslot : Fin 16) (s : State) : Out :=
  let m := mslot.val
  let cs := (s.model m).unload
  .next (if cs = [] || s.slotBusy m || (match s.load with
      | some l => l.mslot == m
      | none => false) then s
    else (cs.foldl State.finishReq ((s.emptySlot m).rejectHeld m)).retrySearch)

end Sys2Proof.Machine
end

