-- ==== Sys2Proof/Machine/HouseOps.lean ====
section
/-!
DEFINITION. Operations of the Counting House that several commands share (chapters 17 to 19): keys, random draws, the Seal,
the end of a session, re-keying, firmware images, and the answers of the management port.
-/

namespace Sys2Proof.Machine

/-- The ASCII bytes of a string. -/
def ascii (x : String) : List Byte := x.toList.map (fun c => BitVec.ofNat 8 c.toNat)

/-! ### Keys (17.R424, R425) -/

/-- The device identity key, which the device derives at every boot (17.R425). -/
def dik : List Byte := leBytes 32 Config.dikSeed.toNat

/-- A key slot's content; slot 0 holds the DIK. -/
def State.keyIn (s : State) (n : Nat) : Option Key :=
  if n = 0 then some { ty := .ed25519, bytes := dik } else getN s.chouse.keys n none

/-- A key slot written or zeroed; slot 0 is permanent. -/
def State.setKey (s : State) (n : Nat) (k : Option Key) : State :=
  if n = 0 then s else { s with chouse := { s.chouse with keys := updN s.chouse.keys n (fun _ => k) } }

/-- The key slots that a predicate selects are zeroed. -/
def State.clearKeys (s : State) (p : Nat → Bool) : State :=
  (List.range 64).foldl (fun s n => if p n then s.setKey n none else s) s

/-- 32 random bytes. -/
def State.random32 (s : State) : List Byte × State :=
  (leBytes 32 (Config.random s.chouse.draws).toNat, { s with chouse := { s.chouse with draws := s.chouse.draws + 1 } })

/-- The device signs with the DIK the SHA-512 digest of a message. -/
def dikSign (m : List Byte) : List Byte := edSign dik (sha512 m)

/-- The first 0x50 bytes of a certificate (17.R425). -/
def certBody (serial order : Nat) (subject issuer : List Byte) : List Byte :=
  leBytes 8 serial ++ leBytes 1 order ++ List.replicate 7 0 ++ subject ++ issuer

/-- The device CA's signing key, and its public key. -/
def deviceCaKey : List Byte := leBytes 32 Config.deviceCaSeed.toNat
def deviceCaPub : List Byte := edPub deviceCaKey

/-- The device certificate: the DIK's public key, certified by the device CA (17.R425). -/
def State.deviceCert (s : State) : List Byte :=
  let b := certBody s.fuses.serial.toNat s.fuses.orderId (edPub dik) deviceCaPub
  b ++ edSign deviceCaKey (sha512 b)

/-- The Ronzen root public key. -/
def rootKey : List Byte := leBytes 32 Config.ronzenRoot.toNat

/-- The device CA certificate, certified by the root (17.R425). -/
def deviceCaCert : List Byte :=
  certBody 0 0 deviceCaPub rootKey ++ leBytes 64 Config.deviceCaSignature.toNat

/-! ### The Seal (17.R434 to R436) -/

/-- Bytes of a Seal. -/
abbrev sealBytes : Nat := 14816

/-- A MODEL entry. -/
def sealModel (m : Model) : List Byte :=
  if m.st = .empty then zeros 640
  else
    toLength 64 m.digest ++ leBytes 1 (stateCode m.st) ++ leBytes 1 m.shards ++ zeros 2 ++ leBytes 4 m.gen.toNat ++ zeros 56
      ++ (List.range 8).flatMap (fun i => toLength 64 (m.shardDigests.getD i []))

/-- PEER: the serials of the peers that are not lost (19.R481), the device's own reading 0. -/
def State.sealPeers (s : State) : List Nat :=
  (List.range 8).map (fun i =>
    if i = s.shape.fabricId then 0
    else match getN s.fabric.members i none with
      | some (n, lost) => if lost then 0 else n.toNat
      | none => 0)

/-- MODE of a Seal. -/
def State.sealMode (s : State) : Nat :=
  b2n s.chouse.conf + 2 * b2n s.chouse.debugged + 4 * b2n s.chouse.session.live + 8 * b2n s.chouse.progOvf

/-- An image of the active firmware bank. -/
def State.firmware (s : State) (kind : Nat) : List Byte := getN (getN s.chouse.banks s.chouse.bank {}).images (kind - 1) []

/-- The bytes of a Seal before its signature. -/
def State.sealBody (s : State) (ephPub nonce : List Byte) : List Byte :=
  let peers := s.sealPeers
  let head := leBytes 4 0x4C414553 ++ leBytes 2 1 ++ leBytes 2 s.sealMode ++ leBytes 4 sealBytes
    ++ leBytes 1 s.chouse.progs.length ++ leBytes 1 (peers.filter (· ≠ 0)).length ++ leBytes 1 s.fuses.svn ++ zeros 1
    ++ leBytes 8 s.fuses.serial.toNat ++ leBytes 4 s.assay.epoch.toNat ++ zeros 4 ++ leBytes 8 s.chouse.sealCtr ++ zeros 24
  head ++ edPub dik ++ toLength 32 ephPub ++ toLength 32 nonce
    ++ sha512 (s.firmware 1) ++ sha512 (s.firmware 2) ++ sha512 (s.firmware 3)
    ++ peers.flatMap (leBytes 8)
    ++ (List.range 64).flatMap (fun i => toLength 64 (s.chouse.progs.getD i []))
    ++ s.models.toList.flatMap sealModel

/-- A Seal is built: SEAL_CTR is incremented first (17.R436). The Seal, its digest, and the state. -/
def State.buildSeal (s : State) (ephPub nonce : List Byte) : List Byte × List Byte × State :=
  let s := { s with chouse := { s.chouse with sealCtr := (s.chouse.sealCtr + 1) % 2 ^ 64 } }
  let body := s.sealBody ephPub nonce
  let digest := sha512 body
  (body ++ edSign dik digest, digest, s)

/-! ### Sessions (17.R440) -/

/-- Staged pages that a predicate selects are read no more (17.R446). -/
def State.killStaged (s : State) (p : Nat → Bool) : State :=
  { s with port := { s.port with staged := s.port.staged.map (fun g =>
      match g.epoch with
      | some e => if p e then { g with dead := true } else g
      | none => g) } }

/-- The session ends: slots 2 to 6 are zeroed, its staged pages count as staged under a retired epoch, and CH_RKCNT is 0. -/
def State.endSession (s : State) : State :=
  let s := (s.clearKeys (fun n => 2 ≤ n && n ≤ 6)).killStaged (fun _ => true)
  { s with chouse := { s.chouse with session := {} } }

/-! ### Re-keying of links (19.R476) -/

/-- A link is re-keyed: a fresh challenge goes out under REKEY, and new frames wait. Only a link that is UP has keys to
replace. -/
def State.rekeyLink (s : State) (n : Nat) : State :=
  if (getN s.fabric.links n {}).st = .up then
    let (c, s) := s.random32
    { s with fabric := { s.fabric with links := updN s.fabric.links n (fun l => { l with st := .rekey, nonce := c }) } }
  else s

/-- A link whose keys must be new is re-keyed: one that is UP, and one that is being keyed, whose Seal has gone out, begins again
with a fresh challenge (17.R448, 19.R476). -/
def State.renewLink (s : State) (n : Nat) : State :=
  let st := (getN s.fabric.links n {}).st
  if st = .up then s.rekeyLink n
  else if st = .rekey ∨ st = .auth then
    let (c, s) := s.random32
    { s with fabric := { s.fabric with links := updN s.fabric.links n (fun l => { l with nonce := c, mySealDigest := [] }) } }
  else s

/-- Every link is re-keyed. -/
def State.rekeyLinks (s : State) : State := (List.range 4).foldl (fun s n => s.renewLink n) s

/-! ### Firmware images (17.R426, R427) -/

/-- The fields of a firmware image's header. -/
structure FwHeader where
  keyIdx : Nat
  version : Nat
  svn : Nat
  minSvn : Nat
  revoke : Nat
  len : Nat
  deriving DecidableEq, Repr

/-- The header of an image. -/
def fwHeader (b : List Byte) : FwHeader :=
  { keyIdx := leAt b 7 1, version := leAt b 8 4, svn := leAt b 0x0C 1, minSvn := leAt b 0x0D 1, revoke := leAt b 0x0E 1
    len := leAt b 0x10 4 }

/-- The header of an image of a kind is well formed, and the image has the bytes it names. -/
def fwForm (kind : Nat) (b : List Byte) : Bool :=
  let h := fwHeader b
  decide (128 ≤ b.length) && leAt b 0 4 == 0x57464B52 && leAt b 4 2 == 1 && leAt b 6 1 == kind && decide (h.keyIdx < 4)
    && decide (h.svn ≤ 64) && decide (h.minSvn ≤ h.svn) && decide (h.revoke < 16) && leAt b 0x0F 1 == 0
    && ((b.drop 0x14).take 0x2C).all (· == 0) && b.length == 0x80 + h.len

/-- Whether an image of a kind is valid: none, or the code of its failure, in the order of 17.R427. -/
def State.fwFault (s : State) (kind : Nat) (b : List Byte) : Option Nat :=
  let h := fwHeader b
  if !fwForm kind b then some SEC_FW_REJECT
  else if s.fuses.revoke.getLsbD h.keyIdx then some SEC_FW_REVOKED
  else if !edVerify (Config.firmwareKey h.keyIdx) (sha512 (b.take (0x40 + h.len))) (b.drop (0x40 + h.len)) then
    some SEC_FW_REJECT
  else if h.svn < s.fuses.svn then some SEC_FW_REVOKED
  else none

/-- The first failure among the three images of a bank, boot image first. -/
def State.bankFault (s : State) (b : Bank) : Option Nat :=
  [1, 2, 3].findSome? (fun k => s.fwFault k (getN b.images (k - 1) []))

/-! ### Answers of the management port (18.R458, R460) -/

/-- A response is posted: the request's header with RESULT, the data and the DIK's signature; an in-band interrupt follows
if enabled. -/
def State.respond (s : State) (ctr cmd result : Nat) (data : List Byte) : State :=
  let b := leBytes 1 cmd ++ zeros 1 ++ leBytes 2 data.length ++ leBytes 2 result ++ zeros 2 ++ leBytes 8 ctr ++ data
  { s with
    mgmt := { s.mgmt with response := some (b ++ dikSign b), waiting := none }
    latch := if s.mgmt.ibiEn && s.supply.vddIo then { s.latch with ibi := some 1 } else s.latch }

end Sys2Proof.Machine
end

