-- ==== Sys2Proof/Machine/Boot.lean ====
section
/-!
DEFINITION. Reset, rails, the phases of start-up up to house firmware, and the consent key (17.R428, R433, 22.R525 to R528,
chapter 23).
-/

namespace Sys2Proof.Machine

/-! ### Reset (00.R13, 22.R528, 23.R541) -/

/-- What a ply's work holds in the calibration store. -/
def coldAssayPly (a : AssayPly) : AssayPly := { cal := a.cal, limit := a.limit }

/-- Assay after PORST_N: the calibration store, every register at its reset value. -/
def coldAssay (a : Assay) : Assay :=
  { plies := (a.plies.map (fun e => (e.1, coldAssayPly e.2))).filter (fun e => decide (e.2 ≠ {}))
    badRecords := a.badRecords, hdrVersion := a.hdrVersion, hdrEpoch := a.hdrEpoch, hdrAge := a.hdrAge
    stored := a.stored }

/-- A model slot after PORST_N: what stands in the calibration store, the Warehouse and the house store. -/
def coldModel (m : Model) : Model := { m with barrier := false, swapMask := 0, unload := [], remaps := [], remapTo := none }

/-- The Counting House after PORST_N: the house store, and what the fuses say of debug. -/
def coldHouse (debugOff : Bool) (h : House) : House :=
  { signers := h.signers, principal := h.principal, bank := h.bank, banks := h.banks, versions := h.versions
    sealCtr := h.sealCtr, draws := h.draws, debug := if debugOff then .disabled else .locked }

/-- The fabric after PORST_N: the member list, which the house store keeps (19.R477). -/
def coldFabric (id : Nat) (f : Fabric) : Fabric :=
  { members := f.members, routes := updN (Vector.replicate 8 ({} : Route)) id (fun r => { r with valid := true }) }

/-- Everything that PORST_N or an internal reset resets is at its reset value; stores that keep their contents keep them,
and so does the queue of commands. -/
def State.cold (s : State) (b : Boot) : State :=
  { pending := s.pending, boot := b, fuses := s.fuses
    shape := { fabricId := s.shape.fabricId, actCap := min 128 s.fuses.actCapMax }
    power := { cap := min 128 s.fuses.actCapMax, capEff := min 128 s.fuses.actCapMax }
    refclk := { present := s.refclk.present, lost := false, locked := s.refclk.present }
    supply := { vddIo := s.supply.vddIo, out := s.supply.out, holding := s.supply.holding }
    house := {}
    mem := NatMap.keep (fun a => a / 2 ^ 44 = 0) s.mem, poison := NatMap.keep (fun g => g / 2 ^ 38 = 0) s.poison
    written := s.written, models := s.models.map coldModel, plies := s.plies, cells := s.cells
    cellClock := s.cellClock
    assay := coldAssay s.assay, chouse := coldHouse s.fuses.debugOff s.chouse, mgmt := { ctr := s.mgmt.ctr }
    fabric := coldFabric s.shape.fabricId s.fabric, fresh := s.fresh }

/-- The boot self-test of a core: one that fails is fenced, its bit clear in the first shape table (20.R487, 23.R540). -/
def State.bootTest (s : State) (c : Fin 64) : State :=
  let pass := (List.range 16).all (fun e => Config.selfTestPasses (s.fresh + e))
  let s := { s with fresh := s.fresh + 16 }
  if pass then s
  else
    let s := s.updCore c (fun k => { k with fencedLogic := true })
    let s := { s with shape := { s.shape with coreMap := s.shape.coreMap &&& ~~~coreMask c } }
    (s.logEvent FN_CONVERTER).needRemaps c

/-- Every core runs the self-test, and the hardware phase is done. -/
def State.bootTests (s : State) : State :=
  let s := (List.finRange 64).foldl State.bootTest s
  { s with boot := .hardware }

/-- The cells age while the device is without VDD_AON, by amounts that nothing in it times (02.R57). -/
def State.ageUnpowered (s : State) : State :=
  let (d, s) := s.drawMany 8
  { s with cellClock := Vector.ofFn (fun k : Fin 8 => s.cellClock[k] + (Config.unspecified (d + k.val)).toNat * 2 ^ 64) }

/-- The hardware phase (23.R541): everything is reset, the house sequencer runs, engines are powered and their trim memories
loaded (12.R340), and the self-tests run. While REFCLK is absent they wait, and the CLK cause is set (23.R546). -/
def State.hardwarePhase (s : State) : State :=
  let s := (s.cold .selfTest).ageUnpowered
  let s := ({ s with
    house := { running := true, codeLen := 4096 }, supply := { s.supply with holding := false } } : State).powerEngines
  if s.refclk.present then s.bootTests else s.raiseIrq IRQ_CLK

/-- PORST_ASSERT (22.R528, R537, 23.R546): everything volatile is lost. -/
def execPorstAssert (s : State) : Out := .next (s.cold .porst)

/-- PORST_DEASSERT (23.R541): the hardware phase, or an internal reset while a rail is out. -/
def execPorstDeassert (s : State) : Out :=
  .next (if s.boot ≠ .porst then s
    else if s.supply.out ≠ [] then s.cold .internalReset
    else s.hardwarePhase)

/-- The excursion of a rail resets the device: VDD_C does not in G3 and G4 (22.R528). -/
def State.railCounts (s : State) (rail : Rail) : Bool :=
  match rail with
  | .vddC => !(s.power.cur == 3 || s.power.cur == 4)
  | _ => true

/-- The rail feeds the Warehouse (01.R33). -/
def feedsWarehouse : Rail → Bool
  | .vddW1 | .vddW2 => true
  | _ => false

/-- VDD_AON is lost: a write of the calibration store in progress may be cut short, and is found at the next boot (22.R527,
12.R349). No rule says which record it would be, or whether one is. -/
def State.cutStore (s : State) : State :=
  let (d, s) := s.draw
  let v := Config.unspecified d
  let n := v.toNat % 2048
  if v.getLsbD 63 && !s.assay.badRecords.contains n then
    { s with assay := { s.assay with badRecords := s.assay.badRecords ++ [n] } }
  else s

/-- RAIL_EXCURSION (22.R528): an internal reset, which holds until every rail is back. The Warehouse loses its contents with
its own rails. -/
def execRailExcursion (rail : Rail) (s : State) : Out :=
  .next (if !s.railCounts rail then s
    else
      let s := if feedsWarehouse rail then s.loseWarehouse else s
      let s := if rail = .vddAon then s.cutStore else s
      let s := { s with supply := { s.supply with
        out := if s.supply.out.contains rail then s.supply.out else s.supply.out ++ [rail] } }
      s.cold (if s.boot = .porst then .porst else .internalReset))

/-- INTERNAL_RESET_RELEASE: the last rail has been back in range for 100 us (22.R528). -/
def execInternalResetRelease (s : State) : Out :=
  .next (
    let s : State := { s with supply := { s.supply with out := [] } }
    if s.boot = .internalReset then s.hardwarePhase else s)

/-- REFCLK_RETURN: the delay lines begin to relock, and the links send again (01.R32); a self-test that waited runs (23.R546). -/
def execRefclkReturn (s : State) : Out :=
  .next (
    let s : State := { s with refclk := { s.refclk with present := true, lost := false } }
    if s.boot = .selfTest then ({ s with refclk := { s.refclk with locked := true } } : State).bootTests else s.flushLinks)

/-- POWER_DOWN_HOLD: with PORST_N low, a store write in progress completes and no new one starts (22.R527). -/
def execPowerDownHold (s : State) : Out :=
  .next (if s.boot = .porst then { s with supply := { s.supply with holding := true } } else s)

/-! ### Other supplies (22.R528, R537) -/

/-- A PROG integrates on the core. -/
def progIntegrates (k : Core) : Bool := k.loomQ.any (fun i => i.kind == .prog && i.phase == .integrating)

/-- VPROG_LOW_DURING_PROG: the PROGs that integrate apply no further pulse. With none, it falls within the device's own next
PROG, which one command performs whole (11.R315). -/
def execVprogLowDuringProg (s : State) : Out :=
  .next (if s.cores.toList.any progIntegrates then
      { s with cores := s.cores.map (fun k => { k with loomQ := k.loomQ.map (fun i =>
          if i.kind = .prog ∧ i.phase = .integrating then { i with vprogLow := true } else i) }) }
    else { s with supply := { s.supply with vprogLow := true } })

/-- VDD_IO_LOSS: DEV_IRQ_N is released, I3C stops, and consent cannot latch. -/
def execVddIoLoss (s : State) : Out :=
  .next ({ s with supply := { s.supply with vddIo := false } } : State).settlePin

/-- VDD_IO_RETURN: DEV_IRQ_N follows its causes again. -/
def execVddIoReturn (s : State) : Out :=
  .next ({ s with supply := { s.supply with vddIo := true } } : State).settlePin

/-- CONSENT_PRESS: a press latches consent for 10 s (17.R433), while VDD_IO is present (22.R528). -/
def execConsentPress (s : State) : Out :=
  .next (if s.portOn && s.supply.vddIo then { s with chouse := { s.chouse with consent := true } } else s)

/-- CONSENT_EXPIRY: 10 s have passed since the last press. -/
def execConsentExpiry (s : State) : Out := .next { s with chouse := { s.chouse with consent := false } }

/-! ### Boot ROM and house firmware (17.R428, 23.R541) -/

/-- A bank's three images are valid. -/
def State.bankValid (s : State) (b : Nat) : Bool := (s.bankFault (getN s.chouse.banks b {})).isNone

/-- BOOT_ROM_PHASE: the images of the active bank, or of the other, are valid; else STATE becomes HALTED, and the boot ROM
serves the management port. -/
def execBootRomPhase (s : State) : Out :=
  .next (if s.boot ≠ .hardware then s
    else if s.bankValid s.chouse.bank then { s with boot := .rom }
    else if s.bankValid (1 - s.chouse.bank) then
      { s with boot := .rom, chouse := { s.chouse with bank := 1 - s.chouse.bank } }
    else ({ s with boot := .recovery, port := { s.port with state := .halted } } : State).raiseIrq IRQ_HALT)

/-- The age clocks are set from the header of the calibration store (23.R541). -/
def State.loadClocks (s : State) : State :=
  { s with assay := { s.assay with age := s.assay.hdrAge, epoch := s.assay.hdrEpoch } }

/-- FB_ROUTE as house firmware writes it from the member list alone: no link is up yet (19.R478, R481). -/
def State.loadRoutes (s : State) : State :=
  { s with fabric := { s.fabric with routes := s.fabric.routes.mapFinIdx (fun i r _ =>
      if i = s.shape.fabricId then r
      else match getN s.fabric.members i none with
        | some (_, lost) => { valid := true, lost := lost }
        | none => {}) } }

/-- HOUSE_FIRMWARE_PHASE: the calibration store is read, a record that fails raising CAL_STORE_CHECK (12.R349), the clocks are set, and owned plies take the POWER
trigger. The management port accepts requests from here on. -/
def execHouseFirmwarePhase (s : State) : Out :=
  .next (if s.boot ≠ .rom then s
    else
      let s := ({ s.loadClocks.loadRoutes with boot := .house } : State)
      (s.assay.badRecords.foldl State.recordBad s).powerTrigger)

end Sys2Proof.Machine
end

