-- ==== Sys2Proof/Machine/Monitor.lean ====
section
/-!
DEFINITION. The commands of the monitor converters (chapter 13): the end of a conversion with what it renews, writes of
AS_MCTRL, restarts, power, and the reads that clear.
-/

namespace Sys2Proof.Machine

/-- The code, before limiting, of a tap sample (13.R353): the converter's own error is a free value of at most 2 codes and 0.2 %
of the reading. -/
def tapCode (cv : Converting) (n : Nat) : Int :=
  let v : Rat := (cv.sample.y : Rat) * 2000 * 2 ^ cv.gain / (128 * yFs cv.sample.a4)
  let worst : Rat := 2 + (if v < 0 then -v else v) * 2 / 1000
  rne (v + withinRat (-worst) worst (Config.monitorError n))

/-- The result of a conversion (13.R353, R357): its code limited, and what the tap recorded. -/
def resultOf (s : State) (cv : Converting) (code : Int) (valid : Bool) : MonResult :=
  let tap := decide (cv.source < 64)
  let lim := if tap then clampInt (-2048) 2047 code else clampInt 0 4095 code
  { pass := s.monitor.pass, x := if tap then cv.sample.x else 0, engine := if tap then cv.sample.engine else 0
    a4 := tap && cv.sample.a4, ply := if tap then cv.sample.ply else 0, source := cv.source
    clip := decide (lim.1 ≠ code), stale := tap && cv.stale, fresh := true, valid := valid, code := lim.1 }

/-- The value in 1/128 partial units that a tap result stands for (13.R353). -/
def tapValue (r : MonResult) (gain : Nat) : Int := rne ((r.code : Rat) * yFs r.a4 * 128 / (2000 * 2 ^ gain))

/-- A valid, fresh sample with enough drive is accepted for the ply it names while a light measurement runs (12.R331). -/
def State.acceptSample (s : State) (cv : Converting) (r : MonResult) : State :=
  if r.valid && !r.stale && decide (xFs r.a4 ≤ 16 * r.x) then
    let q := plyNo (tapCore cv.source) r.engine r.ply
    if (NatMap.get {} s.assay.plies q).meas.active then
      s.updAssay q (fun a => { a with meas := { a.meas with
        samples := a.meas.samples ++
          [{ age := s.ageUnits q, col := cv.sample.col, x := r.x, y := tapValue r cv.gain, t := s.plyTemp q, a4 := r.a4 }] } })
    else s
  else s

/-- The higher valid latest reading of T(2k) and T(2k+1), in 0.01 degrees C (13.R362). -/
def State.clusterTemp (s : State) (k : Nat) : Option Int :=
  match getN s.monitor.latest (64 + 2 * k) none, getN s.monitor.latest (65 + 2 * k) none with
  | some a, some b => some (tempOf (max a b))
  | some a, none => some (tempOf a)
  | none, some b => some (tempOf b)
  | none, none => none

/-- A cluster's temperature is renewed: measurements that saw it move too far begin again, and plies whose calibration
temperature it left take the TEMP trigger (12.R331, R342). -/
def State.tempTriggers (s : State) (k : Nat) (t : Int) : State :=
  let delta : Int := 25 * s.assay.tempDelta
  let far (a : Int) : Bool := decide (delta < t - a) || decide (delta < a - t)
  ((s.pliesWhere (fun r => r.owner.isSome)).filter (fun q => (clusterOf (plyCore q)).val == k)).foldl (fun s q =>
    let m := (NatMap.get {} s.assay.plies q).meas
    let s := if m.active ∧ far m.t0 then s.updAssay q (fun a => { a with meas := { active := true, t0 := t } }) else s
    let on := (s.trimOf q).valid && far (s.trimOf q).tCal
    let was := (s.assayPly q).firedTemp
    let s := s.updAssay q (fun a => { a with firedTemp := on })
    if on && !was then s.trigger q false else s) s

/-- A valid temperature conversion renews the latest reading, AS_TEMPk, the age clock's rate and Tmax (13.R362, 12.R329,
16.R415). -/
def State.renewTemp (s : State) (source code : Nat) : State :=
  let s := { s with monitor := { s.monitor with latest := updN s.monitor.latest source (fun _ => some code) } }
  let s :=
    if source < 80 then
      let k := (source - 64) / 2
      match s.clusterTemp k with
      | some t =>
        let s := { s with assay := { s.assay with
          temp := updN s.assay.temp k (fun _ => some t), rate := updN s.assay.rate k (fun _ => t) } }
        s.tempTriggers k t
      | none => s
    else s
  s.thermal

/-- A result is written (13.R357 to R359). -/
def State.writeResult (s : State) (cv : Converting) (raw : Int) : State :=
  let (n, s) := s.draw
  let code := if cv.source < 64 then tapCode cv n else raw
  let r := resultOf s cv code cv.valid
  let s : State := { s with monitor := { s.monitor with
    results := updN s.monitor.results cv.reg (fun _ => r), clip := s.monitor.clip || r.clip } }
  if cv.source < 64 then s.acceptSample cv r
  else if r.valid ∧ cv.source < 88 then s.renewTemp cv.source r.code.toNat
  else s

/-- MONITOR_CONVERSION_END: the result is written, unless CAL.SEQ discarded it, and the converter takes its next entry. -/
def execMonitorConversionEnd (am1 : Bool) (raw : Int) (s : State) : Out :=
  .next (match if am1 then s.monitor.am1 else s.monitor.am0 with
    | none => s
    | some cv =>
      let s := if am1 then { s with monitor := { s.monitor with am1 := none } }
        else { s with monitor := { s.monitor with am0 := none } }
      let s := if cv.discard then s else s.writeResult cv raw
      s.dealBoth)

/-- AS_MCTRL_TRIG: a write of 1 to TRIG (13.R358). -/
def execAsMctrlTrig (s : State) : Out := .next s.monTrigger

/-- AS_MCTRL_ILV: ILV takes a value; the write is a trigger (13.R356, R358). Conversions in progress end as they began. -/
def execAsMctrlIlv (on : Bool) (s : State) : Out :=
  .next ({ s with monitor := { s.monitor with ilv := on } } : State).monTrigger

/-- AS_MCTRL_LAST: LAST takes a value; the write is a trigger (13.R354, R358). -/
def execAsMctrlLast (n : Fin 32) (s : State) : Out :=
  .next ({ s with monitor := { s.monitor with last := n.val } } : State).monTrigger

/-- AS_MCTRL_CONT (13.R355). -/
def execAsMctrlCont (on : Bool) (s : State) : Out := .next { s with monitor := { s.monitor with cont := on } }

/-- MONITOR_RESTART: both converters are free after a trigger (13.R358), or nothing has run since PORST_N with CONT = 1
(13.R355, assumption 23). -/
def execMonitorRestart (s : State) : Out :=
  let m := s.monitor
  .next (if m.powered && m.free && (m.pending || (!m.run && m.cont && m.pass == 0)) then s.monRestart else s)

/-- MONITOR_POWER_OFF (13.R361). -/
def execMonitorPowerOff (s : State) : Out := .next s.monitorOff

/-- MONITOR_POWER_RETURN (13.R361). -/
def execMonitorPowerReturn (s : State) : Out := .next s.monitorOn

/-- AS_MSTAT_READ: the register is returned and CLIP clears (13.R363). -/
def execAsMstatRead (s : State) : Out :=
  let (v, s') := s.pkgWord 0x28004
  .next { s' with latch := { s'.latch with reg := BitVec.ofNat 64 v } }

/-- AS_STATUS_READ: the register is returned, STORE_BAD and AGE_LOST clear (12.R350). -/
def execAsStatusRead (s : State) : Out :=
  let (v, s') := s.pkgWord 0x20004
  .next { s' with latch := { s'.latch with reg := BitVec.ofNat 64 v } }

end Sys2Proof.Machine
end

