-- ==== Sys2Proof/Machine/Seq.lean ====
section
/-!
DEFINITION. The SEQ class (08.R225 to R228): loops, branches, scalar registers, the Tally (09.R255 to R260) and JOIN
(07.R197). Every instruction of it is executed, and completes, at its decode.
-/

namespace Sys2Proof.Machine

/-- An instruction that the sequencer executes itself: its checks and effects, then its completion. -/
def now (q : SeqId) (w : W128) (body : ExecM Flow) : ExecM Flow := do
  let f ← body
  completeNow q w
  return f

/-! ### Loops and branches -/

/-- SEQ_NOP (07.R199). -/
def execSeqNop (q : SeqId) (w : W128) (s : State) : Out := s.instr (.seqNop q w) q w (now q w (pure .next))

/-- A LOOP whose body ends at `last`, with its count (07.R196, 08.R225). -/
def loopBody (q : SeqId) (last count : Nat) : ExecM Flow := do
  let s ← get
  let r := s.seqr q
  demand (decide (r.pc < last ∧ last < r.codeLen)) SEQ_PC_RANGE
  match r.loops with
  | e :: _ => demand (decide (last ≤ e.last)) SEQ_LOOP_NEST
  | [] => pure ()
  demand (decide (r.loops.length < 4)) SEQ_LOOP_DEPTH
  if count = 0 then return .leave last
  else
    change (fun s => s.updSeqr q (fun r =>
      { r with loops := { first := (r.pc + 1) % 4096, last := last, remaining := count } :: r.loops }))
    return .next

/-- The count of a LOOP: COUNT, or with CREG the register RA. -/
def loopCount (q : SeqId) (w : W128) : ExecM Nat :=
  if wFlag w 0 then do
    let v ← scalar q (wordBits w 0 5)
    return v % 2 ^ 32
  else pure (wordBits w 0 32)

/-- SEQ_LOOP (07.R196, 08.R225). -/
def execSeqLoop (q : SeqId) (w : W128) (s : State) : Out :=
  s.instr (.seqLoop q w) q w (now q w (do
    let n ← loopCount q w
    loopBody q (wordBits w 32 12) n))

/-- A BR waits for the queues of its mask, tests the flags, and clears them with CLR (07.R194, R195, 08.R226). -/
def branchTaken (q : SeqId) (w : W128) : ExecM Bool := do
  let s ← get
  if s.inQueues q (wFlags w / 2 ^ 8 % 64) ≠ [] then stall
  let test := BitVec.ofNat 6 (wFlags w)
  let hit := ((s.seqr q).flags &&& test) != 0
  if wFlag w 7 then change (fun s => s.updSeqr q (fun r => { r with flags := r.flags &&& ~~~test }))
  return test == 0 || (hit != wFlag w 6)

/-- SEQ_BR_JUMP (08.R226): the target lies within the innermost open loop's body. That check is made at decode (07.R196), before the
wait that QMASK asks for (DEDUCED, assumption 155). -/
def execSeqBrJump (q : SeqId) (w : W128) (s : State) : Out :=
  s.instr (.seqBrJump q w) q w (now q w (do
    let s ← get
    let t := wordBits w 0 12
    demand (decide (t < (s.seqr q).codeLen)) SEQ_PC_RANGE
    match (s.seqr q).loops with
    | e :: _ => demand (decide (e.first ≤ t ∧ t ≤ e.last)) SEQ_PC_RANGE
    | [] => pure ()
    let taken ← branchTaken q w
    return if taken then .jump t else .next))

/-- SEQ_BR_BREAK (08.R226): the innermost loop is popped when it branches, and the target lies beyond its END. -/
def execSeqBrBreak (q : SeqId) (w : W128) (s : State) : Out :=
  s.instr (.seqBrBreak q w) q w (now q w (do
    let s ← get
    let t := wordBits w 0 12
    demand (decide (t < (s.seqr q).codeLen)) SEQ_PC_RANGE
    match (s.seqr q).loops with
    | e :: _ => demand (decide (e.last < t)) SEQ_PC_RANGE
    | [] => fail SEQ_PC_RANGE
    let taken ← branchTaken q w
    if taken then
      change (fun s => s.updSeqr q (fun r => { r with loops := r.loops.drop 1 }))
      return .jump t
    else return .next))

/-! ### Scalar registers (08.R227) -/

/-- RD, RA and RB of a SEQ word. -/
def seqRD (w : W128) : Nat := wordBits w 43 5
def seqRA (w : W128) : Nat := wordBits w 38 5
def seqRB (w : W128) : Nat := wordBits w 33 5
/-- IMM32, sign-extended to 64 bits. -/
def seqImm (w : W128) : Nat := unsigned 64 (signed 32 (wordBits w 0 32))

/-- A SET that writes RD with a function of the registers. -/
def setRD (q : SeqId) (w : W128) (f : Seqr → Nat) : ExecM Flow :=
  now q w (do
    let s ← get
    putScalar q (seqRD w) (f (s.seqr q))
    return .next)

/-- SEQ_SET_MOVI (08.R227). -/
def execSeqSetMovi (q : SeqId) (w : W128) (s : State) : Out :=
  s.instr (.seqSetMovi q w) q w (setRD q w (fun _ => seqImm w))

/-- SEQ_SET_ADD (08.R227). -/
def execSeqSetAdd (q : SeqId) (w : W128) (s : State) : Out :=
  s.instr (.seqSetAdd q w) q w (setRD q w (fun r => (r.scalar (seqRA w) + r.scalar (seqRB w)).toNat))

/-- SEQ_SET_ADDI (08.R227). -/
def execSeqSetAddi (q : SeqId) (w : W128) (s : State) : Out :=
  s.instr (.seqSetAddi q w) q w (setRD q w (fun r => (r.scalar (seqRA w) + BitVec.ofNat 64 (seqImm w)).toNat))

/-- SEQ_SET_SUB (08.R227). -/
def execSeqSetSub (q : SeqId) (w : W128) (s : State) : Out :=
  s.instr (.seqSetSub q w) q w (setRD q w (fun r => (r.scalar (seqRA w) - r.scalar (seqRB w)).toNat))

/-- SEQ_SET_MIN (08.R227). -/
def execSeqSetMin (q : SeqId) (w : W128) (s : State) : Out :=
  s.instr (.seqSetMin q w) q w (setRD q w (fun r =>
    (if (r.scalar (seqRB w)).slt (r.scalar (seqRA w)) then r.scalar (seqRB w) else r.scalar (seqRA w)).toNat))

/-- SEQ_SET_MAX (08.R227). -/
def execSeqSetMax (q : SeqId) (w : W128) (s : State) : Out :=
  s.instr (.seqSetMax q w) q w (setRD q w (fun r =>
    (if (r.scalar (seqRA w)).slt (r.scalar (seqRB w)) then r.scalar (seqRB w) else r.scalar (seqRA w)).toNat))

/-- COND of a comparison: 0 EQ, 1 LT signed, 2 LT unsigned, 3 LE signed. -/
def seqCond (c : Nat) (a b : W64) : Bool :=
  match c with
  | 0 => a == b
  | 1 => a.slt b
  | 2 => a.ult b
  | _ => a.sle b

/-- SEQ_SET_CMP (08.R227). -/
def execSeqSetCmp (q : SeqId) (w : W128) (s : State) : Out :=
  s.instr (.seqSetCmp q w) q w (now q w (do
    change (fun s => s.writeCmp q
      (seqCond (wFlags w % 4) ((s.seqr q).scalar (seqRA w)) ((s.seqr q).scalar (seqRB w))))
    return .next))

/-- SEQ_SET_CMPI (08.R227). -/
def execSeqSetCmpi (q : SeqId) (w : W128) (s : State) : Out :=
  s.instr (.seqSetCmpi q w) q w (now q w (do
    change (fun s => s.writeCmp q
      (seqCond (wFlags w % 4) ((s.seqr q).scalar (seqRA w)) (BitVec.ofNat 64 (seqImm w))))
    return .next))

/-- SEQ_SET_GETAL (08.R227). -/
def execSeqSetGetal (q : SeqId) (w : W128) (s : State) : Out :=
  s.instr (.seqSetGetal q w) q w (setRD q w (fun r => (getN r.al (wordBits w 0 3) 0).toNat))

/-- SEQ_SET_SETAL (08.R227). -/
def execSeqSetSetal (q : SeqId) (w : W128) (s : State) : Out :=
  s.instr (.seqSetSetal q w) q w (now q w (do
    change (fun s => s.updSeqr q (fun r =>
      { r with al := updN r.al (wordBits w 0 3) (fun _ => (r.scalar (seqRA w)).setWidth 32) }))
    return .next))

/-! ### The Tally (09.R255 to R258) -/

/-- The cluster whose Tally the sequencer's job owns (09.R255). -/
def State.ownTally (s : State) (q : SeqId) : Option (Fin 8) :=
  match q with
  | .core c =>
    if s.cores[c].job.isSome ∧ s.clusters[clusterOf c].tally.owner = s.cores[c].job then some (clusterOf c) else none
  | .house => none

/-- The Tally of a cluster with `f` applied. -/
def setTally (k : Fin 8) (f : Tally → Tally) : ExecM Unit :=
  change (fun s => s.updCluster k (fun u => { u with tally := f u.tally }))

/-- SEQ_TALLY_OPEN (09.R255, R256). -/
def execSeqTallyOpen (q : SeqId) (w : W128) (s : State) : Out :=
  s.instr (.seqTallyOpen q w) q w (now q w (do
    let s ← get
    match s.ownTally q with
    | none => change (fun s => s.setFlag q FLAG_EMPTY)
    | some k =>
      let c := ((s.seqr q).scalar (seqRA w)).toNat % 2 ^ 32
      let n := ((s.seqr q).scalar (seqRB w)).toNat % 2 ^ 16
      demand (decide (c ≤ 65536)) TILE_OVERFLOW 0 (some (overflowDetail 0x0A c))
      let t := s.clusters[k].tally
      if t.open_ ∧ t.opnum = n then demand (decide (t.count = c)) TILE_OPEN
      else setTally k (fun t => { t with open_ := true, opnum := n, count := c, next := 0, ndone := 0, map := [] })
    return .next))

/-- SEQ_TALLY_FETCH (09.R255, R256, R260): a core whose bit is clear takes no tile. -/
def execSeqTallyFetch (q : SeqId) (w : W128) (s : State) : Out :=
  s.instr (.seqTallyFetch q w) q w (now q w (do
    let s ← get
    change (fun s => s.countSeq q EV_TL_FETCH 1)
    let empty : ExecM Unit := do
      change (fun s => (s.countSeq q EV_TL_EMPTY 1).setFlag q FLAG_EMPTY)
    match s.ownTally q, q with
    | some k, .core c =>
      let t := s.clusters[k].tally
      if t.open_ ∧ t.next < t.count ∧ s.coreBit c.val then
        putScalar q (seqRD w) t.next
        setTally k (fun t => { t with next := t.next + 1 })
      else empty
    | _, _ => empty
    return .next))

/-- SEQ_TALLY_DONE (09.R255, R256, R258). -/
def execSeqTallyDone (q : SeqId) (w : W128) (s : State) : Out :=
  s.instr (.seqTallyDone q w) q w (now q w (do
    let s ← get
    match s.ownTally q with
    | none => pure ()
    | some k =>
      let t := s.clusters[k].tally
      let i := ((s.seqr q).scalar (seqRA w)).toNat % 2 ^ 32
      demand (t.open_ && decide (i < t.count)) TILE_RANGE
      if NatMap.get false t.map i then
        setTally k (fun t => { t with dups := min (t.dups + 1) 0xFFFF })
        fail TILE_DUP
      else setTally k (fun t => { t with map := NatMap.put false t.map i true, ndone := t.ndone + 1 })
    return .next))

/-- SEQ_TALLY_RESET (09.R255, R256, R261). -/
def execSeqTallyReset (q : SeqId) (w : W128) (s : State) : Out :=
  s.instr (.seqTallyReset q w) q w (now q w (do
    let s ← get
    match s.ownTally q with
    | none => pure ()
    | some k => setTally k (fun t =>
        { t with next := 0, resets := if t.open_ then min (t.resets + 1) 0xFFFF else t.resets })
    return .next))

/-! ### JOIN (07.R197) -/

/-- Every queue of the sequencer and its sync buffer are empty. -/
def State.drained (s : State) (q : SeqId) : Bool := s.inQueues q 63 == [] && (s.seqr q).syncBuf == []

/-- SEQ_JOIN (07.R197): with END the core's part of the job is over. House firmware has no job to end (assumption 27). -/
def execSeqJoin (q : SeqId) (w : W128) (s : State) : Out :=
  s.instr (.seqJoin q w) q w (do
    let s ← get
    if !s.drained q then stall
    now q w (do
      if wFlag w 0 then
        match q with
        | .core c => change (fun s => s.joinEnd c)
        | .house => pure ()
      return .next))

end Sys2Proof.Machine
end

