-- ==== Sys2Proof/Machine/Cal.lean ====
section
/-!
DEFINITION. The CAL class (08 CAL class, 07.R219) and Assay's own events (chapter 12). The instructions are executed, and
complete, at their decode; only the house sequencer passes it (DEC_PRIV on a core).
-/

namespace Sys2Proof.Machine

/-- A CAL instruction whose operands are all registers and IMM. -/
def calNow (q : SeqId) (w : W128) (body : ExecM Unit) : ExecM Flow :=
  now q w (do
    body
    return .next)

/-- RA of the house sequencer. -/
def calRA (q : SeqId) (w : W128) : ExecM Nat := scalar q (seqRA w)

/-- CAL_SEQ (13.R360). -/
def execCalSeq (q : SeqId) (w : W128) (s : State) : Out :=
  s.instr (.calSeq q w) q w (calNow q w (do
    let v ← calRA q w
    change (fun s => s.writeEntry (bits (wImm w) 0 5) (v % 2 ^ 32))))

/-- CAL_READ (13.R357). -/
def execCalRead (q : SeqId) (w : W128) (s : State) : Out :=
  s.instr (.calRead q w) q w (calNow q w (do
    let s ← get
    putScalar q (seqRD w) (resWord (getN s.monitor.results (bits (wImm w) 0 5) {}))))

/-- A tap points at an engine and a reference column; its held sample is of an integration before that, and the entries that
name it take the count of 13.R359. -/
def State.pointTap (s : State) (c : Fin 64) (engine col : Nat) : State :=
  let s := s.updCore c (fun k => { k with tap := { k.tap with engine := engine, col := col, stale := true } })
  { s with monitor := { s.monitor with
    entries := s.monitor.entries.map (fun e => if e.source = c.val then { e with invalid := max e.invalid 2 } else e) } }

/-- CAL_TAP (13.R359, R360). -/
def execCalTap (q : SeqId) (w : W128) (s : State) : Out :=
  s.instr (.calTap q w) q w (calNow q w
    (change (fun s => s.pointTap (coreIx (bits (wImm w) 8 6)) (bits (wImm w) 4 4) (bits (wImm w) 0 3))))

/-- A pending record for a ply replaces an older one; a core that is not usable keeps none (12.R344). -/
def State.setPending (s : State) (p : Nat) (t : Trim) : State :=
  if s.usable (plyCore p) then s.updCore (plyCore p) (fun k => { k with pending := NatMap.insert k.pending p t }) else s

/-- CAL_TRIM (12.R335, R344): the 2 KiB at TDA. -/
def execCalTrim (q : SeqId) (w : W128) (s : State) : Out :=
  s.instr (.calTrim q w) q w (do
    let t ← operand q w 1 false
    calNow q w (do
      let n ← calRA q w
      if tdEmpty t then return
      let b ← readMem q 0 t.base 2048
      change (fun s => s.setPending (n % 8192) (parseTrim b))))

/-- Cores of a map, as numbers. -/
def coresIn (m : Nat) : List (Fin 64) := (List.finRange 64).filter (fun c => bit m c.val)

/-- The cores of a map are marked; AS_EPOCH advances, and with it the header, when one of them has a pending record
(12.R339, R345, R348). -/
def State.calApply (s : State) (m : Nat) : State :=
  let cs := (coresIn m).filter (fun c => s.usable c)
  let new := cs.any (fun c => !s.cores[c].pending.isEmpty)
  let s := cs.foldl (fun s c => s.updCore c (fun k => { k with applyMark := true })) s
  if !new then s
  else
    let s := { s with assay := { s.assay with epoch := s.assay.epoch + 1 } }
    if s.supply.holding then s
    else { s with assay := { s.assay with hdrEpoch := s.assay.epoch, hdrAge := s.assay.age } }

/-- CAL_APPLY (12.R339). -/
def execCalApply (q : SeqId) (w : W128) (s : State) : Out :=
  s.instr (.calApply q w) q w (calNow q w (do
    let m ← calRA q w
    change (fun s => s.calApply m)))

/-- CAL_REC_READ (12.R349). -/
def execCalRecRead (q : SeqId) (w : W128) (s : State) : Out :=
  s.instr (.calRecRead q w) q w (do
    let t ← operand q w 0 true
    calNow q w (do
      let n ← calRA q w
      if tdEmpty t then return
      let s ← get
      match s.readRecord (n % 2048) with
      | some b => writeMem q 0 t.base b
      | none =>
        change (fun s => s.recordLost (n % 2048))
        fail CAL_STORE_CHECK))

/-- CAL_REC_WRITE (12.R348). -/
def execCalRecWrite (q : SeqId) (w : W128) (s : State) : Out :=
  s.instr (.calRecWrite q w) q w (do
    let t ← operand q w 1 false
    calNow q w (do
      let n ← calRA q w
      if tdEmpty t then return
      let b ← readMem q 0 t.base 256
      change (fun s => s.writeRecord (n % 2048) b)))

/-- A CAL.CORE scheduled on its core (12.R332, R333). The encoding gives a PROBE no count: REP is 64, as R332 has it. -/
def calCoreBody (q : SeqId) (w : W128) (verify : Bool) : ExecM Flow := do
  let t ← operand q w 0 true
  calNow q w (do
    let m ← scalar q (seqRB w)
    let s ← get
    let work : CalCore :=
      { verify := verify, emask := m % 2 ^ 16, ply := bits (wImm w) 45 3, tdd := t, rep := 64, pc := (s.seqr q).pc
        opcode := wOpcode w }
    let c := coreIx (bits (wImm w) 8 6)
    if s.usable c then change (fun s => s.updCore c (fun k => { k with calCore := k.calCore ++ [work] })))

/-- CAL_CORE_PROBE (12.R332). -/
def execCalCoreProbe (q : SeqId) (w : W128) (s : State) : Out :=
  s.instr (.calCoreProbe q w) q w (calCoreBody q w false)

/-- CAL_CORE_VERIFY (12.R333). -/
def execCalCoreVerify (q : SeqId) (w : W128) (s : State) : Out :=
  s.instr (.calCoreVerify q w) q w (calCoreBody q w true)

/-! ### Scheduled work -/

/-- Engines of a mask. -/
def enginesIn (m : Nat) : List Nat := (List.range 16).filter (fun e => bit m e)

/-- A PROBE of one engine for Assay; row `n` of its TDD takes the results within its extents. -/
def probeFor (c : Fin 64) (k : CalCore) (n e : Nat) : ExecM Unit := do
  let s ← get
  let (v, s) := s.probeOwn c e k.ply k.rep
  set s
  if n < k.tdd.eff1 then
    writeMem .house 0 (rowAddr k.tdd n 0 0) ((v.take k.tdd.eff0).flatMap (fun x => leBytes 4 (unsigned 32 x)))

/-- A VERIFY of one engine for Assay: against the golden image of its directory entry, and fitted where the ply is owned. -/
def State.verifyFor (s : State) (c : Fin 64) (e ply : Nat) : State :=
  let q := plyNo c e ply
  let d := s.dirOf q
  let w8 := (s.plyRec q).w8
  let s := s.selectPlies c [(e, ply)]
  let img := if d.valid then s.goldenOf d.bundle w8 else []
  let (v, s) := s.verifyAll c e ply w8 img
  if d.valid && (s.plyRec q).owner.isSome then s.fullFit q v.reads else s

/-- The work of a CAL.CORE. Where the results of a VERIFY go, no rule gives their form: free bytes. -/
def calCoreWork (c : Fin 64) (k : CalCore) : ExecM Unit := do
  let es := enginesIn k.emask
  if k.verify then
    change (fun s => es.foldl (fun s e => s.verifyFor c e k.ply) s)
    if !tdEmpty k.tdd then change (fun s => s.scrambleTds [k.tdd])
  else
    let _ ← (es.mapIdx (fun n e => (n, e))).mapM (fun x => probeFor c k x.1 x.2)
    return ()

/-- CAL_CORE_EXECUTE: the first work scheduled on a core runs while the core is idle, once its grant needs no wait. -/
def execCalCoreExecute (c : Fin 64) (s : State) : Out :=
  .next (match s.cores[c].calCore with
    | [] => s
    | k :: rest =>
      if s.assayActs && s.usable c && s.coreIdle c && s.capFree c (enginesIn k.emask).length then
        let s := s.updCore c (fun x => { x with calCore := rest })
        match (calCoreWork c k).run s with
        | .ok _ t => t
        | .error e t => t.raiseFault .house e k.opcode k.pc
      else s)

/-- CAL_APPLICATION: a marked core is applied in its idle period (12.R339). -/
def execCalApplication (c : Fin 64) (s : State) : Out :=
  .next (if s.coreIdle c && s.canApply c then s.applyCore c true else s)

/-! ### Measurements and triggers -/

/-- LIGHT_MEASUREMENT_COMPLETE: each of the seven columns holds enough samples (12.R331). -/
def execLightMeasurementComplete (ply : Fin 8192) (s : State) : Out :=
  let m := (s.assayPly ply.val).meas
  .next (if m.active && s.assayActs && s.calPly ply.val && lightDone m.samples s.assay.minSamples then s.finishLight ply.val else s)

/-- SAMPLE_WAIT_EXPIRY: a measurement that lacks traffic gets a PROBE with REP 64, once one before it has run (12.R332). -/
def execSampleWaitExpiry (ply : Fin 8192) (s : State) : Out :=
  let q := ply.val
  let work : CalCore := { verify := false, emask := 2 ^ plyEngine q, ply := q % 8, rep := 64 }
  .next (if (s.assayPly q).meas.active && s.assayActs && s.calPly q && !s.cores[plyCore q].calCore.contains work then
      (s.wakeEvent false).updCore (plyCore q) (fun k => { k with calCore := k.calCore ++ [work] })
    else s)

/-- The AGE condition of a ply, or with `full` its FULL condition (12.R342). -/
def State.ageReached (s : State) (q : Nat) (full : Bool) : Bool :=
  let since := if full then fp32Rat (s.assayPly q).fullAge else fp32Rat (s.trimOf q).ageM
  let limit := if full then s.assay.fullLimit else s.assay.ageLimit
  (full || (s.trimOf q).valid) && decide (0 < since) && decide ((limit : Rat) / 1024 ≤ lnQ (s.plyAge q / since))

/-- AGE_TRIGGER: the AGE or FULL condition of a ply first holds (12.R342). -/
def execAgeTrigger (ply : Fin 8192) (full : Bool) (s : State) : Out :=
  let q := ply.val
  let a := s.assayPly q
  .next (if (if full then a.firedFull else a.firedAge) || !s.ageReached q full then s
    else (s.updAssay q (fun a => if full then { a with firedFull := true } else { a with firedAge := true })).trigger q full)

/-! ### Re-anneal -/

/-- RE_ANNEAL (12.R346). -/
def execReAnneal (ply : Fin 8192) (s : State) : Out := .next (if s.canAnneal ply.val then s.anneal ply.val else s)

/-- ANNEAL_WAIT_EXPIRY: the ply has been due for ANNEAL_WAIT; from its core's next job boundary no job is dispatched there
before its re-anneal (12.R346). -/
def execAnnealWaitExpiry (ply : Fin 8192) (s : State) : Out :=
  .next (if s.plyDue ply.val then s.updAssay ply.val (fun a => { a with overdue := true }) else s)

/-! ### The header and AS_CTRL -/

/-- CAL_HEADER_REWRITE (12.R348). -/
def execCalHeaderRewrite (s : State) : Out :=
  .next (if s.supply.holding then s
    else { s with assay := { s.assay with hdrEpoch := s.assay.epoch, hdrAge := s.assay.age } })

/-- AS_CTRL_FORCE: a write of 1 to FORCE (12.R342). -/
def execAsCtrlForce (s : State) : Out := .next s.asForce

/-- AS_CTRL_EN: EN takes a value (12.R350). -/
def execAsCtrlEn (on : Bool) (s : State) : Out := .next (s.asEnable on)

end Sys2Proof.Machine
end

