-- ==== Sys2Proof/Machine/Counters.lean ====
section
/-!
DEFINITION. Counter requests (21.R511, R512), the writes of PC_SEL and PC_QUALq, and the Ledger's ring (21.R513, R516).
-/

namespace Sys2Proof.Machine

/-! ### The record (21.R511) -/

/-- A counter request. -/
structure DumpReq where
  ops : Nat
  out : Nat
  len : Nat
  pages : Nat
  cores : Nat
  base : Nat
  ctrl : Nat
  deriving DecidableEq, Repr

/-- A record from its 64 bytes. -/
def parseDump (b : List Byte) : DumpReq :=
  { ops := leAt b 6 1, out := leAt b 8 8, len := leAt b 0x10 4, pages := leAt b 0x14 4, cores := leAt b 0x18 8
    base := leAt b 0x20 8, ctrl := leAt b 0x28 4 }

/-- A span of the Warehouse lies below HP_WH_SPLIT. -/
def State.inHostPart (s : State) (off n : Nat) : Bool := decide (off + n ≤ s.port.split % 64 * 2 ^ 28)

/-- The record keeps the rules of 21.R511. -/
def State.dumpOk (s : State) (b : List Byte) (e : Entry) : Bool :=
  let r := parseDump b
  e.mslot == 0xFF && e.nbind == 0 && leAt b 4 2 == 1 && decide (r.ops < 32) && leAt b 7 1 == 0 && r.out % 64 == 0
    && s.inHostPart r.out (16 * r.len) && decide (1 ≤ r.pages ∧ r.pages ≤ 65536) && r.base % 4096 == 0
    && s.inHostPart r.base (4096 * r.pages) && leAt b 0x2C 8 == 0 && leAt b 0x34 8 == 0 && leAt b 0x3C 4 == 0

/-! ### The dump (21.R512, R515) -/

/-- One entry: SRC, the flags COARSE and REPEAT, and VALUE. -/
structure DumpEntry where
  src : Nat
  flags : Nat := 0
  value : Nat
  deriving DecidableEq, Repr

/-- A package event as a dump reads it. ENERGY reads 0 in confidential mode. -/
def State.dumpPkg (s : State) (ev : Nat) : DumpEntry × State :=
  let (v, s) := s.pkgEvent ev
  ({ src := 2 ^ 14 + ev, flags := 2 * b2n s.chouse.conf
     value := if s.chouse.conf && ev == PE_ENERGY then 0 else s.coarse v }, s)

/-- A core event as a dump reads it. -/
def State.dumpCore (s : State) (c : Fin 64) (ev : Nat) : DumpEntry × State :=
  let (v, rep, s) := s.sampleCore c ev
  ({ src := c.val * 2 ^ 8 + ev, flags := 2 * b2n s.chouse.conf + 4 * b2n rep, value := v }, s)

/-- QZ_ registers in offset order: offset and width in words. -/
def qzRegs : List (Nat × Nat) :=
  [(0x000, 1), (0x008, 1), (0x010, 2)] ++ (List.range 8).map (fun n => (0x040 + 8 * n, 2))
    ++ (List.range 16).flatMap (fun n => (List.range 5).map (fun i => (0x100 + 0x20 * n + 4 * i, 1)))

/-- TL_ registers in offset order. -/
def tlRegs : List (Nat × Nat) := [(0x000, 1), (0x008, 2), (0x010, 2), (0x018, 1)]

/-- A register's value from its words. -/
def regValue (f : Nat → Nat) (r : Nat × Nat) : Nat := f r.1 + if r.2 = 2 then f (r.1 + 4) * 2 ^ 32 else 0

/-- The QZ_ entries of a core and the TL_ entries of a cluster. -/
def State.dumpQz (s : State) (c : Fin 64) : List DumpEntry :=
  qzRegs.map (fun r => { src := 2 * 2 ^ 14 + c.val * 2 ^ 8 + r.1 / 4, value := regValue (qzWord s.cores[c].qz) r })
def State.dumpTl (s : State) (k : Fin 8) : List DumpEntry :=
  tlRegs.map (fun r => { src := 3 * 2 ^ 14 + k.val * 2 ^ 8 + r.1 / 4, value := regValue (tlWord s.clusters[k].tally) r })

/-- Entries read one after another. -/
def dumpAll (f : State → Nat → DumpEntry × State) : List Nat → State → List DumpEntry × State
  | [], s => ([], s)
  | ev :: rest, s =>
    let (e, s) := f s ev
    let (es, s) := dumpAll f rest s
    (e :: es, s)

/-- The entries of the cores selected. -/
def State.dumpCores (ops : Nat) : List (Fin 64) → State → List DumpEntry × State
  | [], s => ([], s)
  | c :: rest, s =>
    let (a, s) := if bit ops 1 then dumpAll (fun s ev => s.dumpCore c ev) ((List.range 256).filter coreEventDefined) s
      else ([], s)
    let q := if bit ops 2 then s.dumpQz c else []
    let (es, s) := State.dumpCores ops rest s
    (a ++ q ++ es, s)

/-- The entries of a dump in their order. -/
def State.dump (s : State) (r : DumpReq) : List DumpEntry × State :=
  let (p, s) := if bit r.ops 0 then dumpAll State.dumpPkg ((List.range 128).filter pkgEventDefined) s else ([], s)
  let (c, s) := State.dumpCores r.ops ((List.finRange 64).filter (fun c => bit r.cores c.val && s.coreBit c.val)) s
  let t := if bit r.ops 3 then
      ((List.finRange 8).filter (fun k => decide (0 < r.cores / 2 ^ (8 * k.val) % 256))).flatMap s.dumpTl
    else []
  (p ++ c ++ t, s)

/-- The bytes of an entry; TIME, which the model does not keep, is free (assumption 9). -/
def dumpBytes (denied : Bool) (n : Nat) (i : Nat) (e : DumpEntry) : List Byte :=
  leBytes 2 e.src ++ leBytes 2 (e.flags + b2n denied) ++ leBytes 4 (Config.unspecified (n + i)).toNat
    ++ leBytes 8 (if denied then 0 else e.value)

/-- LEDGER: the configuration is written, queued records are dropped and counted, and PC_LG_TAIL becomes 0 (21.R516). -/
def State.ledgerConfig (s : State) (r : DumpReq) : State :=
  let s := s.countPkg PE_LEDGER_DROPS s.lgQueue.length
  ({ s with lgBase := r.base, lgPages := r.pages, lgTail := 0, lgQueue := [] } : State).lgCtrlSet r.ctrl

/-- A counter request carried out. -/
def State.runDump (s : State) (e : Entry) (slot : Nat) (r : DumpReq) : State :=
  let ok := bit e.flags 1
  let (es, s') := s.dump r
  let s := if ok then s' else s
  let n := s.fresh
  let s := { s with fresh := n + es.length }
  let shown := es.take r.len
  let s := s.poke r.out ((shown.mapIdx (fun i x => dumpBytes (!ok) n i x)).flatten)
  let s := if ok && bit r.ops 4 then s.ledgerConfig r else s
  s.finishReq { e.completion slot 0 with d0 := shown.length, d1 := es.length - shown.length, d2 := s.lgTail }

/-- A counter request is carried out, its record read then. -/
def State.doDump (e : Entry) (slot : Nat) (s : State) : State :=
  match s.readWh (e.arg0 % 2 ^ 44) 64 with
  | none => s.reply e slot JOB_IMAGE
  | some b => if s.dumpOk b e then s.runDump e slot (parseDump b) else s.reply e slot JOB_IMAGE

/-- A counter request is accepted and, with its empty core set, carried out at once; with ORDERED it waits while an earlier request
has not completed (15.R396). -/
def State.acceptDump (e : Entry) (slot : Nat) (s : State) : State :=
  if bit e.flags 2 && !s.isOldest slot then s.addJob { e.job slot s.accepted with counter := true } else s.doDump e slot

/-- COUNTER_REQUEST (21.R511). -/
def execCounterRequest (s : State) : Out := s.accept (s.namesRecord COUNTER_MAGIC) State.acceptDump

/-- The entry of a counter request that has waited. -/
def Job.entry (j : Job) : Entry :=
  { kind := 1, flags := b2n j.irq + 2 * b2n j.pcAccess + 4 * b2n j.ordered, mslot := j.mslot, nbind := j.nbind, tag := j.tag
    arg0 := j.arg0, arg1 := j.arg1, almask := j.almask, al := j.al }

/-- JOB_DISPATCH: the first job that may be dispatched is (15.R396, R399); a counter request among them is carried out. -/
def execJobDispatch (s : State) : Out :=
  .next (if !s.dispatches then s
    else match s.firstJob s.jobs [] with
    | some j =>
      if j.counter then
        ({ s with jobs := s.jobs.filter (fun x => x.slot != j.slot) } : State).doDump j.entry j.slot
      else s.dispatchJob j
    | none => s)

/-! ### PC_SEL and PC_QUALq (21.R505 to R507) -/

/-- PC_SEL_WRITE: ignored unless the core's job has PC_ACCESS. -/
def execPcSelWrite (c : Fin 64) (v : W32) (s : State) : Out := .next (s.coreWrite (.core c) c 0x2000 v.toNat)

/-- PC_QUAL_WRITE. -/
def execPcQualWrite (c : Fin 64) (n : Fin 10) (v : W32) (s : State) : Out :=
  .next (s.coreWrite (.core c) c (0x2040 + 4 * n.val) v.toNat)

/-! ### The Ledger (21.R513) -/

/-- LEDGER_RECORD_WRITE: the oldest queued record is written with its SEQNO into the ring. -/
def execLedgerRecordWrite (s : State) : Out :=
  .next (match s.lgQueue with
    | [] => s
    | r :: rest =>
      if s.chouse.conf then s
      else
        let at_ := s.lgBase + 32 * (s.lgTail % (128 * s.lgPages))
        let s := s.poke at_ (r.take 24 ++ leBytes 4 (s.lgTail % 2 ^ 32) ++ r.drop 28)
        ({ s with lgTail := (s.lgTail + 1) % 2 ^ 32, lgQueue := rest } : State).countPkg PE_LEDGER_RECORDS 1)

end Sys2Proof.Machine
end

