-- ==== Sys2Proof/Machine/Debug.lean ====
section
/-!
DEFINITION. The debug port (17.R452): in UNLOCKED alone its balls do anything.
-/

namespace Sys2Proof.Machine

/-- The debug port is UNLOCKED. -/
def State.debugOpen (s : State) : Bool := s.chouse.debug == .unlocked

/-- DEBUG_HALT: the sequencer decodes nothing further. -/
def execDebugHalt (q : SeqId) (s : State) : Out :=
  .next (if s.debugOpen then s.updSeqr q (fun r => { r with halted := true, stepOne := false }) else s)

/-- DEBUG_STEP: a halted sequencer decodes one instruction. -/
def execDebugStep (q : SeqId) (s : State) : Out :=
  .next (if s.debugOpen && (s.seqr q).halted then s.updSeqr q (fun r => { r with stepOne := true }) else s)

/-- DEBUG_RESUME. -/
def execDebugResume (q : SeqId) (s : State) : Out :=
  .next (if s.debugOpen then s.updSeqr q (fun r => { r with halted := false, stepOne := false }) else s)

/-- An address that the debug port may not reach: region 0x3 and the CH_ block. -/
def debugBarred (a : Nat) : Bool :=
  addrRegion a == 3 || (addrRegion a == 6 && decide (0x10000 ≤ addrOff a) && decide (addrOff a < 0x20000))

/-- No byte of a span is barred. -/
def debugReaches (a n : Nat) : Bool := (granulesOf a n).all (fun g => !debugBarred (wrapAddr g))

/-- DEBUG_ACCESS: a read or write as the house sequencer makes it. An access that a check stops has what came before it. -/
def execDebugAccess (addr : Nat) (len : Nat) (write : Option (List Byte)) (s : State) : Out :=
  .next (if !s.debugOpen then s
    else
      match write with
      | some b =>
        if !debugReaches addr b.length then s
        else match (writeMem .house 0 addr b).run s with
          | .ok _ s => s
          | .error _ s => s
      | none =>
        if !debugReaches addr len then s
        else match (readMem .house 0 addr len).run s with
          | .ok b s => { s with latch := { s.latch with bytes := b } }
          | .error _ s => s)

end Sys2Proof.Machine
end

