-- ==== Sys2Proof/Machine/LinkAuth.lean ====
section
/-!
DEFINITION. Stitch links: training, authentication and keys (19.R471 to R476, 20.R486, R490).
-/

namespace Sys2Proof.Machine

/-- Link `n`. -/
def State.link (s : State) (n : Nat) : Link := getN s.fabric.links n {}

/-- House firmware serves the links. -/
def State.fabricRuns (s : State) : Bool := s.boot == .house || s.boot == .service

/-! ### Training (19.R471) -/

/-- Training of a link begins; it is a wake event (16.R419). -/
def State.startTraining (s : State) (n : Nat) : State :=
  (s.updLink n (fun l => { l with st := .train, failed := false, refused := false })).wakeEvent false

/-- A link may be trained at all: the device has REFCLK, and house firmware runs. -/
def State.canTrain (s : State) : Bool := s.fabricRuns && s.refclk.present

/-- LINK_TRAINING_START: of a link that is DOWN, or that the peer brings out of its low-power state (19.R471, R483). -/
def execLinkTrainingStart (n : Fin 4) (s : State) : Out :=
  let l := s.link n.val
  .next (if s.canTrain && ((l.st == .down && !l.failed && !l.refused && !l.fenced) || l.st == .lowpower) then
      s.startTraining n.val
    else s)

/-- LINK_RETRY: a link that aligned fewer than 4 lanes trains again after 100 ms. -/
def execLinkRetry (n : Fin 4) (s : State) : Out :=
  let l := s.link n.val
  .next (if s.canTrain && l.st == .down && l.failed && !l.fenced then s.startTraining n.val else s)

/-- The fencing logic fences a link: it is logged, leaves LINK_MAP and goes down (20.R486, R489, R490). -/
def State.fenceLink (s : State) (n : Nat) : State :=
  let now := s.timeUs
  ((s.logEvent FN_LINK).linkDown n).updLink n (fun l =>
    { l with fenced := true, fences := now :: inWindow now 3600000000 l.fences })

/-- Training aligned the link at full or half width: its end sends a challenge; 16 trainings within 60 s fence the link. -/
def State.trained (s : State) (n : Nat) (half : Bool) : State :=
  let (c, s) := s.random32
  let ts := s.timeUs :: inWindow s.timeUs 60000000 (s.link n).trainings
  let s := s.updLink n (fun l =>
    { l with st := .auth, half := half, nonce := c, retrains := min (l.retrains + 1) 0xFFFF, trainings := ts })
  if 16 ≤ ts.length then s.fenceLink n else s

/-- LINK_TRAINING_DONE. -/
def execLinkTrainingDone (n : Fin 4) (lanes : LaneResult) (s : State) : Out :=
  .next (if (s.link n.val).st ≠ .train then s
    else match lanes with
      | .full => s.trained n.val false
      | .half => s.trained n.val true
      | .fewer => (s.linkDown n.val).updLink n.val (fun l => { l with failed := true }))

/-- LINK_ALIGNMENT_LOSS. -/
def execLinkAlignmentLoss (n : Fin 4) (s : State) : Out :=
  .next (if (s.link n.val).st = .down then s else s.linkDown n.val)

/-- LINK_REJECT_RETRAIN: a refused link trains again after 1 s (19.R473). -/
def execLinkRejectRetrain (n : Fin 4) (s : State) : Out :=
  .next (if s.canTrain && (s.link n.val).refused && !(s.link n.val).fenced then s.startTraining n.val else s)

/-- LINK_FENCE_RETRAIN: a link fenced by the logic trains again after 60 s, unless that was its third fence within 1 h
(20.R490). -/
def execLinkFenceRetrain (n : Fin 4) (s : State) : Out :=
  let l := s.link n.val
  .next (if s.canTrain && l.fenced && decide (l.fences.length < 3) then
      (s.updLink n.val (fun l => { l with fenced := false })).startTraining n.val
    else s)

/-! ### Authentication (19.R473) -/

/-- The link Seal is built and sent with the two certificates: its ephemeral key is fresh, in slot 16 + n. -/
def State.answerChallenge (s : State) (n : Nat) (nonce : List Byte) : State :=
  let (k, s) := s.random32
  let s := s.setKey (16 + n) (some { ty := .x25519, bytes := k })
  let (b, digest, s) := s.buildSeal (x25519Pub k) nonce
  let s := s.updLink n (fun l => { l with mySealDigest := digest })
  { s with latch := { s.latch with bytes := b ++ s.deviceCert ++ deviceCaCert } }

/-- LINK_CHALLENGE: of a link in AUTH or REKEY; on a link that is UP the peer re-keys it (19.R476). -/
def execLinkChallenge (n : Fin 4) (nonce : List Byte) (s : State) : Out :=
  let s' := s.rekeyLink n.val
  .next (if s.fabricRuns && !s.linksIdle && nonce.length == 32 && ((s'.link n.val).st == .auth || (s'.link n.val).st == .rekey) then
      s'.answerChallenge n.val nonce
    else s)

/-- A certificate of 17.R425 that an issuer signed. -/
def certSigned (issuer cert : List Byte) : Bool :=
  cert.length == 144 && (cert.drop 0x30).take 32 == issuer && edVerify issuer (sha512 (cert.take 0x50)) (cert.drop 0x50)

/-- The key a certificate certifies. -/
def certSubject (cert : List Byte) : List Byte := (cert.drop 0x10).take 32

/-- The peer is accepted: all conditions of 19.R473 hold. -/
def State.sealAccepted (s : State) (n : Nat) (b dikCert caCert : List Byte) : Bool :=
  certSigned rootKey caCert && certSigned (certSubject caCert) dikCert && b.length == sealBytes
    && edVerify (certSubject dikCert) (sha512 (b.take 0x39A0)) (b.drop 0x39A0)
    && (b.drop 0x80).take 32 == (s.link n).nonce
    && bit (leAt b 6 2) 0 == s.chouse.conf && (!bit (leAt b 6 2) 1 || s.chouse.debug == .unlocked)

/-- The link keys (19.R474): transmit and receive. -/
def linkKeys (own peer : Nat) (ikm ownDigest peerDigest : List Byte) : List Byte × List Byte :=
  let lo := decide (own < peer)
  let prk := hmac (if lo then ownDigest ++ peerDigest else peerDigest ++ ownDigest) ikm
  let lh := hkdfExpand prk (ascii "PELUX-STITCH-LH") 32
  let hl := hkdfExpand prk (ascii "PELUX-STITCH-HL") 32
  if lo then (lh, hl) else (hl, lh)

/-- The peer is refused: the link stays out of LINK_MAP, and retrains after 1 s. -/
def State.refuseLink (s : State) (n : Nat) : State :=
  (s.linkDown n).updLink n (fun l => { l with lastCode := FB_SEAL_REJECT, refused := true })

/-- The link has new keys: its counters start anew, slot 16 + n is zeroed, and what waited is sent. After training, member
lists are exchanged (19.R477). -/
def State.linkKeyed (s : State) (n : Nat) (ks : List Byte × List Byte) (peer : W64) (peerLink : Nat) : State :=
  let fresh := decide ((s.link n).st = .auth)
  let s := s.setKey (8 + n) (some { ty := .aes256, bytes := ks.1 })
  let s := s.setKey (12 + n) (some { ty := .aes256, bytes := ks.2 })
  let s := s.setKey (16 + n) none
  let s := s.updLink n (fun l =>
    { l with st := .up, peerSerial := peer, peerLink := peerLink, txCtr := 0, rxCtr := 0, sent := [], nonce := [], mySealDigest := [], resend := false })
  let s := if !fresh then s
    else { s with fabric := { s.fabric with exchanging := true, ready := s.fabric.ready ||| BitVec.ofNat 4 (2 ^ n) } }
  s.flushLink n

/-- LINK_SEAL_RECEIVED: the peer's Seal is checked once the device has sent its own, whose digest the keys take in. -/
def execLinkSealReceived (n : Fin 4) (b : List Byte) (dikCert caCert : List Byte) (peerLink : Fin 4) (s : State) : Out :=
  let l := s.link n.val
  .next (if !s.fabricRuns || s.linksIdle || !(l.st == .auth || l.st == .rekey) || l.mySealDigest.isEmpty then s
    else if !s.sealAccepted n.val b dikCert caCert then s.refuseLink n.val
    else
      let ikm := x25519 (match s.keyIn (16 + n.val) with
        | some k => k.bytes
        | none => []) ((b.drop 0x60).take 32)
      let peer := leAt b 0x10 8
      if ikm.all (· == 0) then s.refuseLink n.val
      else s.linkKeyed n.val (linkKeys s.fuses.serial.toNat peer ikm l.mySealDigest (sha512 (b.take 0x39A0)))
        (BitVec.ofNat 64 peer) peerLink.val)

/-- LINK_REKEY: the transmit counter has reached 2^48 (19.R476). -/
def execLinkRekey (n : Fin 4) (s : State) : Out :=
  .next (if decide (2 ^ 48 ≤ (s.link n.val).txCtr) then s.rekeyLink n.val else s)

end Sys2Proof.Machine
end

