-- ==== Sys2Proof/Machine/LoomIssue.lean ====
section
/-!
DEFINITION. The Loom queue at work (01.R24 to R27, 03.R106): an instruction asks for its grant when those before it are past
their last window, and starts when it has it; PLY and no-ops are done when they are reached.
-/

namespace Sys2Proof.Machine

/-! ### Start of an instruction -/

/-- The pre-shift in force as an instruction starts: its own for ACC = 0 and for a re-execution, else the chain's (03.R91,
R98). -/
def startShift (k : Core) (i : LoomInstr) : Nat := if i.acc ∧ i.retries = 0 then k.pshift else i.psh

/-- The rows that run, and the first codes: with engines that integrate those of the first vector, else all. -/
def startMv (c : Fin 64) (i : LoomInstr) : ExecM Unit := do
  setLoom c i.q.uid (fun i => { i with phase := .integrating })
  let i := { i with phase := .integrating }
  if !i.hold then checkSy i.fin 1
  let (rows, _) ← inputRows c i
  setLoom c i.q.uid (fun i => { i with vecs := rows.map (fun r => r.1) })
  let i := { i with vecs := rows.map (fun r => r.1) }
  if i.analogue = [] then
    loadVectors c i.q.uid i i.vecs.length
    setLoom c i.q.uid (fun i => { i with windows := i.vecs.length, phase := .converting })
  else loadVectors c i.q.uid i 1
  if i.vecs = [] then
    setLoom c i.q.uid (fun i => { i with phase := .converting })
    change (fun s => if i.analogue = [] then s else (s.releaseCap c).setActive c (i.analogue.map (fun e => e.1)) false)
    endMv c i

/-- An MVM or MVMT that holds its grant looks at its input and begins its first window, unless it still waits for the input
(03.R106). -/
def State.tryMv (s : State) (c : Fin 64) (i : LoomInstr) : State :=
  if i.analogue = [] ∨ s.engineReady then s.runLoom c i.q.uid (startMv c) else s

/-- A MVM or MVMT starts: openings on its plies end, and its input is looked at. -/
def State.beginMv (s : State) (c : Fin 64) (i : LoomInstr) : State :=
  let p := startShift s.cores[c] i
  let s := s.endOpenings c (i.engines.map (fun e => (e.engine, e.ply)))
  let s := s.setActive c (i.analogue.map (fun e => e.1)) true
  let s := s.updCore c (fun k => { k with pshift := p })
  let s := s.updLoom c i.q.uid (fun i => { i with phase := .loading, psh := p })
  s.tryMv c { i with phase := .loading, psh := p }

/-- A PROG, VERIFY or PROBE starts. -/
def State.beginOther (s : State) (c : Fin 64) (i : LoomInstr) : State :=
  let s := s.setActive c (i.engines.map (fun e => e.engine)) true
  let s := s.updLoom c i.q.uid (fun i => { i with phase := .integrating })
  s.runLoom c i.q.uid (startOther c)

/-- An instruction starts. -/
def State.beginLoom (s : State) (c : Fin 64) (i : LoomInstr) : State :=
  match i.kind with
  | .mvm | .mvmt => s.beginMv c i
  | _ => s.beginOther c i

/-! ### Requests and grants (01.R27, 11.R314) -/

/-- The grant that an instruction asks for. -/
def LoomInstr.request (budget : Nat) (c : Fin 64) (i : LoomInstr) : GrantReq :=
  { core := c.val
    count := (match i.kind with
      | .mvm | .mvmt => i.analogue.length
      | _ => i.engines.length)
    a4 := i.a4, budget := budget }

/-- The instruction of a core that waits for its grant. -/
def State.loomWaiting (s : State) (c : Fin 64) : Option LoomInstr := s.cores[c].loomQ.find? (fun i => i.phase == .waiting)

/-- A grant has been given to a core's instruction: it starts. -/
def State.granted (s : State) (g : GrantReq) : State :=
  match s.loomWaiting (coreIx g.core) with
  | some i =>
    let s := if i.kind = .prog then s else s.count (coreIx g.core) EV_LM_GRANTS 1
    s.beginLoom (coreIx g.core) i
  | none => s

/-- The request of core `c` is granted when it heads its queue and fits. -/
def State.tryGrant (s : State) (c : Fin 64) (i : LoomInstr) : State :=
  if i.kind = .prog then
    if (s.progWait.head?).any (fun g => g.core == c.val) then
      (match s.grantProg with
        | some (g, s) => s.granted g
        | none => s)
    else s
  else if (s.capWait.head?).any (fun g => g.core == c.val) then
    (match s.grantCap with
      | some (g, s) => s.granted g
      | none => s)
  else s

/-! ### The queue -/

/-- The instruction is past its last window (01.R25). -/
def loomPast (i : LoomInstr) : Bool := i.phase == .converting || i.phase == .done

/-- LOOM.PLY executes: plies of record are set, and openings on the plies named end (08.R238, 02.R73). -/
def State.runPly (s : State) (c : Fin 64) (i : LoomInstr) : State :=
  let s := s.endOpenings c (i.engines.map (fun e => (e.engine, e.ply)))
  i.engines.foldl (fun s e => s.updEngine c e.engine (fun g => { g with ofRecord := e.ply })) s

/-- A no-op is reached: only the end-of-instruction effects of 05.R140 remain (07.R206, 09.R263). -/
def State.runNoop (s : State) (c : Fin 64) (i : LoomInstr) : State :=
  if i.producer then s.updCore c (fun k => { k with qz := { k.qz with seed := (k.qz.seed + 1) % 256 } }) else s

/-- The engines whose cells an instruction reads or writes, with their plies: a PLY and a no-op use none. -/
def LoomInstr.selects (i : LoomInstr) : List (Nat × Nat) :=
  match i.kind with
  | .mvm | .mvmt => if i.noop then [] else i.analogue
  | .ply => []
  | _ => if i.noop then [] else i.engines.map (fun e => (e.engine, e.ply))

/-- Ply changes begin as soon as they may: in each engine once the instructions before, which name it, are past their last
windows (03.R106). -/
def State.changePlies (s : State) (c : Fin 64) : State :=
  (s.cores[c].loomQ.foldl (fun (r : State × List Nat) i =>
    if loomPast i then r
    else
      let es := i.selects.filter (fun e => !r.2.contains e.1)
      (r.1.selectPlies c es, r.2 ++ i.selects.map (fun e => e.1))) (s, [])).1

/-- An instruction takes the stream slots it reads and writes as it reaches the head of its queue; it is a no-op when a stream
has none for it any more (07.R212, 09.R264). Its TDA and TDD are then those of the slots. -/
def takeLoom (c : Fin 64) (i : LoomInstr) : ExecM Unit := do
  match ← takeSlots (.core c) (i.q.srcs ++ i.q.dsts) with
  | none => setLoom c i.q.uid (fun i => { i with noop := true, took := true, q := { i.q with noop := true } })
  | some ts =>
    let ss := ts.take i.q.srcs.length
    let ds := ts.drop i.q.srcs.length
    holdSlots (.core c) (streamsOf ts)
    setLoom c i.q.uid (fun i => { i with
      took := true, tda := ss.headD i.tda, tdd := ds.headD i.tdd
      q := { i.q with
        frees := streamsOf ss, hands := streamsOf ds
        dst := if ds = [] then i.q.dst else resolved ds ++ chainDests i.fin.chain } })

/-- The first instruction that is not past its last window, which has its slots, takes its next step: it is done at once, starts
without a grant (20.R498), or asks for one. -/
def State.issueLoom (s : State) (c : Fin 64) (i : LoomInstr) : State :=
  let done := fun (s : State) => s.updLoom c i.q.uid (fun i => { i with phase := .done })
  if i.noop then done (s.runNoop c i)
  else if i.kind = .ply then done (s.runPly c i)
  else if (i.kind = .mvm ∨ i.kind = .mvmt) ∧ i.analogue = [] then s.beginMv c i
  else
    let s := s.updLoom c i.q.uid (fun i => { i with phase := .waiting })
    let s := if i.kind = .prog then { s with progWait := s.progWait ++ [i.request s.power.progBudget c] }
      else { s with capWait := s.capWait ++ [i.request s.power.progBudget c] }
    s.tryGrant c i

/-- The first instruction that is not past its last window goes on as far as it can. -/
def State.advanceLoom (s : State) (c : Fin 64) (i : LoomInstr) : State :=
  match i.phase with
  | .queued =>
    if i.took then s.issueLoom c i
    else
      let s := s.runLoom c i.q.uid (takeLoom c)
      match s.loomOf c i.q.uid with
      | some i => if i.took then s.issueLoom c i else s
      | none => s
  | .loading => s.tryMv c i
  | _ => s

/-- The Loom queue of a core goes on as far as it can; `n` bounds the steps. -/
def State.pumpLoom : Nat → Fin 64 → State → State
  | 0, _, s => s
  | n + 1, c, s =>
    match s.cores[c].loomQ.find? (fun i => !loomPast i) with
    | some i =>
      let t := s.advanceLoom c i
      if t.cores[c].loomQ.find? (fun i => !loomPast i) = some i then t else State.pumpLoom n c t
    | none => s

/-- The queue goes on after a change: each of at most 8 instructions takes at most 2 steps. -/
def State.pump (s : State) (c : Fin 64) : State := (s.pumpLoom 16 c).changePlies c

/-- An instruction joins the queue, which goes on. -/
def putLoom (c : Fin 64) (i : LoomInstr) : ExecM Unit :=
  change (fun s => (s.updCore c (fun k => { k with loomQ := k.loomQ ++ [i] })).pump c)

/-! ### Decode of MVM and MVMT (08.R234 to R236) -/

/-- Engine numbers of an EMASK, ascending. -/
def maskEngines (m : Nat) : List Nat := (List.range 16).filter (fun e => bit m e)

/-- The loom-ply that a digital position of a core stands for (20.R498): the core is a digital stand-in of its job's slot,
and the slot owns the position on the core it stands for. -/
def State.digitalAt (s : State) (c : Fin 64) (e p : Nat) : Option Nat :=
  match s.cores[c].job.bind s.jobOf with
  | none => none
  | some j =>
    let m := getN s.models j.mslot {}
    if !m.digital.contains c.val then none
    else (((m.pairs.filter (fun x => x.2 == c.val)).map (fun x => plyNo (coreIx x.1) e p)).find?
      (fun q => (s.plyRec q).owner == some j.mslot))

/-- An engine with its ply as an instruction finds them at decode: its class, and its directory entry (11.R311). -/
def State.engineEntry (s : State) (c : Fin 64) (e p : Nat) : LoomEngine :=
  let dig := s.digitalAt c e p
  let q := dig.getD (plyNo c e p)
  let d := s.dirOf q
  { engine := e, ply := p, w8 := (s.plyRec q).w8, digital := dig.isSome
    dirValid := d.valid, bundle := d.bundle, sideCount := d.sideCount }

/-- The named engines with the plies they use: PLY, or with PSEL the plies of record. -/
def State.enginesOf (s : State) (c : Fin 64) (w : W128) : List LoomEngine :=
  (maskEngines (bits (wImm w) 24 16)).map (fun e =>
    s.engineEntry c e (if bit (wImm w) 20 then (getN s.cores[c].engines e {}).ofRecord else bits (wImm w) 21 3))

/-- Steps 5 and 6 of 08.R224 for a MVM or MVMT that names engines (08.R236). -/
def checkMv (c : Fin 64) (w : W128) (t : Bool) (es : List LoomEngine) (tda tdd : TD) : ExecM Unit := do
  let s ← get
  let k := s.cores[c]
  let ks := 2 ^ bits (wImm w) 0 3
  let w8 := (es.headD {}).w8
  let acc := wFlag w 0
  let k20 := wFlag w 2
  demand (decide (bits (wImm w) 0 3 ≤ 4) && es.length % ks == 0) LOOM_PLANE
  demand (tdFmt tda == (if wFlag w 3 then .a4u else .a8u) && tda.eff1 == tdd.eff1) LOOM_FORMAT
  demand (es.all (fun e => e.w8 == w8) && !(acc && k.chain && k.chainW8 != w8) && !(k20 && w8)) LOOM_CLASS
  demand (!acc || (k.chain && k.chainT == t && k.chainK20 == k20)) LOOM_CHAIN
  let inMax := ks * (if t then classOuts w8 else 1024)
  let outMax := es.length / ks * (if t then 1024 else classOuts w8)
  demand (decide (tda.ext0 ≤ inMax)) TILE_OVERFLOW 0 (some (overflowDetail 1 tda.ext0))
  demand (decide (tdd.ext0 ≤ outMax)) TILE_OVERFLOW 0 (some (overflowDetail 2 tdd.ext0))
  demand (decide (tdd.ext0 * tdd.ext1 ≤ 8192)) TILE_OVERFLOW 0 (some (overflowDetail 3 (tdd.ext0 * tdd.ext1)))

/-- The chain state after the decode of an instruction that is no no-op (03.R91). -/
def openChain (c : Fin 64) (w : W128) (t w8 : Bool) : ExecM Unit :=
  change (fun s => s.updCore c (fun k =>
    if wFlag w 0 then { k with chain := wFlag w 1 }
    else { k with chain := wFlag w 1, chainT := t, chainW8 := w8, chainK20 := wFlag w 2 }))

/-- The decode of LOOM.MVM and LOOM.MVMT. -/
def loomMv (c : Fin 64) (w : W128) (t : Bool) : ExecM Flow := do
  let q := SeqId.core c
  let s ← get
  if bit (wImm w) 20 && s.cores[c].loomQ.any (fun i => i.kind == .ply && i.phase != .done) then stall
  let tdd ← operand q w 0 true
  let tda ← operand q w 1 false
  let chain ← chainOperand q (bits (wImm w) 40 8) (some tdd) (some tdd.ext0)
  let s ← get
  let es := s.enginesOf c w
  if es != [] then checkMv c w t es tda tdd
  let hold := wFlag w 1
  let fin ← finishOps q w (bit (wImm w) 11) (if hold then [] else chain)
  roomLoom c
  let e ← newEntry q w
  let none0 := es == [] || tdEmpty tda || tdEmpty tdd
  let producer := !hold && produces tdd chain false
  let i : LoomInstr :=
    { q := e, kind := if t then .mvmt else .mvm, acc := wFlag w 0, hold := hold, k20 := wFlag w 2, a4 := wFlag w 3
      engines := es, ks := 2 ^ bits (wImm w) 0 3, tdd := tdd, tda := tda, psh := bits (wImm w) 17 3, fin := fin
      w8 := (es.headD {}).w8, producer := producer }
  if none0 then putLoom c { i with noop := true, took := true, q := { e with noop := true } }
  else
    let s ← get
    let abandons := !i.acc && s.cores[c].chain
    openChain c w t i.w8
    putLoom c { i with
      abandons := abandons
      q := { e with srcs := [tda], dsts := if hold then [] else [tdd], dst := if hold then [] else tdd :: chainDests chain } }
  return .next

/-! ### Decode of PLY, PROG, VERIFY and PROBE (08.R238 to R240, 11.R312) -/

/-- The named engines at one ply, for PROG, VERIFY and PROBE. -/
def State.maskAt (s : State) (c : Fin 64) (w : W128) (p : Nat) : List LoomEngine :=
  (maskEngines (wFlags w % 2 ^ 16)).map (fun e => s.engineEntry c e p)

/-- The decode of LOOM.PLY. -/
def loomPly (c : Fin 64) (w : W128) : ExecM Flow := do
  roomLoom c
  let e ← newEntry (.core c) w
  putLoom c { q := e, kind := .ply, took := true, engines := (maskEngines (wFlags w % 2 ^ 16)).map (fun n =>
    { engine := n, ply := bits (wImm w) (3 * n) 3 }) }
  return .next

/-- The decode of LOOM.PROG and LOOM.VERIFY; `w8` is the class that a PROG writes. -/
def loomRows (c : Fin 64) (w : W128) (kind : LoomKind) (w8 : Bool) : ExecM Flow := do
  let tda ← operand (.core c) w 1 false
  let s ← get
  let es := s.maskAt c w (bits (wImm w) 45 3)
  let row0 := bits (wImm w) 35 10
  let nrow := bits (wImm w) 24 11
  demand (tdFmt tda == .int8 && tda.ext0 == 512 && tda.eff1 == nrow && tda.eff2 == es.length) LOOM_FORMAT
  demand (decide (row0 + nrow ≤ 1024)) TILE_OVERFLOW 0 (some (overflowDetail 4 (row0 + nrow)))
  roomLoom c
  let e ← newEntry (.core c) w
  let i : LoomInstr :=
    { q := e, kind := kind, w8 := w8, engines := es, tda := tda, row0 := row0, nrow := nrow
      iter := (let n := bits (wImm w) 20 4
        if n = 0 ∨ 12 < n then 12 else n)
      rd := bits (wImm w) 15 5, re := bits (wImm w) 10 5 }
  putLoom c (if tdEmpty tda then { i with noop := true, took := true, q := { e with noop := true } }
    else { i with q := { e with srcs := [tda] } })
  return .next

/-- The decode of LOOM.PROBE. -/
def loomProbe (c : Fin 64) (w : W128) : ExecM Flow := do
  let tdd ← operand (.core c) w 0 true
  let s ← get
  let es := s.maskAt c w (bits (wImm w) 45 3)
  demand (tdFmt tdd == .int32 && tdd.eff1 == es.length) LOOM_FORMAT
  let rep := bits (wImm w) 0 8
  roomLoom c
  let e ← newEntry (.core c) w
  let i : LoomInstr := { q := e, kind := .probe, engines := es, tdd := tdd, rep := rep }
  putLoom c (if rep = 0 ∨ tdEmpty tdd then { i with noop := true, took := true, q := { e with noop := true } }
    else { i with q := { e with dsts := [tdd], dst := [tdd] } })
  return .next

end Sys2Proof.Machine
end

