-- ==== Sys2Proof/Machine/MillMat.lean ====
section
/-!
DEFINITION. MILL.MATMUL (06.R160 to R166, 05.R147, 08.R241). Entry (t, j) of the Mill accumulator has the key 4096 t + j.
-/

namespace Sys2Proof.Machine

/-! ### Checks (06.R160, R163, R165, 08.R241) -/

/-- The mode of a pair of operand formats (06.R160). -/
def matMode (a b : Fmt) : Option MatMode :=
  let f8 := fun f => f == Fmt.e4m3 || f == Fmt.e5m2
  let h := fun f => f == Fmt.bf16 || f == Fmt.fp16
  let i8 := fun f => fmtA f || f == Fmt.int8
  if i8 a && i8 b then some .int
  else if f8 a && f8 b then some .fp8
  else if (h a || f8 a) && (h b || fmtBell b) then some .f16
  else none

/-- The scale of an operand varies along K; `inner` says that K is its innermost dimension (06.R165, 07.R203). A block scale
covers 128 elements of a row, so that it does not vary along an innermost K of at most 128. -/
def alongK (t : TD) (inner : Bool) : Bool :=
  (t.skind == 2 && (!inner || decide (128 < t.ext0))) || (t.skind == 3 && inner) || (t.skind == 1 && !inner)

/-- The mode, with the checks that raise MILL_PAIR. -/
def matPair (tda tdb : TD) (tb : Bool) : ExecM MatMode := do
  let kb := if tb then tdb.ext0 else tdb.ext1
  match matMode (tdFmt tda) (tdFmt tdb) with
  | none => fail MILL_PAIR
  | some m =>
    demand (tda.ext0 == kb && !(alongK tdb tb && !fmtFloat (tdFmt tdb))) MILL_PAIR
    return m

/-- Group depth along K (06.R161). -/
def groupK : MatMode → Nat
  | .f16 => 16
  | _ => 32

/-- Block width along N (06.R161). -/
def blockN : MatMode → Nat
  | .int => 32
  | _ => 16

/-- Operand precision in significant bits (06.R165). -/
def matPrec : MatMode → Nat
  | .fp8 => 4
  | _ => 11

/-- The Mill of a core with a function applied. -/
def updMill (c : Fin 64) (f : Mill → Mill) : ExecM Unit :=
  change (fun s => s.updCore c (fun k => { k with mill := f k.mill }))

/-! ### The products -/

/-- A row or column of an operand: the elements along K, and whether it lies below ROWS. -/
structure MatLine where
  valid : Bool := true
  elems : List Elem := []
  deriving DecidableEq, Repr

/-- Its zero point and scale, the same for each element where they do not vary along K. -/
def MatLine.zp (l : MatLine) : Nat := (l.elems.headD {}).zp
def MatLine.scale (l : MatLine) : Num := (l.elems.headD {}).scale

/-- The code of an element as an integer. -/
def Elem.int (e : Elem) : Int := e.code.rat.num

/-- An element as it enters the array (06.R165): its scale is applied first when it varies along K, and else at the finish. -/
def Elem.operand (p : Nat) (late : Bool) (e : Elem) : Num :=
  match if late then e.plain else e.value with
  | .val x => .val (roundSig p x)
  | y => y

/-- The sum of the products of one group in the INT mode. -/
def dotInt : List Elem → List Elem → Int
  | a :: as, b :: bs => a.int * b.int + dotInt as bs
  | _, _ => 0

/-- The exact sum of the products of one group in a float mode, and whether an operation was invalid. -/
def dotFloat (p : Nat) (la lb : Bool) : List Elem → List Elem → Num × Bool
  | a :: as, b :: bs =>
    let (m, i) := mulN (a.operand p la) (b.operand p lb)
    let (r, j) := dotFloat p la lb as bs
    let (s, k) := addN m r
    (s, i || j || k)
  | _, _ => (.val 0, false)

/-- An entry with the products of a row and a column added, group by group in ascending K; `n` bounds the groups
(06.R161, R164). -/
def accumulate (m : MatMode) (la lb : Bool) : Nat → List Elem → List Elem → MillEntry → MillEntry × Bool
  | 0, _, _, e => (e, false)
  | n + 1, as, bs, e =>
    if as = [] ∨ bs = [] then (e, false)
    else
      let g := groupK m
      let (e, i) := match m with
        | .int =>
          let (v, c) := clampInt (-(2 ^ 31)) (2 ^ 31 - 1) (e.val + dotInt (as.take g) (bs.take g))
          ({ val := v, sat := e.sat || c == .clip }, false)
        | _ =>
          let (d, i) := dotFloat (matPrec m) la lb (as.take g) (bs.take g)
          let (r, j) := add32 (ofFp32 (unsigned 32 e.val)) d
          ({ e with val := signed 32 (fp32Bits r) }, i || j)
      let (e, j) := accumulate m la lb n (as.drop g) (bs.drop g) e
      (e, i || j)

/-- The zero-point correction of one instruction (05.R147). `w` is the column sum. -/
def matCorr (a b : MatLine) (w : Int) : Int :=
  let r : Int := a.elems.foldl (fun n e => n + e.int) 0
  (a.elems.length : Int) * a.zp * b.zp - (b.zp : Int) * r - (a.zp : Int) * w

/-- The column sum W[j]: the stored one where it covers the reduction, else the sum of the elements (05.R147, 06.R165). -/
def matColSum (b : MatLine) (stored : Option Int) : Int := stored.getD (b.elems.foldl (fun n e => n + e.int) 0)

/-- The key of entry (t, j). -/
def millKey (t j : Nat) : Nat := 4096 * t + j

/-- How the outputs (t, j) of an instruction are formed. -/
structure MatPlan where
  mode : MatMode
  acc : Bool
  hold : Bool
  tri : Option Nat
  /-- The scales of A, and of B, do not vary along K: the finish applies them (06.R165). -/
  lateA : Bool
  lateB : Bool
  deriving DecidableEq, Repr

/-- Output (t, j) is computed (06.R166). -/
def MatPlan.computes (p : MatPlan) (t j : Nat) : Bool :=
  match p.tri with
  | some d => decide (j ≤ t + d)
  | none => true

/-- The columns of a row accumulated, from index `j` on. -/
def matRow (p : MatPlan) (t : Nat) (a : MatLine) (sums : List (Option Int)) : Nat → List MatLine → Mill → Bool → Mill × Bool
  | _, [], m, i => (m, i)
  | j, b :: bs, m, i =>
    if !b.valid || !p.computes t j then matRow p t a sums (j + 1) bs m i
    else
      let k := millKey t j
      let old := if p.acc then NatMap.get {} m.acc k else {}
      let (e, x) := accumulate p.mode p.lateA p.lateB (a.elems.length + 1) a.elems b.elems old
      let c := (if p.acc then NatMap.get 0 m.corr k else 0)
        + (if p.mode = .int then matCorr a b (matColSum b ((sums[j]?).join)) else 0)
      matRow p t a sums (j + 1) bs
        { m with acc := NatMap.insert m.acc k e, corr := NatMap.insert m.corr k c } (i || x)

/-- The rows accumulated, from index `t` on; the row sums with them in the INT mode. -/
def matRows (p : MatPlan) (bs : List MatLine) (sums : List (Option Int)) : Nat → List MatLine → Mill → Bool → Mill × Bool
  | _, [], m, i => (m, i)
  | t, a :: as, m, i =>
    if !a.valid then matRows p bs sums (t + 1) as m i
    else
      let (m, x) := matRow p t a sums 0 bs m i
      let r := (if p.acc then NatMap.get 0 m.rowSum t else 0) + a.elems.foldl (fun n e => n + e.int) 0
      let m := if p.mode = .int then { m with rowSum := NatMap.insert m.rowSum t r } else m
      matRows p bs sums (t + 1) as m x

/-! ### The finish -/

/-- A float accumulator with the scales that the finish applies, in order, each product rounded to FP32 (06.R165). -/
def matScaled (p : MatPlan) (a b : MatLine) (acc : Num) : Num × Bool :=
  let (x, i) := if p.lateA then mul32 acc a.scale else (acc, false)
  let (y, j) := if p.lateB then mul32 x b.scale else (x, false)
  (y, i || j)

/-- What becomes of output (t, j): its cell, skipped, not written, or its value before the chain; whether it can be rescaled; and
whether an operation was invalid. -/
def matCell (p : MatPlan) (o : FinishOps) (m : Mill) (t j : Nat) (a b : MatLine) : Cell × Bool × Bool :=
  if !b.valid then (.none, true, false)
  else if !p.computes t j then (.skip, true, false)
  else
    let e := NatMap.get {} m.acc (millKey t j)
    match p.mode with
    | .int =>
      match o.pair a.scale b.scale (.val 1) with
      | none => (.none, false, false)
      | some ms =>
        let r := Num.val (rescaled (e.val + NatMap.get 0 m.corr (millKey t j)) ms 0)
        (.val (if o.chain = [] then r else fp32 r), true, false)
    | _ =>
      let (v, i) := matScaled p a b (ofFp32 (unsigned 32 e.val))
      (.val v, true, i)

/-- The destination rows, each with whether all its outputs can be rescaled, and whether an operation was invalid. -/
def matOut (p : MatPlan) (o : FinishOps) (m : Mill) (tdd : TD) (bs : List MatLine) : Nat → List MatLine →
    List (OutRow × Bool × Bool)
  | _, [] => []
  | t, a :: as =>
    if !a.valid ∨ tdd.eff1 ≤ t then matOut p o m tdd bs (t + 1) as
    else
      let cs := (bs.take tdd.eff0).mapIdx (fun j b => matCell p o m t j a b)
      ({ i1 := t, cells := cs.map (fun c => c.1) }, cs.all (fun c => c.2.1), cs.any (fun c => c.2.2)) :: matOut p o m tdd bs (t + 1) as

/-- The keys of the entries that an instruction touches. -/
def matKeys (p : MatPlan) (bs : List MatLine) : Nat → List MatLine → List Nat
  | _, [] => []
  | t, a :: as =>
    (if a.valid then ((bs.mapIdx (fun j b => (j, b))).filter (fun x => x.2.valid && p.computes t x.1)).map
      (fun x => millKey t x.1) else []) ++ matKeys p bs (t + 1) as

/-- Entries become unspecified (03.R91, R100): each takes a free value. -/
def freeEntries (keys : List Nat) (d : Nat) (m : NatMap MillEntry) : NatMap MillEntry :=
  (keys.mapIdx (fun i k => (i, k))).foldl (fun m x =>
    let v := (Config.unspecified (d + x.1)).toNat
    NatMap.insert m x.2 { val := signed 32 v, sat := bit v 32 }) m

/-- The listed entries of a core's Mill accumulator become unspecified. -/
def abandonMill (c : Fin 64) (keys : List Nat) : ExecM Unit := do
  let d ← freeMany keys.length
  updMill c (fun m => { m with acc := freeEntries keys d m.acc })

/-- The rows of a source that hold no fault, and the first fault. -/
def splitLines (ls : List ((Nat × Nat × Nat) × Line)) : List MatLine × Option FaultInfo :=
  ((ls.takeWhile (fun l => l.2.err.isNone)).map (fun l => { valid := l.2.valid, elems := l.2.elems }),
    ls.findSome? (fun l => l.2.err))

/-- The transpose of B's rows: column j of each row of K, its rows at or beyond ROWS left out with A's elements there. -/
def matCols (n : Nat) (rows : List MatLine) : List MatLine :=
  (List.range n).map (fun j => { elems := rows.filterMap (fun r => if r.valid then r.elems[j]? else none) })

/-- A's elements at the K indices that B has. -/
def keepK (rows : List MatLine) (a : MatLine) : MatLine :=
  { a with elems := ((a.elems.zip rows).filter (fun x => x.2.valid)).map (fun x => x.1) }

/-- The counters of a product (21.R509). -/
def matCount (q : SeqId) (m : MatMode) (outs k n : Nat) : ExecM Unit :=
  change (fun s =>
    let ev := match m with
      | .int => EV_ML_MAC_INT
      | .fp8 => EV_ML_MAC_FP8
      | .f16 => EV_ML_MAC_F16
    (s.countSeq q ev (outs * k)).countSeq q EV_ML_BLOCK_LOADS (ceilDiv k (groupK m) * ceilDiv n (blockN m)))

/-- The finish of a product: R100 for saturated entries, then rescale, chain and destination (06.R164, R165). -/
def matFinish (q : SeqId) (c : Fin 64) (p : MatPlan) (o : FinishOps) (tdd : TD) (as bs ws : List MatLine)
    (err : Option FaultInfo) : ExecM Unit := do
  let s ← get
  let keys := matKeys p bs 0 as
  let m := s.cores[c].mill
  if keys.any (fun k => (NatMap.get {} m.acc k).sat) then
    if !o.satPolicy then
      abandonMill c keys
      fail ACC_SAT_FINAL 2
    change (fun s => (s.setFlag q FLAG_SAT).countSeq q EV_LM_FINAL_SAT 1)
  let outs := matOut p o m tdd bs 0 as
  flagInvalid q (outs.any (fun r => r.2.2))
  let rows := cutBlocks 2 (outs.map (fun r => (r.1, r.2.1)))
  let tail := (err.map (fun e => ({ i1 := as.length, err := some e } : OutRow))).toList
  let esc : EscapeOps :=
    { sx := as.map MatLine.scale
      kLen := ws.length
      weights := ws.map (fun l => l.elems.map (fun e => (mulN e.plain e.scale).1)) }
  finish q o (o.sink tdd 2) esc (rows ++ (if rows.any (fun r => r.err.isSome) then [] else tail))

/-- The rows of A and the columns of B as read, with what stops them: B's fault without TB stops everything, with TB the
columns from the failing one on; A's fault stops its row and later ones (05.R141, R142). -/
structure MatRead where
  as : List MatLine := []
  bs : List MatLine := []
  /-- w[k][j] with scales for ESCAPE, by k. -/
  ws : List MatLine := []
  sums : List (Option Int) := []
  err : Option FaultInfo := none
  deriving DecidableEq, Repr

/-- A row without zero point and scale: the integer path takes those of A from row tags only (05.R145, R148). -/
def MatLine.bare (l : MatLine) : MatLine := { l with elems := l.elems.map (fun e => { e with zp := 0, scale := .val 1 }) }

/-- Both operands read; `int` says that the product is one of integers. -/
def matRead (q : SeqId) (int tb : Bool) (tda tdb : TD) : ExecM MatRead := do
  let k := min tda.eff0 (if tb then tdb.eff0 else tdb.eff1)
  let n := if tb then tdb.eff1 else tdb.eff0
  let ta := { tda with eff0 := k, eff2 := 1, eff3 := 1 }
  let tb' := { tdb with eff0 := if tb then k else n, eff1 := if tb then n else k, eff2 := 1, eff3 := 1 }
  let la ← sourceLines q 2 ta
  let lb ← sourceLines q 2 tb'
  let cols ← colRecs q 2 tb'
  let (as, ea) := splitLines la
  let as := if int && tda.skind != 1 then as.map MatLine.bare else as
  let (rb, eb) := splitLines lb
  let whole := decide (k = tda.ext0)
  let sums := if tdb.skind = 3 ∧ !tb then cols.map (fun c => if whole then some c.sum else none) else []
  if tb then
    return { as := as, bs := rb, sums := [], err := eb.orElse (fun _ => ea)
             ws := (List.range k).map (fun i => { elems := rb.map (fun r => r.elems.getD i {}) }) }
  else
    match eb with
    | some e => throw e
    | none => return { as := as.map (keepK rb), bs := matCols n rb, ws := rb, sums := sums, err := ea }

/-- The body of a MATMUL on a core. -/
def matBody (q : SeqId) (c : Fin 64) (p : MatPlan) (o : FinishOps) (tb : Bool) (ss ds : List TD) : ExecM Unit := do
  if p.mode = .int ∧ !p.hold then checkSy o 2
  let r ← matRead q (p.mode == .int) tb (ss.headD {}) (ss.getD 1 {})
  let s ← get
  let (m, inv) := matRows p r.bs r.sums 0 r.as s.cores[c].mill false
  updMill c (fun _ => m)
  flagInvalid q inv
  matCount q p.mode (matKeys p r.bs 0 r.as).length r.ws.length r.bs.length
  if p.hold then
    match r.err with
    | some e => throw e
    | none => pure ()
  else
    let part := tb && endsRequant o.chain && decide (r.bs.length < (ss.getD 1 {}).eff1)
    matFinish q c p o (ds.headD {}) (if part then [] else r.as) r.bs r.ws r.err

/-- A MATMUL as it starts: with ACC 0 in an open chain the chain's entries become unspecified first (06.R163, 03.R91). -/
def startMatmul (q : SeqId) (c : Fin 64) (mode : MatMode) (acc hold tb abandons : Bool) (tri : Option Nat) (o : FinishOps)
    (ss ds : List TD) : ExecM Unit := do
  let s ← get
  if abandons then abandonMill c (s.cores[c].mill.acc.map (fun e => e.1))
  let late := fun (t : TD) (inner : Bool) => t.skind == 2 && !alongK t inner
  matBody q c { mode := mode, acc := acc, hold := hold, tri := tri
                lateA := mode != .int && late (ss.headD {}) true
                lateB := mode != .int && late (ss.getD 1 {}) tb } o tb ss ds

/-- MILL.MATMUL (06.R160, 08.R241). Whether a chain is open is decided at decode (06.R163); a full queue holds the decode before
that. -/
def millMatmul (q : SeqId) (c : Fin 64) (w : W128) : ExecM Flow := do
  roomMill q
  let acc := wFlag w 0
  let hold := wFlag w 1
  let tb := wFlag w 2
  let tdd ← operand q w 0 true
  let tda ← operand q w 1 false
  let tdb ← operand q w 2 false
  let n := if tb then tdb.eff1 else tdb.eff0
  let chain ← chainOperand q (bits (wImm w) 40 8) (some tdd) (some n)
  let mode ← matPair tda tdb tb
  let s ← get
  let m := s.cores[c].mill
  demand (!acc || (m.chain && m.mode == mode)) MILL_CHAIN
  let mm := tda.ext1
  let nn := if tb then tdb.ext1 else tdb.ext0
  demand (decide (mm * nn ≤ 4096)) TILE_OVERFLOW 0 (some (overflowDetail 5 (mm * nn)))
  demand (mode != .int || decide (mm ≤ 128)) TILE_OVERFLOW 0 (some (overflowDetail 6 mm))
  let o ← finishOps q w (mode == .int && bit (wImm w) 11) (if hold then [] else chain)
  let d := (getN (s.seqr q).al (bits (wImm w) 37 3) 0).toNat
  let empty := tdEmpty tda || tdEmpty tdb || tdEmpty tdd
  if !empty then updMill c (fun m => { m with chain := hold, mode := mode })
  runMill q w [tda, tdb] (if hold then [] else [tdd]) empty (!hold && produces tdd chain false)
    (.matmul mode acc hold tb (!acc && m.chain) (if wFlag w 3 then some d else none) o)

end Sys2Proof.Machine
end

