-- ==== Sys2Proof/Machine/MillOrder.lean ====
section
/-!
DEFINITION. MILL.SORT and MILL.TOPK (06.R179, R180, 08.R245).
-/

namespace Sys2Proof.Machine

/-! ### Rows of vectors -/

/-- The first row of a tensor only. -/
def firstRow (t : TD) : TD := { t with eff1 := min t.eff1 1, eff2 := min t.eff2 1, eff3 := min t.eff3 1 }

/-- The raw elements of the first row of a tensor. -/
def readRaw (q : SeqId) (t : TD) : ExecM (List Nat) := do
  if tdEmpty t then return []
  let b ← readMem q 2 (rowAddr t 0 0 0) (runBytes (tdFmt t) t.eff0)
  return unpack (tdFmt t) t.eff0 b

/-- Raw elements written to the first row of a tensor. -/
def writeRaw (q : SeqId) (t : TD) (vs : List Nat) : ExecM Unit := writeCodes q 2 t {} (vs.map some)

/-- Values written to the first row of a tensor. -/
def writeValues (q : SeqId) (t : TD) (vs : List Num) : ExecM Unit :=
  writeOut q { td := t } [{ cells := (vs.take t.eff0).map Cell.val }]

/-- An element inserted before the first that does not come before it. -/
def insertBy {α : Type} (lt : α → α → Bool) (x : α) : List α → List α
  | [] => [x]
  | y :: ys => if lt y x then y :: insertBy lt x ys else x :: y :: ys

/-- A stable sort. -/
def sortBy {α : Type} (lt : α → α → Bool) (xs : List α) : List α := xs.foldr (insertBy lt) []

/-! ### SORT (06.R179) -/

/-- `a` comes before `b`: NaN keys stand after all others in both directions. -/
def keyBefore (desc : Bool) (a b : Num × Nat) : Bool :=
  if b.1 = .nan then a.1 != .nan else if a.1 = .nan then false else if desc then ltN b.1 a.1 else ltN a.1 b.1

/-- The keys of a SORT, exact: the values of the first row (06.R179). -/
def readKeys (q : SeqId) (t : TD) : ExecM (List Num) := do
  match ← sourceLines q 2 (firstRow t) with
  | (_, l) :: _ =>
    match l.err with
    | some e => throw e
    | none => return l.elems.map Elem.value
  | [] => return []

/-- The body of a SORT. Payloads that TDB does not hold are free. -/
def sortBody (q : SeqId) (desc : Bool) (ss ds : List TD) : ExecM Unit := do
  let keys ← readKeys q (ss.headD {})
  let pays ← readRaw q (firstRow (ss.getD 1 {}))
  let free ← free64
  let ps := keys.mapIdx (fun i k => (k, pays.getD i (free % 2 ^ 32)))
  let ps := sortBy (keyBefore desc) ps
  change (fun s => s.countSeq q EV_ML_SORT_KEYS keys.length)
  flagInvalid q (keys.contains .nan)
  writeValues q (ds.headD {}) (ps.map (fun p => p.1))
  writeRaw q (firstRow (ds.getD 1 {})) (ps.map (fun p => p.2))

/-- MILL_SORT (06.R179, 08.R245). -/
def millSort (q : SeqId) (w : W128) : ExecM Flow := do
  let tdd ← operand q w 0 true
  let tda ← operand q w 1 false
  let tdb ← operand q w 2 false
  let tdc ← operand q w 3 true
  demand (decide (tda.ext0 ≤ 4096)) TILE_OVERFLOW 0 (some (overflowDetail 7 tda.ext0))
  runMill q w [tda, tdb] [tdd, tdc] (tdEmpty tdd || tdEmpty tdc || tdEmpty tda) false .sort

/-! ### TOPK (06.R180) -/

/-- `a` is selected before `b`: by value, equal values by lower index. -/
def betterTop (small : Bool) (a b : Num × Nat) : Bool :=
  if eqN a.1 b.1 then decide (a.2 < b.2) else if small then ltN a.1 b.1 else ltN b.1 a.1

/-- The position of an element among the declared extents, dimension 0 fastest. -/
def linearIndex (t : TD) (i0 : Nat) (r : Nat × Nat × Nat) : Nat :=
  ((r.2.2 * t.ext2 + r.2.1) * t.ext1 + r.1) * t.ext0 + i0

/-- Every element of the rows with its position; the first fault ends the instruction. -/
def topElems (t : TD) : List ((Nat × Nat × Nat) × Line) → ExecM (List (Num × Nat))
  | [] => return []
  | (r, l) :: ls => do
    match l.err with
    | some e => throw e
    | none => pure ()
    let rest ← topElems t ls
    let here := if l.valid then l.elems.mapIdx (fun i e => (e.value, linearIndex t i r % 2 ^ 32)) else []
    return here ++ rest

/-- The candidate records of one list. -/
def candidates (b : List Byte) (n : Nat) : List (Num × Nat) :=
  (List.range n).map (fun i => (ofFp32 (leAt b (8 * i) 4), leAt b (8 * i + 4) 4))

/-- Every candidate list, `n` of them. -/
def readCandidates (q : SeqId) (t : TD) : List Nat → ExecM (List (Num × Nat))
  | [] => return []
  | i :: is => do
    let b ← readMem q 2 (rowAddr t i 0 0) (8 * (t.eff0 / 2))
    let rest ← readCandidates q t is
    return candidates b (t.eff0 / 2) ++ rest

/-- The `k` best, and the slots that stay unfilled: the canonical NaN and index 0xFFFF_FFFF. -/
def topOf (small : Bool) (k : Nat) (xs : List (Num × Nat)) : List (Num × Nat) :=
  let ys := (sortBy (betterTop small) (xs.filter (fun x => x.1 != .nan))).take k
  ys ++ List.replicate (k - ys.length) (.nan, 0xFFFFFFFF)

/-- The body of a TOPK. -/
def topBody (q : SeqId) (small merge : Bool) (k nlist : Nat) (ss ds : List TD) : ExecM Unit := do
  let t := ss.headD {}
  let ls ← sourceLines q 2 t
  let xs ← topElems t ls
  let tb := ss.getD 1 {}
  let cs ← if merge then readCandidates q tb (List.range (min nlist tb.eff1)) else pure []
  change (fun s => s.countSeq q EV_ML_TOPK_ELEM xs.length)
  let best := topOf small k (xs ++ cs)
  writeValues q (ds.headD {}) (best.map (fun p => p.1))
  writeRaw q (firstRow (ds.getD 1 {})) (best.map (fun p => p.2))

/-- MILL_TOPK (06.R180, 08.R245). -/
def millTopk (q : SeqId) (w : W128) : ExecM Flow := do
  let merge := wFlag w 1
  let k := bits (wImm w) 0 9
  let n := bits (wImm w) 9 4
  let tdd ← operand q w 0 true
  let tda ← operand q w 1 false
  let tdb ← if merge then do
      let t ← operand q w 2 false
      pure [t]
    else pure []
  let tdc ← operand q w 3 true
  demand (decide (k ≤ 256)) TILE_OVERFLOW 0 (some (overflowDetail 8 k))
  demand (!merge || decide (1 ≤ n ∧ n ≤ 8)) TILE_OVERFLOW 0 (some (overflowDetail 8 n))
  runMill q w (tda :: tdb) [tdd, tdc] (k == 0 || tdEmpty tdd || tdEmpty tdc || tdEmpty tda) false
    .topk

end Sys2Proof.Machine
end

