-- ==== Sys2Proof/Machine/MillMisc.lean ====
section
/-!
DEFINITION. MILL.TABLE (06.R176 to R178), MILL.RNG (06.R184) and MILL.WALK (06.R181 to R183), with their operands of
08.R245.
-/

namespace Sys2Proof.Machine

/-! ### TABLE -/

/-- Some Loom instruction that has not finished names the table in its chain (06.R178). -/
def State.tableBusy (s : State) (q : SeqId) (n : Nat) : Bool :=
  match q with
  | .core c => s.cores[c].loomQ.any (fun i => i.phase != .done
      && i.fin.chain.any (fun st => st.step == STEP_TABLE && st.param % 4 == n))
  | .house => false

/-- A table from its image. -/
def parseTable (b : List Byte) : Table :=
  { base := (List.range 256).map (fun i => BitVec.ofNat 32 (leAt b (8 * i) 4))
    slope := (List.range 256).map (fun i => BitVec.ofNat 32 (leAt b (8 * i + 4) 4))
    lo := BitVec.ofNat 32 (leAt b 2048 4)
    hi := BitVec.ofNat 32 (leAt b 2052 4) }

/-- LO and HI are finite and in order. -/
def tableOk (t : Table) : Bool :=
  let lo := ofFp32 t.lo.toNat
  let hi := ofFp32 t.hi.toNat
  lo.finite && hi.finite && ltN lo hi

/-- The body of a LOAD: a rejected image leaves the table (06.R176). -/
def loadTable (q : SeqId) (n : Nat) (ss _ds : List TD) : ExecM Unit := do
  let b ← readMem q 2 (ss.headD {}).base 2056
  let t := parseTable b
  demand (tableOk t) MILL_PAIR 2
  match q with
  | .core c => change (fun s => s.updCore c (fun k => { k with mill :=
      { k.mill with tables := updN k.mill.tables n (fun _ => some t) } }))
  | .house => pure ()

/-- MILL_TABLE_LOAD (06.R176, R178). -/
def millTableLoad (q : SeqId) (w : W128) : ExecM Flow := do
  let tda ← operand q w 1 false
  let n := bits (wImm w) 0 2
  let s ← get
  if s.tableBusy q n then stall
  runMill q w [tda] [] (tdEmpty tda) false .tableLoad

/-- A row of an EVAL, and whether it sets the invalid flag. -/
def evalRow (tab : Option Table) (clamp exp2 : Bool) (x : (Nat × Nat × Nat) × Line) : OutRow × Bool :=
  let rs := x.2.elems.map (fun e => tableEval tab clamp exp2 e.float)
  ({ i1 := x.1.1, i2 := x.1.2.1, i3 := x.1.2.2, cells := rs.map (fun r => .val r.1), err := x.2.err },
    rs.any (fun r => r.2))

/-- A source within a destination's extents. -/
def within (t d : TD) : TD :=
  { t with eff0 := min t.eff0 d.eff0, eff1 := min t.eff1 d.eff1, eff2 := min t.eff2 d.eff2, eff3 := min t.eff3 d.eff3 }

/-- The body of an EVAL. A destination of codes carries no output record: its zero point is 0 (DESIGN CHOICE, assumption 136). -/
def evalBody (q : SeqId) (w : W128) (ss ds : List TD) : ExecM Unit := do
  let d := ds.headD {}
  let s ← get
  let tab := s.tableOf q (bits (wImm w) 0 2)
  let ls ← sourceLines q 2 (within (ss.headD {}) d)
  let rs := (ls.filter (fun l => l.2.valid)).map (evalRow tab (wFlag w 0) (wFlag w 1))
  flagInvalid q (rs.any (fun r => r.2))
  change (fun s => s.countSeq q EV_ML_VEC_ELEM (cellCount (rs.map (fun r => r.1))))
  writeOut q { td := d } (rs.map (fun r => r.1))

/-- MILL_TABLE_EVAL (06.R176, R177). -/
def millTableEval (q : SeqId) (w : W128) : ExecM Flow := do
  let tdd ← operand q w 0 true
  let tda ← operand q w 1 false
  runMill q w [tda] [tdd] (tdEmpty tdd) false .tableEval

/-! ### RNG (06.R184): Philox-4×32 of 10 rounds, its constants from the published generator (assumption 5) -/

/-- One round on the counter words c0 to c3 with the key words. -/
def philoxRound (c : W32 × W32 × W32 × W32) (k0 k1 : W32) : W32 × W32 × W32 × W32 :=
  let p0 := 0xD2511F53 * c.1.toNat
  let p1 := 0xCD9E8D57 * c.2.2.1.toNat
  (BitVec.ofNat 32 (p1 / 2 ^ 32) ^^^ c.2.1 ^^^ k0, BitVec.ofNat 32 p1,
    BitVec.ofNat 32 (p0 / 2 ^ 32) ^^^ c.2.2.2 ^^^ k1, BitVec.ofNat 32 p0)

/-- `n` rounds, the key stepped after each. -/
def philoxRounds : Nat → W32 × W32 × W32 × W32 → W32 → W32 → W32 × W32 × W32 × W32
  | 0, c, _, _ => c
  | n + 1, c, k0, k1 => philoxRounds n (philoxRound c k0 k1) (k0 + 0x9E3779B9) (k1 + 0xBB67AE85)

/-- Word `i` of the output for a 64-bit key and a 128-bit counter. -/
def philoxWord (key ctr i : Nat) : Nat :=
  let w := fun n => BitVec.ofNat 32 (ctr / 2 ^ (32 * n))
  let r := philoxRounds 10 (w 0, w 1, w 2, w 3) (BitVec.ofNat 32 key) (BitVec.ofNat 32 (key / 2 ^ 32))
  (match i % 4 with
    | 0 => r.1
    | 1 => r.2.1
    | 2 => r.2.2.1
    | _ => r.2.2.2).toNat

/-- Element `e`: the raw word, or the fraction of its high 24 bits. -/
def rngValue (uf : Bool) (key base e : Nat) : Num :=
  let v := philoxWord key ((base + e / 4) % 2 ^ 128) e
  if uf then .val ((v / 2 ^ 8 : Nat) * pow2 (-24)) else .val (signed 32 v : Int)

/-- The next draw of the Counting House's random source. -/
def drawRandom : ExecM Nat := do
  let s ← get
  set { s with chouse := { s.chouse with draws := s.chouse.draws + 1 } }
  return (Config.random s.chouse.draws).toNat

/-- The body of an RNG. -/
def rngBody (q : SeqId) (uf : Bool) (key base : Nat) (_ss ds : List TD) : ExecM Unit := do
  let d := ds.headD {}
  change (fun s => s.countSeq q EV_ML_RNG_WORDS (d.eff0 * d.eff1 * d.eff2 * d.eff3))
  writeOut q { td := d } ((tdRows d).map (fun r =>
    { i1 := r.1, i2 := r.2.1, i3 := r.2.2
      cells := (List.range d.eff0).map (fun i => .val (rngValue uf key base (linearIndex d i r))) }))

/-- MILL_RNG (06.R184, 08.R245): with ENTROPY the key drawn at decode is also written into the RK pair. -/
def millRng (q : SeqId) (w : W128) : ExecM Flow := do
  let rk := bits (wImm w) 43 5
  let rc := bits (wImm w) 38 5
  demand (rk % 2 == 0 && rc % 2 == 0) DEC_CLASS
  let tdd ← operand q w 0 true
  if wFlag w 0 then
    let v ← drawRandom
    putScalar q rk (v % 2 ^ 32)
    putScalar q (rk + 1) (v / 2 ^ 32 % 2 ^ 32)
  let k0 ← scalar q rk
  let k1 ← scalar q (rk + 1)
  let c0 ← scalar q rc
  let c1 ← scalar q (rc + 1)
  runMill q w [] [tdd] (tdEmpty tdd) false
    (.rng (k0 % 2 ^ 32 + k1 % 2 ^ 32 * 2 ^ 32) (c0 + c1 * 2 ^ 64))

/-! ### WALK (06.R181 to R183) -/

/-- A trie: its address, its footprint in bytes, and NNODE. -/
structure Trie where
  base : Nat := 0
  span : Nat := 0
  nnode : Nat := 0
  deriving DecidableEq, Repr

/-- The 8 bytes of a node; one beyond the footprint raises MILL_TRIE. -/
def trieNode (q : SeqId) (t : Trie) (i : Nat) : ExecM Nat := do
  demand (decide (8 * i + 8 ≤ t.span)) MILL_TRIE 2
  let b ← readMem q 2 (t.base + 8 * i) 8
  return leNat b

/-- The child on the edge with a label among edges [lo, hi), by binary search; `n` bounds its steps. -/
def trieEdge (q : SeqId) (t : Trie) (label : Nat) : Nat → Nat → Nat → ExecM (Option Nat)
  | 0, _, _ => return none
  | n + 1, lo, hi => do
    if hi ≤ lo then return none
    let mid := (lo + hi) / 2
    let b ← readMem q 2 (t.base + 8 * t.nnode + 4 * mid) 4
    let e := leNat b
    if bits e 24 8 = label then return some (bits e 0 24)
    else if bits e 24 8 < label then trieEdge q t label n (mid + 1) hi
    else trieEdge q t label n lo mid

/-- The child of a node on a label; a node's edges beyond the footprint raise MILL_TRIE. -/
def trieChild (q : SeqId) (t : Trie) (node label : Nat) : ExecM (Option Nat) := do
  let first := bits node 40 24
  let n := bits node 31 9
  demand (decide (8 * t.nnode + 4 * (first + n) ≤ t.span)) MILL_TRIE 2
  trieEdge q t label 10 first (first + n)

/-- The longest token from a node on: the best so far, updated along the input from position `i`. -/
def walkFrom (q : SeqId) (t : Trie) : List Nat → Nat → Nat → Option (Nat × Nat) → ExecM (Option (Nat × Nat))
  | [], _, _, best => return best
  | b :: bs, i, node, best => do
    match ← trieChild q t node b with
    | none => return best
    | some c =>
      let n ← trieNode q t c
      walkFrom q t bs (i + 1) n (if bit n 24 then some (bits n 0 24, i + 1) else best)

/-- The walk from `pos`: the tokens emitted and the position at the stop; `n` bounds its steps. A fault ends it with the
tokens before it. -/
def walkAll (q : SeqId) (t : Trie) (inp : List Nat) (byteBase bound : Nat) : Nat → Nat → List Nat →
    ExecM (List Nat × Nat × Option FaultInfo)
  | 0, pos, out => return (out, pos, none)
  | n + 1, pos, out => do
    if inp.length ≤ pos ∨ bound ≤ out.length then return (out, pos, none)
    match ← attempt (do
        let root ← trieNode q t 0
        walkFrom q t (inp.drop pos) pos root none) with
    | .error e => return (out, pos, some e)
    | .ok (some (tok, p)) => walkAll q t inp byteBase bound n p (out ++ [tok])
    | .ok none => walkAll q t inp byteBase bound n (pos + 1) (out ++ [byteBase + inp.getD pos 0])

/-- The body of a WALK. -/
def walkBody (q : SeqId) (w : W128) (byteBase : Nat) (ss ds : List TD) : ExecM Unit := do
  let d := firstRow (ds.headD {})
  let tb := ss.getD 1 {}
  let inp ← readRaw q (firstRow (ss.headD {}))
  let trie : Trie := { base := tb.base, span := if tdNone tb then 0 else tdSpan tb, nnode := bits (wImm w) 24 24 }
  let (out, pos, e) ← walkAll q trie inp byteBase d.eff0 (inp.length + 1) 0 []
  change (fun s => s.countSeq q EV_ML_WALK_BYTES pos)
  writeValues q d (out.map (fun (t : Nat) => Num.val (t : Rat)))
  match e with
  | some f => throw f
  | none =>
    change (fun s => s.updSeqr q (fun r => { r with al := updN r.al (bits (wImm w) 21 3) (fun _ => BitVec.ofNat 32 out.length) }))
    putScalar q (bits (wImm w) 16 5) pos

/-- MILL_WALK (06.R181 to R183, 08.R245). -/
def millWalk (q : SeqId) (w : W128) : ExecM Flow := do
  let tdd ← operand q w 0 true
  let tda ← operand q w 1 false
  let tdb ← operand q w 2 false
  let bb ← scalar q (bits (wImm w) 11 5)
  runMill q w [tda, tdb] [tdd] (tdEmpty tdd) false (.walk (bb % 2 ^ 24))

end Sys2Proof.Machine
end

