-- ==== Sys2Proof/Machine/MillRed.lean ====
section
/-!
DEFINITION. MILL.RED (06.R170 to R175, 08.R244): reductions of rows, part records and their MERGE.
-/

namespace Sys2Proof.Machine

/-- What a reduction of one row holds (06.R170, R171): its sums, its count, its sticky saturation, and whether the sums met
an invalid operation. -/
structure Sums where
  n : Nat := 0
  s1 : Num := .val 0
  s2 : Num := .val 0
  sat : Bool := false
  inv : Bool := false
  deriving DecidableEq, Repr

/-- One value clamped to a range, and whether it was outside. -/
def clampRat (lo hi v : Rat) : Rat × Bool := if v < lo then (lo, true) else if hi < v then (hi, true) else (v, false)

/-- One element added to 48-bit sums (06.R170). -/
def addExact (k : Sums) (x : Rat) : Sums :=
  let (a, i) := clampRat (-(2 ^ 47)) (2 ^ 47 - 1) (k.s1.rat + x)
  let (b, j) := clampRat 0 (2 ^ 48 - 1) (k.s2.rat + x * x)
  { k with n := k.n + 1, s1 := .val a, s2 := .val b, sat := k.sat || i || j }

/-- The sums of a row of values: exact for integer and bell-grid inputs, wide for floating ones. -/
def rowSums (exact : Bool) (xs : List Num) : Sums :=
  if exact && xs.all Num.finite then xs.foldl (fun k x => addExact k x.rat) {}
  else
    let (a, b, i) := wideSums xs
    { n := xs.length, s1 := a, s2 := b, inv := i }

/-- The value of an element in a reduction (06.R170): q − zp, the plain integer, signed level units, or the float. -/
def redValue (f : Fmt) (e : Elem) : Num :=
  if fmtA f then e.plain
  else if fmtBell f then
    match e.code with
    | .val x => .val (x / bellUnit f)
    | y => y
  else if fmtFloat f then e.value
  else e.code

/-- A result times the row's scale, `p` times, the product exact and rounded once (06.R172). -/
def timesScale (p : Nat) (scale v : Num) : Num × Bool :=
  if scale = .val 1 then (v, false)
  else
    let (a, i) := mulN v scale
    let (b, j) := if p = 2 then mulN a scale else (a, false)
    (fp32 b, i || j)

/-- Mean and variance, FP32, before a scale (06.R172). -/
def meanVar (k : Sums) : Num × Num × Bool :=
  let (d, i) := spread k.s1 k.s2 k.n
  (fp32 (meanOf k.s1 k.n), fp32 (divN d (.val ((k.n : Rat) * k.n))).1, i)

/-- The finished values of a row's sums (06.R172, 08.R244). A row scale s multiplies SUM by s and SUMSQ by its square, as it does the mean and
the variance that the rule names (DESIGN CHOICE, assumption 152). -/
def finished (form : Nat) (k : Sums) (scale : Num) : List Num × Bool :=
  match form with
  | 0 => let (v, i) := timesScale 1 scale (fp32 k.s1); ([v], k.inv || i)
  | 1 => let (v, i) := timesScale 2 scale (fp32 k.s2); ([v], k.inv || i)
  | _ =>
    let (m, v, i) := meanVar k
    let (a, x) := timesScale 1 scale m
    let (b, y) := timesScale 2 scale v
    ([a, b], k.inv || i || x || y)

/-- The greater, lesser or greatest-magnitude element (06.R175); a NaN makes the result the canonical NaN. -/
def extreme (form : Nat) (xs : List Num) (scale : Num) : List Num × Bool :=
  if xs.contains .nan then ([.nan], true)
  else
    let ys := if form = 5 then xs.map Num.mag else xs
    let best := ys.tail.foldl (fun b y => if form = 4 then minN b y else maxN b y) (ys.headD (.val 0))
    let (v, i) := if scale = .val 1 then (best, false) else mulN best scale
    ([v], i)

/-- A sum as an integer field; a sum that is no integer, or not finite, has none. -/
def asInt (x : Num) : Option Int := if x.finite && x.rat.den == 1 then some x.rat.num else none

/-- The 16 bytes of a RAW record (06.R173); `free` fills a sum that has no integer value. -/
def rawRecord (k : Sums) (free : Nat) : List Byte :=
  leBytes 16 (k.n % 2 ^ 31 + b2n k.sat * 2 ^ 31 + unsigned 48 ((asInt k.s1).getD free) * 2 ^ 32
    + unsigned 48 ((asInt k.s2).getD free) * 2 ^ 80)

/-- The 16 bytes of a FINAL record of a row's sums, its scale applied, and whether it sets the invalid flag: M2 is n times the
variance of 06.R172, which is rounded (06.R173). -/
def redFinal (k : Sums) (scale : Num) : List Byte × Bool :=
  let (mean, var, i) := meanVar k
  let (m, x) := timesScale 1 scale mean
  let (v, y) := timesScale 2 scale var
  (finalRecord k.n m (mulN v (.val k.n)).1 k.sat, k.inv || i || x || y)

/-- One row of results: where it goes, its values or its record, its saturation, and its invalid mark. -/
structure RedRow where
  at_ : Nat × Nat × Nat := (0, 0, 0)
  vals : List Num := []
  record : List Byte := []
  sat : Bool := false
  inv : Bool := false
  deriving DecidableEq, Repr

/-- The result of a row of values (08.R244 OUT). -/
def redRow (form out : Nat) (exact : Bool) (free : Nat) (at_ : Nat × Nat × Nat) (xs : List Num) (scale : Num) : RedRow :=
  if out = 0 ∧ 3 ≤ form then
    let (v, i) := extreme form xs scale
    { at_ := at_, vals := v, inv := i }
  else
    let k := rowSums exact xs
    match out with
    | 0 => let (v, i) := finished form k scale; { at_ := at_, vals := v, sat := k.sat, inv := i }
    | 1 => { at_ := at_, record := rawRecord k free, sat := k.sat, inv := k.inv }
    | _ => let (b, i) := redFinal k scale; { at_ := at_, record := b, sat := k.sat, inv := i }

/-! ### MERGE (06.R173) -/

/-- A FINAL record's fields. -/
structure FinalRec where
  n : Nat := 0
  mean : Num := .val 0
  m2 : Num := .val 0
  sat : Bool := false
  deriving DecidableEq, Repr

/-- A part as a RAW record. -/
def parseRaw (b : List Byte) : Sums :=
  let v := leNat b
  { n := bits v 0 31, sat := bit v 31, s1 := .val (signed 48 (bits v 32 48) : Int), s2 := .val (bits v 80 48 : Nat) }

/-- A part as a FINAL record. -/
def parseFinal (b : List Byte) : FinalRec :=
  let v := leNat b
  { n := bits v 0 31, sat := bit v 31, mean := ofFp32 (bits v 32 32), m2 := ofFp32 (bits v 64 32) }

/-- RAW records combined by exact addition, in the 48-bit range of their sums. -/
def mergeRaw (ps : List Sums) : Sums :=
  ps.foldl (fun k p =>
    let (a, i) := clampRat (-(2 ^ 47)) (2 ^ 47 - 1) (k.s1.rat + p.s1.rat)
    let (b, j) := clampRat 0 (2 ^ 48 - 1) (k.s2.rat + p.s2.rat)
    { n := k.n + p.n, s1 := .val a, s2 := .val b, sat := k.sat || p.sat || i || j }) {}

/-- FINAL records combined, exactly, each field rounded once. -/
def mergeFinal (ps : List FinalRec) : FinalRec × Bool :=
  let n : Nat := ps.foldl (fun (n : Nat) (p : FinalRec) => n + p.n) 0
  let (sum, i) := ps.foldl (fun (s, i) p =>
    let (m, x) := mulN (.val (p.n : Rat)) p.mean
    let (r, y) := addN s m
    (r, i || x || y)) (.val 0, false)
  let mean := (divN sum (.val (n : Rat))).1
  let (m2, j) := ps.foldl (fun (s, i) p =>
    let (d, x) := subN p.mean mean
    let (m, y) := mulN (.val (p.n : Rat)) (mulN d d).1
    let (r, z) := addN s p.m2
    let (r, u) := addN r m
    (r, i || x || y || z || u)) (.val 0, false)
  ({ n := n, mean := fp32 mean, m2 := fp32 m2, sat := ps.any (fun p => p.sat) }, i || j)

/-- The parts of a row of records. -/
def parts (b : List Byte) (n : Nat) : List (List Byte) := (List.range n).map (fun i => (b.drop (16 * i)).take 16)

/-- A merged row; none when it counts no element (06.R172). -/
def mergeRow (out : Nat) (at_ : Nat × Nat × Nat) (ps : List (List Byte)) : Option RedRow :=
  if out = 1 ∨ (out = 0 ∧ !Config.mergeTakesFinal) then
    let k := mergeRaw (ps.map parseRaw)
    if k.n = 0 then none
    else if out = 1 then some { at_ := at_, record := rawRecord k 0, sat := k.sat }
    else
      let (v, i) := finished 2 k (.val 1)
      some { at_ := at_, vals := v, sat := k.sat, inv := i }
  else
    let (f, i) := mergeFinal (ps.map parseFinal)
    if f.n = 0 then none
    else if out = 0 then some { at_ := at_, vals := [f.mean, fp32 (divN f.m2 (.val f.n)).1], sat := f.sat, inv := i }
    else some { at_ := at_, record := finalRecord f.n f.mean f.m2 f.sat, sat := f.sat, inv := i }

/-- The rows of a MERGE. -/
def mergeRows (q : SeqId) (out : Nat) (t : TD) : List (Nat × Nat × Nat) → ExecM (List RedRow)
  | [] => return []
  | r :: rs => do
    let b ← readMem q 2 (rowAddr t r.1 r.2.1 r.2.2) (4 * t.eff0)
    let rest ← mergeRows q out t rs
    return (mergeRow out r (parts b (t.eff0 / 4))).toList ++ rest

/-! ### The instruction -/

/-- The rows of a reduction over a tensor, and the fault that ends them. -/
def redRows (form out : Nat) (whole : Bool) (free : Nat) (t : TD) (ls : List ((Nat × Nat × Nat) × Line)) :
    List RedRow × Option FaultInfo :=
  let f := tdFmt t
  let exact := !fmtFloat f
  let good := (ls.takeWhile (fun l => l.2.err.isNone)).filter (fun l => l.2.valid)
  let err := ls.findSome? (fun l => l.2.err)
  if whole then
    let xs := good.flatMap (fun l => l.2.elems.map (redValue f))
    match err with
    | some e => ([], some e)
    | none => (if xs = [] then [] else [redRow form out exact free (0, 0, 0) xs (.val 1)], none)
  else
    (good.map (fun l =>
      let scale := if t.skind = 1 then (l.2.elems.headD {}).scale else .val 1
      redRow form out exact free l.1 (l.2.elems.map (redValue f)) scale), err)

/-- The outcome of saturated rows (03.R100, 06.R170). -/
def redSat (q : SeqId) (rows : List RedRow) : ExecM Unit := do
  let s ← get
  if rows.any (fun r => r.sat) then
    demand (s.quant q).satPolicy ACC_SAT_FINAL 2
    change (fun s => (s.setFlag q FLAG_SAT).countSeq q EV_LM_FINAL_SAT 1)

/-- Results written to a scalar register: MEANVAR's variance in the high half; a record has no such form, and leaves a free
value. -/
def redToReg (q : SeqId) (rd : Nat) (r : RedRow) : ExecM Unit := do
  match r.vals with
  | [m, v] => putScalar q rd (fp32Bits (fp32 m) + fp32Bits (fp32 v) * 2 ^ 32)
  | v :: _ => putFloat q rd v
  | [] =>
    let f ← free64
    putScalar q rd f

/-- Records written to their rows of the destination. -/
def putRecords (q : SeqId) (t : TD) : List RedRow → ExecM Unit
  | [] => pure ()
  | r :: rs => do
    writeMem q 2 (rowAddr t r.at_.1 r.at_.2.1 r.at_.2.2) (r.record.take (runBytes (tdFmt t) t.eff0))
    putRecords q t rs

/-- Each row's results to a register, in order. -/
def redToRegs (q : SeqId) (rd : Nat) : List RedRow → ExecM Unit
  | [] => pure ()
  | r :: rs => do
    redToReg q rd r
    redToRegs q rd rs

/-- Finished sums, means and variances are written as FP32 elements, whatever TDD's format; MAX, MIN and ABSMAX in it (08.R244). -/
def redFp32 (w : W128) : Bool := decide (wForm w < 3) || wForm w == 6

/-- The results to their destination. A destination of codes carries no output record here: its zero point is 0 (DESIGN CHOICE,
assumption 136). -/
def redWrite (q : SeqId) (w : W128) (dst : Option TD) (rows : List RedRow) : ExecM Unit := do
  redSat q rows
  flagInvalid q (rows.any (fun r => r.inv))
  match dst with
  | none => redToRegs q (bits (wImm w) 20 5) rows
  | some t =>
    let rows := rows.filter (fun r => decide (r.at_.1 < t.eff1 ∧ r.at_.2.1 < t.eff2 ∧ r.at_.2.2 < t.eff3))
    if rows.any (fun r => r.record != []) then putRecords q t rows
    else writeOut q { td := if redFp32 w then { t with format := 8 } else t } (rows.map (fun r =>
      { i1 := r.at_.1, i2 := r.at_.2.1, i3 := r.at_.2.2, cells := (r.vals.take t.eff0).map Cell.val }))

/-- The body of a RED. -/
def redBody (q : SeqId) (w : W128) (one : Option Num) (ss ds : List TD) : ExecM Unit := do
  let out := bits (wFlags w) 1 2
  let dst := ds.head?
  match one, ss with
  | some x, _ => do
    change (fun s => s.countSeq q EV_ML_RED_ELEM 1)
    redWrite q w dst [redRow (wForm w) out false 0 (0, 0, 0) [x] (.val 1)]
  | none, t :: _ =>
    if wForm w = 6 then do
      let rows ← mergeRows q out t (tdRows t)
      redWrite q w dst rows
    else do
      let ls ← sourceLines q 2 t
      let free ← free64
      let (rows, err) := redRows (wForm w) out (wFlag w 0) free t ls
      change (fun s => s.countSeq q EV_ML_RED_ELEM (ls.foldl (fun n l => n + l.2.elems.length) 0))
      redWrite q w dst rows
      match err with
      | some e => throw e
      | none => pure ()
  | none, [] => pure ()

/-- MILL.RED: its checks in the order of 08.R224 and R244, then its body. A bell-grid source may write RAW records: R244 refuses only
floating input (DESIGN CHOICE, assumption 153). -/
def millRed (q : SeqId) (w : W128) : ExecM Flow := do
  let out := bits (wFlags w) 1 2
  let sa := wFlag w 3
  demand (out != 3 && !(wForm w == 6 && sa)) DEC_CLASS
  let dst ← if wFlag w 4 then pure none else do
    let t ← operand q w 0 true
    pure (some t)
  let src ← if sa then pure none else do
    let t ← operand q w 1 false
    pure (some t)
  demand (!(out == 1 && (sa || src.any (fun t => fmtFloat (tdFmt t))))) DEC_CLASS
  let ext := (src.map (fun t => t.ext0)).getD 8
  demand (wForm w != 6 || (ext % 4 == 0 && decide (8 ≤ ext ∧ ext ≤ 32))) TILE_OVERFLOW 0 (some (overflowDetail 9 (ext / 4)))
  let v ← scalar q (bits (wImm w) 35 5)
  let ds := dst.toList
  let ss := src.toList
  runMill q w ss ds (ds.any tdEmpty || ss.any tdEmpty) false
    (.red (if sa then some (v % 2 ^ 32) else none))

end Sys2Proof.Machine
end

