-- ==== Sys2Proof/Machine/MillVec.lean ====
section
/-!
DEFINITION. MILL.VEC (06.R167 to R169, 08.R242, R243): element-wise operations on tensors and scalars.
-/

namespace Sys2Proof.Machine

/-! ### The operations (06.R167, R168) -/

/-- Integer results modulo 2^n (06.R167, R169). -/
def vecInt (form n : Nat) (a b : Int) : Int :=
  let sh := (b % 32).toNat
  let x : Nat := unsigned n a
  let y : Nat := unsigned n b
  let r : Int := match form with
    | 0x0D => a + b
    | 0x0E => a - b
    | 0x0F => a * b
    | 0x10 => a * 2 ^ sh
    | 0x11 => a / 2 ^ sh
    | 0x12 => (x &&& y : Nat)
    | 0x13 => (x ||| y : Nat)
    | _ => (x ^^^ y : Nat)
  signed n (unsigned n r)

/-- CMP under a condition (06.R167). -/
def vecCmp (cond : Nat) (a b : Num) : Bool :=
  if a = .nan ∨ b = .nan then cond == 3
  else match cond with
    | 0 => eqN a b
    | 1 => ltN a b
    | 2 => ltN a b || eqN a b
    | _ => false

/-- A float operation: its exact result, and whether it was invalid. -/
def vecFloat (form cond : Nat) (a b c : Num) : Num × Bool :=
  match form with
  | 0x00 => addN a b
  | 0x01 => subN a b
  | 0x02 => mulN a b
  | 0x03 => fmaN a b c
  | 0x04 => divN a b
  | 0x05 => sqrtN a
  | 0x06 => (maxN a b, false)
  | 0x07 => (minN a b, false)
  | 0x08 => (a.mag, false)
  | 0x09 => (a.flip, false)
  | 0x0A => (.val (b2n (vecCmp cond a b) : Nat), false)
  | 0x0B => (if c.isZero then b else a, false)
  | _ => (a, false)

/-- The integer operations are IADD to XOR. -/
def vecIsInt (form : Nat) : Bool := decide (0x0D ≤ form)

/-! ### Operands -/

/-- The scalar of a broadcast operand: FP32 or INT32 from the low half; on the house sequencer an integer is the whole
register (08.R243, 06.R169). -/
def vecScalar (q : SeqId) (form v : Nat) : Num :=
  if vecIsInt form then
    match q with
    | .core _ => .val (signed 32 v : Int)
    | .house => .val (signed 64 v : Int)
  else ofFp32 (v % 2 ^ 32)

/-- Operand `i` (0 to 2) of a word. -/
def vecArg (q : SeqId) (w : W128) (i : Nat) : ExecM VecArg := do
  if !bit (vecUses (wForm w)) i then return .unused
  if wFlag w i then
    let v ← scalar q (bits (wImm w) (35 - 5 * i) 5)
    return .scalar v
  else
    let t ← operand q w (i + 1) false
    return .tensor t

/-- The tensors among operands. -/
def vecTds (as : List VecArg) : List TD := as.filterMap (fun a => match a with
  | .tensor t => some t
  | _ => none)

/-- Operands with their tensors replaced in order, those within the destination's extents. -/
def vecPut (d : TD) : List VecArg → List TD → List VecArg
  | .tensor _ :: as, t :: ts =>
    .tensor { t with eff0 := min t.eff0 d.eff0, eff1 := min t.eff1 d.eff1, eff2 := min t.eff2 d.eff2,
                     eff3 := min t.eff3 d.eff3 } :: vecPut d as ts
  | a :: as, ts => a :: vecPut d as ts
  | [], _ => []

/-- An operand as read: its format, and its rows or its one element. -/
structure VecSrc where
  fmt : Fmt := .fp32
  one : Option Elem := none
  lines : List ((Nat × Nat × Nat) × Line) := []
  deriving DecidableEq, Repr

/-- The operands read, in order. -/
def vecRead (q : SeqId) (form : Nat) : List VecArg → ExecM (List VecSrc)
  | [] => return []
  | a :: as => do
    let s ← match a with
      | .unused => pure { one := some {} }
      | .scalar v => pure { fmt := .int32, one := some { code := vecScalar q form v } }
      | .tensor t => do
        let ls ← sourceLines q 2 t
        pure { fmt := tdFmt t, lines := ls }
    let ss ← vecRead q form as
    return s :: ss

/-- An operand's elements for a row of `n`, and its fault; none when it has no such row (05.R142). -/
def VecSrc.row (s : VecSrc) (n : Nat) (r : Nat × Nat × Nat) : Option (List Elem × Option FaultInfo) :=
  match s.one with
  | some e => some (List.replicate n e, none)
  | none =>
    match s.lines.find? (fun l => l.1 == r) with
    | some (_, l) => if l.valid || l.err.isSome then some (l.elems, l.err) else none
    | none => none

/-! ### Rows -/

/-- What an operation on one element gives: its exact result, and what it counts. -/
structure VecRes where
  val : Num := .val 0
  inv : Bool := false
  clips : Nat := 0
  invalids : Nat := 0
  deriving DecidableEq, Repr

/-- Counts of one conversion of a source. -/
def convClips (k : Conv) : Nat := b2n (k == .clip)
def convInvalids (k : Conv) : Nat := b2n (k == .invalid)

/-- The operation on one element of each operand. -/
def vecElem (form cond width : Nat) (fa fb : Fmt) (a b c : Elem) : VecRes :=
  if vecIsInt form then
    if width = 64 then { val := .val (vecInt form 64 a.code.rat.num b.code.rat.num : Int) }
    else
      let (x, i) := a.int32 fa
      let (y, j) := b.int32 fb
      { val := .val (vecInt form 32 x y : Int), clips := convClips i + convClips j
        invalids := convInvalids i + convInvalids j }
  else if form = 0x0C then { val := a.value }
  else
    let (r, i) := vecFloat form cond a.float b.float c.float
    { val := r, inv := i }

/-- The least of three lists' lengths decides how many elements a row has. -/
def vecCells (form cond width : Nat) (fa fb : Fmt) : List Elem → List Elem → List Elem → List VecRes
  | a :: as, b :: bs, c :: cs => vecElem form cond width fa fb a b c :: vecCells form cond width fa fb as bs cs
  | _, _, _ => []

/-- A destination row: its results and the fault that follows them; none when some operand has no such row. -/
def vecRow (form cond width n : Nat) (ss : List VecSrc) (r : Nat × Nat × Nat) : Option (List VecRes × Option FaultInfo) :=
  let a := ss.getD 0 {}
  let b := ss.getD 1 {}
  let c := ss.getD 2 {}
  match a.row n r, b.row n r, c.row n r with
  | some (x, e), some (y, f), some (z, g) =>
    some (vecCells form cond width a.fmt b.fmt x y z, (e.orElse (fun _ => f)).orElse (fun _ => g))
  | _, _, _ => none

/-- The rows in order, up to the first with a fault. -/
def vecRows (form cond width n : Nat) (ss : List VecSrc) : List (Nat × Nat × Nat) → List (OutRow × List VecRes)
  | [] => []
  | r :: rs =>
    match vecRow form cond width n ss r with
    | none => vecRows form cond width n ss rs
    | some (vs, e) =>
      let row := ({ i1 := r.1, i2 := r.2.1, i3 := r.2.2, cells := vs.map (fun v => .val v.val), err := e }, vs)
      if e.isSome then [row] else row :: vecRows form cond width n ss rs

/-- The rows with what their operations counted. -/
def vecCount (q : SeqId) (rows : List (OutRow × List VecRes)) : ExecM (List OutRow) := do
  let vs := rows.flatMap (fun r => r.2)
  change (fun s =>
    let s := s.countSeq q EV_ML_VEC_ELEM vs.length
    s.countConv q (vs.foldl (fun n v => n + v.clips) 0) (vs.foldl (fun n v => n + v.invalids) 0))
  flagInvalid q (vs.any (fun v => v.inv))
  return rows.map (fun r => r.1)

/-- The pseudo destination of a scalar result: one element. -/
def oneElement : TD :=
  { ext0 := 1, ext1 := 1, ext2 := 1, ext3 := 1, eff0 := 1, eff1 := 1, eff2 := 1, eff3 := 1, format := 8 }

/-- A scalar result written to RD: an integer sign-extended, or FP32, after the chain (08.R243, 06.R185). -/
def vecToReg (q : SeqId) (w : W128) (o : FinishOps) (rows : List OutRow) : ExecM Unit := do
  let rd := bits (wImm w) 20 5
  let rows ← if o.chain = [] then pure rows
    else do
      let ps ← prepChain q 3 oneElement o.chain
      let (rows, inv) ← chainRows q 3 {} ps (rows.map (fun r => { r with cells := r.cells.map (Cell.map fp32) })) false
      flagInvalid q inv
      pure rows
  match rows with
  | r :: _ =>
    match r.err, r.values with
    | some e, _ => throw e
    | none, x :: _ =>
      if vecIsInt (wForm w) && o.chain == [] then putScalar q rd (unsigned 64 x.rat.num) else putFloat q rd x
    | none, [] => pure ()
  | [] => pure ()

/-- The sink of a VEC: CVT computes scales where its destination links them; ESC names T and the side list,
which is absent with SIDE_CAP 0 (08.R243, 05.R135, R155, 07.R202). -/
def vecSink (w : W128) (o : FinishOps) (t : TD) (thr : Num) : Sink :=
  let cvt := wForm w == 0x0C && o.chain == []
  let f := tdFmt t
  let esc := wForm w == 0x0C && wFlag w 4 && (fmtBell f || fmtA f)
  { o.sink t 2 with
    arith := wForm w != 0x0C
    quant := cvt && ((t.skind == 1 && fmtA f) || (t.skind == 2 && (fmtBell f || f == .e5m2)))
    thr := if esc && t.sideCap != 0 then some thr else none
    side := if esc && t.sideCap != 0 then some t else none }

/-- The body of a VEC, its operands taken. -/
def vecBody (q : SeqId) (w : W128) (o : FinishOps) (args : List VecArg) (thr : Num) (ss ds : List TD) : ExecM Unit := do
  let d := ds.headD oneElement
  let width := match q with
    | .core _ => 32
    | .house => 64
  let srcs ← vecRead q (wForm w) (vecPut d args ss)
  let rows ← vecCount q (vecRows (wForm w) (bits (wFlags w) 5 2) width d.eff0 srcs (tdRows d))
  match ds with
  | [] => vecToReg q w o rows
  | t :: _ =>
    let rows := if o.chain = [] then rows
      else rows.map (fun r => { r with cells := r.cells.map (Cell.map fp32) })
    finish q o (vecSink w o t thr) {} rows

/-- MILL.VEC: its checks in the order of 08.R224, then its body. With SA = 1 there is no TDA, and the span of a REQUANT is TDD's own
effective EXT0 (DESIGN CHOICE, assumption 154). -/
def millVec (q : SeqId) (w : W128) : ExecM Flow := do
  let sd := wFlag w 3
  let dst ← if sd then pure none else do
    let t ← operand q w 0 true
    pure (some t)
  let a ← vecArg q w 0
  let b ← vecArg q w 1
  let c ← vecArg q w 2
  let args := [a, b, c]
  let span := match dst, a with
    | none, _ => none
    | some _, .tensor t => some t.eff0
    | some t, _ => some t.eff0
  let chain ← chainOperand q (bits (wImm w) 40 8) dst span
  let o ← finishOps q w false chain
  let thr ← scalar q (bits (wImm w) 25 5)
  let ds := dst.toList
  runMill q w (vecTds args) ds (ds.any tdEmpty) (ds.any (fun t => produces t chain (wForm w == 0x0C)))
    (.vec o args thr)

end Sys2Proof.Machine
end

