-- ==== Sys2Proof/Machine/MillRows.lean ====
section
/-!
DEFINITION. The Mill queue at work (07.R208, R212, R217): an instruction starts when those before it have started and none before it
holds its unit, and the rows of the MILL class, which join the queue.
-/

namespace Sys2Proof.Machine

/-! ### The queue -/

/-- The unit of 06.R158 that a MILL opcode runs on. -/
def millUnit (opcode : Nat) : Nat :=
  match opcode / 64 % 64 with
  | 0 => 0
  | 1 | 2 | 6 => 1
  | 3 | 4 => 2
  | 5 => 3
  | _ => 4

/-- What a Mill instruction does with its sources and destinations. -/
def millWork (q : SeqId) (w : W128) (k : QueueWork) (ss ds : List TD) : ExecM Unit :=
  match k with
  | .matmul mode acc hold tb abandons tri o =>
    match q with
    | .core c => startMatmul q c mode acc hold tb abandons tri o ss ds
    | .house => pure ()
  | .vec o args thr => vecBody q w o args (ofFp32 (thr % 2 ^ 32)) ss ds
  | .red one => redBody q w (one.map ofFp32) ss ds
  | .sort => sortBody q (wForm w == 1) ss ds
  | .topk => topBody q (wFlag w 0) (wFlag w 1) (bits (wImm w) 0 9) (bits (wImm w) 9 4) ss ds
  | .tableLoad => loadTable q (bits (wImm w) 0 2) ss ds
  | .tableEval => evalBody q w ss ds
  | .rng key base => rngBody q (wForm w == 1) key base ss ds
  | .walk byteBase => walkBody q w byteBase ss ds
  | .copy | .prefetch | .stage => pure ()

/-- The entry of a serial number replaced. -/
def putEntry (l : List QEntry) (e : QEntry) : List QEntry := l.map (fun x => if x.uid = e.uid then e else x)

/-- An instruction whose execution faulted leaves its queue: nothing waits on it, and it makes no DONE increment (07.R217). -/
def State.faultEntry (s : State) (q : SeqId) (e : QEntry) (f : FaultInfo) : State :=
  ((s.flushTotals q).updSeqr q (fun r => unwait [e.uid] { r with
    millQ := r.millQ.filter (fun x => x.uid != e.uid)
    moverQ := r.moverQ.map (fun l => l.filter (fun x => x.uid != e.uid)) })).raiseFault q f e.opcode e.pc

/-- A Mill instruction starts; false when it waits or faults. -/
def State.startMill (s : State) (q : SeqId) (e : QEntry) (k : QueueWork) : State × Bool :=
  match (startEntry q e (millWork q e.word k)).run s with
  | .ok e t => (t.updSeqr q (fun r => { r with millQ := putEntry r.millQ e }), true)
  | .error f t => (if f.code = 0 then s.await q f else t.faultEntry q e f, false)

/-- The next instruction of the Mill queue that may start: the first that has not, when none before it is on its unit. -/
def millNext (l : List QEntry) : Option (QEntry × QueueWork) :=
  match l.find? (fun e => e.work.isSome) with
  | some e =>
    if (l.takeWhile (fun x => x.work.isNone)).any (fun x => millUnit x.opcode == millUnit e.opcode) then none
    else e.work.map (fun k => (e, k))
  | none => none

/-- The Mill queue goes on as far as it can; `n` bounds the starts. -/
def State.pumpMillN : Nat → SeqId → State → State
  | 0, _, s => s
  | n + 1, q, s =>
    match millNext (s.seqr q).millQ with
    | some (e, k) =>
      let (t, on) := s.startMill q e k
      if on then State.pumpMillN n q t else t
    | none => s

/-- The Mill queue goes on: it holds at most 16 instructions. -/
def State.pumpMill (s : State) (q : SeqId) : State := s.pumpMillN 16 q

/-- A MILL word: its decode, and what it starts. -/
def millRow (q : SeqId) (body : ExecM Flow) : ExecM Flow := do
  let f ← body
  change (fun s => s.pumpMill q)
  return f

/-! ### The rows -/

/-- MILL_MATMUL: on a core; the word is privileged on the house sequencer (01.R36). -/
def execMillMatmul (q : SeqId) (w : W128) (s : State) : Out :=
  s.instr (.millMatmul q w) q w (millRow q (match q with
    | .core c => millMatmul q c w
    | .house => fail DEC_PRIV))

/-- MILL.VEC ADD (06.R167). -/
def execMillVecAdd (q : SeqId) (w : W128) (s : State) : Out := s.instr (.millVecAdd q w) q w (millRow q (millVec q w))

/-- MILL.VEC SUB (06.R167). -/
def execMillVecSub (q : SeqId) (w : W128) (s : State) : Out := s.instr (.millVecSub q w) q w (millRow q (millVec q w))

/-- MILL.VEC MUL (06.R167). -/
def execMillVecMul (q : SeqId) (w : W128) (s : State) : Out := s.instr (.millVecMul q w) q w (millRow q (millVec q w))

/-- MILL.VEC FMA (06.R167). -/
def execMillVecFma (q : SeqId) (w : W128) (s : State) : Out := s.instr (.millVecFma q w) q w (millRow q (millVec q w))

/-- MILL.VEC DIV (06.R167). -/
def execMillVecDiv (q : SeqId) (w : W128) (s : State) : Out := s.instr (.millVecDiv q w) q w (millRow q (millVec q w))

/-- MILL.VEC SQRT (06.R167). -/
def execMillVecSqrt (q : SeqId) (w : W128) (s : State) : Out := s.instr (.millVecSqrt q w) q w (millRow q (millVec q w))

/-- MILL.VEC MAX (06.R167). -/
def execMillVecMax (q : SeqId) (w : W128) (s : State) : Out := s.instr (.millVecMax q w) q w (millRow q (millVec q w))

/-- MILL.VEC MIN (06.R167). -/
def execMillVecMin (q : SeqId) (w : W128) (s : State) : Out := s.instr (.millVecMin q w) q w (millRow q (millVec q w))

/-- MILL.VEC ABS (06.R167). -/
def execMillVecAbs (q : SeqId) (w : W128) (s : State) : Out := s.instr (.millVecAbs q w) q w (millRow q (millVec q w))

/-- MILL.VEC NEG (06.R167). -/
def execMillVecNeg (q : SeqId) (w : W128) (s : State) : Out := s.instr (.millVecNeg q w) q w (millRow q (millVec q w))

/-- MILL.VEC CMP (06.R167). -/
def execMillVecCmp (q : SeqId) (w : W128) (s : State) : Out := s.instr (.millVecCmp q w) q w (millRow q (millVec q w))

/-- MILL.VEC SEL (06.R167). -/
def execMillVecSel (q : SeqId) (w : W128) (s : State) : Out := s.instr (.millVecSel q w) q w (millRow q (millVec q w))

/-- MILL.VEC CVT (06.R167, 08.R243). -/
def execMillVecCvt (q : SeqId) (w : W128) (s : State) : Out := s.instr (.millVecCvt q w) q w (millRow q (millVec q w))

/-- MILL.VEC IADD (06.R167). -/
def execMillVecIadd (q : SeqId) (w : W128) (s : State) : Out := s.instr (.millVecIadd q w) q w (millRow q (millVec q w))

/-- MILL.VEC ISUB (06.R167). -/
def execMillVecIsub (q : SeqId) (w : W128) (s : State) : Out := s.instr (.millVecIsub q w) q w (millRow q (millVec q w))

/-- MILL.VEC IMUL (06.R167). -/
def execMillVecImul (q : SeqId) (w : W128) (s : State) : Out := s.instr (.millVecImul q w) q w (millRow q (millVec q w))

/-- MILL.VEC SHL (06.R167). -/
def execMillVecShl (q : SeqId) (w : W128) (s : State) : Out := s.instr (.millVecShl q w) q w (millRow q (millVec q w))

/-- MILL.VEC SHR (06.R167). -/
def execMillVecShr (q : SeqId) (w : W128) (s : State) : Out := s.instr (.millVecShr q w) q w (millRow q (millVec q w))

/-- MILL.VEC AND (06.R167). -/
def execMillVecAnd (q : SeqId) (w : W128) (s : State) : Out := s.instr (.millVecAnd q w) q w (millRow q (millVec q w))

/-- MILL.VEC OR (06.R167). -/
def execMillVecOr (q : SeqId) (w : W128) (s : State) : Out := s.instr (.millVecOr q w) q w (millRow q (millVec q w))

/-- MILL.VEC XOR (06.R167). -/
def execMillVecXor (q : SeqId) (w : W128) (s : State) : Out := s.instr (.millVecXor q w) q w (millRow q (millVec q w))

/-- MILL.RED SUM (06.R170 to R172). -/
def execMillRedSum (q : SeqId) (w : W128) (s : State) : Out := s.instr (.millRedSum q w) q w (millRow q (millRed q w))

/-- MILL.RED SUMSQ (06.R170 to R172). -/
def execMillRedSumsq (q : SeqId) (w : W128) (s : State) : Out := s.instr (.millRedSumsq q w) q w (millRow q (millRed q w))

/-- MILL.RED MEANVAR (06.R172). -/
def execMillRedMeanvar (q : SeqId) (w : W128) (s : State) : Out := s.instr (.millRedMeanvar q w) q w (millRow q (millRed q w))

/-- MILL.RED MAX (06.R175). -/
def execMillRedMax (q : SeqId) (w : W128) (s : State) : Out := s.instr (.millRedMax q w) q w (millRow q (millRed q w))

/-- MILL.RED MIN (06.R175). -/
def execMillRedMin (q : SeqId) (w : W128) (s : State) : Out := s.instr (.millRedMin q w) q w (millRow q (millRed q w))

/-- MILL.RED ABSMAX (06.R175). -/
def execMillRedAbsmax (q : SeqId) (w : W128) (s : State) : Out := s.instr (.millRedAbsmax q w) q w (millRow q (millRed q w))

/-- MILL.RED MERGE (06.R173). -/
def execMillRedMerge (q : SeqId) (w : W128) (s : State) : Out := s.instr (.millRedMerge q w) q w (millRow q (millRed q w))

/-- MILL_SORT. -/
def execMillSort (q : SeqId) (w : W128) (s : State) : Out := s.instr (.millSort q w) q w (millRow q (millSort q w))

/-- MILL_TOPK. -/
def execMillTopk (q : SeqId) (w : W128) (s : State) : Out := s.instr (.millTopk q w) q w (millRow q (millTopk q w))

/-- MILL_TABLE_LOAD. -/
def execMillTableLoad (q : SeqId) (w : W128) (s : State) : Out := s.instr (.millTableLoad q w) q w (millRow q (millTableLoad q w))

/-- MILL_TABLE_EVAL. -/
def execMillTableEval (q : SeqId) (w : W128) (s : State) : Out := s.instr (.millTableEval q w) q w (millRow q (millTableEval q w))

/-- MILL_RNG. -/
def execMillRng (q : SeqId) (w : W128) (s : State) : Out := s.instr (.millRng q w) q w (millRow q (millRng q w))

/-- MILL_WALK. -/
def execMillWalk (q : SeqId) (w : W128) (s : State) : Out := s.instr (.millWalk q w) q w (millRow q (millWalk q w))

end Sys2Proof.Machine
end

