-- ==== Sys2Proof/Machine/Move.lean ====
section
/-!
DEFINITION. The MOVE class (07.R207, R212, 08.R232, R233, 09.R264, 14.R380), the transfers of streams, and the completion
of queued instructions (07.R210).
-/

namespace Sys2Proof.Machine

/-! ### Movers -/

/-- The mover that FLAGS names. -/
def wMover (w : W128) : Nat := wFlags w % 4

/-- A MOVE that has passed its checks joins its mover's queue, with what it is to do when it starts (07.R208). -/
def runMove (q : SeqId) (w : W128) (src : TD) (dst : Option TD) (noop regStore : Bool) (work : QueueWork) : ExecM Flow := do
  roomMover q (wMover w)
  let e ← newEntry q w
  putMover q (wMover w)
    { e with noop := noop, regStore := regStore && !noop, work := some work, word := w, srcs := [src], dsts := dst.toList }
  return .next

/-! ### The register window (07.R207) -/

/-- The base lies in the core's register region: its own range or the self alias (10.R270). -/
def inWindow4 (q : SeqId) (t : TD) : Bool :=
  addrRegion t.base == 4 && (match q with
    | .core c => decide (unalias q (addrOff t.base) / 0x10000 = c.val)
    | .house => false)

/-- The register at a word of a core's range is the first, or the second, half of a 64-bit one. -/
def firstHalf (off : Nat) : Bool := off % 8 == 0 && coreRegWidth (off % 0x10000) == 64
def secondHalf (off : Nat) : Bool := off % 8 == 4 && coreRegWidth ((off - 4) % 0x10000) == 64

/-- A run of `n` words from an offset begins and ends at whole registers. -/
def runWhole (off n : Nat) : Bool := n == 0 || (off % 4 == 0 && !secondHalf off && !firstHalf (off + 4 * (n - 1)))

/-- The register side of a MOVE: 32-bit elements, whole registers over its declared run (DEDUCED, assumption 139). -/
def windowOk (q : SeqId) (t : TD) : Bool :=
  let d := { t with eff0 := t.ext0, eff1 := t.ext1, eff2 := t.ext2, eff3 := t.ext3 }
  (tdFmt t == .int32 || tdFmt t == .fp32) && t.skind != 1
    && (tdRows d).all (fun r => runWhole (unalias q (addrOff (rowAddr t r.1 r.2.1 r.2.2))) t.ext0)

/-- The check of a descriptor whose base lies in the register region. -/
def checkWindow (q : SeqId) (w : W128) (pos : Nat) (t : TD) : ExecM Unit :=
  let slot := if pos = 0 then wTdd w else wTda w
  demand (!inWindow4 q t || windowOk q t) DESC_INVALID 0 (some (slot + 256 * pos))

/-! ### LOAD and STORE (08.R232) -/

/-- The core-store side: a core's store, or the register window. -/
def coreSide (q : SeqId) (t : TD) : Bool := addrRegion t.base == 1 || inWindow4 q t

/-- The checks that raise MOVE_MISMATCH. -/
def moveOk (q : SeqId) (tdd tda side : TD) : Bool :=
  tdd.format == tda.format && tdd.eff0 == tda.eff0 && tdd.eff1 == tda.eff1 && tdd.eff2 == tda.eff2
    && tdd.eff3 == tda.eff3 && (tdd.skind == 1) == (tda.skind == 1) && coreSide q side

/-- The rows of one tensor copied to another; with SKIND 1 the header of each block before its first row. -/
def copyRows (q : SeqId) (unit : Nat) (s d : TD) : List (Nat × Nat × Nat) → ExecM Unit
  | [] => pure ()
  | r :: rs => do
    if s.skind = 1 ∧ d.skind = 1 ∧ r.1 % 32 = 0 then
      let h ← readMem q unit (headerAddr s (r.1 / 32) r.2.1 r.2.2) 64
      writeMem q unit (headerAddr d (r.1 / 32) r.2.1 r.2.2) h
    let b ← readMem q unit (rowAddr s r.1 r.2.1 r.2.2) (runBytes (tdFmt s) s.eff0)
    writeCodes q unit d { i1 := r.1, i2 := r.2.1, i3 := r.2.2 } ((unpack (tdFmt s) s.eff0 b).map some)
    copyRows q unit s d rs

/-- The source within the destination's extents, copied. -/
def moveBody (q : SeqId) (unit : Nat) (s d : TD) : ExecM Unit :=
  let s := { s with eff0 := min s.eff0 d.eff0, eff1 := min s.eff1 d.eff1, eff2 := min s.eff2 d.eff2,
                    eff3 := min s.eff3 d.eff3 }
  copyRows q unit s d (tdRows s)

/-- MOVE.LOAD and MOVE.STORE; `load` says which side must be core store. -/
def moveCopy (q : SeqId) (w : W128) (load : Bool) : ExecM Flow := do
  let tdd ← operand q w 0 true
  let tda ← operand q w 1 false
  checkWindow q w 0 tdd
  checkWindow q w 1 tda
  demand (moveOk q tdd tda (if load then tdd else tda)) MOVE_MISMATCH
  runMove q w tda (some tdd) (tdEmpty tdd) (inWindow4 q tdd) .copy

/-! ### PREFETCH and STAGE -/

/-- The decode of MOVE.PREFETCH (08.R233). -/
def movePrefetch (q : SeqId) (w : W128) : ExecM Flow := do
  let tda ← operand q w 1 false
  runMove q w tda none (tdEmpty tda) false .prefetch

/-- The granules of a tensor's rows enter the cluster's cache as reads do; those that may not be read are dropped without fault
(08.R233, 10.R274, R280). -/
def prefetchBody (q : SeqId) (s : TD) : ExecM Unit :=
  change (fun st => ((tdRuns s).flatMap (fun r => granulesOf r.1 r.2)).foldl (fun st a =>
    let a := wrapAddr a
    match q, st.accessFault q false false a with
    | .core c, none =>
      if addrRegion a = 0 ∧ addrDev a = st.shape.fabricId ∧ !st.poisoned (addrOff a) 64 then
        (st.cacheRead (clusterOf c) (addrOff a / 64)).2
      else st
    | _, _ => st) st)

/-- The decode of MOVE.STAGE (14.R380). -/
def moveStage (q : SeqId) (w : W128) : ExecM Flow := do
  let tda ← operand q w 1 false
  runMove q w tda none (tdEmpty tda) false .stage

/-! ### The mover queues at work -/

/-- What a MOVE does with its source and destination when it starts. -/
def moverWork (q : SeqId) (unit : Nat) (k : QueueWork) (ss ds : List TD) : ExecM Unit :=
  match k with
  | .copy => moveBody q unit (ss.headD {}) (ds.headD {})
  | .prefetch => prefetchBody q (ss.headD {})
  | _ => pure ()

/-- A MOVE.STAGE takes its place in the staging queue, for which it waits while the queue is full (14.R380). -/
def State.enterStaging (s : State) (q : SeqId) (m : Nat) (e : QEntry) : State :=
  if 16 ≤ s.port.stageQ.length then s
  else
    let s := { s with port := { s.port with stageQ := s.port.stageQ ++ [StageReq.move q e.uid (e.srcs.headD {}) m] } }
    s.updSeqr q (fun r => { r with moverQ := updN r.moverQ m (fun l => putEntry l { e with work := none, staging := true }) })

/-- The first instruction of a mover's queue starts, when it can (07.R208). -/
def State.pumpMover (s : State) (q : SeqId) (m : Nat) : State :=
  match getN (s.seqr q).moverQ m [] with
  | e :: _ =>
    match e.work with
    | none => s
    | some k =>
      if k = .stage ∧ !e.noop then s.enterStaging q m e
      else match (startEntry q e (moverWork q (4 + m) k)).run s with
        | .ok e t => t.updSeqr q (fun r => { r with moverQ := updN r.moverQ m (fun l => putEntry l e) })
        | .error f t => if f.code = 0 then s.await q f else t.faultEntry q e f
  | [] => s

/-- The queues of a sequencer go on as far as they can: after a stream, another queue or an answer has changed what they wait for. -/
def State.pumpQueues (s : State) (q : SeqId) : State :=
  let s := match q with
    | .core c => s.pump c
    | .house => s
  (List.range 4).foldl (fun s m => s.pumpMover q m) (s.pumpMill q)

/-- A MOVE word: its decode, and what it starts. -/
def moveRow (q : SeqId) (body : ExecM Flow) : ExecM Flow := do
  let f ← body
  change (fun s => s.pumpQueues q)
  return f

/-- The staging queue has room: MOVE.STAGEs that wait for it enter it, in sequencer order. -/
def State.pumpStaging (s : State) : State := allSeqs.foldl (fun s q => (List.range 4).foldl (fun s m => s.pumpMover q m) s) s

/-! ### Streams (07.R212, 08.R233, 09.R264) -/

/-- Tiles that a stream visits. -/
def streamTiles (mem slot : TD) : Nat :=
  tilesAlong mem.eff0 slot.ext0 * tilesAlong mem.eff1 slot.ext1 * tilesAlong mem.eff2 slot.ext2 * tilesAlong mem.eff3 slot.ext3

/-- Every slot of a stream has been freed or drained. -/
def Stream.idle (m : Stream) : Bool := m.full.isEmpty && m.busy == 0

/-- MOVE.STREAM on a core: a reopen waits until the old stream's slots are free. -/
def moveStream (q : SeqId) (c : Fin 64) (w : W128) : ExecM Flow := do
  let out := bit (wImm w) 3
  let n := bits (wImm w) 0 3
  let slots := bits (wImm w) 4 4 + 1
  let dist := bits (wImm w) 8 4 + 1
  let tdd ← operand q w 0 (!out)
  let tda ← operand q w 1 out
  demand (decide (2 ≤ slots ∧ dist ≤ slots)) DESC_STREAM 0 (some (wTdd w))
  roomMover q (wMover w)
  let s ← get
  match getN s.cores[c].streams n none with
  | some m => if !m.idle then stall
  | none => pure ()
  let e ← newEntry q w
  let tiles := streamTiles tda tdd
  change (fun s => s.updCore c (fun k => { k with streams := updN k.streams n (fun _ => some {
    out := out, mover := wMover w, mem := tda, slot := tdd, slots := slots, dist := dist, tiles := tiles
    closed := tiles == 0, pc := e.pc }) }))
  putMover q (wMover w) e
  return .next

/-- The decode of MOVE.STREAM: streams belong to cores; the house sequencer has none. -/
def moveStreamOn (q : SeqId) (w : W128) : ExecM Flow :=
  match q with
  | .core c => moveStream q c w
  | .house => fail DESC_STREAM 0 (some (wTdd w))

/-- A stream reaches no registers: only MOVE.LOAD and MOVE.STORE have the window (07.R207, 10.R273). -/
def noWindow (q : SeqId) (unit a : Nat) (write : Bool) : ExecM Unit := do
  let s ← get
  if addrRegion a = 4 then
    match s.accessFault q false write (wrapAddr a) with
    | some code => fail code unit (some (wrapAddr a))
    | none => pure ()

/-- The bytes of a run of `n` elements from index `o` of a row, and its elements. -/
def readPart (q : SeqId) (unit : Nat) (t : TD) (r : Nat × Nat × Nat) (o n : Nat) : ExecM (List Nat) := do
  let f := tdFmt t
  let first := o * fmtBits f / 8
  let b ← readMem q unit (rowAddr t r.1 r.2.1 r.2.2 + first) (runBytes f (o + n) - first)
  return (unpack f (o + n - first * 8 / fmtBits f) b).drop (o - first * 8 / fmtBits f)

/-- The rows of a tile copied between a stream's memory tensor and a slot; `org` is the tile's origin. -/
def tileRows (q : SeqId) (unit : Nat) (out : Bool) (mem slot : TD) (org : Nat × Nat × Nat × Nat) (n : Nat) :
    List (Nat × Nat × Nat) → ExecM Unit
  | [] => pure ()
  | r :: rs => do
    let m := (org.2.1 + r.1, org.2.2.1 + r.2.1, org.2.2.2 + r.2.2)
    let am := rowAddr mem m.1 m.2.1 m.2.2
    let as_ := rowAddr slot r.1 r.2.1 r.2.2
    noWindow q unit (if out then as_ else am) false
    noWindow q unit (if out then am else as_) true
    if mem.skind = 1 ∧ slot.skind = 1 ∧ r.1 % 32 = 0 then
      let a := headerAddr mem (m.1 / 32) m.2.1 m.2.2
      let b := headerAddr slot (r.1 / 32) r.2.1 r.2.2
      let h ← readMem q unit (if out then b else a) 64
      writeMem q unit (if out then a else b) h
    if out then
      let v ← readPart q unit slot r 0 n
      let codes := List.replicate org.1 none ++ v.map some
      writeCodes q unit { mem with eff0 := org.1 + n } { i1 := m.1, i2 := m.2.1, i3 := m.2.2 } codes
    else
      let v ← readPart q unit mem m org.1 n
      writeCodes q unit { slot with eff0 := n } { i1 := r.1, i2 := r.2.1, i3 := r.2.2 } (v.map some)
    tileRows q unit out mem slot org n rs

/-- Tile `n` of a stream moved between its memory tensor and its slot. -/
def moveTile (c : Fin 64) (m : Stream) (n : Nat) : ExecM Unit :=
  let (e0, e1, e2, e3) := tileExtents m n
  let slot := { atSlot m.slot m n with eff0 := e0, eff1 := e1, eff2 := e2, eff3 := e3 }
  tileRows (.core c) (4 + m.mover) m.out m.mem slot (tileOrigin m n) e0 (tdRows slot)

/-- Word of CLASS, OP and FORM of MOVE.STREAM. -/
def streamOpcode : Nat := 0x2080

/-- A stream's transfer: when it fails the stream closes, and the fault is the MOVE.STREAM's (07.R217); what waited for it goes
on. -/
def State.transfer (s : State) (c : Fin 64) (n : Nat) (m : Stream) (tile : Nat) (after : Stream) : State :=
  let put := fun (s : State) (x : Stream) => s.updCore c (fun k => { k with streams := updN k.streams n (fun _ => some x) })
  match (moveTile c m tile).run s with
  | .ok _ t => ((put t after).settle).pumpQueues (.core c)
  | .error e t =>
    if e.code = 0 then s.await (.core c) e
    else ((put t { m with closed := true }).raiseFault (.core c) e streamOpcode m.pc).pumpQueues (.core c)

/-- An in stream may fill its next slot (07.R212): a slot is free, and it runs no more than D slots beyond the one being
read. -/
def Stream.mayFill (m : Stream) : Bool :=
  !m.out && !m.closed && decide (m.moved < m.tiles) && decide (m.full.length < m.slots)
    && decide (m.full.length < m.dist + (if m.busy = 0 then 0 else 1))

/-- STREAM_SLOT_FILLED (07.R212, 09.R264): the next tile has arrived; the stream closes after the last. -/
def execStreamSlotFilled (c : Fin 64) (n : Fin 8) (s : State) : Out :=
  .next (match getN s.cores[c].streams n.val none with
    | some m =>
      if m.mayFill then
        s.transfer c n.val m m.moved
          { m with full := m.full ++ [m.moved], moved := m.moved + 1, closed := decide (m.moved + 1 = m.tiles) }
      else s
    | none => s)

/-- STREAM_SLOT_DRAIN (07.R212): the oldest slot handed over is drained to memory. -/
def execStreamSlotDrain (c : Fin 64) (n : Fin 8) (s : State) : Out :=
  .next (match getN s.cores[c].streams n.val none with
    | some m =>
      match m.full with
      | t :: rest =>
        if m.out && !m.closed then
          s.transfer c n.val m t { m with full := rest, moved := m.moved + 1, closed := decide (m.moved + 1 = m.tiles) }
        else s
      | [] => s
    | none => s)

/-! ### The staging queue at work (14.R378, R380) -/

/-- STAGE_REQUEST_START: the request at the head of the queue is checked and starts, once the device is in A and not
in TRIP (14.R378, R380, R394, 16.R415, R419). -/
def execStageRequestStart (s : State) : Out :=
  .next (if s.port.stageBusy || s.chouse.scrub.isSome || s.power.cur != 0 || s.power.inTrip || s.port.state == .halted then s
    else match s.port.stageQ with
    | .host unstage n ch addr seqNo :: _ => (s.startHostStage unstage (requestPages n ch addr) seqNo).pumpStaging
    | .move q uid t mover :: _ => (s.startMoveStage q uid t mover).pumpStaging
    | [] => s)

/-- STAGE_COPY_DONE: the copies of the request in progress are done; a host request writes HP_STAGE_STAT and the STAGE
cause, a MOVE.STAGE may complete (14.R378, R380). -/
def execStageCopyDone (s : State) : Out :=
  .next (if !s.port.stageBusy then s
    else
      let s := s.countPkg PE_HP_STAGE_PAGES (s.port.staged.filter (fun g => !g.copied)).length
      let s : State := { s with port := { s.port with staged := s.port.staged.map (fun g => { g with copied := true }) } }
      match s.port.stageQ with
      | .host _ _ _ _ seqNo :: _ => (s.endStage 0 seqNo).pumpStaging
      | .move q uid _ _ :: rest =>
        let s := { s with port := { s.port with stageQ := rest, stageBusy := false } }
        (s.doneMover q uid).pumpStaging
      | [] => { s with port := { s.port with stageBusy := false } })

/-! ### Fault report (07.R217) -/

/-- Every instruction of a core's queues has finished. -/
def Core.drainedQueues (k : Core) : Bool :=
  k.loomQ.isEmpty && k.seq.millQ.isEmpty && k.seq.moverQ.toList.all (fun l => l.isEmpty)

/-- CORE_FAULT_REPORT (07.R217, 15.R401): the fault reaches service firmware, which ends the job with the code and the
fault registers of the first core to report. -/
def execCoreFaultReport (c : Fin 64) (s : State) : Out :=
  let k := s.cores[c]
  .next (if !(k.seq.faulted && !k.seq.reported && k.drainedQueues) then s
    else
      let s := s.updCore c (fun k => { k with seq := { k.seq with reported := true } })
      match k.job with
      | some slot =>
        match s.jobOf slot with
        | some j =>
          if j.st = .ending then s else s.endJob slot (k.seq.fault0.toNat % 2 ^ 16) k.seq.fault0.toNat k.seq.fault1.toNat
        | none => s
      | none => s)

/-! ### The rows -/

/-- MOVE_LOAD (08.R232). -/
def execMoveLoad (q : SeqId) (w : W128) (s : State) : Out := s.instr (.moveLoad q w) q w (moveRow q (moveCopy q w true))

/-- MOVE_STORE (08.R232, 07.R207). -/
def execMoveStore (q : SeqId) (w : W128) (s : State) : Out := s.instr (.moveStore q w) q w (moveRow q (moveCopy q w false))

/-- MOVE_PREFETCH (08.R233). -/
def execMovePrefetch (q : SeqId) (w : W128) (s : State) : Out := s.instr (.movePrefetch q w) q w (moveRow q (movePrefetch q w))

/-- MOVE_STAGE (14.R380). -/
def execMoveStage (q : SeqId) (w : W128) (s : State) : Out := s.instr (.moveStage q w) q w (moveRow q (moveStage q w))

/-- MOVE_STREAM (07.R212, 08.R233). -/
def execMoveStream (q : SeqId) (w : W128) (s : State) : Out := s.instr (.moveStream q w) q w (moveRow q (moveStreamOn q w))

end Sys2Proof.Machine
end

