-- ==== Sys2Proof/Machine/Fabric.lean ====
section
/-!
DEFINITION. The fabric: member lists and ids, routes, frames, loss and return (19.R472, R475 to R484).
-/

namespace Sys2Proof.Machine

/-! ### Member lists (19.R477, R482) -/

/-- Lists merged, the newer word on each serial counting. -/
def mergeMembers (h ms : List Member) : List Member := h.filter (fun e => ms.all (fun m => m.serial != e.serial)) ++ ms

/-- What a member's reports leave of what a slot awaits: an agreeing report ends the wait, a differing one makes it last. -/
def awaitsAfter (slot : Fin 16) (ms : List Member) (e : W64 × Bool) : Option (W64 × Bool) :=
  match ms.find? (fun m => m.serial == e.1) with
  | none => some e
  | some m =>
    if m.lost || e.2 then some e
    else if m.differs.contains slot then some (e.1, true)
    else if m.agrees.contains slot then none
    else some e

/-- The serials that hold an id and are not lost. -/
def State.liveSerials (s : State) : List W64 :=
  s.fabric.members.toList.filterMap (fun e => match e with
    | some (n, false) => some n
    | _ => none)

/-- The reports of members that are not lost are taken in (19.R482). -/
def State.takeReports (s : State) (ms : List Member) : State :=
  let ms := ms.filter (fun m => s.liveSerials.contains m.serial)
  { s with models := s.models.mapFinIdx (fun i m hi =>
      { m with awaits := m.awaits.filterMap (awaitsAfter ⟨i, hi⟩ ms) }) }

/-- MEMBER_LIST: a list heard on an authenticated link is merged. -/
def execMemberList (n : Fin 4) (peerId : Fin 8) (members : List Member) (s : State) : Out :=
  let l := s.link n.val
  .next (if !s.fabricRuns || s.linksIdle || !(l.st == .up || l.st == .rekey) then s
    else
      let s := s.updLink n.val (fun l => { l with peerId := peerId.val })
      let s := { s with fabric := { s.fabric with exchanging := true, heard := mergeMembers s.fabric.heard members } }
      s.takeReports members)

/-- A slot of the device other than EMPTY holds a model with SHARDS above 1. -/
def State.holdsSharded (s : State) : Bool := s.models.any (fun m => m.st != .empty && decide (1 < m.shards))

/-- A table of members by id. -/
abbrev MemberTable := Vector (Option (W64 × Bool)) 8

/-- The serial holds an id of the table. -/
def holdsId (t : MemberTable) (n : W64) : Bool := t.any (fun e => match e with
  | some (m, _) => m == n
  | none => false)

/-- The id that a serial holds. -/
def idOf (t : MemberTable) (n : W64) : Option Nat := (List.range 8).find? (fun i => match getN t i none with
  | some (m, _) => m == n
  | none => false)

/-- A serial inserted in ascending order, once. -/
def insertSerial (l : List W64) (n : W64) : List W64 :=
  if l.contains n then l else l.filter (fun m => m.toNat < n.toNat) ++ n :: l.filter (fun m => n.toNat < m.toNat)

/-- New serials take the lowest ids that no member holds, in ascending order; and whether one found none. -/
def giveIds (t : MemberTable) (ns : List W64) : MemberTable × Bool :=
  ns.foldl (fun (r : MemberTable × Bool) n =>
    match (List.range 8).find? (fun i => (getN r.1 i none).isNone) with
    | some i => (updN r.1 i (fun _ => some (n, false)), r.2)
    | none => (r.1, true)) (t, false)

/-- How ids are settled: the new table, FULL and SPLIT (19.R477). -/
def State.settleIds (s : State) : MemberTable × Bool × Bool :=
  let own := s.fuses.serial
  let t := s.fabric.members
  let live := s.liveSerials
  let there := s.fabric.heard.filter (fun m => !m.lost)
  let present (n : W64) : Bool := n == own || live.contains n || there.any (fun m => m.serial == n)
  let back (t : MemberTable) : MemberTable := t.map (fun e => e.map (fun (e : W64 × Bool) => (e.1, e.2 && !present e.1)))
  let ownSharded := s.holdsSharded || s.fabric.heard.any (fun m => m.sharded && holdsId t m.serial)
  let theirs := s.fabric.heard.any (fun m => m.sharded && !holdsId t m.serial)
  let all := there.foldl (fun l m => insertSerial l m.serial) (live.foldl insertSerial [])
  if ownSharded && theirs then (back t, false, true)
  else if !ownSharded && !theirs then
    if 8 < all.length then (t, true, false) else ((giveIds (Vector.replicate 8 none) all).1, false, false)
  else
    let base := if ownSharded then t
      else s.fabric.heard.foldl (fun b m =>
        if live.contains m.serial then b else updN b m.id.val (fun _ => some (m.serial, m.lost))) (Vector.replicate 8 none)
    let (t', full) := giveIds (back base) (all.filter (fun n => !holdsId base n))
    if holdsId t' own then (t', full, false) else (t, true, false)

/-- MEMBER_LIST_STABLE: no list has changed for 1 ms. Ids are settled, links whose peers hold ids enter LINK_MAP, and the
device makes one update of the shape table; lost members that are back are lost no more. -/
def execMemberListStable (s : State) : Out :=
  .next (if !s.fabricRuns || !s.fabric.exchanging then s
    else
      let (t, full, split) := s.settleIds
      let heard := s.fabric.heard
      let enters (n : Nat) : Bool := s.fabric.ready.getLsbD n && !s.mgmt.fencedLinks.getLsbD n && (s.link n).st == .up
        && holdsId t (s.link n).peerSerial
      let m := BitVec.ofNat 4 ((List.range 4).foldl (fun a n => a + b2n (enters n) * 2 ^ n) 0)
      let id := (idOf t s.fuses.serial).getD s.shape.fabricId
      let s := { s with fabric := { s.fabric with
        members := t, full := s.fabric.full || full, split := s.fabric.split || split, heard := [], exchanging := false
        ready := s.fabric.ready &&& ~~~m
        links := s.fabric.links.map (fun (l : Link) => { l with peerId := (idOf t l.peerSerial).getD l.peerId }) } }
      let s := s.takeReports heard
      if m = 0 ∧ id = s.shape.fabricId then s else s.shapeChange (.fabric m id))

/-! ### Routes (19.R478) -/

/-- Hops from a neighbour to an id, as the neighbours' lists give them. -/
def hopsFrom (dist : List (Fin 8 × Fin 8 × Nat)) (p i : Nat) : Option Nat :=
  if p = i then some 0 else (dist.find? (fun d => d.1.val == p && d.2.1.val == i)).map (fun d => d.2.2)

/-- The route to an id: fewest hops; then the lowest first link; then every usable link to the same neighbour. -/
def State.routeTo (s : State) (dist : List (Fin 8 × Fin 8 × Nat)) (i : Nat) : Route :=
  if i = s.shape.fabricId then { valid := true }
  else match getN s.fabric.members i none with
    | none => {}
    | some (_, lost) =>
      let cands := (List.range 4).filterMap (fun n =>
        if s.shape.linkMap.getLsbD n then (hopsFrom dist (s.link n).peerId i).map (fun h => (n, (s.link n).peerId, h + 1))
        else none)
      match cands with
      | [] => { valid := true, lost := lost }
      | c :: cs =>
        let best := cs.foldl (fun (b : Nat × Nat × Nat) x => if x.2.2 < b.2.2 then x else b) c
        { valid := true, lost := lost, hops := best.2.2
          links := BitVec.ofNat 4 ((cands.filter (fun x => x.2.1 == best.2.1)).foldl (fun a x => a + 2 ^ x.1) 0) }

/-- ROUTE_REWRITE: FB_ROUTE0 to 7 are rewritten, and frames held for want of a route leave. -/
def execRouteRewrite (dist : List (Fin 8 × Fin 8 × Nat)) (s : State) : Out :=
  .next (if !s.fabricRuns then s
    else
      let s := { s with fabric := { s.fabric with routes := Vector.ofFn (fun i => s.routeTo dist i.val) } }
      let held := s.fabric.held
      held.foldl (fun s f => s.sendFrame f.1 (Config.stitchHeader f.2.header).addr f.2)
        { s with fabric := { s.fabric with held := [] } })

/-! ### Frames (19.R472, R475) -/

/-- A frame is discarded: it is counted, a resend is asked for, and 1,024 within 1 s fence the link. -/
def State.discardFrame (s : State) (n : Nat) : State :=
  let ts := s.timeUs :: inWindow s.timeUs 1000000 (s.link n).discards
  let s := (s.updLink n (fun l => { l with errors := min (l.errors + 1) 0xFFFF, resend := true, discards := ts })).countPkg
    (PE_SL_RX_DISCARD + n) 1
  if 1024 ≤ ts.length then s.fenceLink n else s

/-- A request for the device's own Warehouse is applied at most once, and answered. -/
def State.applyRequest (s : State) (op : Config.StitchOp) (data : List Byte) : State :=
  if (getN s.fabric.applied op.src []).contains op.seq then s
  else
    let s := { s with fabric := { s.fabric with applied := updN s.fabric.applied op.src (fun l => op.seq :: l) } }
    let a := addrOff op.addr
    let here := addrDev op.addr == s.shape.fabricId && addrRegion op.addr == 0 && decide (a + op.len ≤ warehouseBytes)
    let back (s : State) (good : Bool) (b : List Byte) : State :=
      s.sendFrame op.src op.addr { header := Config.stitchAnswer op good, payload := b }
    if !here then back s false []
    else if op.kind = 1 then back (s.poke a (data.take op.len)) true []
    else if s.poisoned a op.len then back s false []
    else back s true (s.peek a op.len)

/-- What an answer brings to a request of the device's own: a write is acknowledged, a read has its bytes, or the fault MEM_ECC when
they are bad at the owner (10.R275, R277, 19.R479); `code` is 0 for a good answer. The queues that waited go on. -/
def State.answered (s : State) (a : Asked) (code : Nat) (data : List Byte) : State :=
  let s : State := { s with fabric := { s.fabric with
    asked := s.fabric.asked.erase a
    answers := if a.write then s.fabric.answers
      else s.fabric.answers ++ [({ q := a.q, addr := a.addr, len := a.len, code := code, data := data } : Answer)] } }
  s.pumpQueues a.q

/-- An answer is taken by its sequence number; one that nothing waits for is dropped. -/
def State.takeReply (s : State) (op : Config.StitchOp) (data : List Byte) : State :=
  match s.fabric.asked.find? (fun a => a.seq == op.seq) with
  | some a => s.answered a (if op.kind = 2 then 0 else MEM_ECC) data
  | none => s

/-- The load in progress involves a device: the intake device, or a holder of a shard (11.R305). -/
def LoadReq.involves (l : LoadReq) (id : Nat) : Bool :=
  (!l.intake && l.intakeId == id) || (match l.manifest with
    | some m => m.chunks.any (fun c => c.shard == id)
    | none => false)

/-- Another device of the load in progress tells how the load has ended there: it ends here too (11.R305). -/
def State.hearLoad (s : State) (op : Config.StitchOp) : State :=
  match s.load with
  | some l => if l.involves op.src then s.loadFailure op.addr op.len else s
  | none => s

/-- A frame that has passed: for another id it is forwarded; for this device a request is applied, and an answer taken. -/
def State.acceptFrame (s : State) (n : Nat) (header data : List Byte) : State :=
  let s := s.updLink n (fun l => { l with rxCtr := l.rxCtr + 1, resend := false })
  let op := Config.stitchHeader header
  if op.dest ≠ s.shape.fabricId then s.sendFrame op.dest op.addr { header := header, payload := data }
  else if op.kind ≤ 1 then s.applyRequest op data
  else if op.kind = 4 then s.hearLoad op
  else s.takeReply op data

/-- STITCH_FRAME_RECEIVE: only the counter one above the last accepted, and a tag that verifies, pass. An idle link carries no
frame (01.R32, 19.R483). -/
def execStitchFrameReceive (n : Fin 4) (header payload tag : List Byte) (s : State) : Out :=
  let l := s.link n.val
  .next (if !(l.st == .up || l.st == .rekey) || s.linksIdle then s
    else
      let form := header.length == 16 && decide (payload.length ≤ 256) && payload.length % 64 == 0 && tag.length == 16
      match form, s.keyIn (12 + n.val) with
      | true, some k =>
        match gcmOpen k.bytes (leBytes 12 (l.rxCtr + 1)) header payload tag with
        | some data => s.acceptFrame n.val header data
        | none => s.discardFrame n.val
      | _, _ => s.discardFrame n.val)

/-- STITCH_RESEND_REQUEST: the frames kept from a counter on are sent again, oldest first, under new counters. -/
def execStitchResendRequest (n : Fin 4) (fromCtr : Nat) (s : State) : Out :=
  let l := s.link n.val
  .next (if l.st ≠ .up then s
    else
      let again := (l.sent.filter (fun f => decide (fromCtr ≤ f.1))).reverse
      let s := s.updLink n.val (fun l => { l with sent := l.sent.filter (fun f => decide (f.1 < fromCtr)) })
      again.foldl (fun s f => s.sendOn n.val f.2) s)

/-! ### Loss (19.R481) -/

/-- Dispatched jobs of the slots whose shards a member holds end with FB_PEER_LOST. -/
def State.endPeerJobs (s : State) (serial : W64) : State :=
  (s.jobs.filter (fun j => decide (j.st = .running) && decide (j.mslot < 16)
    && (getN s.models j.mslot {}).holders.contains serial)).foldl (fun s j => s.endJob j.slot FB_PEER_LOST 0 0) s

/-- The instruction of a queue that waits for an acknowledgement which cannot come any more faults (19.R479, R481): the first of
those whose writes include the request. -/
def State.failWrite (s : State) (a : Asked) : State :=
  let f : FaultInfo := { code := FB_PEER_LOST, unit := 1, detail := some a.addr }
  let mine (e : QEntry) : Bool := e.acks.contains a.seq
  match ((s.seqr a.q).millQ ++ (s.seqr a.q).moverQ.toList.flatten).find? mine with
  | some e => s.faultEntry a.q e { f with unit := unitOf e.opcode (wMover e.word) }
  | none => match a.q with
    | .core c => match s.cores[c].loomQ.find? (fun i => mine i.q) with
      | some i => s.failLoom c i f
      | none => s
    | .house => s

/-- Requests to a lost member are answered with FB_PEER_LOST (19.R479). -/
def State.failAsked (s : State) (id : Nat) : State :=
  (s.fabric.asked.filter (fun a => addrDev a.addr == id)).foldl (fun s a =>
    (if a.write then s.failWrite a else s).answered a FB_PEER_LOST []) s

/-- A member is lost: its jobs and loads end, and its slots wait for its return. -/
def State.loseMember (s : State) (id : Nat) (serial : W64) : State :=
  let s := { s with
    fabric := { s.fabric with
      members := updN s.fabric.members id (fun e => e.map (fun (e : W64 × Bool) => (e.1, true)))
      routes := updN s.fabric.routes id (fun r => { r with lost := true }) }
    models := s.models.map (fun (m : Model) =>
      if m.holders.contains serial && m.awaits.all (fun e => e.1 != serial) then { m with awaits := m.awaits ++ [(serial, false)] }
      else m) }
  let s := (s.endPeerJobs serial).failAsked id
  match s.load with
  | some l => if l.involves id then s.loadFailure WL_ABORTED 0 else s
  | none => s

/-- MEMBER_LOST: no usable route to the id has existed for 1 ms. -/
def execMemberLost (id : Fin 8) (s : State) : Out :=
  .next (match getN s.fabric.members id.val none with
    | some (n, false) =>
      if !s.fabricRuns || id.val == s.shape.fabricId || (getN s.fabric.routes id.val {}).links &&& s.shape.linkMap != 0 then s
      else s.loseMember id.val n
    | _ => s)

/-! ### Registers (19.R484) -/

/-- FB_STATUS_READ: the register is returned, and FULL and SPLIT clear (00.R11). -/
def execFbStatusRead (s : State) : Out :=
  let (v, s') := s.pkgWord 0x40000
  .next { s' with latch := { s'.latch with reg := BitVec.ofNat 64 v } }

/-- FB_LINK_READ: the 64-bit register is returned, and ERRORS, RETRAINS and LASTCODE clear. -/
def execFbLinkRead (n : Fin 4) (s : State) : Out :=
  let (lo, s) := s.pkgWord (0x40010 + 8 * n.val)
  let (hi, s') := s.pkgWord (0x40014 + 8 * n.val)
  .next { s' with latch := { s'.latch with reg := BitVec.ofNat 64 (lo + hi * 2 ^ 32) } }

end Sys2Proof.Machine
end

