-- ==== Sys2Proof/Machine/Loom.lean ====
section
/-!
DEFINITION. The rows of the LOOM class and its events (chapters 02 and 03, 08.R234 to R240), the grants of 01.R27 and 11.R314,
and the completion of instructions of every queue (07.R210).
-/

namespace Sys2Proof.Machine

/-- A LOOM word on a core; the house sequencer has no Loom, so the word is privileged there (01.R36). -/
def loomOn (q : SeqId) (body : Fin 64 → ExecM Flow) : ExecM Flow :=
  match q with
  | .core c => body c
  | .house => fail DEC_PRIV

/-- LOOM_MVM (08.R234 to R237). -/
def execLoomMvm (q : SeqId) (w : W128) (s : State) : Out :=
  s.instr (.loomMvm q w) q w (loomOn q (fun c => loomMv c w false))

/-- LOOM_MVMT (02.R69, R70, 08.R234 to R237). -/
def execLoomMvmt (q : SeqId) (w : W128) (s : State) : Out :=
  s.instr (.loomMvmt q w) q w (loomOn q (fun c => loomMv c w true))

/-- LOOM_PLY (08.R238). -/
def execLoomPly (q : SeqId) (w : W128) (s : State) : Out :=
  s.instr (.loomPly q w) q w (loomOn q (fun c => loomPly c w))

/-- LOOM_PROG (08.R239, R240): FORM 1 writes W8. -/
def execLoomProg (q : SeqId) (w : W128) (s : State) : Out :=
  s.instr (.loomProg q w) q w (loomOn q (fun c => loomRows c w .prog (wForm w == 1)))

/-- LOOM_VERIFY (08.R239, R240, 02.R74). -/
def execLoomVerify (q : SeqId) (w : W128) (s : State) : Out :=
  s.instr (.loomVerify q w) q w (loomOn q (fun c => loomRows c w .verify false))

/-- LOOM_PROBE (08.R239, R240). -/
def execLoomProbe (q : SeqId) (w : W128) (s : State) : Out :=
  s.instr (.loomProbe q w) q w (loomOn q (fun c => loomProbe c w))

/-! ### Grants -/

/-- ACT_CAP_GRANT (01.R27, 03.R107): the request at the head of the activity cap's queue is granted, if it fits. -/
def execActCapGrant (s : State) : Out :=
  .next (match s.grantCap with
    | some (g, s) => (s.granted g).pump (coreIx g.core)
    | none => s)

/-- PROGRAMMING_BUDGET_GRANT (11.R314): the request at the head of the programming budget's queue is granted, if it fits. -/
def execProgrammingBudgetGrant (s : State) : Out :=
  .next (match s.grantProg with
    | some (g, s) => (s.granted g).pump (coreIx g.core)
    | none => s)

/-! ### REFCLK (01.R32) -/

/-- The Loom queues of all cores go on. -/
def State.pumpCores (s : State) : State := (List.finRange 64).foldl (fun s c => s.pump c) s

/-- REFCLK_STOP: no edge for 2 us. New integrations stop, what integrates is abandoned, the links idle, and DEV_IRQ_N is asserted
through the CLK cause (01.R32, 14.R388). During start-up only the absence is noted: the rest applies from READY (23.R546). -/
def execRefclkStop (s : State) : Out :=
  .next (if !s.refclk.present then s
    else
      let s := { s with refclk := { s.refclk with present := false, locked := false } }
      if s.boot = .service then (s.abandonLooms.pumpCores).raiseIrq IRQ_CLK else s)

/-- DELAY_LINE_RELOCK: integration may resume (01.R32), and the cores' queues go on. -/
def execDelayLineRelock (s : State) : Out :=
  .next (if s.refclk.present then ({ s with refclk := { s.refclk with locked := true } } : State).pumpCores else s)

/-! ### Windows, drain, plane sum -/

/-- The instruction of a core that integrates. -/
def State.integratingMv (s : State) (c : Fin 64) : Option LoomInstr :=
  s.cores[c].loomQ.find? (fun i => i.phase == .integrating && (i.kind == .mvm || i.kind == .mvmt))

/-- The end of a window: the tap samples; the next vector's codes are loaded, or after the last window the grant is released and
the next instruction may issue. -/
def windowBody (c : Fin 64) (i : LoomInstr) : ExecM Unit := do
  if i.windows < i.vecs.length then
    change (fun s => s.tapSample c i (i.codes.getD i.windows []))
    setLoom c i.q.uid (fun i => { i with windows := i.windows + 1 })
    if i.windows + 1 = i.vecs.length then
      setLoom c i.q.uid (fun i => { i with phase := .converting })
      change (fun s => s.releaseCap c)
    else loadVectors c i.q.uid i 1

/-- INTEGRATION_WINDOW_END (03.R82, R106, 02.R68): the window of the instruction that integrates ends. -/
def execIntegrationWindowEnd (c : Fin 64) (s : State) : Out :=
  .next (match s.integratingMv c with
    | none => s
    | some i => (s.runLoom c i.q.uid (windowBody c)).pump c)

/-- An engine is switched off after its last conversion of an instruction, unless another has claimed it (01.R34). -/
def State.idleEngine (s : State) (c : Fin 64) (e : Nat) : State :=
  if s.cores[c].loomQ.any (fun i => i.phase != .queued && i.phase != .waiting && i.phase != .done
      && (List.range i.engines.length).any (fun n => (i.engineAt n).engine == e && !(i.engineAt n).digital
        && (i.phase == .loading || (i.kind != .mvm && i.kind != .mvmt) || decide (i.drainedOf n < i.vecs.length)))) then s
  else s.setActive c [e] false

/-- DRAIN (03.R87, 02.R62 to R64): the engine's next partial is handed over. -/
def execDrain (c : Fin 64) (e : Fin 16) (s : State) : Out :=
  .next (match nextDrain s.cores[c].loomQ e.val with
    | some (uid, n, v) => (s.runLoom c uid (drainBody c n v)).idleEngine c e.val
    | none => s)

/-- The instruction whose partials may be summed: the first that is not done, when every engine has drained its next
vector (03.R93, R101). -/
def nextSum (l : List LoomInstr) : Option LoomInstr :=
  match l.find? (fun i => i.phase != .done) with
  | some i =>
    if (i.kind == .mvm || i.kind == .mvmt) && decide (i.summed < i.vecs.length)
        && (List.range i.engines.length).all (fun n => decide (i.summed < i.drainedOf n)) then some i else none
  | none => none

/-- PLANE_SUM (03.R93 to R101): the sum of a vector, and after the last the re-execution or the finish. -/
def execPlaneSum (c : Fin 64) (s : State) : Out :=
  .next (match nextSum s.cores[c].loomQ with
    | some i => (s.runLoom c i.q.uid (planeSumBody c)).pump c
    | none => s)

/-! ### Completion (07.R210) -/

/-- An instruction's writes to other devices have been acknowledged (07.R210, 19.R479). -/
def State.acked (s : State) (e : QEntry) : Bool := e.acks.all (fun n => !s.fabric.asked.any (fun a => a.seq == n))

/-- The Mill entry at an index may complete: it has run, its writes are made, and none before it runs on its unit (07.R208,
R210). -/
def State.millMay (s : State) (l : List QEntry) (i : Nat) : Bool :=
  match l[i]? with
  | some e => e.work.isNone && s.acked e && !(l.take i).any (fun f => millUnit f.opcode == millUnit e.opcode)
  | none => false

/-- A Loom instruction leaves its queue and completes (07.R210, 21.R513), once its writes are made. -/
def State.retireLoom (s : State) (c : Fin 64) (i : LoomInstr) : State :=
  if s.acked i.q then
    ((s.updCore c (fun k => { k with loomQ := k.loomQ.filter (fun x => x.q.uid != i.q.uid) })).complete (.core c) i.q
      (b2n (decide (0 < i.retries)) + 4 * b2n (i.engines.any (fun e => e.digital)))).pumpQueues (.core c)
  else s

/-- A PROG, VERIFY or PROBE does its work and gives its grant back. -/
def finishOther (c : Fin 64) (i : LoomInstr) : ExecM Unit := do
  let from_ := (← get).fabric.seq
  otherBody c i
  change (fun s => (s.releaseLoom c i).setActive c (i.engines.map (fun e => e.engine)) false)
  loomDone c i from_

/-- A PROG, VERIFY or PROBE does its work; it completes as soon as its writes are made. -/
def State.endOther (s : State) (c : Fin 64) (i : LoomInstr) : State :=
  let t := s.runLoom c i.q.uid (finishOther c)
  match t.loomOf c i.q.uid with
  | some i => if i.phase = .done then t.retireLoom c i else t
  | none => t.pumpQueues (.core c)

/-- The completion of the Loom instruction at the head of its queue. -/
def State.completeLoom (s : State) (c : Fin 64) : State :=
  match s.cores[c].loomQ with
  | i :: _ =>
    if i.phase = .done then s.retireLoom c i
    else if i.phase = .integrating ∧ i.kind ≠ .mvm ∧ i.kind ≠ .mvmt then s.endOther c i
    else s
  | [] => s

/-- INSTRUCTION_COMPLETION (07.R210): the instruction at an index of a queue completes, when its writes are made and those
before it on its unit have completed. -/
def execInstructionCompletion (q : SeqId) (queue : QueueId) (index : Nat) (s : State) : Out :=
  .next (match queue with
    | .mill =>
      let l := (s.seqr q).millQ
      match l[index]? with
      | some e =>
        if s.millMay l index then
          ((s.updSeqr q (fun r => { r with millQ := r.millQ.eraseIdx index })).complete q e 0).pumpQueues q
        else s
      | none => s
    | .mover m =>
      match getN (s.seqr q).moverQ m.val [], index with
      | e :: rest, 0 =>
        if e.staging || e.work.isSome || !s.acked e then s
        else ((s.updSeqr q (fun r => { r with moverQ := updN r.moverQ m.val (fun _ => rest) })).complete q e 0).pumpQueues q
      | _, _ => s
    | .loom =>
      match q, index with
      | .core c, 0 => s.completeLoom c
      | _, _ => s)

end Sys2Proof.Machine
end

