-- ==== Sys2Proof/Machine/Scrub.lean ====
section
/-!
DEFINITION. The scrub (17.R450, R451): what it ends when it begins, and the steps that are done when it ends. The host
observes nothing between the two, so SCRUB_END makes the steps whole (assumption 32).
-/

namespace Sys2Proof.Machine

/-! ### The beginning -/

/-- A job that is not dispatched is set aside; a dispatched one ends, with the status it already has if it has one. -/
def State.scrubJob (s : State) (j : Job) : State :=
  if j.st = .waiting then s.completeJob j PREEMPTED
  else
    let s := s.updJob j.slot (fun j => { j with struck := none })
    match j.status with
    | some st => s.endJob j.slot st j.d0 j.d1
    | none => if j.st = .ending ∧ j.struck.isNone then s else s.endJob j.slot SEC_SCRUBBED 0 0

/-- A LOAD or RESTORE in progress ends, rolling back where it was admitted. -/
def State.abortLoad (s : State) : State := s.loadFailure WL_ABORTED 0

/-- The UNLOADs that wait in the slots selected end. -/
def State.abortUnloads (s : State) (p : Nat → Bool) : State :=
  (List.range 16).foldl (fun s m =>
    if p m then
      let cs := (s.model m).unload
      cs.foldl (fun s c => s.finishReq { c with status := WL_ABORTED }) (s.updModel m (fun k => { k with unload := [] }))
    else s) s

/-- A remap of the slot is abandoned (20.R501). -/
def State.abandonRemap (s : State) (m : Nat) : State :=
  match (s.model m).remapTo with
  | some (_, d) =>
    (s.updCore (coreIx d) (fun k => { k with service := false })).updModel m (fun k => { k with remapTo := none })
  | none => s

/-- The slots that a scrub unloads. -/
def Scrub.named (k : Scrub) : List Nat := if k.looms then (List.range 16).filter (fun m => bit k.slots m) else []

/-- A scrub begins: STATE becomes SCRUBBING, and requests in progress end. -/
def State.startScrub (s : State) (k : Scrub) : State :=
  let k := { k with heap := s.load.bind (fun l => l.heapAt) }
  let s := s.jobs.foldl State.scrubJob (if k.cmd = 5 then s.preempt (fun k => 0x10 ≤ k ∧ k ≤ 0x13) else s)
  let s := k.named.foldl State.abandonRemap ((s.abortLoad).abortUnloads (fun _ => true))
  ({ s with
    chouse := { s.chouse with scrub := some k }, port := { s.port with state := .scrubbing }
    mgmt := { s.mgmt with waiting := none } } : State).settlePin

/-! ### The steps (17.R450) -/

/-- Steps 1 and 3 on a core: accumulators, tables, sequencer registers, counters and QSTAT entries; PC_QUALq returns to its
reset value (21.R507). -/
def scrubCore (k : Core) : Core := { resetCore k with events := [], lastRead := none, retired := 0 }

/-- Step 1: every SRAM is zero. The house firmware's own state, which secure SRAM also holds, is the model's own fields. -/
def State.scrubSrams (s : State) : State :=
  { s with
    cores := s.cores.map scrubCore
    clusters := s.clusters.map (fun k => { k with counters := [], tally := {} })
    mem := NatMap.keep (fun a => a / 2 ^ 44 = 0) s.mem, poison := NatMap.keep (fun g => g / 2 ^ 38 = 0) s.poison
    fabric := { s.fabric with asked := [], answers := [] }
    port := { s.port with frames := [], framesUsed := false, staged := [], stageQ := [], stageBusy := false } }

/-- Step 2: the host part of the Warehouse, the staging heap of the load that was ended, and the Ledger ring. -/
def State.scrubWarehouse (s : State) (heap : Option Nat) : State :=
  let s := (s.zero 0 (s.port.split * 2 ^ 28)).zero s.lgBase (4096 * s.lgPages)
  match heap with
  | some a => s.zero a (2 ^ 30)
  | none => s

/-- Step 3: package counters, queued Ledger records, and the program digest record. -/
def State.scrubCounters (s : State) : State :=
  { s with pkgEvents := [], lgQueue := [], chouse := { s.chouse with progs := [], progOvf := false } }

/-- Step 4: the session ends, and slots 1 and 16 to 63 are zeroed. -/
def State.scrubKeys (s : State) : State :=
  let s := s.endSession.clearKeys (fun n => n == 1 || 16 ≤ n)
  { s with chouse := { s.chouse with sealFor := none, sealDigest := [], undo := [] } }

/-- A ply is programmed to level 0; one of a fenced core takes no grant, and keeps its cells. -/
def State.blankPly (s : State) (q : Nat) : State :=
  if s.usable (plyCore q) then
    (s.progImage q (s.plyRec q).w8 (List.replicate 1024 (List.replicate 512 (0 : Int)))).2
  else s

/-- Step 5 for one slot: it is unloaded, and its plies are programmed to level 0. -/
def State.scrubSlot (s : State) (m : Nat) : State :=
  let qs := s.pliesOf m
  qs.foldl State.blankPly (s.emptySlot m)

/-- Step 6: heads and tails are 0 and PHASE is 1; what has finished is posted from index 0, in the order of acceptance. -/
def State.scrubRings (s : State) : State :=
  let done := s.port.deferred ++ s.port.finished
  { s with port := { s.port with
    sqHead := 0, sqTail := 0, cqHead := 0, cqTail := 0, cqPhase := true, unread := [], aged := false
    tailShown := (0, true), stageShown := s.port.stageNow, deferred := []
    finished := s.port.inUse.flatMap (fun n => done.filter (fun c => c.slot == n && c.frees)) } }

/-- The mode and the debug state that the scrub establishes (17.R448, R452). -/
def State.scrubMode (s : State) (k : Scrub) : State :=
  { s with chouse := { s.chouse with
    conf := k.mode.getD s.chouse.conf
    debug := if k.unlock then .unlocked else s.chouse.debug, debugged := s.chouse.debugged || k.unlock } }

/-- STATE after a scrub: READY, or HALTED while the device is in TRIP; recorded doorbells are acted on at READY. -/
def State.leaveScrub (s : State) : State :=
  let s : State := { s with chouse := { s.chouse with scrub := none } }
  if s.power.inTrip then ({ s with port := { s.port with state := .halted } } : State).raiseIrq IRQ_HALT
  else ({ s with port := { s.port with state := .ready } } : State).actRecorded

/-- The end of a scrub. -/
def State.endScrub (s : State) (k : Scrub) : State :=
  let s := ((s.scrubSrams.scrubWarehouse k.heap).scrubCounters).scrubKeys
  let s := (k.named.foldl State.scrubSlot s).scrubRings.scrubMode k
  let s := (s.rekeyLinks.leaveScrub.flushLinks.countPkg PE_SCRUBS 1).raiseIrq IRQ_MGMT
  s.respond k.ctr k.cmd 0 []

/-- The scrub may end: what it ended is over, and step 5 has engines to program with (17.R451). -/
def State.scrubOver (s : State) (k : Scrub) : Bool := s.jobs.isEmpty && s.load.isNone && (k.named.isEmpty || s.engineReady)

end Sys2Proof.Machine
end

