-- ==== Sys2Proof/Machine/Manage.lean ====
section
/-!
DEFINITION. The management port (chapter 18): the I3C target, the checks of a request, the commands, and those that end later.
-/

namespace Sys2Proof.Machine

/-! ### The I3C target (18.R455, R456) -/

/-- The target answers its bus: VDD_IO is present and the device is not reset. -/
def State.i3cOn (s : State) : Bool := s.portOn && s.supply.vddIo

/-- The bus reads these bytes from the target. -/
def State.i3cGives (s : State) (b : List Byte) : State := { s with latch := { s.latch with i3c := some b, nack := false } }

/-- The target does not acknowledge. -/
def State.i3cNack (s : State) : State := { s with latch := { s.latch with i3c := none, nack := true } }

/-- A common command read of the target. -/
def State.i3cRead (s : State) (b : List Byte) : Out := .next (if s.i3cOn then s.i3cGives b else s.i3cNack)

/-- A common command that writes the target. -/
def State.i3cWrite (s : State) (f : Mgmt → Mgmt) : Out := .next (if s.i3cOn then { s with mgmt := f s.mgmt } else s)

/-- I3C_ENTDAA: the target takes the dynamic address, if it has none. -/
def execI3cEntdaa (addr : BitVec 7) (s : State) : Out :=
  s.i3cWrite (fun m => { m with daddr := some (m.daddr.getD addr.toNat) })

/-- I3C_SETDASA: the target at static address 0x5A takes the dynamic address. -/
def execI3cSetdasa (addr : BitVec 7) (s : State) : Out :=
  s.i3cWrite (fun m => { m with daddr := some (m.daddr.getD addr.toNat) })

/-- I3C_RSTDAA: back to the static address. -/
def execI3cRstdaa (s : State) : Out := s.i3cWrite (fun m => { m with daddr := none })

/-- I3C_GETPID: manufacturer field, type 0, and the low half of the serial, most significant byte first. -/
def execI3cGetpid (s : State) : Out :=
  s.i3cRead (beBytes 6 (Config.i3cMfr.toNat * 2 ^ 33 + s.fuses.serial.toNat % 2 ^ 32))

/-- I3C_GETBCR. -/
def execI3cGetbcr (s : State) : Out := s.i3cRead [Config.i3cBcr]

/-- I3C_GETDCR. -/
def execI3cGetdcr (s : State) : Out := s.i3cRead [Config.i3cDcr]

/-- I3C_GETSTATUS. -/
def execI3cGetstatus (s : State) : Out := s.i3cRead (beBytes 2 Config.i3cStatus.toNat)

/-- I3C_ENEC: in-band interrupts are enabled. -/
def execI3cEnec (s : State) : Out := s.i3cWrite (fun m => { m with ibiEn := true })

/-- I3C_DISEC. -/
def execI3cDisec (s : State) : Out := s.i3cWrite (fun m => { m with ibiEn := false })

/-- I3C_GETMWL: 4,176 bytes. -/
def execI3cGetmwl (s : State) : Out := s.i3cRead (beBytes 2 4176)

/-- I3C_GETMRL: 4,176 bytes. -/
def execI3cGetmrl (s : State) : Out := s.i3cRead (beBytes 2 4176)

/-- I3C_HDR_ENTRY: ignored until its exit pattern. -/
def execI3cHdrEntry (s : State) : Out := .next s

/-- MG_RESPONSE_READ: the response posted, any number of times; before one, a NACK (18.R458). -/
def execMgResponseRead (s : State) : Out :=
  .next (match s.i3cOn, s.mgmt.response with
    | true, some b => s.i3cGives b
    | _, _ => s.i3cNack)

/-! ### Read-only commands (18.R463, R464) -/

/-- CORE_MAP and LINK_MAP, as FENCE and UNFENCE return them. -/
def State.mapBytes (s : State) : List Byte := leBytes 8 s.shape.coreMap.toNat ++ leBytes 1 s.shape.linkMap.toNat

/-- MG_FENCED: the cores that FENCE holds (18.R463). -/
def State.mgFenced (s : State) : Nat :=
  (List.range 64).foldl (fun a c => a + b2n s.cores[coreIx c].fencedMg * 2 ^ c) 0

/-- The DATA of GET_STATUS. -/
def State.statusData (s : State) : List Byte :=
  let ev := s.mgmt.log.take 16
  leBytes 4 s.hpStatus ++ leBytes 4 s.chState ++ leBytes 4 s.chFw ++ leBytes 4 s.pwState ++ leBytes 8 s.shape.coreMap.toNat
    ++ leBytes 8 s.mgFenced ++ leBytes 1 s.shape.linkMap.toNat ++ leBytes 1 ev.length ++ leBytes 2 s.mgmt.lost ++ zeros 4
    ++ ev.flatMap (fun e => leBytes 2 e.2 ++ zeros 2 ++ leBytes 4 e.1)

/-- GET_STATUS: the events returned leave the log, and EVT_LOST clears. -/
def State.mgStatus (s : State) (r : MgReq) : State :=
  let d := s.statusData
  ({ s with mgmt := { s.mgmt with log := s.mgmt.log.drop 16, lost := 0 } } : State).respond r.ctr r.cmd 0 d

/-- The latest CODE of a source; 0 while it has none. -/
def State.latestCode (s : State) (source : Nat) : Nat := (getN s.monitor.latest source none).getD 0

/-- The DATA of TELEMETRY. -/
def State.telemetry (s : State) : List Byte :=
  let p := s.power
  leBytes 4 (pwEst p) ++ leBytes 4 (pwCap p) ++ leBytes 4 (pwWh p) ++ leBytes 4 (pwVddc p) ++ leBytes 4 (pwBurst p)
    ++ (List.range 8).flatMap (fun k => leBytes 4 (s.asWord (0x040 + 4 * k)))
    ++ (List.range 8).flatMap (fun i => leBytes 2 (s.latestCode (88 + i)))
    ++ (List.range 8).flatMap (fun i => leBytes 2 (s.latestCode (80 + i)))

/-! ### FENCE and UNFENCE (18.R462, 20.R489, R492) -/

/-- One named core is fenced by FENCE; a core that the logic has fenced stays as it is, and both causes are kept. -/
def State.mgFenceCore (s : State) (c : Fin 64) : State :=
  let k := s.cores[c]
  let s := s.updCore c (fun k => { k with fencedMg := true, returning := false })
  if k.fencedMg || k.fencedLogic then s else s.fenceEffects c

/-- The cores of a 64-bit map. -/
def coresOf (m : Nat) : List (Fin 64) := (List.finRange 64).filter (fun c => bit m c.val)

/-- The load in progress concerns the core: it places a ply there, or, once admitted, its slot owns one there (11.R321). -/
def State.loadUses (s : State) (c : Fin 64) : Bool :=
  s.loadOn c || s.load.any (fun l => l.admitted && s.ownsOn l.mslot c)

/-- FENCE: the named bits are cleared by one update; requests on the cores end (14.R393, 20.R501). -/
def State.mgFence (s : State) (r : MgReq) : State :=
  let cores := leAt r.args 0 8
  let links := BitVec.ofNat 4 (leAt r.args 8 1)
  let changed := (coresOf cores).any (fun c => !s.cores[c].fencedMg) || links &&& ~~~s.mgmt.fencedLinks != 0
  let s := s.abortUnloads (fun m => (coresOf cores).any (fun c => s.ownsOn m c))
  let s := if (coresOf cores).any s.loadUses then s.loadFailure WL_ABORTED 0 else s
  let s := (coresOf cores).foldl State.mgFenceCore s
  let s := { s with mgmt := { s.mgmt with fencedLinks := s.mgmt.fencedLinks ||| links, waiting := some r } }
  let s := if BitVec.ofNat 64 cores &&& s.shape.coreMap = 0 ∧ links &&& s.shape.linkMap = 0 then s
    else s.shapeChange (.coresLinks (BitVec.ofNat 64 cores) 0 links 0)
  if changed then s.raiseIrq IRQ_MGMT else s

/-- One named core is released by UNFENCE; one that the logic has fenced returns when the self-test passes. -/
def State.mgUnfenceCore (s : State) (c : Fin 64) : State :=
  s.updCore c (fun k => { k with fencedMg := false, returning := k.fencedLogic })

/-- A link carries traffic when its bit is set. -/
def linkUp (l : Link) : Bool := l.st == .up || l.st == .rekey || l.st == .lowpower

/-- The links of a map whose bit may return: FENCE cleared it, and the link is up. -/
def State.linksBack (s : State) (links : BitVec 4) : BitVec 4 :=
  BitVec.ofNat 4 ((List.range 4).foldl (fun a n =>
    a + b2n (links.getLsbD n && s.mgmt.fencedLinks.getLsbD n && linkUp (getN s.fabric.links n {})) * 2 ^ n) 0)

/-- UNFENCE: bits that FENCE cleared are restored by one update, but for cores that the logic fences; a link that the logic
holds may train again (20.R490). -/
def State.mgUnfence (s : State) (r : MgReq) : State :=
  let cores := leAt r.args 0 8
  let links := BitVec.ofNat 4 (leAt r.args 8 1)
  let back := (coresOf cores).foldl (fun (m : W64) c =>
    if s.cores[c].fencedMg && !s.cores[c].fencedLogic then m ||| coreMask c else m) 0
  let lback := s.linksBack links
  let changed := (coresOf cores).any (fun c => s.cores[c].fencedMg) || links &&& s.mgmt.fencedLinks != 0
  let s := (coresOf cores).foldl State.mgUnfenceCore s
  let s := { s with
    mgmt := { s.mgmt with fencedLinks := s.mgmt.fencedLinks &&& ~~~links, waiting := some r }
    fabric := { s.fabric with links := s.fabric.links.mapFinIdx (fun n l _ =>
      if links.getLsbD n then { l with fenced := false, fences := [] } else l) } }
  let s := if back = 0 ∧ lback = 0 then s else s.shapeChange (.coresLinks 0 back 0 lback)
  if changed then s.raiseIrq IRQ_MGMT else s

/-! ### SET_PROFILE and FORCE_STATE -/

/-- A value, or the one kept where it is 0. -/
def orKeep (v keep : Nat) : Nat := if v = 0 then keep else v

/-- SET_PROFILE: the profile, and over it the values given that are not 0. -/
def State.mgProfile (s : State) (r : MgReq) : State :=
  let a := r.args
  let f := leAt a 1 1
  let old := s.power
  let s := s.writeProfile (bit f 1) (bit f 0) (leAt a 0 1 == 1)
  let s := s.writeLimits (orKeep (leAt a 2 2) s.power.sustain) (orKeep (leAt a 4 2) s.power.short)
  let s := if leAt a 6 2 = 0 then s else s.writeCap (leAt a 6 2)
  let s := if leAt a 8 2 = 0 then s else s.writeWhCeil (leAt a 8 2)
  let s := { s with power := { s.power with
    progBudget := if leAt a 10 1 = 0 then s.power.progBudget else clampNat 1 64 (leAt a 10 1) } }
  (if s.power = old then s else s.raiseIrq IRQ_MGMT).respond r.ctr r.cmd 0 (leBytes 4 (pwCeil s.power) ++ leBytes 4 (pwCap s.power) ++ leBytes 4 (pwWh s.power))

/-- FORCE_STATE: PW_FORCE is written; the answer follows the entry or exit. -/
def State.mgForce (s : State) (r : MgReq) : State :=
  let s := s.writeForce (leAt r.args 0 1 == 1) (leAt r.args 1 1)
  ({ s with mgmt := { s.mgmt with waiting := some r } } : State).raiseIrq IRQ_MGMT

/-- The state that FORCE_STATE asks for is reached. -/
def State.forceReached (s : State) : Bool :=
  s.power.entering.isNone && !s.power.waking && (!s.power.forceEn || s.power.cur == s.power.forceState)

/-! ### Firmware (18.R465, 17.R428, R429) -/

/-- Bytes of a staging area. -/
abbrev stageArea : Nat := 524288

/-- Bytes written into a staged image at an offset; what lies between and was never staged is free. -/
def stageBytes (d : Nat) (img : List Byte) (off : Nat) (b : List Byte) : List Byte :=
  let pad := (List.range (off - img.length)).map (fun i => Config.unspecifiedByte d (img.length + i))
  (img ++ pad).take off ++ b ++ img.drop (off + b.length)

/-- The inactive bank with `f` applied. -/
def State.updSpare (s : State) (f : Bank → Bank) : State :=
  { s with chouse := { s.chouse with banks := updN s.chouse.banks (1 - s.chouse.bank) f } }

/-- The inactive bank. -/
def State.spare (s : State) : Bank := getN s.chouse.banks (1 - s.chouse.bank) {}

/-- FW_STAGE: the bytes are copied into the area of their KIND; OFFSET 0 first discards what was staged. -/
def State.mgStage (s : State) (r : MgReq) : State :=
  let k := leAt r.args 0 1 - 1
  let off := leAt r.args 4 4
  let b := r.args.drop 8
  let (d, s) := s.draw
  let s := s.updSpare (fun x => { x with images := updN x.images k (fun img =>
    stageBytes d (if off = 0 then [] else img) off b) })
  s.respond r.ctr r.cmd 0 (leBytes 4 (getN s.spare.images k []).length)

/-- Images of kinds that a commit does not name are copied from the active bank. -/
def State.fillSpare (s : State) (kinds : Nat) : State :=
  s.updSpare (fun x => { images := x.images.mapFinIdx (fun i b _ => if bit kinds (i + 1) then b else s.firmware (i + 1)) })

/-- The VERSION that an image of a kind must not fall below: the active image's, or in recovery that of the last successful
commit. -/
def State.installedVersion (s : State) (kind : Nat) : Nat :=
  if s.boot = .recovery then getN s.chouse.versions (kind - 1) 0 else (fwHeader (s.firmware kind)).version

/-- Some image of the inactive bank has a lower VERSION than the installed one. -/
def State.lowerVersion (s : State) : Bool :=
  [1, 2, 3].any (fun k => decide ((fwHeader (getN s.spare.images (k - 1) [])).version < s.installedVersion k))

/-- The banks swap; FUSE_SVN is raised, keys are revoked, and the versions are recorded. -/
def State.swapBanks (s : State) : State :=
  let hs := s.spare.images.map fwHeader
  { s with
    fuses := { s.fuses.burnSvn (hs.foldl (fun m h => max m h.minSvn) s.fuses.svn) with
      revoke := hs.foldl (fun m h => m ||| BitVec.ofNat 4 h.revoke) s.fuses.revoke }
    chouse := { s.chouse with bank := 1 - s.chouse.bank, versions := hs.map (fun h => h.version) } }

/-- The house image has changed: the host session ends, the links are re-keyed, and the house sequencer starts anew. -/
def State.newHouse (s : State) : State :=
  let s := s.endSession.rekeyLinks.forget .house
  { s with
    house := { running := true, codeLen := 4096, nextUid := s.house.nextUid }
    port := { s.port with stageQ := s.port.stageQ.filter (fun r => match r with
      | .move .house _ _ _ => false
      | _ => true) } }

/-- STATE after an update of the firmware: READY, or HALTED in TRIP; before READY it stays BOOT. -/
def State.leaveUpdate (s : State) : State :=
  if s.port.state ≠ .updating then s
  else if s.power.inTrip then ({ s with port := { s.port with state := .halted } } : State).raiseIrq IRQ_HALT
  else ({ s with port := { s.port with state := .ready } } : State).actRecorded

/-- The new firmware starts. -/
def State.finishCommit (s : State) (r : MgReq) : State :=
  let old := s.firmware 2
  let s := s.swapBanks
  let s := if s.firmware 2 = old then s else s.newHouse
  let s := s.leaveUpdate
  s.respond r.ctr r.cmd 0 (leBytes 4 s.chFw)

/-- A commit passes its checks: in recovery the boot ROM runs again, else STATE becomes UPDATING and dispatched jobs complete
first. -/
def State.acceptCommit (s : State) (r : MgReq) : State :=
  if s.boot = .recovery then
    let s := s.swapBanks
    ({ s with boot := .hardware, port := { s.port with state := .boot } } : State).respond r.ctr r.cmd 0 (leBytes 4 s.chFw)
  else
    { s with
      mgmt := { s.mgmt with waiting := some r }
      port := { s.port with state := if s.boot = .service then .updating else s.port.state } }

/-- FW_COMMIT: the checks of 17.R429 in their order. -/
def State.mgCommit (s : State) (r : MgReq) : State :=
  let s := s.fillSpare (leAt r.args 0 1)
  match s.bankFault s.spare with
  | some code => s.respond r.ctr r.cmd code []
  | none =>
    if !s.lowerVersion then s.acceptCommit r
    else if s.chouse.consent then ({ s with chouse := { s.chouse with consent := false } } : State).acceptCommit r
    else s.respond r.ctr r.cmd SEC_CONSENT []

/-! ### Keys (18.R461, R466) -/

/-- A signature failure is counted; the eighth in a row locks the port for 1 s (18.R459). -/
def State.sigFail (s : State) : State :=
  let run := min 8 (s.mgmt.failRun + 1)
  { s with mgmt := { s.mgmt with
    failTotal := min (s.mgmt.failTotal + 1) 0xFFFF, failRun := run, lockout := s.mgmt.lockout || run == 8 } }

/-- PROOF shows possession of KEY (18.R466). -/
def proofOk (ctr : Nat) (key proof : List Byte) : Bool :=
  edVerify key (sha512 (ascii "PELUX-PRINCIPAL" ++ leBytes 8 ctr)) proof

/-- The actions of ROTATE_KEYS, in bit order. -/
def rotated (ops index : Nat) (key : List Byte) (h : House) : House :=
  let h := if bit ops 0 then { h with signers := mapN (fun i => 12 ≤ i) (fun _ => none) h.signers } else h
  let h := if bit ops 1 then { h with principal := some key } else h
  let h := if bit ops 2 then { h with signers := updN h.signers index (fun _ => some { key := key }) } else h
  if bit ops 3 then { h with signers := updN h.signers index (fun _ => none) } else h

/-- A SESSION is undone: its key is in slot 1 again, where no other has come since, and the bytes at OUT are what they were. -/
def State.undoSession (s : State) (u : SessionUndo) : State :=
  let s := if s.chouse.sealFor.isNone then
      let s := s.setKey 1 u.key
      { s with chouse := { s.chouse with sealFor := u.sealFor, sealDigest := u.digest } }
    else s
  s.poke u.out u.bytes

/-- The SESSION, REKEY and RETIRE requests that are not completed end with PREEMPTED, their effects undone; the rest of what they
did goes with the session (14.R393). -/
def State.undoKeys (s : State) : State :=
  let s := s.chouse.undo.reverse.foldl State.undoSession (s.preempt (fun k => 0x11 ≤ k ∧ k ≤ 0x13))
  { s with chouse := { s.chouse with undo := [] } }

/-- ROTATE_KEYS: the session ends and the links are re-keyed whatever OPS holds; a bad PROOF changes nothing. -/
def State.mgRotate (s : State) (r : MgReq) : State :=
  let ops := leAt r.args 0 1
  let key := (r.args.drop 4).take 32
  if bit ops 1 && !proofOk r.ctr key ((r.args.drop 0x24).take 64) then s.sigFail.respond r.ctr r.cmd MG_SIG []
  else
    let s := s.undoKeys.endSession.rekeyLinks
    ({ s with chouse := rotated ops (leAt r.args 1 1) key s.chouse } : State).respond r.ctr r.cmd 0 []

/-- PROVISION: the first principal is enrolled. -/
def State.mgEnrol (s : State) (r : MgReq) : State :=
  if s.chouse.principal.isSome then s.respond r.ctr r.cmd MG_PROVISIONED []
  else ({ s with chouse := { s.chouse with principal := some (r.args.take 32) } } : State).respond r.ctr r.cmd 0 []

/-- DEBUG_UNLOCK form 1: PERM_DEBUG_OFF is burned, and the port is DISABLED at once (17.R430, R452). -/
def State.mgLock (s : State) (r : MgReq) : State :=
  ({ s with fuses := { s.fuses with debugOff := true }, chouse := { s.chouse with debug := .disabled } } : State).respond
    r.ctr r.cmd 0 []

/-! ### Commands that scrub (17.R448, R450, R452) -/

/-- A SCRUB, SET_MODE or DEBUG_UNLOCK that waited runs: its scrub begins, or it is answered. -/
def State.beginScrub (s : State) (r : MgReq) : State :=
  let k : Scrub := { ctr := r.ctr, cmd := r.cmd }
  match r.cmd with
  | 5 => s.startScrub { k with looms := bit (leAt r.args 0 1) 0, slots := leAt r.args 2 2 }
  | 6 =>
    let on := leAt r.args 0 1 == 1
    if on == s.chouse.conf then s.respond r.ctr r.cmd 0 []
    else if on && s.chouse.debug == .unlocked then s.respond r.ctr r.cmd SEC_MODE []
    else s.startScrub { k with mode := some on }
  | _ =>
    if s.chouse.debug = .disabled then s.respond r.ctr r.cmd Config.debugDisabledResult.toNat []
    else if s.chouse.conf then s.respond r.ctr r.cmd SEC_MODE []
    else if !s.chouse.consent then s.respond r.ctr r.cmd SEC_CONSENT []
    else ({ s with chouse := { s.chouse with consent := false } } : State).startScrub { k with unlock := true }

/-- Service firmware runs and the device is in A (18.R456, 23.R546). -/
def State.canScrub (s : State) : Bool :=
  decide (s.boot = .service) && decide (s.power.cur = 0) && s.power.entering.isNone && !s.power.waking

/-- The request that executes is answered, or goes on, once what it waits for holds (18.R460). -/
def State.runWaiting (s : State) : State :=
  match s.mgmt.waiting with
  | none => s
  | some r =>
    match r.cmd with
    | 3 | 4 => if s.updating || !s.shape.changes.isEmpty then s else s.respond r.ctr r.cmd 0 s.mapBytes
    | 9 => if s.jobs.all (fun j => j.st == .waiting) then s.finishCommit r else s
    | 13 => if s.forceReached then s.respond r.ctr r.cmd 0 (leBytes 4 s.pwState) else s
    | _ => if s.canScrub then s.beginScrub r else s

/-- The requests that joined a scrub which has ended: a SCRUB, and a SET_MODE naming the mode now in force, complete with it; the
first other SET_MODE runs its own scrub, and those after it join that one (17.R451, assumption 147). -/
def State.runJoined : Nat → State → State
  | 0, s => s
  | n + 1, s =>
    match s.mgmt.joined with
    | [] => s
    | r :: rest =>
      if s.chouse.scrub.isSome || s.mgmt.waiting.isSome then s
      else
        let s := { s with mgmt := { s.mgmt with joined := rest } }
        State.runJoined n (if r.cmd = 5 then s.respond r.ctr r.cmd 0 []
          else ({ s with mgmt := { s.mgmt with waiting := some r } } : State).runWaiting)

/-- SCRUB_END: the duration has passed. -/
def execScrubEnd (s : State) : Out :=
  .next (match s.chouse.scrub with
    | some k => if s.scrubOver k then (s.endScrub k).runJoined (s.mgmt.joined.length) else s
    | none => s)

/-! ### The checks of a request (18.R457 to R461) -/

/-- ARGS follow the command's layout (18.R462, R465, R466). -/
def argsOk (recovery : Bool) (cmd : Nat) (a : List Byte) : Bool :=
  match cmd with
  | 1 | 2 => a.length == 0
  | 3 | 4 => a.length == 9 && decide (leAt a 8 1 < 16)
  | 5 => a.length == 4 && decide (leAt a 0 1 < 2) && leAt a 1 1 == 0
  | 6 => a.length == 1 && decide (leAt a 0 1 < 2)
  | 7 => a.length == 11 && decide (leAt a 0 1 < 2) && decide (leAt a 1 1 < 4)
  | 8 => decide (8 ≤ a.length) && decide (1 ≤ leAt a 0 1 ∧ leAt a 0 1 ≤ 3) && leAt a 1 3 == 0
      && decide (leAt a 4 4 + (a.length - 8) ≤ stageArea)
  | 9 => a.length == 1 && decide (leAt a 0 1 < 16) && leAt a 0 1 % 2 == 0 && (!recovery || leAt a 0 1 == 14)
  | 10 =>
    let ops := leAt a 0 1
    a.length == 100 && decide (ops < 16) && leAt a 2 2 == 0 && !(bit ops 1 && bit ops 2) && !(bit ops 2 && bit ops 3)
      && (!(bit ops 2 || bit ops 3) || decide (4 ≤ leAt a 1 1 ∧ leAt a 1 1 ≤ 11))
  | 11 => a.length == 1 && decide (leAt a 0 1 < 2)
  | 12 => a.length == 32
  | 13 => a.length == 2 && decide (leAt a 0 1 < 2)
  | _ => false

/-- CMD is listed; the boot ROM in recovery carries out three (17.R428). -/
def State.cmdListed (s : State) (cmd : Nat) : Bool :=
  if s.boot = .recovery then cmd == 1 || cmd == 8 || cmd == 9 else decide (1 ≤ cmd ∧ cmd ≤ 13)

/-- The frame's form. -/
def State.frameOk (s : State) (f : List Byte) : Bool :=
  f.length == 80 + leAt f 2 2 && decide (leAt f 2 2 ≤ 4096) && leAt f 1 1 == 0 && leAt f 4 4 == 0 && s.cmdListed (leAt f 0 1)

/-- The key that SIG is checked under; none where it is not checked (18.R461). -/
def State.sigKey (s : State) (r : MgReq) : Option (List Byte) :=
  if r.cmd = 12 then some (r.args.take 32) else s.chouse.principal

/-- SIG passes. -/
def State.sigOk (s : State) (r : MgReq) (f : List Byte) : Bool :=
  match s.sigKey r with
  | some k => edVerify k (sha512 (f.take (0x10 + r.args.length))) (f.drop (0x10 + r.args.length))
  | none => true

/-- A request that has passed every check executes. -/
def State.mgExecute (s : State) (r : MgReq) : State :=
  if s.chouse.scrub.isSome then { s with mgmt := { s.mgmt with joined := s.mgmt.joined ++ [r] } }
  else match r.cmd with
  | 1 => s.mgStatus r
  | 2 => s.respond r.ctr r.cmd 0 s.telemetry
  | 3 => (s.mgFence r).runWaiting
  | 4 => (s.mgUnfence r).runWaiting
  | 7 => s.mgProfile r
  | 8 => s.mgStage r
  | 9 => (s.mgCommit r).runWaiting
  | 10 => s.mgRotate r
  | 12 => s.mgEnrol r
  | 13 => (s.mgForce r).runWaiting
  | 11 => if leAt r.args 0 1 = 1 then s.mgLock r
      else ({ s with mgmt := { s.mgmt with waiting := some r } } : State).runWaiting
  | _ => ({ s with mgmt := { s.mgmt with waiting := some r } } : State).runWaiting

/-- The checks of 18.R459 after the frame's form, and the command. -/
def State.mgChecked (s : State) (r : MgReq) (f : List Byte) : State :=
  let refuse (s : State) (code : Nat) : State := s.respond r.ctr r.cmd code []
  if s.chouse.principal.isNone && r.cmd != 12 && r.cmd != 1 then refuse s MG_NO_PRINCIPAL
  else if !s.sigOk r f then refuse s.sigFail MG_SIG
  else
    let s := if (s.sigKey r).isSome then { s with mgmt := { s.mgmt with failRun := 0 } } else s
    if r.ctr ≤ s.mgmt.ctr then refuse s MG_REPLAY
    else
      let s : State := { s with mgmt := { s.mgmt with ctr := r.ctr } }
      if !argsOk (s.boot == .recovery) r.cmd r.args then refuse s MG_FRAME else s.mgExecute r

/-- A SCRUB or SET_MODE that arrives while a scrub runs, which joins it (17.R451). -/
def State.joins (s : State) (f : List Byte) : Bool := s.chouse.scrub.isSome && (leAt f 0 1 == 5 || leAt f 0 1 == 6)

/-- The port NACKs a private write (18.R459, 23.R542, 22.R528). -/
def State.mgNacks (s : State) (f : List Byte) : Bool :=
  !s.i3cOn || (s.mgBusy && !s.joins f) || s.mgmt.lockout || !(s.boot == .house || s.boot == .service || s.boot == .recovery)

/-- A private write: a wake event, and its checks (18.R456, R459). -/
def State.mgWrite (s : State) (f : List Byte) : State :=
  if s.mgNacks f then { s with latch := { s.latch with nack := true } }
  else
    let s : State := { s with latch := { s.latch with nack := false }, mgmt := { s.mgmt with response := none } }
    let s := s.wakeEvent true
    let ctr := if 16 ≤ f.length then leAt f 8 8 else 0
    if !s.frameOk f then s.respond ctr (leAt f 0 1) MG_FRAME []
    else s.mgChecked { ctr := ctr, cmd := leAt f 0 1, args := (f.drop 0x10).take (leAt f 2 2) } f

/-- What a management row answers: its frame must be the row's or nobody's. -/
def State.manage (s : State) (own : Bool) (f : List Byte) : Out :=
  if own then .next (s.mgWrite f) else .refused .illFormed

/-! ### The commands -/

/-- MG_GET_STATUS (18.R463). -/
def execMgGetStatus (frame : List Byte) (s : State) : Out := s.manage (frameIs 0x01 frame) frame
/-- MG_TELEMETRY (18.R464). -/
def execMgTelemetry (frame : List Byte) (s : State) : Out := s.manage (frameIs 0x02 frame) frame
/-- MG_FENCE. -/
def execMgFence (frame : List Byte) (s : State) : Out := s.manage (frameIs 0x03 frame) frame
/-- MG_UNFENCE. -/
def execMgUnfence (frame : List Byte) (s : State) : Out := s.manage (frameIs 0x04 frame) frame
/-- MG_SCRUB. -/
def execMgScrub (frame : List Byte) (s : State) : Out := s.manage (frameIs 0x05 frame) frame
/-- MG_SET_MODE. -/
def execMgSetMode (frame : List Byte) (s : State) : Out := s.manage (frameIs 0x06 frame) frame
/-- MG_SET_PROFILE. -/
def execMgSetProfile (frame : List Byte) (s : State) : Out := s.manage (frameIs 0x07 frame) frame
/-- MG_FW_STAGE. -/
def execMgFwStage (frame : List Byte) (s : State) : Out := s.manage (frameIs 0x08 frame) frame
/-- MG_FW_COMMIT. -/
def execMgFwCommit (frame : List Byte) (s : State) : Out := s.manage (frameIs 0x09 frame) frame
/-- MG_ROTATE_KEYS. -/
def execMgRotateKeys (frame : List Byte) (s : State) : Out := s.manage (frameIs 0x0A frame) frame
/-- MG_DEBUG_UNLOCK, form 0. -/
def execMgDebugUnlock (frame : List Byte) (s : State) : Out := s.manage (unlockFrame frame) frame
/-- MG_DEBUG_PERMANENT_LOCK: DEBUG_UNLOCK in form 1. -/
def execMgDebugPermanentLock (frame : List Byte) (s : State) : Out := s.manage (lockFrame frame) frame
/-- MG_PROVISION (18.R461). -/
def execMgProvision (frame : List Byte) (s : State) : Out := s.manage (frameIs 0x0C frame) frame
/-- MG_FORCE_STATE (16.R420). -/
def execMgForceState (frame : List Byte) (s : State) : Out := s.manage (frameIs 0x0D frame) frame

/-- MG_LOCKOUT_EXPIRY: the 1 s of 18.R459 has passed. -/
def execMgLockoutExpiry (s : State) : Out := .next { s with mgmt := { s.mgmt with lockout := false } }

/-- MG_SIGFAIL_READ: the register is returned, and TOTAL clears (00.R11, 18.R469). -/
def execMgSigfailRead (s : State) : Out :=
  let (v, s') := s.pkgWord 0x50010
  .next { s' with latch := { s'.latch with reg := BitVec.ofNat 64 v } }

/-! ### Events that let a request go on -/

/-- JOB_BOUNDARY (15.R400); a FW_COMMIT may have waited for it (17.R429). -/
def execJobBoundary (slot : Nat) (s : State) : Out := .next (s.jobBoundary slot).runWaiting

/-- SHAPE_UPDATE_COMPLETE (01.R21, R23); FENCE and UNFENCE answer when SHAPE_GEN is even again. -/
def execShapeUpdateComplete (s : State) : Out := .next s.endUpdate.runWaiting

/-- The device is in A again; stores that lost power read 0, engines are powered and their trim memories loaded (16.R416,
R419, 12.R340), and drains that waited start. After G4 the plies' records are lost with the Warehouse: the POWER trigger
(12.R342). -/
def State.leaveSleep (s : State) : State :=
  if !s.power.waking then s
  else
    let lost := decide (s.power.cur = 4)
    let s := { s with power := { s.power with cur := 0, waking := false } }
    let s := s.powerEngines.monitorOn.drainDue
    if lost then s.powerTrigger else s

/-- SLEEP_ENTRY_DONE (16.R416, R418). -/
def execSleepEntryDone (s : State) : Out := .next s.enterSleep.runWaiting

/-- SLEEP_EXIT_DONE (16.R419). -/
def execSleepExitDone (s : State) : Out := .next s.leaveSleep.runWaiting

/-- SERVICE_FIRMWARE_PHASE (23.R541, R546): STATE becomes READY and recorded doorbells are acted on, unless the device is in
TRIP, or a request that scrubs has waited. -/
def execServiceFirmwarePhase (s : State) : Out :=
  .next (if s.boot ≠ .house then s
    else
      let s : State := { s with boot := .service }
      let s := if s.refclk.present then s else s.raiseIrq IRQ_CLK
      let t := s.runWaiting
      if t.chouse.scrub.isSome then t
      else if t.power.inTrip then ({ t with port := { t.port with state := .halted } } : State).raiseIrq IRQ_HALT
      else ({ t with port := { t.port with state := .ready } } : State).actRecorded)

end Sys2Proof.Machine
end

