-- ==== Sys2Proof/Machine/Patrol.lean ====
section
/-!
DEFINITION. The converter self-test outside start-up (20.R487, R492) and the patrol of the stores (10.R276 to R278, 20.R486,
R488).
-/

namespace Sys2Proof.Machine

/-- The self-test of a core that UNFENCE named while the logic fences it: when it passes the core returns, unless FENCE
holds it (20.R492). -/
def State.returnCore (s : State) (c : Fin 64) : State :=
  let pass := (List.range 16).all (fun e => Config.selfTestPasses (s.fresh + e))
  let s := { s with fresh := s.fresh + 16 }
  if !pass then s.updCore c (fun k => { k with returning := false })
  else
    let s := s.updCore c (fun k => { k with fencedLogic := false, returning := false })
    if s.cores[c].fencedMg then s else s.shapeChange (.cores 0 (coreMask c))

/-- CONVERTER_SELF_TEST: at an idle period of a core, or before a fenced core returns, under a grant of 16 engines. -/
def execConverterSelfTest (c : Fin 64) (s : State) : Out :=
  .next (if s.power.cur ≠ 0 || !s.capFree c 16 then s
    else if s.cores[c].fencedLogic && s.cores[c].returning then s.returnCore c
    else if s.usable c && s.coreIdle c then (s.selfTest c).2
    else s)

/-- A corrected error at a byte store is counted (21.R509, R511). -/
def State.storeCorrected (s : State) (region off : Nat) : State :=
  match region with
  | 0 => s.countPkg PE_WH_CORRECTED 1
  | 1 => s.coreCorrected (coreIx (off / 0x100000)) EV_CS_CORRECTED
  | 2 => s.countPkg PE_PB_CORRECTED 1
  | _ => s.countPkg PE_SS_CORRECTED 1

/-- An uncorrectable error at a byte store poisons its granule; in a core store it fences the core (10.R277, 20.R486). -/
def State.storeBroken (s : State) (region off : Nat) : State :=
  let s := { s with poison := NatMap.put false s.poison (storeKey region off / 64) true }
  if region = 1 then s.coreEcc (coreIx (off / 0x100000)) else s

/-- PATROL_READ. -/
def execPatrolRead (site : PatrolSite) (found : EccResult) (s : State) : Out :=
  .next (match site, found with
    | _, .clean => s
    | .granule a, .corrected =>
      if addrRegion a ≤ 3 && s.mapped .house (addrRegion a) (addrOff a) then s.storeCorrected (addrRegion a) (addrOff a) else s
    | .granule a, .uncorrectable =>
      if addrRegion a ≤ 3 && s.mapped .house (addrRegion a) (addrOff a) then s.storeBroken (addrRegion a) (addrOff a) else s
    | .coreState c, .corrected => s.coreCorrected c EV_ACC_CORRECTED
    | .coreState c, .uncorrectable => s.coreEcc c
    | .cacheLine k _ _, .corrected => s.countPkg (PE_CC_CORRECTED + k.val) 1
    | .cacheLine k set way, .uncorrectable => if set < 4096 && way < 16 then s.disableCacheLine k set way else s)

end Sys2Proof.Machine
end

