-- ==== Sys2Proof/Machine/SealReq.lean ====
section
/-!
DEFINITION. The requests SEAL, SESSION, REKEY and RETIRE (17.R437 to R439, R443, R447): each acts at its acceptance.
-/

namespace Sys2Proof.Machine

/-! ### Request blocks (17.R437, R443) -/

/-- A span of the Warehouse lies in the public area. -/
def State.inPublic (s : State) (off n : Nat) : Bool :=
  decide (s.port.apaBase * 2 ^ 24 ≤ off) && decide (off + n ≤ s.port.apaBase * 2 ^ 24 + 0x10000)

/-- A span may hold a request block or its answer: in the host part, and in confidential mode in the public area. -/
def State.blockPlace (s : State) (off n : Nat) : Bool := s.inHostPart off n && (!s.chouse.conf || s.inPublic off n)

/-- The 64 bytes of a request block, where they may stand and can be read. -/
def State.blockAt (s : State) (off : Nat) : Option (List Byte) :=
  if off % 64 = 0 ∧ s.blockPlace off 64 then s.readWh off 64 else none

/-- Every byte of a block from `o` on is 0. -/
def restZero (b : List Byte) (o : Nat) : Bool := (b.drop o).all (· == 0)

/-- A request of one of the four kinds is accepted: its block is read and its form checked, and `f` goes on with it. -/
def State.acceptBlock (form : State → List Byte → Bool) (f : State → Entry → Nat → List Byte → State) (e : Entry) (slot : Nat)
    (s : State) : State :=
  match s.blockAt (e.arg0 % 2 ^ 44) with
  | some b => if form s b then f s e slot b else s.reply e slot SEC_BLOCK_FORM
  | none => s.reply e slot SEC_BLOCK_FORM

/-- A request completes with success and two details. -/
def State.replyWith (s : State) (e : Entry) (slot d0 d1 : Nat) : State :=
  s.finishReq { e.completion slot 0 with d0 := d0, d1 := d1 }

/-! ### SEAL -/

/-- Bytes that a SEAL writes: the Seal and two certificates. -/
abbrev sealOutBytes : Nat := 15104

/-- A SEAL block. -/
def sealForm (s : State) (b : List Byte) : Bool :=
  leAt b 0x20 8 % 4096 == 0 && s.blockPlace (leAt b 0x20 8) sealOutBytes && restZero b 0x28

/-- A SEAL: a new key in slot 1, a Seal, and its bytes at OUT (17.R438). -/
def State.runSeal (s : State) (e : Entry) (slot : Nat) (b : List Byte) : State :=
  let (k, s) := s.random32
  let s := s.setKey 1 (some { ty := .x25519, bytes := k })
  let (bytes, digest, s) := s.buildSeal (x25519Pub k) (b.take 32)
  let s := { s with chouse := { s.chouse with sealFor := some s.chouse.sealCtr, sealDigest := digest } }
  (s.poke (leAt b 0x20 8) (bytes ++ s.deviceCert ++ deviceCaCert)).replyWith e slot
    s.chouse.sealCtr sealOutBytes

/-- SUBMIT_SEAL. -/
def execSubmitSeal (s : State) : Out := s.accept (fun e => e.kind == 0x10) (State.acceptBlock sealForm State.runSeal)

/-! ### SESSION (17.R438, R439) -/

/-- A SESSION block. -/
def sessionForm (s : State) (b : List Byte) : Bool :=
  leAt b 0x28 8 % 64 == 0 && s.blockPlace (leAt b 0x28 8) 64 && restZero b 0x30

/-- K(n). -/
def pageKeyOf (prk : List Byte) (n : Nat) : List Byte :=
  hkdfExpand prk (ascii "PELUX-PAGE" ++ leBytes 4 n) 32

/-- CONFIRM. -/
def confirmOf (prk : List Byte) : List Byte :=
  hkdfExpand prk (ascii "PELUX-CONFIRM") 16

/-- A session opens: epoch 0 is current and no previous epoch is live. -/
def State.openSession (s : State) (prk : List Byte) : State :=
  let s := ((s.endSession.setKey 6 (some { ty := .hkdf, bytes := prk })).setKey 2
    (some { ty := .aes256, bytes := pageKeyOf prk 0 })).setKey 1 none
  { s with chouse := { s.chouse with session := { live := true }, sealFor := none, sealDigest := [] } }

/-- A SESSION. -/
def State.runSession (s : State) (e : Entry) (slot : Nat) (b : List Byte) : State :=
  let ctr := leAt b 0x20 8
  match s.chouse.sealFor, s.keyIn 1 with
  | some c, some k =>
    if c ≠ ctr then s.reply e slot SEC_SEAL_STALE
    else
      let ikm := x25519 k.bytes (b.take 32)
      if ikm.all (· == 0) then s.reply e slot SEC_BLOCK_FORM
      else
        let prk := hmac s.chouse.sealDigest ikm
        let out := leAt b 0x28 8
        let u : SessionUndo :=
          { slot := slot, key := some k, sealFor := some c, digest := s.chouse.sealDigest, out := out, bytes := s.peek out 64 }
        let s := { s with chouse := { s.chouse with undo := s.chouse.undo ++ [u] } }
        ((s.openSession prk).poke out (confirmOf prk ++ leBytes 8 ctr ++ zeros 40)).replyWith e slot 0 0
  | _, _ => s.reply e slot SEC_SEAL_STALE

/-- SUBMIT_SESSION. -/
def execSubmitSession (s : State) : Out := s.accept (fun e => e.kind == 0x11) (State.acceptBlock sessionForm State.runSession)

/-! ### REKEY and RETIRE (17.R438, R447) -/

/-- A block whose one field is EPOCH. -/
def epochForm (_ : State) (b : List Byte) : Bool := restZero b 1

/-- The session goes on with epoch n + 1; the old current epoch is the previous one. -/
def Session.next (x : Session) : Session :=
  let e := (x.rekeys.toNat + 1) % 4
  { x with
    rekeys := x.rekeys + 1, prevLive := true
    high := updN x.high e (fun _ => 0), accepted := updN x.accepted e (fun _ => []), devCtr := updN x.devCtr e (fun _ => 0) }

/-- A REKEY. -/
def State.runRekey (s : State) (e : Entry) (slot : Nat) (b : List Byte) : State :=
  let x := s.chouse.session
  let n := (x.rekeys + 1).toNat
  if !x.live then s.reply e slot SEC_NO_SESSION
  else if x.prevLive then s.reply e slot SEC_EPOCH_BUSY
  else if leAt b 0 1 ≠ n % 4 then s.reply e slot SEC_BLOCK_FORM
  else
    let prk := match s.keyIn 6 with
      | some k => k.bytes
      | none => []
    let s := s.setKey (2 + n % 4) (some { ty := .aes256, bytes := pageKeyOf prk n })
    ({ s with chouse := { s.chouse with session := x.next } } : State).replyWith e slot (n % 4) n

/-- SUBMIT_REKEY. -/
def execSubmitRekey (s : State) : Out := s.accept (fun e => e.kind == 0x12) (State.acceptBlock epochForm State.runRekey)

/-- Pages now staged under an epoch that still may be read. -/
def State.stagedUnder (s : State) (e : Nat) : Nat :=
  (s.port.staged.filter (fun g => g.epoch == some e && !g.dead)).length

/-- The previous epoch is retired. -/
def State.retireEpoch (s : State) (ep : Nat) : State :=
  let s := (s.setKey (2 + ep) none).killStaged (· == ep)
  { s with chouse := { s.chouse with session := { s.chouse.session with prevLive := false } } }

/-- A RETIRE. -/
def State.runRetire (s : State) (e : Entry) (slot : Nat) (b : List Byte) : State :=
  let x := s.chouse.session
  let ep := leAt b 0 1
  if !x.live then s.reply e slot SEC_NO_SESSION
  else if ep = x.current then s.reply e slot SEC_EPOCH_CURRENT
  else if x.previous = some ep then (s.retireEpoch ep).replyWith e slot (s.stagedUnder ep) 0
  else s.replyWith e slot 0 0

/-- SUBMIT_RETIRE. -/
def execSubmitRetire (s : State) : Out := s.accept (fun e => e.kind == 0x13) (State.acceptBlock epochForm State.runRetire)

end Sys2Proof.Machine
end

