-- ==== Sys2Proof/Machine/Sec.lean ====
section
/-!
DEFINITION. The SEC class (08 SEC class, R246, 17.R424, R430), which only the house sequencer passes. Its instructions are
executed, and complete, at their decode. A tensor named as a message is the bytes of its rows in index order; a digest,
signature, key or tag of fixed length stands at the BASE of its descriptor (assumption 33).
-/

namespace Sys2Proof.Machine

/-! ### Operands -/

/-- A message: the bytes of a tensor's rows. -/
def messageOf (q : SeqId) (t : TD) : ExecM (List Byte) := do
  let rows ← (tdRuns t).mapM (fun r => readMem q 0 r.1 r.2)
  return rows.flatten

/-- Bytes written along runs of a tensor until they end. -/
def putRuns (q : SeqId) : List (Nat × Nat) → List Byte → ExecM Unit
  | [], _ => pure ()
  | r :: rs, b => do
    writeMem q 0 r.1 (b.take r.2)
    putRuns q rs (b.drop r.2)

/-- Bytes written into the rows of a tensor. -/
def putMessage (q : SeqId) (t : TD) (b : List Byte) : ExecM Unit := putRuns q (tdRuns t) b

/-- Bytes of a tensor's rows. -/
def messageLen (t : TD) : Nat := ((tdRuns t).map (fun r => r.2)).sum

/-- The whole footprint lies in the device's own secure SRAM (10.R269). -/
def State.inSecure (s : State) (t : TD) : Bool :=
  addrDev t.base == s.shape.fabricId && addrRegion t.base == 3 && decide (addrOff t.base + tdSpan t ≤ 0x40000)

/-- A descriptor that must lie in secure SRAM (08.R246). -/
def needSecure (w : W128) (t : TD) (pos : Nat) : ExecM Unit := do
  let s ← get
  demand (s.inSecure t) DESC_INVALID 0 (some ((if pos = 0 then wTdd w else wTda w) + 256 * pos))

/-- The key of a slot, which must hold one of the type (08.R246). -/
def needKey (n : Nat) (ty : KeyType) : ExecM (List Byte) := do
  let s ← get
  match s.keyIn n with
  | some k => if k.ty = ty then return k.bytes else fail SEC_KEY_EMPTY
  | none => fail SEC_KEY_EMPTY

/-- Key types by the codes of GEN. -/
def keyTypeOf : Nat → KeyType
  | 0 => .ed25519
  | 1 => .x25519
  | 2 => .aes256
  | _ => .hkdf

/-- The type of key that 17.R424 assigns to a slot. -/
def assignedType (n : Nat) : Option KeyType :=
  if n = 0 then some .ed25519
  else if n = 1 then some .x25519
  else if n = 6 then some .hkdf
  else if (2 ≤ n ∧ n ≤ 5) ∨ (8 ≤ n ∧ n ≤ 15) then some .aes256
  else none

/-- The type of a key placed where no rule says it: the assigned one, or a free one. -/
def placedType (n : Nat) : ExecM KeyType := do
  match assignedType n with
  | some ty => return ty
  | none =>
    let s ← get
    let (d, s) := s.draw
    set s
    return keyTypeOf (Config.unstatedKeyType d).val

/-- A key placed in a slot. -/
def placeKey (n : Nat) (ty : KeyType) (b : List Byte) : ExecM Unit :=
  change (fun s => s.setKey n (some { ty := ty, bytes := b }))

/-- SQ_FLAGS.CMP. -/
def putCmp (q : SeqId) (b : Bool) : ExecM Unit := change (fun s => s.writeCmp q b)

/-- A SEC instruction: no-op when its destination is empty (07.R206). -/
def secNow (q : SeqId) (w : W128) (dests : List TD) (body : ExecM Unit) : ExecM Flow :=
  now q w (do
    if dests.any tdEmpty then return .next
    body
    return .next)

/-- Slots named by IMM[7:0] and IMM[15:8]. -/
def secSlot (w : W128) : Nat := bits (wImm w) 0 8
def secOut (w : W128) : Nat := bits (wImm w) 8 8

/-! ### SHA-512 -/

/-- Context IMM[3:0]. -/
def hashIx (w : W128) : Nat := bits (wImm w) 0 4

/-- A hash context with `f` applied to what it has absorbed. -/
def updHash (n : Nat) (f : List Byte → List Byte) : ExecM Unit :=
  change (fun s => { s with chouse := { s.chouse with hash := updN s.chouse.hash n f } })

/-- SEC_HASH_INIT. -/
def execSecHashInit (q : SeqId) (w : W128) (s : State) : Out :=
  s.instr (.secHashInit q w) q w (secNow q w [] (updHash (hashIx w) (fun _ => [])))

/-- SEC_HASH_UPDATE. -/
def execSecHashUpdate (q : SeqId) (w : W128) (s : State) : Out :=
  s.instr (.secHashUpdate q w) q w (do
    let t ← operand q w 1 false
    secNow q w [] (do
      let b ← messageOf q t
      updHash (hashIx w) (fun h => h ++ b)))

/-- SEC_HASH_FINAL. -/
def execSecHashFinal (q : SeqId) (w : W128) (s : State) : Out :=
  s.instr (.secHashFinal q w) q w (do
    let d ← operand q w 0 true
    secNow q w [d] (do
      let s ← get
      writeMem q 0 d.base (sha512 (getN s.chouse.hash (hashIx w) []))))

/-! ### Ed25519, X25519, HKDF -/

/-- SEC_SIGN. -/
def execSecSign (q : SeqId) (w : W128) (s : State) : Out :=
  s.instr (.secSign q w) q w (do
    let d ← operand q w 0 true
    let t ← operand q w 1 false
    secNow q w [d] (do
      let k ← needKey (secSlot w) .ed25519
      let m ← messageOf q t
      writeMem q 0 d.base (edSign k m)))

/-- SEC_VERIFY. -/
def execSecVerify (q : SeqId) (w : W128) (s : State) : Out :=
  s.instr (.secVerify q w) q w (do
    let a ← operand q w 1 false
    let b ← operand q w 2 false
    let c ← operand q w 3 false
    secNow q w [] (do
      let pk ← readMem q 0 b.base 32
      let m ← messageOf q a
      let sig ← readMem q 0 c.base 64
      putCmp q (edVerify pk m sig)))

/-- SEC_DH: the shared secret is a key for HKDF. -/
def execSecDh (q : SeqId) (w : W128) (s : State) : Out :=
  s.instr (.secDh q w) q w (do
    let a ← operand q w 1 false
    secNow q w [] (do
      let k ← needKey (secSlot w) .x25519
      let peer ← readMem q 0 a.base 32
      placeKey (secOut w) .hkdf (x25519 k peer)))

/-- Length of a key of a type: AES-256 and the curves 32 bytes, an HKDF key one hash. -/
def keyLen : KeyType → Nat
  | .hkdf => 64
  | _ => 32

/-- SEC_KDF: FORM 0 to a slot, FORM 1 to memory. -/
def execSecKdf (q : SeqId) (w : W128) (s : State) : Out :=
  s.instr (.secKdf q w) q w (do
    let d ← if wForm w = 1 then operand q w 0 true else pure { eff0 := 1, eff1 := 1, eff2 := 1, eff3 := 1 }
    let a ← operand q w 1 false
    let b ← operand q w 2 false
    if wForm w = 1 then needSecure w d 0
    secNow q w [d] (do
      let k ← needKey (secSlot w) .hkdf
      let salt ← messageOf q a
      let info ← messageOf q b
      if wForm w = 1 then putMessage q d (hkdf k salt info (messageLen d))
      else
        let ty ← placedType (secOut w)
        placeKey (secOut w) ty (hkdf k salt info (keyLen ty))))

/-! ### AES-256-GCM -/

/-- The 96-bit nonce: RA in its low half, RB[31:0] in its high half (00.R9). -/
def secNonce (q : SeqId) (w : W128) : ExecM (List Byte) := do
  let a ← scalar q (seqRA w)
  let b ← scalar q (seqRB w)
  return leBytes 12 (a + b % 2 ^ 32 * 2 ^ 64)

/-- SEC_AEAD_SEAL. -/
def execSecAeadSeal (q : SeqId) (w : W128) (s : State) : Out :=
  s.instr (.secAeadSeal q w) q w (do
    let d ← operand q w 0 true
    let a ← operand q w 1 false
    let b ← operand q w 2 false
    let c ← operand q w 3 true
    secNow q w [d, c] (do
      let k ← needKey (secSlot w) .aes256
      let n ← secNonce q w
      let aad ← messageOf q b
      let pt ← messageOf q a
      let (ct, tag) := gcmSeal k n aad pt
      putMessage q d ct
      writeMem q 0 c.base tag))

/-- SEC_AEAD_OPEN: CMP says whether the tag passed; when it fails nothing is written. -/
def execSecAeadOpen (q : SeqId) (w : W128) (s : State) : Out :=
  s.instr (.secAeadOpen q w) q w (do
    let d ← operand q w 0 true
    let a ← operand q w 1 false
    let b ← operand q w 2 false
    let c ← operand q w 3 false
    secNow q w [d] (do
      let k ← needKey (secSlot w) .aes256
      let n ← secNonce q w
      let aad ← messageOf q b
      let ct ← messageOf q a
      let tag ← readMem q 0 c.base 16
      match gcmOpen k n aad ct tag with
      | some pt =>
        putMessage q d pt
        putCmp q true
      | none => putCmp q false))

/-! ### Key slots, random bytes, fuses -/

/-- SEC_KEY_ZERO. -/
def execSecKeyZero (q : SeqId) (w : W128) (s : State) : Out :=
  s.instr (.secKeyZero q w) q w (secNow q w [] (change (fun s => s.setKey (secSlot w) none)))

/-- 32 random bytes. -/
def draw32 : ExecM (List Byte) := do
  let s ← get
  let (b, s) := s.random32
  set s
  return b

/-- SEC_KEY_GEN. -/
def execSecKeyGen (q : SeqId) (w : W128) (s : State) : Out :=
  s.instr (.secKeyGen q w) q w (secNow q w [] (do
    let b ← draw32
    let ty ← if bits (wImm w) 8 2 = 3 then placedType (secSlot w) else pure (keyTypeOf (bits (wImm w) 8 2))
    placeKey (secSlot w) ty b))

/-- SEC_KEY_PUB. Of a slot without a public key, which raises no fault, the bytes are free. -/
def execSecKeyPub (q : SeqId) (w : W128) (s : State) : Out :=
  s.instr (.secKeyPub q w) q w (do
    let d ← operand q w 0 true
    secNow q w [d] (do
      let s ← get
      let n ← freeMany 32
      let free := (List.range 32).map (fun i => Config.unspecifiedByte (n + i) i)
      let pub := match s.keyIn (secSlot w) with
        | some k => if k.ty = .ed25519 then edPub k.bytes else if k.ty = .x25519 then x25519Pub k.bytes else free
        | none => free
      writeMem q 0 d.base pub))

/-- SEC_KEY_IMPORT. -/
def execSecKeyImport (q : SeqId) (w : W128) (s : State) : Out :=
  s.instr (.secKeyImport q w) q w (do
    let a ← operand q w 1 false
    needSecure w a 1
    secNow q w [] (do
      let b ← messageOf q a
      let ty ← placedType (secSlot w)
      placeKey (secSlot w) ty b))

/-- Random bytes, 32 at a time. -/
def drawBytes : Nat → ExecM (List Byte)
  | 0 => pure []
  | n + 1 => do
    let b ← draw32
    let bs ← drawBytes n
    return b ++ bs

/-- SEC_RAND. -/
def execSecRand (q : SeqId) (w : W128) (s : State) : Out :=
  s.instr (.secRand q w) q w (do
    let d ← operand q w 0 true
    secNow q w [d] (do
      let b ← drawBytes ((messageLen d + 31) / 32)
      putMessage q d (b.take (messageLen d))))

/-- SEC_FUSE_READ: a fuse word to RD. -/
def execSecFuseRead (q : SeqId) (w : W128) (s : State) : Out :=
  s.instr (.secFuseRead q w) q w (secNow q w [] (do
    let s ← get
    putScalar q (seqRD w) (Config.fuseWord (secSlot w) s.fuses.svnBits s.fuses.revoke s.fuses.debugOff).toNat))

/-- A fuse bit burned: a FUSE_SVN bit, a revoke bit or PERM_DEBUG_OFF, which disables the debug port (17.R430, R452). -/
def State.burn (s : State) (n : Nat) : State :=
  if n < 64 then { s with fuses := { s.fuses with svnBits := s.fuses.svnBits ||| BitVec.ofNat 64 (2 ^ n) } }
  else if n < 68 then { s with fuses := { s.fuses with revoke := s.fuses.revoke ||| BitVec.ofNat 4 (2 ^ (n - 64)) } }
  else { s with fuses := { s.fuses with debugOff := true }, chouse := { s.chouse with debug := .disabled } }

/-- SEC_FUSE_BURN. -/
def execSecFuseBurn (q : SeqId) (w : W128) (s : State) : Out :=
  s.instr (.secFuseBurn q w) q w (secNow q w [] (do
    let a ← scalar q (seqRA w)
    let n := Config.fuseBit (a % 2 ^ 16)
    demand (decide (n ≤ 68)) SEC_FUSE_LOCK
    change (fun s => s.burn n)))

/-- CH_SECERR_READ: the register is returned and clears (00.R11, 17.R454). -/
def execChSecerrRead (s : State) : Out :=
  let (v, s') := s.pkgWord 0x10008
  .next { s' with latch := { s'.latch with reg := BitVec.ofNat 64 v } }

end Sys2Proof.Machine
end

