-- ==== Sys2Proof/Machine/Sync.lean ====
section
/-!
DEFINITION. The SYNC class (08.R229 to R231) over the sync counters (07.R213 to R215), the sync buffer (R210) and WAIT (R211).
-/

namespace Sys2Proof.Machine

/-- INDEX: an immediate, or with IREG bits [15:0] of the register named by IMM[36:32] (08.R229); it names a counter, or
SYNC_INDEX is raised (07.R213). -/
def syncIndex (q : SeqId) (w : W128) (ireg : Bool) : ExecM Nat := do
  let idx ← if ireg then do
      let v ← scalar q (wordBits w 32 5)
      pure (v % 2 ^ 16)
    else pure (wordBits w 32 16)
  let s ← get
  demand (s.syncIndexOk idx) SYNC_INDEX
  return idx

/-- An operation enters the sync buffer; decode stalls while it is full (07.R210). -/
def bufferOp (q : SeqId) (w : W128) (idx : Nat) (v : Int) (t : Nat) : ExecM Flow := do
  let s ← get
  if 8 ≤ (s.seqr q).syncBuf.length then stall
  let e ← newEntry q w
  let o : SyncOp := { index := idx, v := v, t := t, waits := s.inQueues q (wFlags w % 64), entry := e }
  change (fun s => s.updSeqr q (fun r => { r with syncBuf := r.syncBuf ++ [o] }))
  return .next

/-- SYNC_SIGNAL (07.R210, R214). -/
def execSyncSignal (q : SeqId) (w : W128) (s : State) : Out :=
  s.instr (.syncSignal q w) q w (do
    let idx ← syncIndex q w (wFlag w 8)
    bufferOp q w idx 1 0)

/-- V of an ADD: the signed immediate, or with VREG RA[31:0] signed (08.R229). -/
def addV (q : SeqId) (w : W128) : ExecM Int :=
  if wFlag w 9 then do
    let v ← scalar q (wordBits w 16 5)
    return signed 32 v
  else pure (signed 16 (wordBits w 16 16))

/-- T of an ADD: the immediate, or with TREG RB[31:0] (08.R229). -/
def addT (q : SeqId) (w : W128) : ExecM Nat :=
  if wFlag w 10 then do
    let v ← scalar q (wordBits w 0 5)
    return v % 2 ^ 32
  else pure (wordBits w 0 16)

/-- SYNC_ADD (07.R210, R214). -/
def execSyncAdd (q : SeqId) (w : W128) (s : State) : Out :=
  s.instr (.syncAdd q w) q w (do
    let idx ← syncIndex q w (wFlag w 8)
    let v ← addV q w
    let t ← addT q w
    bufferOp q w idx v t)

/-- A WAIT: it completes at once when its condition holds, and otherwise blocks decode (07.R211, R214, 08.R230). -/
def waitOn (q : SeqId) (w : W128) (c : SeqWait) : ExecM Flow := do
  let s ← get
  if s.waitHolds c then completeNow q w
  else
    let e ← newEntry q w
    change (fun s => s.updSeqr q (fun r =>
      { r with wait := some { cond := c, limited := wFlags w != 0, entry := e } }))
  return .next

/-- SYNC_WAIT_GE (07.R214, 08.R229). -/
def execSyncWaitGe (q : SeqId) (w : W128) (s : State) : Out :=
  s.instr (.syncWaitGe q w) q w (do
    let idx ← syncIndex q w (wForm w / 2 % 2 == 1)
    let n ← if wForm w / 4 % 2 = 1 then scalar q (wordBits w 0 5) else pure (wordBits w 0 32)
    waitOn q w (.ge idx (n % 2 ^ 32)))

/-- SYNC_WAIT_EPOCH (07.R214, 08.R229). -/
def execSyncWaitEpoch (q : SeqId) (w : W128) (s : State) : Out :=
  s.instr (.syncWaitEpoch q w) q w (do
    let idx ← syncIndex q w (wForm w / 2 % 2 == 1)
    let e ← scalar q (wordBits w 0 5)
    waitOn q w (.epoch idx (e % 2 ^ 16)))

/-- SYNC_READ: VALUE and EPOCH in one observation (08.R231). -/
def execSyncRead (q : SeqId) (w : W128) (s : State) : Out :=
  s.instr (.syncRead q w) q w (do
    let idx ← syncIndex q w (wFlag w 8)
    let s ← get
    let k := s.counterAt idx
    putScalar q (wordBits w 0 5) (k.value + k.epoch * 2 ^ 32)
    completeNow q w
    return .next)

/-- SYNC_OP_APPLY: the oldest operation of the sync buffer, once nothing it waits on remains (07.R210, R215, R217). -/
def execSyncOpApply (q : SeqId) (s : State) : Out :=
  .next (match (s.seqr q).syncBuf with
    | o :: rest =>
      if o.waits = [] then
        let s := s.updSeqr q (fun r => { r with syncBuf := rest })
        let s := s.countSeq q EV_SY_OPS 1
        (s.applyCounter q o.index o.v o.t).complete q o.entry 0
      else s
    | [] => s)

/-- SYNC_WAIT_TIMEOUT: the time limit of a WAIT has passed; it ends satisfied when its condition then holds, and otherwise
unsatisfied with WTO set (07.R214, 08.R230). -/
def execSyncWaitTimeout (q : SeqId) (s : State) : Out :=
  .next (match (s.seqr q).wait with
    | some w =>
      if w.limited && s.waitHolds w.cond then (s.endWait q).settle
      else if w.limited then
        let s := s.updSeqr q (fun r => { r with wait := none })
        let s := (s.countSeq q EV_SY_WAIT_TIMEOUT 1).setFlag q FLAG_WTO
        s.complete q w.entry 0
      else s
    | none => s)

end Sys2Proof.Machine
end

