-- ==== Sys2Proof/Machine/Dispatch.lean ====
section
/-!
DEFINITION. The dispatch: one arm per command, each a direct call of its meaning.
-/

namespace Sys2Proof.Machine

def exec (i : Instr) (s : State) : Host.Outcome State Fault Refusal :=
  match i with
  | .shapeUpdateBegin => Sys2Proof.Machine.execShapeUpdateBegin s
  | .shapeUpdateComplete => Sys2Proof.Machine.execShapeUpdateComplete s
  | .refclkStop => Sys2Proof.Machine.execRefclkStop s
  | .refclkLost => Sys2Proof.Machine.execRefclkLost s
  | .refclkReturn => Sys2Proof.Machine.execRefclkReturn s
  | .delayLineRelock => Sys2Proof.Machine.execDelayLineRelock s
  | .actCapGrant => Sys2Proof.Machine.execActCapGrant s
  | .programmingBudgetGrant => Sys2Proof.Machine.execProgrammingBudgetGrant s
  | .loomMvm q w => Sys2Proof.Machine.execLoomMvm q w s
  | .loomMvmt q w => Sys2Proof.Machine.execLoomMvmt q w s
  | .loomPly q w => Sys2Proof.Machine.execLoomPly q w s
  | .loomProg q w => Sys2Proof.Machine.execLoomProg q w s
  | .loomVerify q w => Sys2Proof.Machine.execLoomVerify q w s
  | .loomProbe q w => Sys2Proof.Machine.execLoomProbe q w s
  | .integrationWindowEnd c => Sys2Proof.Machine.execIntegrationWindowEnd c s
  | .drain c e => Sys2Proof.Machine.execDrain c e s
  | .planeSum c => Sys2Proof.Machine.execPlaneSum c s
  | .millMatmul q w => Sys2Proof.Machine.execMillMatmul q w s
  | .millVecAdd q w => Sys2Proof.Machine.execMillVecAdd q w s
  | .millVecSub q w => Sys2Proof.Machine.execMillVecSub q w s
  | .millVecMul q w => Sys2Proof.Machine.execMillVecMul q w s
  | .millVecFma q w => Sys2Proof.Machine.execMillVecFma q w s
  | .millVecDiv q w => Sys2Proof.Machine.execMillVecDiv q w s
  | .millVecSqrt q w => Sys2Proof.Machine.execMillVecSqrt q w s
  | .millVecMax q w => Sys2Proof.Machine.execMillVecMax q w s
  | .millVecMin q w => Sys2Proof.Machine.execMillVecMin q w s
  | .millVecAbs q w => Sys2Proof.Machine.execMillVecAbs q w s
  | .millVecNeg q w => Sys2Proof.Machine.execMillVecNeg q w s
  | .millVecCmp q w => Sys2Proof.Machine.execMillVecCmp q w s
  | .millVecSel q w => Sys2Proof.Machine.execMillVecSel q w s
  | .millVecCvt q w => Sys2Proof.Machine.execMillVecCvt q w s
  | .millVecIadd q w => Sys2Proof.Machine.execMillVecIadd q w s
  | .millVecIsub q w => Sys2Proof.Machine.execMillVecIsub q w s
  | .millVecImul q w => Sys2Proof.Machine.execMillVecImul q w s
  | .millVecShl q w => Sys2Proof.Machine.execMillVecShl q w s
  | .millVecShr q w => Sys2Proof.Machine.execMillVecShr q w s
  | .millVecAnd q w => Sys2Proof.Machine.execMillVecAnd q w s
  | .millVecOr q w => Sys2Proof.Machine.execMillVecOr q w s
  | .millVecXor q w => Sys2Proof.Machine.execMillVecXor q w s
  | .millRedSum q w => Sys2Proof.Machine.execMillRedSum q w s
  | .millRedSumsq q w => Sys2Proof.Machine.execMillRedSumsq q w s
  | .millRedMeanvar q w => Sys2Proof.Machine.execMillRedMeanvar q w s
  | .millRedMax q w => Sys2Proof.Machine.execMillRedMax q w s
  | .millRedMin q w => Sys2Proof.Machine.execMillRedMin q w s
  | .millRedAbsmax q w => Sys2Proof.Machine.execMillRedAbsmax q w s
  | .millRedMerge q w => Sys2Proof.Machine.execMillRedMerge q w s
  | .millSort q w => Sys2Proof.Machine.execMillSort q w s
  | .millTopk q w => Sys2Proof.Machine.execMillTopk q w s
  | .millWalk q w => Sys2Proof.Machine.execMillWalk q w s
  | .millRng q w => Sys2Proof.Machine.execMillRng q w s
  | .millTableLoad q w => Sys2Proof.Machine.execMillTableLoad q w s
  | .millTableEval q w => Sys2Proof.Machine.execMillTableEval q w s
  | .seqNop q w => Sys2Proof.Machine.execSeqNop q w s
  | .seqLoop q w => Sys2Proof.Machine.execSeqLoop q w s
  | .seqBrJump q w => Sys2Proof.Machine.execSeqBrJump q w s
  | .seqBrBreak q w => Sys2Proof.Machine.execSeqBrBreak q w s
  | .seqSetMovi q w => Sys2Proof.Machine.execSeqSetMovi q w s
  | .seqSetAdd q w => Sys2Proof.Machine.execSeqSetAdd q w s
  | .seqSetAddi q w => Sys2Proof.Machine.execSeqSetAddi q w s
  | .seqSetSub q w => Sys2Proof.Machine.execSeqSetSub q w s
  | .seqSetMin q w => Sys2Proof.Machine.execSeqSetMin q w s
  | .seqSetMax q w => Sys2Proof.Machine.execSeqSetMax q w s
  | .seqSetCmp q w => Sys2Proof.Machine.execSeqSetCmp q w s
  | .seqSetCmpi q w => Sys2Proof.Machine.execSeqSetCmpi q w s
  | .seqSetGetal q w => Sys2Proof.Machine.execSeqSetGetal q w s
  | .seqSetSetal q w => Sys2Proof.Machine.execSeqSetSetal q w s
  | .seqTallyOpen q w => Sys2Proof.Machine.execSeqTallyOpen q w s
  | .seqTallyFetch q w => Sys2Proof.Machine.execSeqTallyFetch q w s
  | .seqTallyDone q w => Sys2Proof.Machine.execSeqTallyDone q w s
  | .seqTallyReset q w => Sys2Proof.Machine.execSeqTallyReset q w s
  | .seqJoin q w => Sys2Proof.Machine.execSeqJoin q w s
  | .syncSignal q w => Sys2Proof.Machine.execSyncSignal q w s
  | .syncAdd q w => Sys2Proof.Machine.execSyncAdd q w s
  | .syncWaitGe q w => Sys2Proof.Machine.execSyncWaitGe q w s
  | .syncWaitEpoch q w => Sys2Proof.Machine.execSyncWaitEpoch q w s
  | .syncRead q w => Sys2Proof.Machine.execSyncRead q w s
  | .syncOpApply q => Sys2Proof.Machine.execSyncOpApply q s
  | .syncWaitTimeout q => Sys2Proof.Machine.execSyncWaitTimeout q s
  | .moveLoad q w => Sys2Proof.Machine.execMoveLoad q w s
  | .moveStore q w => Sys2Proof.Machine.execMoveStore q w s
  | .moveStream q w => Sys2Proof.Machine.execMoveStream q w s
  | .movePrefetch q w => Sys2Proof.Machine.execMovePrefetch q w s
  | .moveStage q w => Sys2Proof.Machine.execMoveStage q w s
  | .streamSlotFilled c n => Sys2Proof.Machine.execStreamSlotFilled c n s
  | .streamSlotDrain c n => Sys2Proof.Machine.execStreamSlotDrain c n s
  | .coreFaultReport c => Sys2Proof.Machine.execCoreFaultReport c s
  | .calSeq q w => Sys2Proof.Machine.execCalSeq q w s
  | .calRead q w => Sys2Proof.Machine.execCalRead q w s
  | .calTap q w => Sys2Proof.Machine.execCalTap q w s
  | .calTrim q w => Sys2Proof.Machine.execCalTrim q w s
  | .calApply q w => Sys2Proof.Machine.execCalApply q w s
  | .calRecRead q w => Sys2Proof.Machine.execCalRecRead q w s
  | .calRecWrite q w => Sys2Proof.Machine.execCalRecWrite q w s
  | .calCoreProbe q w => Sys2Proof.Machine.execCalCoreProbe q w s
  | .calCoreVerify q w => Sys2Proof.Machine.execCalCoreVerify q w s
  | .calCoreExecute c => Sys2Proof.Machine.execCalCoreExecute c s
  | .calApplication c => Sys2Proof.Machine.execCalApplication c s
  | .lightMeasurementComplete ply => Sys2Proof.Machine.execLightMeasurementComplete ply s
  | .sampleWaitExpiry ply => Sys2Proof.Machine.execSampleWaitExpiry ply s
  | .ageTrigger ply full => Sys2Proof.Machine.execAgeTrigger ply full s
  | .reAnneal ply => Sys2Proof.Machine.execReAnneal ply s
  | .annealWaitExpiry ply => Sys2Proof.Machine.execAnnealWaitExpiry ply s
  | .calHeaderRewrite => Sys2Proof.Machine.execCalHeaderRewrite s
  | .asCtrlForce => Sys2Proof.Machine.execAsCtrlForce s
  | .asCtrlEn on => Sys2Proof.Machine.execAsCtrlEn on s
  | .asStatusRead => Sys2Proof.Machine.execAsStatusRead s
  | .monitorConversionEnd am1 raw => Sys2Proof.Machine.execMonitorConversionEnd am1 raw s
  | .tripExit => Sys2Proof.Machine.execTripExit s
  | .sleepComparatorTrip => Sys2Proof.Machine.execSleepComparatorTrip s
  | .asMctrlTrig => Sys2Proof.Machine.execAsMctrlTrig s
  | .asMctrlIlv on => Sys2Proof.Machine.execAsMctrlIlv on s
  | .asMctrlLast n => Sys2Proof.Machine.execAsMctrlLast n s
  | .asMctrlCont on => Sys2Proof.Machine.execAsMctrlCont on s
  | .monitorRestart => Sys2Proof.Machine.execMonitorRestart s
  | .monitorPowerOff => Sys2Proof.Machine.execMonitorPowerOff s
  | .monitorPowerReturn => Sys2Proof.Machine.execMonitorPowerReturn s
  | .asMstatRead => Sys2Proof.Machine.execAsMstatRead s
  | .lpddrActivate ch bank row => Sys2Proof.Machine.execLpddrActivate ch bank row s
  | .lpddrRef ch => Sys2Proof.Machine.execLpddrRef ch s
  | .lpddrRfm ch => Sys2Proof.Machine.execLpddrRfm ch s
  | .selfRefreshEntry ch => Sys2Proof.Machine.execSelfRefreshEntry ch s
  | .selfRefreshExit ch => Sys2Proof.Machine.execSelfRefreshExit ch s
  | .powerDownEntry ch => Sys2Proof.Machine.execPowerDownEntry ch s
  | .powerDownExit ch => Sys2Proof.Machine.execPowerDownExit ch s
  | .modeRegisterWrite ch ma v => Sys2Proof.Machine.execModeRegisterWrite ch ma v s
  | .modeRegisterRead ch ma => Sys2Proof.Machine.execModeRegisterRead ch ma s
  | .commandBusTraining ch => Sys2Proof.Machine.execCommandBusTraining ch s
  | .wck2ckLeveling ch => Sys2Proof.Machine.execWck2ckLeveling ch s
  | .readDqCalibration ch => Sys2Proof.Machine.execReadDqCalibration ch s
  | .writeDqTraining ch fifo => Sys2Proof.Machine.execWriteDqTraining ch fifo s
  | .zqCalibration ch => Sys2Proof.Machine.execZqCalibration ch s
  | .hpResetN ch => Sys2Proof.Machine.execHpResetN ch s
  | .sqRingWrite at_ data => Sys2Proof.Machine.execSqRingWrite at_ data s
  | .apertureWrite at_ data => Sys2Proof.Machine.execApertureWrite at_ data s
  | .wharfWrite at_ data => Sys2Proof.Machine.execWharfWrite at_ data s
  | .ctrlRegWrite at_ data => Sys2Proof.Machine.execCtrlRegWrite at_ data s
  | .unmappedWrite at_ data => Sys2Proof.Machine.execUnmappedWrite at_ data s
  | .apertureRead at_ len => Sys2Proof.Machine.execApertureRead at_ len s
  | .hpStatusRead => Sys2Proof.Machine.execHpStatusRead s
  | .hpDbSqWrite v => Sys2Proof.Machine.execHpDbSqWrite v s
  | .stageRequest v => Sys2Proof.Machine.execStageRequest v s
  | .unstageRequest v => Sys2Proof.Machine.execUnstageRequest v s
  | .stageRequestStart => Sys2Proof.Machine.execStageRequestStart s
  | .stageCopyDone => Sys2Proof.Machine.execStageCopyDone s
  | .hpRingCfgWrite v => Sys2Proof.Machine.execHpRingCfgWrite v s
  | .hpIrqStatusClear v => Sys2Proof.Machine.execHpIrqStatusClear v s
  | .hpIrqEnableWrite v => Sys2Proof.Machine.execHpIrqEnableWrite v s
  | .hpCqHeadWrite v => Sys2Proof.Machine.execHpCqHeadWrite v s
  | .hpApaBaseWrite v => Sys2Proof.Machine.execHpApaBaseWrite v s
  | .hpApbBaseWrite v => Sys2Proof.Machine.execHpApbBaseWrite v s
  | .hpPoolWrite v => Sys2Proof.Machine.execHpPoolWrite v s
  | .hpWhSplitWrite v => Sys2Proof.Machine.execHpWhSplitWrite v s
  | .hpLatencyBudgetWrite v => Sys2Proof.Machine.execHpLatencyBudgetWrite v s
  | .frameDrainTimeout ch page => Sys2Proof.Machine.execFrameDrainTimeout ch page s
  | .frameDrainDone ch page => Sys2Proof.Machine.execFrameDrainDone ch page s
  | .cqPost => Sys2Proof.Machine.execCqPost s
  | .cqIrqTimeout => Sys2Proof.Machine.execCqIrqTimeout s
  | .hostLost => Sys2Proof.Machine.execHostLost s
  | .submitJob => Sys2Proof.Machine.execSubmitJob s
  | .submitPipeline => Sys2Proof.Machine.execSubmitPipeline s
  | .counterRequest => Sys2Proof.Machine.execCounterRequest s
  | .submitLoad => Sys2Proof.Machine.execSubmitLoad s
  | .submitRestore => Sys2Proof.Machine.execSubmitRestore s
  | .submitUnload => Sys2Proof.Machine.execSubmitUnload s
  | .submitCancel => Sys2Proof.Machine.execSubmitCancel s
  | .submitSeal => Sys2Proof.Machine.execSubmitSeal s
  | .submitSession => Sys2Proof.Machine.execSubmitSession s
  | .submitRekey => Sys2Proof.Machine.execSubmitRekey s
  | .submitRetire => Sys2Proof.Machine.execSubmitRetire s
  | .jobDispatch => Sys2Proof.Machine.execJobDispatch s
  | .jobBoundary slot => Sys2Proof.Machine.execJobBoundary slot s
  | .companionJob home homeSlot entry bind image => Sys2Proof.Machine.execCompanionJob home homeSlot entry bind image s
  | .chunkDigestCheck => Sys2Proof.Machine.execChunkDigestCheck s
  | .chunkOverdueExpiry chunk => Sys2Proof.Machine.execChunkOverdueExpiry chunk s
  | .intakeIdleTimeout => Sys2Proof.Machine.execIntakeIdleTimeout s
  | .loadAnnounce peer mslot pkgLen manifest map => Sys2Proof.Machine.execLoadAnnounce peer mslot pkgLen manifest map s
  | .chunkPull chunk data => Sys2Proof.Machine.execChunkPull chunk data s
  | .pullTimeout chunk => Sys2Proof.Machine.execPullTimeout chunk s
  | .chunkConvert chunk place => Sys2Proof.Machine.execChunkConvert chunk place s
  | .loaderPlyProgram ply => Sys2Proof.Machine.execLoaderPlyProgram ply s
  | .modelAdmission peersDone => Sys2Proof.Machine.execModelAdmission peersDone s
  | .swapProgram => Sys2Proof.Machine.execSwapProgram s
  | .loadRollback => Sys2Proof.Machine.execLoadRollback s
  | .unloadFree mslot => Sys2Proof.Machine.execUnloadFree mslot s
  | .porstDeassert => Sys2Proof.Machine.execPorstDeassert s
  | .bootRomPhase => Sys2Proof.Machine.execBootRomPhase s
  | .houseFirmwarePhase => Sys2Proof.Machine.execHouseFirmwarePhase s
  | .serviceFirmwarePhase => Sys2Proof.Machine.execServiceFirmwarePhase s
  | .porstAssert => Sys2Proof.Machine.execPorstAssert s
  | .railExcursion rail => Sys2Proof.Machine.execRailExcursion rail s
  | .internalResetRelease => Sys2Proof.Machine.execInternalResetRelease s
  | .vprogLowDuringProg => Sys2Proof.Machine.execVprogLowDuringProg s
  | .vddIoLoss => Sys2Proof.Machine.execVddIoLoss s
  | .powerDownHold => Sys2Proof.Machine.execPowerDownHold s
  | .consentPress => Sys2Proof.Machine.execConsentPress s
  | .consentExpiry => Sys2Proof.Machine.execConsentExpiry s
  | .scrubEnd => Sys2Proof.Machine.execScrubEnd s
  | .secHashInit q w => Sys2Proof.Machine.execSecHashInit q w s
  | .secHashUpdate q w => Sys2Proof.Machine.execSecHashUpdate q w s
  | .secHashFinal q w => Sys2Proof.Machine.execSecHashFinal q w s
  | .secSign q w => Sys2Proof.Machine.execSecSign q w s
  | .secVerify q w => Sys2Proof.Machine.execSecVerify q w s
  | .secDh q w => Sys2Proof.Machine.execSecDh q w s
  | .secKdf q w => Sys2Proof.Machine.execSecKdf q w s
  | .secAeadSeal q w => Sys2Proof.Machine.execSecAeadSeal q w s
  | .secAeadOpen q w => Sys2Proof.Machine.execSecAeadOpen q w s
  | .secKeyZero q w => Sys2Proof.Machine.execSecKeyZero q w s
  | .secKeyGen q w => Sys2Proof.Machine.execSecKeyGen q w s
  | .secKeyPub q w => Sys2Proof.Machine.execSecKeyPub q w s
  | .secKeyImport q w => Sys2Proof.Machine.execSecKeyImport q w s
  | .secRand q w => Sys2Proof.Machine.execSecRand q w s
  | .secFuseRead q w => Sys2Proof.Machine.execSecFuseRead q w s
  | .secFuseBurn q w => Sys2Proof.Machine.execSecFuseBurn q w s
  | .chSecerrRead => Sys2Proof.Machine.execChSecerrRead s
  | .debugHalt q => Sys2Proof.Machine.execDebugHalt q s
  | .debugStep q => Sys2Proof.Machine.execDebugStep q s
  | .debugResume q => Sys2Proof.Machine.execDebugResume q s
  | .debugAccess addr len write => Sys2Proof.Machine.execDebugAccess addr len write s
  | .i3cEntdaa addr => Sys2Proof.Machine.execI3cEntdaa addr s
  | .i3cSetdasa addr => Sys2Proof.Machine.execI3cSetdasa addr s
  | .i3cRstdaa => Sys2Proof.Machine.execI3cRstdaa s
  | .i3cGetpid => Sys2Proof.Machine.execI3cGetpid s
  | .i3cGetbcr => Sys2Proof.Machine.execI3cGetbcr s
  | .i3cGetdcr => Sys2Proof.Machine.execI3cGetdcr s
  | .i3cGetstatus => Sys2Proof.Machine.execI3cGetstatus s
  | .i3cEnec => Sys2Proof.Machine.execI3cEnec s
  | .i3cDisec => Sys2Proof.Machine.execI3cDisec s
  | .i3cGetmwl => Sys2Proof.Machine.execI3cGetmwl s
  | .i3cGetmrl => Sys2Proof.Machine.execI3cGetmrl s
  | .i3cHdrEntry => Sys2Proof.Machine.execI3cHdrEntry s
  | .mgResponseRead => Sys2Proof.Machine.execMgResponseRead s
  | .mgGetStatus frame => Sys2Proof.Machine.execMgGetStatus frame s
  | .mgTelemetry frame => Sys2Proof.Machine.execMgTelemetry frame s
  | .mgFence frame => Sys2Proof.Machine.execMgFence frame s
  | .mgUnfence frame => Sys2Proof.Machine.execMgUnfence frame s
  | .mgScrub frame => Sys2Proof.Machine.execMgScrub frame s
  | .mgSetMode frame => Sys2Proof.Machine.execMgSetMode frame s
  | .mgSetProfile frame => Sys2Proof.Machine.execMgSetProfile frame s
  | .mgFwStage frame => Sys2Proof.Machine.execMgFwStage frame s
  | .mgFwCommit frame => Sys2Proof.Machine.execMgFwCommit frame s
  | .mgRotateKeys frame => Sys2Proof.Machine.execMgRotateKeys frame s
  | .mgDebugUnlock frame => Sys2Proof.Machine.execMgDebugUnlock frame s
  | .mgDebugPermanentLock frame => Sys2Proof.Machine.execMgDebugPermanentLock frame s
  | .mgProvision frame => Sys2Proof.Machine.execMgProvision frame s
  | .mgForceState frame => Sys2Proof.Machine.execMgForceState frame s
  | .mgLockoutExpiry => Sys2Proof.Machine.execMgLockoutExpiry s
  | .mgSigfailRead => Sys2Proof.Machine.execMgSigfailRead s
  | .linkTrainingStart n => Sys2Proof.Machine.execLinkTrainingStart n s
  | .linkTrainingDone n lanes => Sys2Proof.Machine.execLinkTrainingDone n lanes s
  | .linkRetry n => Sys2Proof.Machine.execLinkRetry n s
  | .linkAlignmentLoss n => Sys2Proof.Machine.execLinkAlignmentLoss n s
  | .linkChallenge n nonce => Sys2Proof.Machine.execLinkChallenge n nonce s
  | .linkSealReceived n sealBytes dikCert caCert peerLink => Sys2Proof.Machine.execLinkSealReceived n sealBytes dikCert caCert peerLink s
  | .linkRejectRetrain n => Sys2Proof.Machine.execLinkRejectRetrain n s
  | .memberList n peerId members => Sys2Proof.Machine.execMemberList n peerId members s
  | .memberListStable => Sys2Proof.Machine.execMemberListStable s
  | .routeRewrite dist => Sys2Proof.Machine.execRouteRewrite dist s
  | .stitchFrameReceive n header payload tag => Sys2Proof.Machine.execStitchFrameReceive n header payload tag s
  | .stitchResendRequest n fromCtr => Sys2Proof.Machine.execStitchResendRequest n fromCtr s
  | .linkRekey n => Sys2Proof.Machine.execLinkRekey n s
  | .memberLost id => Sys2Proof.Machine.execMemberLost id s
  | .linkFenceRetrain n => Sys2Proof.Machine.execLinkFenceRetrain n s
  | .fbStatusRead => Sys2Proof.Machine.execFbStatusRead s
  | .fbLinkRead n => Sys2Proof.Machine.execFbLinkRead n s
  | .converterSelfTest c => Sys2Proof.Machine.execConverterSelfTest c s
  | .patrolRead site found => Sys2Proof.Machine.execPatrolRead site found s
  | .remapStart c mslot => Sys2Proof.Machine.execRemapStart c mslot s
  | .remapProgram c mslot => Sys2Proof.Machine.execRemapProgram c mslot s
  | .pcSelWrite c v => Sys2Proof.Machine.execPcSelWrite c v s
  | .pcQualWrite c n v => Sys2Proof.Machine.execPcQualWrite c n v s
  | .ledgerRecordWrite => Sys2Proof.Machine.execLedgerRecordWrite s
  | .powerEstimate events leakage => Sys2Proof.Machine.execPowerEstimate events leakage s
  | .pwProfileWrite v => Sys2Proof.Machine.execPwProfileWrite v s
  | .pwCapWrite v => Sys2Proof.Machine.execPwCapWrite v s
  | .pwForceWrite v => Sys2Proof.Machine.execPwForceWrite v s
  | .pwThermRead => Sys2Proof.Machine.execPwThermRead s
  | .sleepHoldExpiry g => Sys2Proof.Machine.execSleepHoldExpiry g s
  | .sleepEntryDone => Sys2Proof.Machine.execSleepEntryDone s
  | .sleepExitDone => Sys2Proof.Machine.execSleepExitDone s
  | .instructionCompletion q queue index => Sys2Proof.Machine.execInstructionCompletion q queue index s
  | .confTimerTick => Sys2Proof.Machine.execConfTimerTick s
  | .vddIoReturn => Sys2Proof.Machine.execVddIoReturn s

end Sys2Proof.Machine
end

