-- ==== Sys2Proof/Machine/Tick.lean ====
section
/-!
DEFINITION. The passing of time while no command waits (assumption 6): one microsecond of REFCLK time, in which the age clocks
advance (12.R329) and the cells age (02.R56).
-/

namespace Sys2Proof.Machine

/-- An age clock one microsecond later at temperature `t`: the units, which stop at the largest 64-bit value, and the fraction
carried (12.R329). -/
def ageClock (units frac : Nat) (t : Int) : Nat × Nat :=
  let sum := frac + ageStep t
  if units + sum / 2 ^ 64 < 2 ^ 64 then (units + sum / 2 ^ 64, sum % 2 ^ 64) else (2 ^ 64 - 1, 0)

/-- One microsecond: the time since PORST_N, every age clock and the cells' own age advance (12.R329, 02.R56, 18.R467). A cell's
junction stands off the last reading by a free amount. -/
def idleTick (s : State) : State :=
  let a := s.assay
  let next := fun k : Fin 8 => ageClock a.age[k] a.frac[k] a.rate[k]
  { s with
    timeUs := s.timeUs + 1, fresh := s.fresh + 8
    cellClock := Vector.ofFn (fun k : Fin 8 => s.cellClock[k] + ageStep (a.rate[k] + Config.junctionShift (s.fresh + k.val)))
    assay := { a with age := Vector.ofFn (fun k => (next k).1), frac := Vector.ofFn (fun k => (next k).2) } }

end Sys2Proof.Machine
end

