-- ==== Sys2Proof/Safety.lean ====
section
/-!
DEFINITION. What counts as a safe run, in the terms the statements use.
-/

namespace Sys2Proof.Machine

/-- Every command that waits is well-formed. -/
def State.queueOk (s : State) : Bool := s.pending.all Instr.wf

/-- The block goes on: its next step answers a state. -/
def State.goesOn (s : State) : Prop := ∃ t, step s = .next t

/-- Every fuse bit that is burned before is burned after (08.R246: a BURN cannot be undone). -/
def Fuses.burnsKept (f g : Fuses) : Prop :=
  f.svnBits &&& g.svnBits = f.svnBits ∧ f.revoke &&& g.revoke = f.revoke ∧ (f.debugOff = true → g.debugOff = true)

/-- What manufacture fuses (00.R2): no command changes it. -/
def Fuses.made (f : Fuses) : Nat × Nat × Nat × Byte × W64 := (f.orderId, f.actCapMax, f.powerLimit, f.rev, f.serial)

/-- The sparse parts of the state are in their canonical form: keys strictly rising, and no entry equal to what an unlisted
one reads as. -/
def State.canonical (s : State) : Bool :=
  s.mem.wf && NatMap.wf false s.poison && NatMap.wf false s.written && NatMap.wf {} s.plies && NatMap.wf {} s.cells
    && NatMap.wf 0 s.pkgEvents && NatMap.wf {} s.assay.plies && NatMap.wf ([], []) s.assay.stored
    && s.clusters.toList.all (fun k => NatMap.wf {} k.counters && NatMap.wf false k.tally.map)
    && s.cores.toList.all (fun k => NatMap.wf 0 k.events)

/-! ### Hypotheses and frames that the statements name -/

/-- The sequencer decodes next, its instruction index lies in its image, and the word passes the checks that every word
takes (07.R196, R199, R219). -/
structure State.Takes (s : State) (q : SeqId) (w : W128) : Prop where
  decodes : s.decodes q = true
  inCode : (s.seqr q).pc < (s.seqr q).codeLen
  listed : listedWord w = true
  allowed : decPriv q w = false

/-- Every byte of every local store reads as before. -/
def State.sameBytes (s t : State) : Prop := ∀ a, t.mem.byte a = s.mem.byte a

/-- Every byte of every local store outside `n` bytes from `key` reads as before. -/
def State.sameOutside (s t : State) (key n : Nat) : Prop := ∀ a, a < key ∨ key + n ≤ a → t.mem.byte a = s.mem.byte a

/-- The registers of a sequencer that only the rows named for them write: SQ_ALn, SQ_TDBASE and the fault registers. -/
def Seqr.sameSpecial (r t : Seqr) : Prop :=
  t.al = r.al ∧ t.tdBase = r.tdBase ∧ t.fault0 = r.fault0 ∧ t.fault1 = r.fault1 ∧ t.faulted = r.faulted

/-- A sequencer has gone on to the next instruction, by the loop-end step (08.R225). -/
def Seqr.wentOn (r t : Seqr) : Prop := t.pc = (loopEnd r.pc r.loops).1 ∧ t.loops = (loopEnd r.pc r.loops).2

/-- Every other sequencer keeps its scalar registers, its index and its special registers. -/
def State.othersKeep (s t : State) (q : SeqId) : Prop :=
  ∀ q', q' ≠ q → (t.seqr q').s = (s.seqr q').s ∧ (t.seqr q').pc = (s.seqr q').pc ∧ Seqr.sameSpecial (s.seqr q') (t.seqr q')

/-- An operand of a single-element MILL.VEC (08.R243): the scalar register's FP32 or integer, where the form uses it. -/
def vecScalarElem (q : SeqId) (w : W128) (r : Seqr) (i : Nat) : Elem :=
  if bit (vecUses (wForm w)) i then
    let v := (r.scalar (bits (wImm w) (35 - 5 * i) 5)).toNat
    { code := if vecIsInt (wForm w) then
        (match q with
          | .core _ => .val (signed 32 v : Int)
          | .house => .val (signed 64 v : Int))
      else ofFp32 (v % 2 ^ 32) }
  else {}

/-- What a single-element MILL.VEC computes (06.R167, R169). -/
def vecScalarRes (q : SeqId) (w : W128) (r : Seqr) : VecRes :=
  let f (i : Nat) : Fmt := if bit (vecUses (wForm w)) i then .int32 else .fp32
  vecElem (wForm w) (bits (wFlags w) 5 2) (match q with
    | .core _ => 32
    | .house => 64) (f 0) (f 1) (vecScalarElem q w r 0) (vecScalarElem q w r 1) (vecScalarElem q w r 2)

/-- What it writes into RD: an integer sign-extended to 64 bits, or FP32 in the low half (08.R243). -/
def vecScalarWord (q : SeqId) (w : W128) (r : Seqr) : W64 :=
  let v := (vecScalarRes q w r).val
  BitVec.ofNat 64 (if vecIsInt (wForm w) then unsigned 64 v.rat.num else fp32Bits (fp32 v))

/-! ### Operands and results of the tensor rows -/

/-- The descriptor slot of a word names a tensor that the sequencer may use (07.R200 to R205): the slot lies in its store, unpoisoned,
with no write into it under way; the descriptor passes its checks; and a stream it names is open, in its direction. `t` is the
descriptor with the actual lengths applied. -/
structure State.Names (s : State) (q : SeqId) (slot : Nat) (dest : Bool) (t : TD) : Prop where
  inStore : slotKey q (s.seqr q).tdBase slot + 64 ≤ slotEnd q
  settled : s.writesPending q (slotKey q (s.seqr q).tdBase slot) 64 = false
  clean : s.poisoned (slotKey q (s.seqr q).tdBase slot) 64 = false
  reads : t = withActual (parseTd (s.mem.bytes (slotKey q (s.seqr q).tdBase slot) 64)) (s.seqr q).al
  valid : tdFault t dest = none
  stream : bit t.stream 7 = true →
    ∃ c, q = .core c ∧ streamOk (getN s.cores[c].streams (t.stream % 8) none) dest = true

/-- The sequencer decodes the word next and its Mill queue is empty, so that the instruction starts at once (07.R208). -/
structure State.MillTakes (s : State) (q : SeqId) (w : W128) : Prop where
  takes : s.Takes q w
  canonical : s.canonical = true
  alone : (s.seqr q).millQ = []

/-- The sequencer decodes the word next and its queues are empty, so that the instruction starts at once (07.R208). -/
structure State.MoveTakes (s : State) (q : SeqId) (w : W128) : Prop where
  takes : s.Takes q w
  canonical : s.canonical = true
  alone : s.inQueues q 63 = []

/-- A tensor of one row, without scales and in no stream. -/
structure OneRow (t : TD) : Prop where
  plain : t.skind = 0
  alone : bit t.stream 7 = false
  some_ : 0 < t.eff0
  row : t.eff1 = 1 ∧ t.eff2 = 1 ∧ t.eff3 = 1

/-- Bytes of the row of a tensor of one row. -/
def rowLen (t : TD) : Nat := runBytes (tdFmt t) t.eff0

/-- The sequencer may access each of `n` bytes from an internal address, which lie in this device's Warehouse, in its core
stores or in its secure SRAM (10.R269, R273, R274). -/
def State.localSpan (s : State) (q : SeqId) (write : Bool) (a n : Nat) : Prop :=
  a + n ≤ 2 ^ 51 ∧
    ∀ i, i < n → addrDev (a + i) = s.shape.fabricId ∧ (addrRegion (a + i) ≤ 1 ∨ addrRegion (a + i) = 3) ∧ s.accessFault q false write (a + i) = none

/-- The sequencer may read `n` bytes from an address: it may access them, and no granule among them is poisoned (10.R277). -/
def State.readableSpan (s : State) (q : SeqId) (a n : Nat) : Prop :=
  s.localSpan q false a n ∧ s.poisoned (a % 2 ^ 48) n = false

/-- The `n` bytes that stand at an internal address of this device. -/
def State.bytesAt (s : State) (a n : Nat) : List Byte := s.mem.bytes (a % 2 ^ 48) n

/-- The sequencer may read every row of a tensor. -/
def State.readableRuns (s : State) (q : SeqId) (t : TD) : Prop := ∀ r ∈ tdRuns t, s.readableSpan q r.1 r.2

/-- The sequencer may write every row of a tensor. -/
def State.writableRuns (s : State) (q : SeqId) (t : TD) : Prop := ∀ r ∈ tdRuns t, s.localSpan q true r.1 r.2

/-- The message that a tensor holds: the bytes of its rows in index order (08 SEC class). -/
def State.messageAt (s : State) (t : TD) : List Byte := (tdRuns t).flatMap (fun r => s.bytesAt r.1 r.2)

/-- Every byte of every local store outside some runs reads as before. -/
def State.sameOutsideRuns (s t : State) (rs : List (Nat × Nat)) : Prop :=
  ∀ a, (∀ r ∈ rs, a < r.1 % 2 ^ 48 ∨ r.1 % 2 ^ 48 + r.2 ≤ a) → t.mem.byte a = s.mem.byte a

/-- The raw elements of a tensor of one row (04.R110). -/
def State.rowRaw (s : State) (t : TD) : List Nat := unpack (tdFmt t) t.eff0 (s.bytesAt t.base (rowLen t))

/-- A tensor's row holds 32-bit elements. -/
def State.rowHolds (s : State) (t : TD) (codes : List Nat) : Prop :=
  s.bytesAt t.base (4 * codes.length) = codes.flatMap (leBytes 4)

/-- Every byte of every local store outside the row of a tensor of one row reads as before. -/
def State.sameOutsideRow (s t : State) (d : TD) : Prop := s.sameOutside t (d.base % 2 ^ 48) (rowLen d)

/-- Two rows share no byte. -/
def rowsApart (d e : TD) : Prop :=
  d.base % 2 ^ 48 + rowLen d ≤ e.base % 2 ^ 48 ∨ e.base % 2 ^ 48 + rowLen e ≤ d.base % 2 ^ 48

/-- The instruction has joined the Mill queue behind what it held, decode has gone on, and the other sequencers keep their
registers (07.R208, 08.R225). -/
def State.joinedMill (s t : State) (q : SeqId) (w : W128) : Prop :=
  (∃ e, (t.seqr q).millQ = (s.seqr q).millQ ++ [e] ∧ e.opcode = wOpcode w ∧ e.pc = (s.seqr q).pc ∧ e.done = donesTo q w) ∧
    Seqr.wentOn (s.seqr q) (t.seqr q) ∧ s.othersKeep t q

/-- The instruction has joined the queue of its mover, decode has gone on, and every sequencer keeps its scalar registers. -/
def State.joinedMover (s t : State) (q : SeqId) (w : W128) : Prop :=
  (∃ e, getN (t.seqr q).moverQ (wMover w) [] = getN (s.seqr q).moverQ (wMover w) [] ++ [e] ∧ e.opcode = wOpcode w ∧
      e.pc = (s.seqr q).pc ∧ e.done = donesTo q w) ∧
    Seqr.wentOn (s.seqr q) (t.seqr q) ∧ s.othersKeep t q ∧ (t.seqr q).s = (s.seqr q).s

/-- The checks of 08.R236 on a LOOM.MVM or MVMT that names engines: planes, formats, classes, the open chain and the extents. -/
structure State.MvChecks (s : State) (c : Fin 64) (w : W128) (t : Bool) (es : List LoomEngine) (tda tdd : TD) : Prop where
  planes : bits (wImm w) 0 3 ≤ 4 ∧ es.length % 2 ^ bits (wImm w) 0 3 = 0
  format : tdFmt tda = (if wFlag w 3 then .a4u else .a8u) ∧ tda.eff1 = tdd.eff1
  classes : (∀ e ∈ es, e.w8 = (es.headD {}).w8) ∧ ¬ (wFlag w 2 = true ∧ (es.headD {}).w8 = true)
  chain : wFlag w 0 = true → s.cores[c].chain = true ∧ s.cores[c].chainT = t ∧ s.cores[c].chainK20 = wFlag w 2 ∧
    s.cores[c].chainW8 = (es.headD {}).w8
  input : tda.ext0 ≤ 2 ^ bits (wImm w) 0 3 * (if t then classOuts (es.headD {}).w8 else 1024)
  output : tdd.ext0 ≤ es.length / 2 ^ bits (wImm w) 0 3 * (if t then 1024 else classOuts (es.headD {}).w8)
  entries : tdd.ext0 * tdd.ext1 ≤ 8192

/-! ### Management requests (18.R457 to R461) -/

/-- The request that a frame spells. -/
def mgReqOf (f : List Byte) : MgReq :=
  { ctr := if 16 ≤ f.length then leAt f 8 8 else 0, cmd := leAt f 0 1, args := (f.drop 0x10).take (leAt f 2 2) }

/-- The management port takes the frame's write, and its request passes every check of 18.R459. -/
structure State.MgPasses (s : State) (f : List Byte) : Prop where
  taken : s.mgNacks f = false
  form : s.frameOk f = true
  known : s.chouse.principal.isSome = true ∨ leAt f 0 1 = 12 ∨ leAt f 0 1 = 1
  signed : s.sigOk (mgReqOf f) f = true
  newer : s.mgmt.ctr < (mgReqOf f).ctr
  args : argsOk (s.boot == .recovery) (mgReqOf f).cmd (mgReqOf f).args = true

/-- The state in which a request that passed executes: the write woke the device, the old response is gone, a signature that
passed ended the run of failures, and the counter is taken. -/
def State.mgTaken (s : State) (f : List Byte) : State :=
  let t : State := { s with latch := { s.latch with nack := false }, mgmt := { s.mgmt with response := none } }
  let t := t.wakeEvent true
  { t with mgmt := { t.mgmt with
    failRun := if (s.sigKey (mgReqOf f)).isSome then 0 else t.mgmt.failRun, ctr := (mgReqOf f).ctr } }

end Sys2Proof.Machine
end

