-- ==== Sys2Proof/Certificates/Slice0/Obligations.lean ====
section
/-!
DEFINITION. The statements for the provers.
-/

open Sys2Proof Sys2Proof.Machine

/-! ### The machine -/

/-- A step runs the command at the front of the queue on the state with the queue's rest. -/
def Obligations.StepRunsFront : Prop :=
  ∀ (c : Instr) (rest : List Instr) (s : State), s.pending = c :: rest → step s = exec c { s with pending := rest }

/-- On an empty queue one microsecond passes: the time since PORST_N and the age clocks advance, each by the aging of its cluster's
temperature (02.R56, 12.R329), the cells age, and nothing else changes. That a step on an empty queue is one microsecond is the
model's choice (assumption 6), and so is the free shift of a junction from its sensor. -/
def Obligations.IdleStep : Prop :=
  ∀ s : State, s.pending = [] → ∃ t, step s = .next t ∧ t.timeUs = s.timeUs + 1 ∧ t.fresh = s.fresh + 8 ∧
    (∀ k : Fin 8, (t.assay.age[k], t.assay.frac[k]) = ageClock s.assay.age[k] s.assay.frac[k] s.assay.rate[k]) ∧
    (∀ k : Fin 8, t.cellClock[k] = s.cellClock[k] + ageStep (s.assay.rate[k] + Config.junctionShift (s.fresh + k.val))) ∧
    t = { s with timeUs := t.timeUs, fresh := t.fresh, cellClock := t.cellClock
                 assay := { s.assay with age := t.assay.age, frac := t.assay.frac } }

/-- Every state whose queue holds well-formed commands goes on: its step answers a state, with the queue's rest, so that the
next step goes on too. The block never stops on a command that its interface admits. -/
def Obligations.StepGoesOn : Prop :=
  ∀ s : State, s.queueOk = true → ∃ t, step s = .next t ∧ t.pending = s.pending.tail ∧ t.queueOk = true

/-- A BURN cannot be undone (08.R246): whatever the block does, every fuse bit burned before a step is burned after it, and
what manufacture fused stays. -/
def Obligations.BurnsStay : Prop :=
  ∀ s t : State, step s = .next t → s.fuses.burnsKept t.fuses ∧ t.fuses.made = s.fuses.made

/-- The machine right after reset: the queue is empty, so that the invariant of StepGoesOn holds there; the stores list nothing,
every byte reads 0 and no granule is poisoned (10.R279); every sparse part is in its canonical form; and no fuse bit is burned
(the model's fresh device, assumption 2). -/
def Obligations.ResetMeetsInvariants : Prop :=
  State.reset.queueOk = true ∧ State.reset.goesOn ∧ State.reset.canonical = true ∧ (∀ a, State.reset.mem.byte a = 0) ∧
    (∀ k n, State.reset.poisoned k n = false) ∧ State.reset.written = [] ∧ State.reset.cells = [] ∧
    State.reset.fuses.svnBits = 0 ∧ State.reset.fuses.revoke = 0 ∧ State.reset.fuses.debugOff = false

/-- Memory and the other sparse parts of the state keep their canonical form: addresses strictly rising, and no entry equal to
what an unlisted one reads as. The form is the model's own (10.R279 says only what an unlisted byte reads as). -/
def Obligations.StepKeepsCanonical : Prop :=
  ∀ s t : State, s.canonical = true → step s = .next t → t.canonical = true

/-! ### The shape table, REFCLK and grants (chapter 01) -/

/-- An update of the shape table begins with the oldest change that waits: SHAPE_GEN becomes odd, the changed fields are
written in the same step, and the other changes go on waiting (01.R21). While an update is open no other begins, and its end makes
SHAPE_GEN even and sets the SHAPE cause (01.R21, R23). The state of the end is one in which no management request waits for it. -/
def Obligations.ShapeUpdates : Prop :=
  (∀ (s : State) (c : ShapeChange) (rest : List ShapeChange), s.updating = false → s.shape.changes = c :: rest →
    ∃ t, exec .shapeUpdateBegin s = .next t ∧ t.updating = true ∧ t.shape.gen = s.shape.gen + 1 ∧
      t.shape.changes = rest ∧
      (match c with
        | .cores cl st => t.shape.coreMap = (s.shape.coreMap &&& ~~~cl) ||| st ∧ t.shape.linkMap = s.shape.linkMap ∧
            t.shape.actCap = s.shape.actCap ∧ t.shape.fabricId = s.shape.fabricId
        | .links cl st => t.shape.linkMap = (s.shape.linkMap &&& ~~~cl) ||| st ∧ t.shape.coreMap = s.shape.coreMap ∧
            t.shape.actCap = s.shape.actCap ∧ t.shape.fabricId = s.shape.fabricId
        | .cap v => t.shape.actCap = v ∧ t.shape.coreMap = s.shape.coreMap ∧ t.shape.linkMap = s.shape.linkMap ∧
            t.shape.fabricId = s.shape.fabricId
        | .fabric m id => t.shape.linkMap = s.shape.linkMap ||| m ∧ t.shape.fabricId = id ∧
            t.shape.coreMap = s.shape.coreMap ∧ t.shape.actCap = s.shape.actCap
        | .coresLinks cl st lcl lst => t.shape.coreMap = (s.shape.coreMap &&& ~~~cl) ||| st ∧
            t.shape.linkMap = (s.shape.linkMap &&& ~~~lcl) ||| lst ∧ t.shape.actCap = s.shape.actCap ∧
            t.shape.fabricId = s.shape.fabricId) ∧
      s.sameBytes t ∧ t.plies = s.plies ∧ t.port = s.port) ∧
  (∀ s : State, s.updating = true → exec .shapeUpdateBegin s = .next s ∧
    (s.mgmt.waiting = none → ∃ t, exec .shapeUpdateComplete s = .next t ∧ t.updating = false ∧
      t.shape = { s.shape with gen := s.shape.gen + 1 } ∧ t.port.irqStatus = s.port.irqStatus ||| BitVec.ofNat 8 (2 ^ IRQ_SHAPE) ∧
      t.cores = s.cores ∧ s.sameBytes t))

/-- The absence and return of REFCLK (01.R32): its stop makes it absent and unlocked, and once the service firmware runs it
abandons what integrates and sets the CLK cause; 100 us later it is lost, and the links are down; its return makes it present, and
the frames that waited go; the delay lines lock after it has returned, and the Loom queues go on. -/
def Obligations.RefclkEvents : Prop :=
  ∀ s : State,
    (let u : State := { s with refclk := { s.refclk with present := false, locked := false } }
     s.refclk.present = true → (s.boot ≠ .service → exec .refclkStop s = .next u) ∧
      (s.boot = .service → exec .refclkStop s = .next ((u.abandonLooms.pumpCores).raiseIrq IRQ_CLK) ∧ s.sameBytes u.abandonLooms ∧
        ∀ c : Fin 64, ∀ i ∈ u.abandonLooms.cores[c].loomQ, i.phase ≠ .integrating)) ∧
    (s.refclk.present = false → exec .refclkStop s = .next s) ∧
    (s.refclk.present = false → s.refclk.lost = false → s.boot = .service → ∃ t, exec .refclkLost s = .next t ∧
      t.refclk.lost = true ∧ (∀ n : Fin 4, t.fabric.links[n].st = .down) ∧ s.sameBytes t) ∧
    (s.boot ≠ .selfTest → exec .refclkReturn s =
      .next (({ s with refclk := { s.refclk with present := true, lost := false } } : State).flushLinks)) ∧
    (s.refclk.present = true → exec .delayLineRelock s =
      .next (({ s with refclk := { s.refclk with locked := true } } : State).pumpCores))

/-- A request at the head of the activity cap's queue is granted when engines may start and it fits, and the instruction that
asked starts; the next request then heads the queue. It is never granted in part, nor before the engines may start: then the
command changes nothing. The programming budget grants the same way (01.R27, R32, 11.R314, 16.R415, R416). -/
def Obligations.GrantsWhole : Prop :=
  ∀ (s : State) (g : GrantReq) (rest : List GrantReq),
    (s.engineReady = true → s.capWait = g :: rest → s.capFits g = true →
      exec .actCapGrant s =
        .next ((({ s with capWait := rest, capHeld := s.capHeld ++ [g] } : State).granted g).pump (coreIx g.core))) ∧
    (s.engineReady = true → s.progWait = g :: rest → s.progFits g = true →
      exec .programmingBudgetGrant s =
        .next ((({ s with progWait := rest, progHeld := s.progHeld ++ [g] } : State).granted g).pump (coreIx g.core))) ∧
    (s.capWait = g :: rest →
      (s.capFits g = false ∨ s.refclk.present = false ∨ s.refclk.locked = false ∨ s.power.inTrip = true ∨ s.power.cur ≠ 0) →
      exec .actCapGrant s = .next s)

/-! ### LOOM (chapters 02, 03, 08) -/

/-- LOOM words whose checks pass join the core's Loom queue behind what it held, with their operands, engines and flags, and decode
goes on; the decode writes no store, and the queue goes on by itself (07.R208, 08.R234 to R240). LOOM.PLY on a core whose Loom queue
is empty sets the ply of record of each engine of its mask to the engine's field, and that of no other engine (08.R238). -/
def Obligations.LoomRows : Prop :=
  ∀ (c : Fin 64) (w : W128) (s : State), s.Takes (.core c) w →
    let joins (i : Instr) (p : LoomInstr → Prop) : Prop :=
      ∃ (v : State) (x : LoomInstr), exec i s =
          .next (((v.updCore c (fun k => { k with loomQ := k.loomQ ++ [x] })).pump c).updSeqr (.core c)
            (fun r => r.advance (s.seqr (.core c)).pc .next)) ∧
        v.cores[c].loomQ = s.cores[c].loomQ ∧ v.mem = s.mem ∧ x.phase = .queued ∧ x.noop = false ∧
        x.q.pc = (s.seqr (.core c)).pc ∧ x.q.opcode = wOpcode w ∧ x.q.done = donesTo (.core c) w ∧ p x
    s.cores[c].loomQ.length < 8 →
    (∀ p ∈ [(Instr.loomMvm (.core c) w, LoomKind.mvm, false), (.loomMvmt (.core c) w, .mvmt, true)], p.1.wordOk = true →
      (bit (wImm w) 20 = true → ∀ i ∈ s.cores[c].loomQ, i.kind = .ply → i.phase = .done) → bits (wImm w) 40 8 = 0xFF →
      ∀ tdd tda, s.Names (.core c) (wTdd w) true tdd → s.Names (.core c) (wTda w) false tda →
      tdEmpty tdd = false → tdEmpty tda = false →
      s.enginesOf c w ≠ [] → s.MvChecks c w p.2.2 (s.enginesOf c w) tda tdd →
      joins p.1 (fun x => x.kind = p.2.1 ∧ x.acc = wFlag w 0 ∧ x.hold = wFlag w 1 ∧ x.k20 = wFlag w 2 ∧ x.a4 = wFlag w 3 ∧
        x.engines = s.enginesOf c w ∧ x.ks = 2 ^ bits (wImm w) 0 3 ∧ x.tdd = tdd ∧ x.tda = tda ∧ x.psh = bits (wImm w) 17 3)) ∧
    (∀ p ∈ [(Instr.loomProg (.core c) w, LoomKind.prog, wForm w == 1), (.loomVerify (.core c) w, .verify, false)],
      p.1.wordOk = true → ∀ tda, s.Names (.core c) (wTda w) false tda →
      let es := s.maskAt c w (bits (wImm w) 45 3)
      tdFmt tda = .int8 → tda.ext0 = 512 → tda.eff1 = bits (wImm w) 24 11 → tda.eff2 = es.length →
      bits (wImm w) 35 10 + bits (wImm w) 24 11 ≤ 1024 → tdEmpty tda = false →
      joins p.1 (fun x => x.kind = p.2.1 ∧ x.w8 = p.2.2 ∧ x.engines = es ∧ x.tda = tda ∧ x.row0 = bits (wImm w) 35 10 ∧
        x.nrow = bits (wImm w) 24 11)) ∧
    ((Instr.loomProbe (.core c) w).wordOk = true → ∀ tdd, s.Names (.core c) (wTdd w) true tdd →
      tdFmt tdd = .int32 → tdd.eff1 = (s.maskAt c w (bits (wImm w) 45 3)).length → bits (wImm w) 0 8 ≠ 0 → tdEmpty tdd = false →
      joins (.loomProbe (.core c) w) (fun x => x.kind = .probe ∧ x.engines = s.maskAt c w (bits (wImm w) 45 3) ∧ x.tdd = tdd ∧
        x.rep = bits (wImm w) 0 8)) ∧
    ((Instr.loomPly (.core c) w).wordOk = true → s.cores[c].loomQ = [] →
      ∃ t, exec (.loomPly (.core c) w) s = .next t ∧
        (∀ e : Fin 16, t.cores[c].engines[e].ofRecord =
          if bit (wFlags w) e.val then bits (wImm w) (3 * e.val) 3 else s.cores[c].engines[e].ofRecord) ∧
        (∀ d : Fin 64, d ≠ c → t.cores[d] = s.cores[d]) ∧
        Seqr.wentOn (s.seqr (.core c)) (t.seqr (.core c)) ∧ s.sameBytes t ∧ t.plies = s.plies ∧ t.cells = s.cells)

/-- The conversions of a core (03.R82, R87, R93, R101, R106). The end of the last window of the instruction that integrates
releases the core's grant; an engine's drain hands over the partial of the first instruction that has an ended window the engine
has not drained; a plane sum sums the next vector that every engine has drained. With none the command changes nothing. -/
def Obligations.ConversionPipeline : Prop :=
  ∀ (c : Fin 64) (e : Fin 16) (s : State),
    (∀ i, s.integratingMv c = some i → s.loomOf c i.q.uid = some i → i.windows + 1 = i.vecs.length →
      ∃ u, exec (.integrationWindowEnd c) s = .next (u.pump c) ∧ (∀ g ∈ u.capHeld, g.core ≠ c.val) ∧
        (∃ x ∈ u.cores[c].loomQ, x.q.uid = i.q.uid ∧ x.windows = i.windows + 1 ∧ x.phase = .converting) ∧ s.sameBytes u) ∧
    (∀ uid n v, nextDrain s.cores[c].loomQ e.val = some (uid, n, v) →
      exec (.drain c e) s = .next ((s.runLoom c uid (drainBody c n v)).idleEngine c e.val)) ∧
    (nextDrain s.cores[c].loomQ e.val = none → exec (.drain c e) s = .next s) ∧
    (∀ i, nextSum s.cores[c].loomQ = some i →
      exec (.planeSum c) s = .next ((s.runLoom c i.q.uid (planeSumBody c)).pump c)) ∧
    (nextSum s.cores[c].loomQ = none → exec (.planeSum c) s = .next s)

/-! ### MILL (chapters 06, 08) -/

/-- A single-element MILL.VEC without a chain writes its result into RD: the operation on the scalar registers that the word
names, an integer result sign-extended and a float result in FP32. No other scalar register and no byte of any store changes,
and the entry waits in the Mill queue, which was empty, for its completion (06.R167, R169, 08.R243). -/
def Obligations.MillVecScalar : Prop :=
  ∀ (q : SeqId) (w : W128) (s : State), s.MillTakes q w → singleElement w = true → wOp w = 1 →
    bits (wImm w) 40 8 = 0xFF →
    ∀ i ∈ [Instr.millVecAdd q w, .millVecSub q w, .millVecMul q w, .millVecFma q w, .millVecDiv q w, .millVecSqrt q w,
      .millVecMax q w, .millVecMin q w, .millVecAbs q w, .millVecNeg q w, .millVecCmp q w, .millVecSel q w, .millVecCvt q w,
      .millVecIadd q w, .millVecIsub q w, .millVecImul q w, .millVecShl q w, .millVecShr q w, .millVecAnd q w,
      .millVecOr q w, .millVecXor q w], i.wordOk = true →
      ∃ t, exec i s = .next t ∧
        (t.seqr q).s = updN (s.seqr q).s (bits (wImm w) 20 5) (fun _ => vecScalarWord q w (s.seqr q)) ∧
        (∃ e, (t.seqr q).millQ = (s.seqr q).millQ ++ [e] ∧ e.opcode = wOpcode w ∧ e.pc = (s.seqr q).pc ∧ e.done = donesTo q w) ∧
        Seqr.wentOn (s.seqr q) (t.seqr q) ∧ Seqr.sameSpecial (s.seqr q) (t.seqr q) ∧ s.othersKeep t q ∧ s.sameBytes t

/-- MILL.MATMUL of one INT8 row by one INT8 row, TB 1, without a chain: the row of D holds the sum of the products, rescaled by the
static M and S that RSN names, rounded and saturated to INT32; no byte outside it changes (05.R150, 06.R160 to R166, 08.R241). -/
def Obligations.MillMatmulRow : Prop :=
  ∀ (c : Fin 64) (w : W128) (s : State) (d a b : TD), s.MillTakes (.core c) w → (Instr.millMatmul (.core c) w).wordOk = true →
    wFlag w 0 = false → wFlag w 1 = false → wFlag w 2 = true → wFlag w 3 = false → bits (wImm w) 40 8 = 0xFF →
    bit (wImm w) 11 = false → s.Names (.core c) (wTdd w) true d → s.Names (.core c) (wTda w) false a →
    s.Names (.core c) (wTdb w) false b → OneRow d → OneRow a → OneRow b → d.format = 3 → d.eff0 = 1 →
    a.format = 2 → b.format = 2 → a.ext0 = b.ext0 → a.ext1 = 1 → b.ext1 = 1 → a.eff0 = b.eff0 → a.eff0 ≤ 1024 →
    s.readableSpan (.core c) a.base (rowLen a) → s.readableSpan (.core c) b.base (rowLen b) →
    s.localSpan (.core c) true d.base (rowLen d) →
    let ms := getN s.cores[c].qz.rs (bits (wImm w) 8 3) (0, 0)
    let sum : Int := (List.zipWith (fun x y => signed 8 x * signed 8 y) (s.rowRaw a) (s.rowRaw b)).sum
    ∃ t, exec (.millMatmul (.core c) w) s = .next t ∧
      t.rowHolds d [(toInt .int32 0 (.val ((sum : Rat) * (ms.1 : Rat) * pow2 (-(ms.2 : Int))))).1] ∧
      s.sameOutsideRow t d ∧ s.joinedMill t (.core c) w ∧ t.cores[c].seq.s = s.cores[c].seq.s

/-- MILL.RED of one INT32 row into RD, without part records: SUM and SUMSQ are the exact sums rounded to FP32, MEANVAR has the mean
in the low half and the variance in the high half, MAX, MIN and ABSMAX are exact; no sum leaves 48 bits. MERGE of RAW records writes
the merged record. No byte outside the destination changes (06.R170 to R173, R175, 08.R244). -/
def Obligations.MillRedRows : Prop :=
  ∀ (c : Fin 64) (w : W128) (s : State) (a : TD), s.MillTakes (.core c) w → wFlag w 3 = false →
    s.Names (.core c) (wTda w) false a → OneRow a → a.format = 3 → s.readableSpan (.core c) a.base (rowLen a) →
    let xs : List Int := (s.rowRaw a).map (signed 32)
    let n : Rat := (xs.length : Nat)
    let s1 : Rat := (xs.sum : Int)
    let s2 : Rat := ((xs.map (fun x => x * x)).sum : Int)
    let word (v : Machine.Num) : Nat := fp32Bits (fp32 (fp32 v))
    let rd (i : Instr) (v : Nat) : Prop := i.wordOk = true → ∃ t, exec i s = .next t ∧
      t.cores[c].seq.s = updN s.cores[c].seq.s (bits (wImm w) 20 5) (fun _ => BitVec.ofNat 64 v) ∧ s.sameBytes t ∧
      s.joinedMill t (.core c) w
    (wFlag w 4 = true → bits (wFlags w) 1 2 = 0 →
      ((xs.map (fun x => x * x)).sum < 2 ^ 47 →
        rd (.millRedSum (.core c) w) (word (.val s1)) ∧ rd (.millRedSumsq (.core c) w) (word (.val s2)) ∧
        rd (.millRedMeanvar (.core c) w) (word (divN (.val s1) (.val n)).1 +
          word (divN (.val (if n * s2 - s1 * s1 < 0 then 0 else n * s2 - s1 * s1)) (.val (n * n))).1 * 2 ^ 32)) ∧
      (∀ m ∈ xs, (∀ x ∈ xs, x ≤ m) → rd (.millRedMax (.core c) w) (fp32Bits (fp32 (.val (m : Rat))))) ∧
      (∀ m ∈ xs, (∀ x ∈ xs, m ≤ x) → rd (.millRedMin (.core c) w) (fp32Bits (fp32 (.val (m : Rat))))) ∧
      (∀ m ∈ xs, (∀ x ∈ xs, x.natAbs ≤ m.natAbs) →
        rd (.millRedAbsmax (.core c) w) (fp32Bits (fp32 (.val (m.natAbs : Rat)))))) ∧
    (∀ d, s.Names (.core c) (wTdd w) true d → OneRow d → d.format = 3 → d.eff0 = 4 →
      s.localSpan (.core c) true d.base 16 → wFlag w 4 = false → bits (wFlags w) 1 2 = 1 → a.ext0 = a.eff0 → a.ext0 % 4 = 0 →
      8 ≤ a.ext0 → a.ext0 ≤ 32 →
      let k := mergeRaw ((parts (s.bytesAt a.base (rowLen a)) (a.eff0 / 4)).map parseRaw)
      k.n ≠ 0 → k.sat = false → (Instr.millRedMerge (.core c) w).wordOk = true →
      ∃ t, exec (.millRedMerge (.core c) w) s = .next t ∧ t.bytesAt d.base 16 = rawRecord k 0 ∧ s.sameOutsideRow t d ∧
        s.joinedMill t (.core c) w)

/-- MILL.SORT orders the keys of a row, with NaN keys after all others and equal keys in the order they stood, and carries the
payloads along; MILL.TOPK without MERGE gives the K best values with their indices, in order, and fills the slots that stay empty
(06.R179, R180). No byte outside the two destination rows changes. The order that SORT uses puts no key before one that comes before
it. -/
def Obligations.MillSortRows : Prop :=
  (∀ (c : Fin 64) (w : W128) (s : State) (d a e : TD), s.MillTakes (.core c) w →
    s.Names (.core c) (wTdd w) true d → s.Names (.core c) (wTda w) false a →
    s.Names (.core c) (wTdc w) true e → OneRow d → OneRow a → OneRow e → d.format = 8 → a.format = 8 → e.format = 3 →
    d.eff0 = e.eff0 → s.readableSpan (.core c) a.base (rowLen a) → s.localSpan (.core c) true d.base (rowLen d) →
    s.localSpan (.core c) true e.base (rowLen e) → rowsApart d e →
    let holds (i : Instr) (ps : List (Machine.Num × Nat)) : Prop := ∃ t, exec i s = .next t ∧
      t.rowHolds d (ps.map (fun p => fp32Bits p.1)) ∧ t.rowHolds e (ps.map (fun p => p.2)) ∧
      (∀ x, x < d.base % 2 ^ 48 ∨ d.base % 2 ^ 48 + rowLen d ≤ x → x < e.base % 2 ^ 48 ∨ e.base % 2 ^ 48 + rowLen e ≤ x →
        t.mem.byte x = s.mem.byte x) ∧ s.joinedMill t (.core c) w ∧ t.cores[c].seq.s = s.cores[c].seq.s
    (∀ b, s.Names (.core c) (wTdb w) false b → OneRow b → b.format = 3 → s.readableSpan (.core c) b.base (rowLen b) →
      a.eff0 = d.eff0 → b.eff0 = d.eff0 → a.ext0 ≤ 4096 → (Instr.millSort (.core c) w).wordOk = true →
      holds (.millSort (.core c) w) (sortBy (keyBefore (wForm w == 1))
        (((s.rowRaw a).map (fun v => fp32 (ofFp32 v))).zip (s.rowRaw b)))) ∧
    (wFlag w 1 = false → d.eff0 = bits (wImm w) 0 9 → bits (wImm w) 0 9 ≤ 256 → (Instr.millTopk (.core c) w).wordOk = true →
      holds (.millTopk (.core c) w) (topOf (wFlag w 0) (bits (wImm w) 0 9)
        ((s.rowRaw a).mapIdx (fun i v => (ofFp32 v, i % 2 ^ 32)))))) ∧
  (∀ (desc : Bool) (ps : List (Machine.Num × Nat)), (sortBy (keyBefore desc) ps).Perm ps ∧
    (sortBy (keyBefore desc) ps).Pairwise (fun x y => keyBefore desc y x = false))

/-- MILL.RNG without ENTROPY writes the Philox words of its key and counter into a row, as integers or as fractions of their high 24
bits (06.R184). MILL.WALK over a trie whose root has no edges emits each input byte as a byte token, the position after the last in
RD and the count in the actual length (06.R181 to R183). -/
def Obligations.MillRngWalkRows : Prop :=
  ∀ (c : Fin 64) (w : W128) (s : State) (d : TD), s.MillTakes (.core c) w → s.Names (.core c) (wTdd w) true d → OneRow d →
    s.localSpan (.core c) true d.base (rowLen d) →
    let r := s.cores[c].seq
    (let rk := bits (wImm w) 43 5
     let rc := bits (wImm w) 38 5
     let key := (r.scalar rk).toNat % 2 ^ 32 + (r.scalar (rk + 1)).toNat % 2 ^ 32 * 2 ^ 32
     let ctr := (r.scalar rc).toNat + (r.scalar (rc + 1)).toNat * 2 ^ 64
     (Instr.millRng (.core c) w).wordOk = true → wFlag w 0 = false → rk % 2 = 0 → rc % 2 = 0 →
     d.format = (if wForm w = 1 then 8 else 3) →
     ∃ t, exec (.millRng (.core c) w) s = .next t ∧
       t.rowHolds d ((List.range d.eff0).map (fun i =>
         let v := philoxWord key ((ctr + i / 4) % 2 ^ 128) i
         if wForm w = 1 then fp32Bits (.val ((v / 2 ^ 8 : Nat) * pow2 (-24))) else v)) ∧
       s.sameOutsideRow t d ∧ s.joinedMill t (.core c) w ∧ t.cores[c].seq.s = r.s) ∧
    (∀ a b, s.Names (.core c) (wTda w) false a → s.Names (.core c) (wTdb w) false b → OneRow a →
      fmtBits (tdFmt a) = 8 → s.readableSpan (.core c) a.base (rowLen a) → bit b.stream 7 = false → tdNone b = false →
      8 ≤ tdSpan b → s.readableSpan (.core c) b.base 8 → d.format = 3 → a.eff0 ≤ d.eff0 → (Instr.millWalk (.core c) w).wordOk = true →
      let root := leNat (s.bytesAt b.base 8)
      bits root 31 9 = 0 → 8 * bits (wImm w) 24 24 + 4 * bits root 40 24 ≤ tdSpan b →
      ∃ t, exec (.millWalk (.core c) w) s = .next t ∧
        t.rowHolds d ((s.rowRaw a).map (fun v => (r.scalar (bits (wImm w) 11 5)).toNat % 2 ^ 24 + v)) ∧
        t.cores[c].seq.s = updN r.s (bits (wImm w) 16 5) (fun _ => BitVec.ofNat 64 a.eff0) ∧
        t.cores[c].seq.al = updN r.al (bits (wImm w) 21 3) (fun _ => BitVec.ofNat 32 a.eff0) ∧
        s.sameOutside t (d.base % 2 ^ 48) (4 * a.eff0))

/-- MILL.TABLE LOAD takes a table image whose LO and HI are finite and in order, and leaves the table as it is, with MILL_PAIR, when
they are not (06.R176). EVAL of an FP32 row writes the value of the table at each element, under CLAMP and EXP2 (06.R176, R177). -/
def Obligations.MillTableRows : Prop :=
  ∀ (c : Fin 64) (w : W128) (s : State) (a : TD), s.MillTakes (.core c) w → s.Names (.core c) (wTda w) false a →
    let n := bits (wImm w) 0 2
    ((Instr.millTableLoad (.core c) w).wordOk = true → s.tableBusy (.core c) n = false → tdEmpty a = false →
      bit a.stream 7 = false → s.readableSpan (.core c) a.base 2056 →
      let tab := parseTable (s.bytesAt a.base 2056)
      (tableOk tab = true → ∃ t, exec (.millTableLoad (.core c) w) s = .next t ∧
        t.cores[c].mill.tables = updN s.cores[c].mill.tables n (fun _ => some tab) ∧ s.sameBytes t ∧
        s.joinedMill t (.core c) w ∧ t.cores[c].seq.s = s.cores[c].seq.s) ∧
      (tableOk tab = false → ∃ t, exec (.millTableLoad (.core c) w) s = .next t ∧ t.cores[c].seq.faulted = true ∧
        t.cores[c].seq.fault0.toNat % 2 ^ 16 = MILL_PAIR ∧ t.cores[c].mill.tables = s.cores[c].mill.tables ∧ s.sameBytes t)) ∧
    (∀ d, s.Names (.core c) (wTdd w) true d → OneRow d → OneRow a → d.format = 8 → a.format = 8 → a.eff0 = d.eff0 →
      s.readableSpan (.core c) a.base (rowLen a) → s.localSpan (.core c) true d.base (rowLen d) →
      (Instr.millTableEval (.core c) w).wordOk = true →
      ∃ t, exec (.millTableEval (.core c) w) s = .next t ∧
        t.rowHolds d ((s.rowRaw a).map (fun v =>
          fp32Bits (tableEval (getN s.cores[c].mill.tables n none) (wFlag w 0) (wFlag w 1) (fp32 (ofFp32 v))).1)) ∧
        s.sameOutsideRow t d ∧ s.joinedMill t (.core c) w ∧ t.cores[c].seq.s = s.cores[c].seq.s)

/-! ### SEQ (chapters 07, 08, 09) -/

/-- SEQ.SET works on 64-bit scalar registers with wrap-around arithmetic, IMM32 sign-extended: the seven forms with a destination
write RD, CMP and CMPI write SQ_FLAGS.CMP as 1 or 0, GETAL reads an actual length zero-extended and SETAL writes one. Every other
scalar register, the special registers that the form does not write, every byte of memory and, where the word names no DONE counter,
every other flag stay; decode goes on by the loop-end step (08.R227). -/
def Obligations.SeqSetRules : Prop :=
  ∀ (q : SeqId) (w : W128) (s : State), s.Takes q w →
    let r := s.seqr q
    let a := r.scalar (wordBits w 38 5)
    let b := r.scalar (wordBits w 33 5)
    let imm : W64 := (BitVec.ofNat 32 (wordBits w 0 32)).signExtend 64
    let holds (x y : W64) : Bool := match wFlags w % 4 with
      | 0 => decide (x = y)
      | 1 => decide (x.toInt < y.toInt)
      | 2 => decide (x.toNat < y.toNat)
      | _ => decide (x.toInt ≤ y.toInt)
    (∀ p ∈ [(Instr.seqSetMovi q w, imm), (.seqSetAdd q w, a + b), (.seqSetAddi q w, a + imm), (.seqSetSub q w, a - b),
      (.seqSetMin q w, if b.toInt < a.toInt then b else a), (.seqSetMax q w, if a.toInt < b.toInt then b else a),
      (.seqSetGetal q w, (getN r.al (wordBits w 0 3) 0).setWidth 64)], p.1.wordOk = true →
      ∃ t, exec p.1 s = .next t ∧ (t.seqr q).s = updN r.s (wordBits w 43 5) (fun _ => p.2) ∧
        Seqr.wentOn r (t.seqr q) ∧ Seqr.sameSpecial r (t.seqr q) ∧ s.othersKeep t q ∧ s.sameBytes t ∧
        (wDoneEn w = false → (t.seqr q).flags = r.flags)) ∧
    (∀ p ∈ [(Instr.seqSetCmp q w, holds a b), (.seqSetCmpi q w, holds a imm)], p.1.wordOk = true →
      ∃ t, exec p.1 s = .next t ∧ (t.seqr q).flags.getLsbD FLAG_CMP = p.2 ∧
        (wDoneEn w = false → ∀ f, f ≠ FLAG_CMP → (t.seqr q).flags.getLsbD f = r.flags.getLsbD f) ∧
        (t.seqr q).s = r.s ∧ Seqr.wentOn r (t.seqr q) ∧ Seqr.sameSpecial r (t.seqr q) ∧ s.othersKeep t q ∧ s.sameBytes t) ∧
    ((Instr.seqSetSetal q w).wordOk = true →
      ∃ t, exec (.seqSetSetal q w) s = .next t ∧ (t.seqr q).al = updN r.al (wordBits w 0 3) (fun _ => a.setWidth 32) ∧
        (t.seqr q).s = r.s ∧ (t.seqr q).tdBase = r.tdBase ∧ (t.seqr q).faulted = r.faulted ∧
        (t.seqr q).fault0 = r.fault0 ∧ (t.seqr q).fault1 = r.fault1 ∧ (wDoneEn w = false → (t.seqr q).flags = r.flags) ∧
        Seqr.wentOn r (t.seqr q) ∧ s.othersKeep t q ∧ s.sameBytes t)

/-- SEQ.LOOP opens a body: with a count that is not 0 an entry enters the loop stack and decode goes on in the body; with the
count 0 the body is skipped and the loop-end step of its END is taken. A LOOP that would be the fifth open one raises SEQ_LOOP_DEPTH,
one whose END is not after it or lies outside the image SEQ_PC_RANGE, one whose END lies beyond the enclosing loop's SEQ_LOOP_NEST:
decode stops with the code recorded (07.R196, R217, R218, 08.R225). -/
def Obligations.SeqLoopRules : Prop :=
  (∀ (q : SeqId) (w : W128) (s : State), s.Takes q w → (Instr.seqLoop q w).wordOk = true →
    let r := s.seqr q
    let last := wordBits w 32 12
    let n := if wFlag w 0 then (r.scalar (wordBits w 0 5)).toNat % 2 ^ 32 else wordBits w 0 32
    r.pc < last → last < r.codeLen → r.loops.length < 4 → (∀ e ∈ r.loops.head?, last ≤ e.last) →
    ∃ t, exec (.seqLoop q w) s = .next t ∧
      (n ≠ 0 → (t.seqr q).pc = r.pc + 1 ∧
        (t.seqr q).loops = { first := (r.pc + 1) % 4096, last := last, remaining := n } :: r.loops) ∧
      (n = 0 → (t.seqr q).pc = (loopEnd last r.loops).1 ∧ (t.seqr q).loops = (loopEnd last r.loops).2) ∧
      (t.seqr q).s = r.s ∧ Seqr.sameSpecial r (t.seqr q) ∧ s.othersKeep t q ∧ s.sameBytes t) ∧
  (∀ (q : SeqId) (w : W128) (s : State), s.Takes q w → (Instr.seqLoop q w).wordOk = true →
    let r := s.seqr q
    let last := wordBits w 32 12
    ∀ code, ((last ≤ r.pc ∨ r.codeLen ≤ last) ∧ code = SEQ_PC_RANGE ∨
        (r.pc < last ∧ last < r.codeLen ∧ (∃ e ∈ r.loops.head?, e.last < last)) ∧ code = SEQ_LOOP_NEST ∨
        (r.pc < last ∧ last < r.codeLen ∧ (∀ e ∈ r.loops.head?, last ≤ e.last) ∧ 4 ≤ r.loops.length) ∧ code = SEQ_LOOP_DEPTH) →
      ∃ t, exec (.seqLoop q w) s = .next t ∧ (t.seqr q).faulted = true ∧ (t.seqr q).pc = r.pc ∧
        (t.seqr q).fault0 = BitVec.ofNat 64 (wOpcode w % 65536 * 2 ^ 32 + r.pc % 4096 * 2 ^ 16 + code) ∧
        t.decodes q = false ∧ (t.seqr q).s = r.s)

/-- SEQ.BR waits for the queues of its mask, tests the flags of TEST, and branches unconditionally with TEST 0, else when one
is 1, or with NEG when none is; with CLR the tested flags are cleared whether or not it branches. BREAK pops the innermost loop
only when it branches (07.R195, 08.R226). -/
def Obligations.SeqBranches : Prop :=
  ∀ (q : SeqId) (w : W128) (s : State), s.Takes q w →
    s.inQueues q (wFlags w / 2 ^ 8 % 64) = [] →
    let r := s.seqr q
    let target := wordBits w 0 12
    let test := BitVec.ofNat 6 (wFlags w)
    let taken : Prop := test = 0 ∨ (if wFlag w 6 then r.flags &&& test = 0 else r.flags &&& test ≠ 0)
    target < r.codeLen →
    ((Instr.seqBrJump q w).wordOk = true → (∀ e ∈ r.loops.head?, e.first ≤ target ∧ target ≤ e.last) →
      ∃ t, exec (.seqBrJump q w) s = .next t ∧ (taken → (t.seqr q).pc = target ∧ (t.seqr q).loops = r.loops) ∧
        (¬ taken → Seqr.wentOn r (t.seqr q)) ∧ (t.seqr q).s = r.s ∧ s.othersKeep t q ∧ s.sameBytes t ∧
        (wDoneEn w = false → (t.seqr q).flags = if wFlag w 7 then r.flags &&& ~~~test else r.flags)) ∧
    (∀ e es, (Instr.seqBrBreak q w).wordOk = true → r.loops = e :: es → e.last < target →
      ∃ t, exec (.seqBrBreak q w) s = .next t ∧ (taken → (t.seqr q).pc = target ∧ (t.seqr q).loops = es) ∧
        (¬ taken → Seqr.wentOn r (t.seqr q)) ∧ (t.seqr q).s = r.s ∧ s.othersKeep t q ∧ s.sameBytes t ∧
        (wDoneEn w = false → (t.seqr q).flags = if wFlag w 7 then r.flags &&& ~~~test else r.flags))

/-- SEQ.NOP only goes on. SEQ.JOIN waits until the sequencer's queues and sync buffer are empty, and with END a core's part of
its job is over (07.R197, R199). -/
def Obligations.SeqNopAndJoin : Prop :=
  ∀ (q : SeqId) (w : W128) (s : State), s.Takes q w →
    ((Instr.seqNop q w).wordOk = true → ∃ t, exec (.seqNop q w) s = .next t ∧ Seqr.wentOn (s.seqr q) (t.seqr q) ∧
      (t.seqr q).s = (s.seqr q).s ∧ Seqr.sameSpecial (s.seqr q) (t.seqr q) ∧ s.othersKeep t q ∧ s.sameBytes t) ∧
    ((Instr.seqJoin q w).wordOk = true → s.drained q = true → ∃ t, exec (.seqJoin q w) s = .next t ∧
      Seqr.wentOn (s.seqr q) (t.seqr q) ∧ (t.seqr q).s = (s.seqr q).s ∧ s.othersKeep t q ∧ s.sameBytes t ∧
      (t.seqr q).ended = ((s.seqr q).ended || (wFlag w 0 && decide (q ≠ .house)))) ∧
    ((Instr.seqJoin q w).wordOk = true → s.drained q = false → exec (.seqJoin q w) s = .next s)

/-- The Tally of a core whose job owns it: OPEN opens it with count and operation number and clears its map, and a second OPEN
of the same operation with the same count changes nothing; FETCH gives the next tile index into RD; DONE marks an index; RESET starts
the indices again (08.R228, 09.R255, R256). A core that finds no tile, its Tally not its job's, closed or used up, or its own bit
clear, sets SQ_FLAGS.EMPTY and writes no register (09.R255, R260). -/
def Obligations.TallyRules : Prop :=
  (∀ (c : Fin 64) (w : W128) (s : State), s.Takes (.core c) w → s.ownTally (.core c) = some (clusterOf c) →
    let r := s.cores[c].seq
    let y := s.clusters[clusterOf c].tally
    let n := (r.scalar (wordBits w 38 5)).toNat % 2 ^ 32
    let o := (r.scalar (wordBits w 33 5)).toNat % 2 ^ 16
    ((Instr.seqTallyOpen (.core c) w).wordOk = true → n ≤ 65536 → (y.open_ = false ∨ y.opnum ≠ o) →
      ∃ t, exec (.seqTallyOpen (.core c) w) s = .next t ∧ t.clusters[clusterOf c].tally =
        { y with open_ := true, opnum := o, count := n, next := 0, ndone := 0, map := [] } ∧ s.sameBytes t) ∧
    ((Instr.seqTallyOpen (.core c) w).wordOk = true → n ≤ 65536 → y.open_ = true → y.opnum = o → y.count = n →
      ∃ t, exec (.seqTallyOpen (.core c) w) s = .next t ∧ t.clusters[clusterOf c].tally = y) ∧
    ((Instr.seqTallyFetch (.core c) w).wordOk = true → y.open_ = true → y.next < y.count → s.coreBit c.val = true →
      ∃ t, exec (.seqTallyFetch (.core c) w) s = .next t ∧ t.clusters[clusterOf c].tally = { y with next := y.next + 1 } ∧
        t.cores[c].seq.s = updN r.s (wordBits w 43 5) (fun _ => BitVec.ofNat 64 y.next) ∧ s.sameBytes t) ∧
    ((Instr.seqTallyDone (.core c) w).wordOk = true → y.open_ = true → n < y.count → NatMap.get false y.map n = false →
      ∃ t, exec (.seqTallyDone (.core c) w) s = .next t ∧ s.sameBytes t ∧
        t.clusters[clusterOf c].tally = { y with map := NatMap.put false y.map n true, ndone := y.ndone + 1 }) ∧
    ((Instr.seqTallyReset (.core c) w).wordOk = true →
      ∃ t, exec (.seqTallyReset (.core c) w) s = .next t ∧ s.sameBytes t ∧ t.clusters[clusterOf c].tally =
        { y with next := 0, resets := if y.open_ then min (y.resets + 1) 0xFFFF else y.resets })) ∧
  (∀ (c : Fin 64) (w : W128) (s : State), s.Takes (.core c) w → (Instr.seqTallyFetch (.core c) w).wordOk = true →
    let y := s.clusters[clusterOf c].tally
    (s.ownTally (.core c) = none ∨ y.open_ = false ∨ y.count ≤ y.next ∨ s.coreBit c.val = false) →
    ∃ t, exec (.seqTallyFetch (.core c) w) s = .next t ∧ t.cores[c].seq.flags.getLsbD FLAG_EMPTY = true ∧
      t.cores[c].seq.s = s.cores[c].seq.s ∧ t.clusters[clusterOf c].tally = y ∧ s.sameBytes t)

/-! ### SYNC (chapters 07, 08) -/

/-- SIGNAL and ADD enter the sync buffer behind what it holds, with what their masked queues still hold, and decode goes on; no
counter changes yet (07.R210, R214). -/
def Obligations.SyncEntersBuffer : Prop :=
  ∀ (q : SeqId) (w : W128) (s : State), s.Takes q w → (s.seqr q).syncBuf.length < 8 →
    let r := s.seqr q
    let idx := if wFlag w 8 then (r.scalar (wordBits w 32 5)).toNat % 2 ^ 16 else wordBits w 32 16
    let v := if wFlag w 9 then signed 32 (r.scalar (wordBits w 16 5)).toNat else signed 16 (wordBits w 16 16)
    let t0 := if wFlag w 10 then (r.scalar (wordBits w 0 5)).toNat % 2 ^ 32 else wordBits w 0 16
    s.syncIndexOk idx = true →
    ∀ p ∈ [(Instr.syncSignal q w, (1 : Int), 0), (.syncAdd q w, v, t0)], p.1.wordOk = true →
      ∃ t o, exec p.1 s = .next t ∧ (t.seqr q).syncBuf = r.syncBuf ++ [o] ∧ o.index = idx ∧ o.v = p.2.1 ∧ o.t = p.2.2 ∧
        o.waits = s.inQueues q (wFlags w % 64) ∧ o.entry.pc = r.pc ∧ o.entry.opcode = wOpcode w ∧
        Seqr.wentOn r (t.seqr q) ∧ (t.seqr q).s = r.s ∧ (t.seqr q).flags = r.flags ∧ t.clusters = s.clusters ∧ s.sameBytes t

/-- ADD v, T: VALUE takes v and clamps at 0 and 2^32 − 1; then, when T is not 0 and VALUE has reached it, VALUE loses T and
EPOCH goes on modulo 2^16. A SIGNAL adds 1 (07.R214, R215). The oldest operation of the sync buffer, once no instruction it waits on
remains, is applied to its counter and leaves the buffer; no other counter changes, and a clamp sets the issuer's SAT. Before that it
stays (07.R210, R215). The state is one with no WAIT in it, and the operation names no DONE counter. -/
def Obligations.SyncCounterRules : Prop :=
  (∀ (k : Counter) (v : Int) (t : Nat),
    let sum : Int := k.value + v
    let c : Int := max 0 (min (2 ^ 32 - 1) sum)
    ((t = 0 ∨ c < t) → ((counterAdd k v t).1.value : Int) = c ∧ (counterAdd k v t).1.epoch = k.epoch) ∧
    (t ≠ 0 → (t : Int) ≤ c → ((counterAdd k v t).1.value : Int) = c - t ∧ (counterAdd k v t).1.epoch = (k.epoch + 1) % 2 ^ 16) ∧
    ((counterAdd k v t).2 = true ↔ sum < 0 ∨ 2 ^ 32 - 1 < sum)) ∧
  (∀ (q : SeqId) (s : State) (o : SyncOp) (rest : List SyncOp), (s.seqr q).syncBuf = o :: rest →
    (o.waits ≠ [] → exec (.syncOpApply q) s = .next s) ∧
    (s.canonical = true → o.waits = [] → o.index < 65536 → o.entry.done = none → (∀ q', (s.seqr q').wait = none) →
      ∃ t, exec (.syncOpApply q) s = .next t ∧ (t.seqr q).syncBuf.map (fun x => (x.index, x.v, x.t)) =
          rest.map (fun x => (x.index, x.v, x.t)) ∧
        t.counterAt o.index = (counterAdd (s.counterAt o.index) o.v o.t).1 ∧
        (∀ j, j < 65536 → j ≠ o.index → t.counterAt j = s.counterAt j) ∧
        ((counterAdd (s.counterAt o.index) o.v o.t).2 = true → (t.seqr q).flags.getLsbD FLAG_SAT = true) ∧
        (t.seqr q).s = (s.seqr q).s ∧ s.sameBytes t))

/-- WAIT GE and WAIT EPOCH: where the condition holds decode goes on at once; where it does not, the WAIT blocks decode, with
its time limit when the word has one, and no counter changes (07.R211, R214, 08.R229). When the limit expires, the WAIT ends,
and sets SQ_FLAGS.WTO when its condition does not hold then; a WAIT without a limit goes on (08.R230). -/
def Obligations.SyncWaits : Prop :=
  (∀ (q : SeqId) (w : W128) (s : State), s.Takes q w →
    let r := s.seqr q
    let idx := if wForm w / 2 % 2 == 1 then (r.scalar (wordBits w 32 5)).toNat % 2 ^ 16 else wordBits w 32 16
    let n := (if wForm w / 4 % 2 = 1 then (r.scalar (wordBits w 0 5)).toNat else wordBits w 0 32) % 2 ^ 32
    let e := (r.scalar (wordBits w 0 5)).toNat % 2 ^ 16
    (∀ p ∈ [(Instr.syncWaitGe q w, SeqWait.ge idx n), (.syncWaitEpoch q w, .epoch idx e)], p.1.wordOk = true →
      s.syncIndexOk idx = true → ∃ t, exec p.1 s = .next t ∧ (t.seqr q).s = r.s ∧ Seqr.wentOn r (t.seqr q) ∧ s.sameBytes t ∧
        (s.waitHolds p.2 = true → (t.seqr q).wait = none) ∧
        (s.waitHolds p.2 = false → t.decodes q = false ∧ t.clusters = s.clusters ∧
          ∃ x, (t.seqr q).wait = some x ∧ x.cond = p.2 ∧ x.limited = (wFlags w != 0) ∧ x.entry.pc = r.pc))) ∧
  (∀ (q : SeqId) (s : State) (x : Waiting), (s.seqr q).wait = some x →
    (x.limited = false → exec (.syncWaitTimeout q) s = .next s) ∧
    (x.limited = true → ∃ t, exec (.syncWaitTimeout q) s = .next t ∧ (t.seqr q).wait = none ∧
      (t.seqr q).flags.getLsbD FLAG_WTO = (!s.waitHolds x.cond || (s.seqr q).flags.getLsbD FLAG_WTO) ∧
      (t.seqr q).s = (s.seqr q).s ∧ (t.seqr q).pc = (s.seqr q).pc ∧ s.sameBytes t))

/-- SYNC.READ writes VALUE + EPOCH · 2^32 of its counter into RD, whatever its word's queue mask names and its queues hold: it waits
for nothing, and no other scalar register and no flag changes; no counter changes in a state without a WAIT (08.R231). -/
def Obligations.SyncReadValue : Prop :=
  ∀ (q : SeqId) (w : W128) (s : State), s.Takes q w → (Instr.syncRead q w).wordOk = true →
    let r := s.seqr q
    let idx := if wFlag w 8 then (r.scalar (wordBits w 32 5)).toNat % 2 ^ 16 else wordBits w 32 16
    s.syncIndexOk idx = true → ∃ t, exec (.syncRead q w) s = .next t ∧
      (t.seqr q).s = updN r.s (wordBits w 0 5)
        (fun _ => BitVec.ofNat 64 ((s.counterAt idx).value + (s.counterAt idx).epoch * 2 ^ 32)) ∧
      (wDoneEn w = false → (t.seqr q).flags = r.flags ∧ ((∀ q', (s.seqr q').wait = none) → t.clusters = s.clusters)) ∧
      Seqr.wentOn r (t.seqr q) ∧ Seqr.sameSpecial r (t.seqr q) ∧ s.othersKeep t q ∧ s.sameBytes t

/-! ### MOVE, streams and completion (chapters 07, 08, 09) -/

/-- MOVE.LOAD and MOVE.STORE of one INT32 row copy its elements and no byte outside the destination changes; PREFETCH changes no byte;
STAGE enters the staging queue while it has room; STREAM opens its stream. Each joins its mover's queue, which
was empty, and decode goes on (07.R208,
R212, 08.R232, R233, 14.R380). -/
def Obligations.MoveRows : Prop :=
  ∀ (q : SeqId) (w : W128) (s : State), s.MoveTakes q w →
    (∀ p ∈ [(Instr.moveLoad q w, true), (.moveStore q w, false)], p.1.wordOk = true →
      ∀ d a, s.Names q (wTdd w) true d → s.Names q (wTda w) false a → OneRow d → OneRow a → d.format = 3 →
      a.format = 3 → a.eff0 = d.eff0 → addrRegion (if p.2 then d.base else a.base) = 1 → s.readableSpan q a.base (rowLen a) →
      s.localSpan q true d.base (rowLen d) →
      ∃ t, exec p.1 s = .next t ∧ t.rowHolds d (s.rowRaw a) ∧ s.sameOutsideRow t d ∧ s.joinedMover t q w) ∧
    (∀ a, s.Names q (wTda w) false a → bit a.stream 7 = false →
      ((Instr.movePrefetch q w).wordOk = true → ∃ t, exec (.movePrefetch q w) s = .next t ∧ s.sameBytes t ∧ s.joinedMover t q w) ∧
      ((Instr.moveStage q w).wordOk = true → tdEmpty a = false → s.port.stageQ.length < 16 →
        ∃ t uid, exec (.moveStage q w) s = .next t ∧ s.sameBytes t ∧ s.joinedMover t q w ∧
          t.port.stageQ = s.port.stageQ ++ [.move q uid a (wMover w)] ∧
          (∃ e, (getN (t.seqr q).moverQ (wMover w) []).getLast? = some e ∧ e.uid = uid ∧ e.staging = true))) ∧
    (∀ (c : Fin 64) (d a : TD), q = .core c → (Instr.moveStream q w).wordOk = true →
      let out := bit (wImm w) 3
      let slots := bits (wImm w) 4 4 + 1
      let dist := bits (wImm w) 8 4 + 1
      s.Names q (wTdd w) (!out) d → s.Names q (wTda w) out a → 2 ≤ slots → dist ≤ slots →
      (∀ m, getN s.cores[c].streams (bits (wImm w) 0 3) none = some m → m.idle = true) →
      ∃ t, exec (.moveStream q w) s = .next t ∧ s.sameBytes t ∧ s.joinedMover t q w ∧
        t.cores[c].streams = updN s.cores[c].streams (bits (wImm w) 0 3) (fun _ => some {
          out := out, mover := wMover w, mem := a, slot := d, slots := slots, dist := dist, tiles := streamTiles a d
          closed := streamTiles a d == 0, pc := (s.seqr q).pc }))

/-- A slot of a stream is filled with the next tile, in order, or the oldest full slot of an out stream is drained; the stream
closes after its last tile (07.R212, 09.R264). -/
def Obligations.StreamSlots : Prop :=
  ∀ (c : Fin 64) (n : Fin 8) (s : State) (m : Stream), getN s.cores[c].streams n.val none = some m →
    (m.mayFill = true → exec (.streamSlotFilled c n) s = .next (s.transfer c n.val m m.moved
      { m with full := m.full ++ [m.moved], moved := m.moved + 1, closed := decide (m.moved + 1 = m.tiles) })) ∧
    (m.mayFill = false → exec (.streamSlotFilled c n) s = .next s) ∧
    (∀ x rest, m.full = x :: rest → m.out = true → m.closed = false → exec (.streamSlotDrain c n) s =
      .next (s.transfer c n.val m x { m with full := rest, moved := m.moved + 1, closed := decide (m.moved + 1 = m.tiles) }))

/-- An entry of the Mill queue that has run, with no earlier one on its unit, and the head of a mover's queue that has run, leaves its
queue and completes once its writes to other devices are acknowledged; a head of the Loom queue that is done completes, and a
PROG, VERIFY or PROBE that integrates does its work; then the sequencer's queues go on (07.R208, R210). A completion counts one DONE
on the counter that its entry names, and changes no scalar register, no instruction index and no byte of memory of anyone (07.R210,
R214). The state of a counted DONE is one with no WAIT in it. -/
def Obligations.CompletionRules : Prop :=
  (∀ (q : SeqId) (s : State),
    (∀ (n : Nat) (e : QEntry), (s.seqr q).millQ[n]? = some e → s.millMay (s.seqr q).millQ n = true →
      ∃ u, exec (.instructionCompletion q .mill n) s = .next (u.pumpQueues q) ∧ (u.seqr q).millQ = (s.seqr q).millQ.eraseIdx n ∧
        (u.seqr q).s = (s.seqr q).s ∧ (u.seqr q).pc = (s.seqr q).pc ∧ s.sameBytes u) ∧
    (∀ (m : Fin 4) (e : QEntry) (rest : List QEntry), (s.seqr q).moverQ[m] = e :: rest → e.staging = false → e.work = none →
      s.acked e = true →
      ∃ u, exec (.instructionCompletion q (.mover m) 0) s = .next (u.pumpQueues q) ∧ (u.seqr q).moverQ[m] = rest ∧
        (u.seqr q).s = (s.seqr q).s ∧ (u.seqr q).pc = (s.seqr q).pc ∧ s.sameBytes u) ∧
    (∀ (c : Fin 64) (i : LoomInstr) (rest : List LoomInstr), q = .core c → s.cores[c].loomQ = i :: rest →
      (i.phase = .done → exec (.instructionCompletion q .loom 0) s = .next (s.retireLoom c i)) ∧
      (i.phase = .integrating → i.kind ≠ .mvm → i.kind ≠ .mvmt →
        exec (.instructionCompletion q .loom 0) s = .next (s.endOther c i)))) ∧
  (∀ (q : SeqId) (s : State) (e : QEntry) (idx : Nat), s.canonical = true → e.done = some idx → idx < 65536 → (∀ q', (s.seqr q').wait = none) →
    (s.complete q e 0).counterAt idx = (counterAdd (s.counterAt idx) 1 0).1 ∧
    (∀ j, j < 65536 → j ≠ idx → (s.complete q e 0).counterAt j = s.counterAt j) ∧
    (∀ q', ((s.complete q e 0).seqr q').s = (s.seqr q').s ∧ ((s.complete q e 0).seqr q').pc = (s.seqr q').pc) ∧
    s.sameBytes (s.complete q e 0))

/-! ### CAL, Assay and the monitor converters (chapters 12, 13) -/

/-- The CAL rows whose operands are registers: READ gives a result register's word in RD, SEQ writes a sequence entry, TAP points
a core's tap and ends the hold of its sample, APPLY marks the usable cores of its map (12.R339, 13.R357, R359, R360). A sequence entry
that changes clears VALID and FRESH of its result and its count of conversions that carry VALID 0 does not fall, and is at least
the new source's; a source above 95
reads as 127; an unchanged value has no effect (13.R359, R360, R363). -/
def Obligations.CalRegisterRows : Prop :=
  (∀ (w : W128) (s : State), s.Takes .house w →
    let ra := (s.house.scalar (wordBits w 38 5)).toNat
    ((Instr.calRead .house w).wordOk = true → ∃ t, exec (.calRead .house w) s = .next t ∧
      t.house.s = updN s.house.s (wordBits w 43 5)
        (fun _ => BitVec.ofNat 64 (resWord (getN s.monitor.results (bits (wImm w) 0 5) {}))) ∧
      t.monitor = s.monitor ∧ Seqr.wentOn s.house t.house ∧ s.sameBytes t) ∧
    ((Instr.calSeq .house w).wordOk = true → ∃ t, exec (.calSeq .house w) s = .next t ∧
      t.monitor = (s.writeEntry (bits (wImm w) 0 5) (ra % 2 ^ 32)).monitor ∧ t.house.s = s.house.s ∧
      Seqr.wentOn s.house t.house ∧ s.sameBytes t) ∧
    ((Instr.calTap .house w).wordOk = true → ∃ t, exec (.calTap .house w) s = .next t ∧
      (∀ c : Fin 64, c.val = bits (wImm w) 8 6 → t.cores[c].tap.engine = bits (wImm w) 4 4 ∧
        t.cores[c].tap.col = bits (wImm w) 0 3 ∧ t.cores[c].tap.stale = true) ∧
      (∀ c : Fin 64, c.val ≠ bits (wImm w) 8 6 → t.cores[c].tap = s.cores[c].tap) ∧
      t.house.s = s.house.s ∧ Seqr.wentOn s.house t.house ∧ s.sameBytes t) ∧
    ((Instr.calApply .house w).wordOk = true → ∃ t, exec (.calApply .house w) s = .next t ∧
      (∀ c : Fin 64, t.cores[c].applyMark = (s.cores[c].applyMark || (bit ra c.val && s.usable c))) ∧
      t.house.s = s.house.s ∧ Seqr.wentOn s.house t.house ∧ s.sameBytes t)) ∧
  (∀ (s : State) (n : Fin 32) (v : Nat),
    let old := s.monitor.entries[n]
    let src := if 95 < v % 128 then 127 else v % 128
    let new : MonEntry := { filt := v / 2 ^ 10 % 4, gain := v / 2 ^ 8 % 4, source := src, invalid := old.invalid }
    (new = old → s.writeEntry n.val v = s) ∧
    (new ≠ old → (s.writeEntry n.val v).monitor.entries[n].source = src ∧
      (s.writeEntry n.val v).monitor.entries[n].filt = v / 2 ^ 10 % 4 ∧
      (s.writeEntry n.val v).monitor.entries[n].gain = v / 2 ^ 8 % 4 ∧
      (s.monitor.run = false → old.invalid ≤ (s.writeEntry n.val v).monitor.entries[n].invalid ∧
        (src ≠ 127 → old.source ≠ src → sourceCount new ≤ (s.writeEntry n.val v).monitor.entries[n].invalid)) ∧
      (s.writeEntry n.val v).monitor.results[n].valid = false ∧ (s.writeEntry n.val v).monitor.results[n].fresh = false ∧
      ∀ m : Fin 32, m ≠ n → (s.writeEntry n.val v).monitor.results[m] = s.monitor.results[m]))

/-- The CAL rows with a tensor: TRIM loads the record at TDA as the pending record of its ply, where the ply's core is usable; REC
WRITE writes the 256 bytes at TDA to a record of the calibration store, and REC READ writes a record that passes its check word to
TDD and no byte elsewhere; CORE schedules its work behind what the core has (12.R332, R333, R335, R344, R347 to R349). -/
def Obligations.CalTensorRows : Prop :=
  ∀ (w : W128) (s : State), s.Takes .house w → s.canonical = true →
    let ra := (s.house.scalar (wordBits w 38 5)).toNat
    (∀ d, s.Names .house (wTda w) false d → tdEmpty d = false →
      ((Instr.calTrim .house w).wordOk = true → s.readableSpan .house d.base 2048 → ∃ t, exec (.calTrim .house w) s = .next t ∧
        (s.usable (plyCore (ra % 8192)) = true →
          NatMap.get {} t.cores[plyCore (ra % 8192)].pending (ra % 8192) = parseTrim (s.bytesAt d.base 2048)) ∧
        (s.usable (plyCore (ra % 8192)) = false → ∀ c : Fin 64, t.cores[c].pending = s.cores[c].pending) ∧
        Seqr.wentOn s.house t.house ∧ s.sameBytes t) ∧
      ((Instr.calRecWrite .house w).wordOk = true → s.readableSpan .house d.base 256 →
        ∃ t, exec (.calRecWrite .house w) s = .next t ∧ t.assay = (s.writeRecord (ra % 2048) (s.bytesAt d.base 256)).assay ∧
          t.plies = (s.writeRecord (ra % 2048) (s.bytesAt d.base 256)).plies ∧ Seqr.wentOn s.house t.house ∧ s.sameBytes t)) ∧
    (∀ d, s.Names .house (wTdd w) true d →
      (∀ b, tdEmpty d = false → (Instr.calRecRead .house w).wordOk = true → s.readRecord (ra % 2048) = some b →
        s.localSpan .house true d.base 256 → ∃ t, exec (.calRecRead .house w) s = .next t ∧ t.bytesAt d.base 256 = b ∧
          s.sameOutside t (d.base % 2 ^ 48) 256 ∧ Seqr.wentOn s.house t.house) ∧
      ∀ c : Fin 64, c.val = bits (wImm w) 8 6 → s.usable c = true →
        ∀ p ∈ [(Instr.calCoreProbe .house w, false), (.calCoreVerify .house w, true)], p.1.wordOk = true →
          ∃ t k, exec p.1 s = .next t ∧ t.cores[c].calCore = s.cores[c].calCore ++ [k] ∧ k.verify = p.2 ∧
            k.emask = (s.house.scalar (wordBits w 33 5)).toNat % 2 ^ 16 ∧ k.ply = bits (wImm w) 45 3 ∧ k.tdd = d ∧
            Seqr.wentOn s.house t.house ∧ s.sameBytes t)

/-- Scheduled work runs while its core is idle and its grant needs no wait: a PROBE writes its sums to the row of its destination, and a
VERIFY looks at the plies of its engines; a marked core that may take its records applies them in its idle period; a measurement that
has its samples completes; one that lacks traffic gets a PROBE; a ply due for re-anneal is re-annealed, and one due too long holds its
core's next job; the header takes the epoch and the clocks (12.R331, R332, R333, R339, R346, R348). -/
def Obligations.AssayEvents : Prop :=
  ∀ (s : State) (c : Fin 64) (ply : Fin 8192),
    (∀ k rest, s.cores[c].calCore = k :: rest → s.assayActs = true → s.usable c = true → s.coreIdle c = true →
      s.capFree c (enginesIn k.emask).length = true →
      let u : State := s.updCore c (fun x => { x with calCore := rest })
      (k.verify = true → tdEmpty k.tdd = true → exec (.calCoreExecute c) s =
        .next ((enginesIn k.emask).foldl (fun s e => s.verifyFor c e k.ply) u)) ∧
      (k.verify = false → k.tdd.eff1 = 0 → ∃ t, exec (.calCoreExecute c) s = .next t ∧ t.cores[c].calCore = rest ∧
        t.house = s.house ∧ s.sameBytes t) ∧
      (∀ e, k.verify = false → s.canonical = true → enginesIn k.emask = [e] → k.tdd.eff1 = 1 → k.tdd.eff0 ≤ 512 →
        s.localSpan .house true (rowAddr k.tdd 0 0 0) (4 * k.tdd.eff0) →
        let v := (u.probeOwn c e k.ply k.rep).1.take k.tdd.eff0
        ∃ t, exec (.calCoreExecute c) s = .next t ∧ t.cores[c].calCore = rest ∧ t.house = s.house ∧
          t.bytesAt (rowAddr k.tdd 0 0 0) (4 * v.length) = v.flatMap (fun x => leBytes 4 (unsigned 32 x)) ∧
          s.sameOutside t (rowAddr k.tdd 0 0 0 % 2 ^ 48) (4 * v.length))) ∧
    (s.coreIdle c = true → s.canApply c = true → exec (.calApplication c) s = .next (s.applyCore c true)) ∧
    ((s.assayPly ply.val).meas.active = true → s.assayActs = true → s.calPly ply.val = true →
      lightDone (s.assayPly ply.val).meas.samples s.assay.minSamples = true →
      exec (.lightMeasurementComplete ply) s = .next (s.finishLight ply.val)) ∧
    ((s.assayPly ply.val).meas.active = true → s.assayActs = true → s.calPly ply.val = true →
      s.cores[plyCore ply.val].calCore = [] →
      ∃ t k, exec (.sampleWaitExpiry ply) s = .next t ∧ t.cores[plyCore ply.val].calCore = [k] ∧ k.verify = false ∧
        k.emask = 2 ^ plyEngine ply.val ∧ k.ply = ply.val % 8 ∧ k.rep = 64 ∧ s.sameBytes t) ∧
    (s.canAnneal ply.val = true → exec (.reAnneal ply) s = .next (s.anneal ply.val)) ∧
    (s.plyDue ply.val = true → ∃ t, exec (.annealWaitExpiry ply) s = .next t ∧ (t.assayPly ply.val).overdue = true ∧
      t.cores = s.cores ∧ s.sameBytes t) ∧
    (s.supply.holding = false → exec .calHeaderRewrite s =
      .next { s with assay := { s.assay with hdrEpoch := s.assay.epoch, hdrAge := s.assay.age } })

/-- The AGE and FULL conditions of an owned ply of a usable core trigger when they first hold: while Assay acts (EN 1, house firmware
running) a light measurement is active after it, a full run too when it asks for one; otherwise the trigger is held. A condition
that does not hold, or has fired, triggers nothing. FORCE asks for both on every owned ply, and EN 1 lets the held ones start
(01.R37, 12.R342, R350). -/
def Obligations.AssayTriggers : Prop :=
  ∀ (s : State) (ply : Fin 8192) (full : Bool),
    let a := s.assayPly ply.val
    let fired : Bool := if full then a.firedFull else a.firedAge
    (s.calPly ply.val = true → fired = false → s.ageReached ply.val full = true →
      (s.assayActs = true → ∃ t, exec (.ageTrigger ply full) s = .next t ∧ (t.assayPly ply.val).meas.active = true ∧
        (full = true → (t.assayPly ply.val).fullRun = true ∧ (t.assayPly ply.val).firedFull = true) ∧
        (full = false → (t.assayPly ply.val).firedAge = true) ∧ s.sameBytes t) ∧
      (s.assayActs = false → ∃ t, exec (.ageTrigger ply full) s = .next t ∧ (ply.val, full) ∈ t.assay.held ∧
        (t.assayPly ply.val).meas = a.meas ∧ t.cores = s.cores ∧ s.sameBytes t)) ∧
    (fired = true ∨ s.ageReached ply.val full = false → exec (.ageTrigger ply full) s = .next s) ∧
    (∃ t, exec .asCtrlForce s = .next t ∧ s.sameBytes t ∧
      (s.assayActs = true → ∀ q ∈ s.pliesWhere (fun r => r.owner.isSome), s.calPly q = true →
        (t.assayPly q).meas.active = true ∧ (t.assayPly q).fullRun = true)) ∧
    (exec (.asCtrlEn false) s = .next { s with assay := { s.assay with en := false } }) ∧
    (∃ t, exec (.asCtrlEn true) s = .next t ∧ t.assay.en = true ∧ (s.houseRuns = true → t.assay.held = []) ∧ s.sameBytes t)

/-- The reads of registers with RS fields return the register and clear those fields, and change nothing else that the field does not
carry: AS_STATUS its STORE_BAD and AGE_LOST, AS_MSTAT its CLIP, PW_THERM its TRIPPED, CH_SECERR its code and count, FB_STATUS its
FULL and SPLIT, MG_SIGFAIL its TOTAL, FB_LINKn its ERRORS, RETRAINS and LASTCODE, HP_STATUS outside a scrub its HOST_LOST, PROTO,
DROP and MISS (00.R11). -/
def Obligations.ReadsClear : Prop :=
  ∀ (s : State) (n : Fin 4),
    (∃ t, exec .asStatusRead s = .next t ∧ t.assay = { s.assay with storeBad := false, ageLost := false } ∧ s.sameBytes t) ∧
    (∃ t, exec .asMstatRead s = .next t ∧ t.monitor = { s.monitor with clip := false } ∧ s.sameBytes t) ∧
    (∃ t, exec .pwThermRead s = .next t ∧ t.power = { s.power with tripped := false } ∧ s.sameBytes t) ∧
    (∃ t, exec .chSecerrRead s = .next t ∧ t.chouse = { s.chouse with secCode := 0, secCount := 0 } ∧ s.sameBytes t) ∧
    (∃ t, exec .fbStatusRead s = .next t ∧ t.fabric = { s.fabric with full := false, split := false } ∧ s.sameBytes t) ∧
    (∃ t, exec .mgSigfailRead s = .next t ∧ t.mgmt = { s.mgmt with failTotal := 0 } ∧ s.sameBytes t) ∧
    (∃ t, exec (.fbLinkRead n) s = .next t ∧
      t.fabric.links[n] = { s.fabric.links[n] with errors := 0, retrains := 0, lastCode := 0 } ∧
      (∀ m : Fin 4, m ≠ n → t.fabric.links[m] = s.fabric.links[m]) ∧ s.sameBytes t) ∧
    (s.portOn = true → s.chouse.scrub = none → ∃ t, exec .hpStatusRead s = .next t ∧ t.port.hostLost = false ∧
      t.port.proto = false ∧ t.port.drop = false ∧ t.port.miss = false ∧
      t.latch.reg = BitVec.ofNat 64 s.hpStatus ∧ t.port.irqStatus = s.port.irqStatus ∧ s.sameBytes t)

/-- Writes of AS_MCTRL: a write of TRIG, LAST or ILV is a trigger, one of CONT is none. A trigger restarts a stopped sequence at
entry 0 with a new pass, and waits as PENDING behind one that runs (13.R354 to R358). -/
def Obligations.MonitorControl : Prop :=
  ∀ (s : State) (on : Bool) (n : Fin 32),
    (s.monitor.powered = true → (s.monitor.run = true ∨ s.monitor.free = false) →
      exec .asMctrlTrig s = .next { s with monitor := { s.monitor with pending := true } } ∧
      exec (.asMctrlIlv on) s = .next { s with monitor := { s.monitor with ilv := on, pending := true } } ∧
      exec (.asMctrlLast n) s = .next { s with monitor := { s.monitor with last := n.val, pending := true } }) ∧
    (s.monitor.powered = true → s.monitor.run = false → s.monitor.free = true → ∃ t, exec .asMctrlTrig s = .next t ∧
      t.monitor.pending = false ∧ (∀ i : Fin 32, t.monitor.results[i].fresh = false) ∧ s.sameBytes t) ∧
    exec (.asMctrlCont on) s = .next { s with monitor := { s.monitor with cont := on } } ∧
    (s.monitor.powered = true → s.monitor.free = true → s.monitor.pending = true → ∃ t, exec .monitorRestart s = .next t ∧
      t.monitor.pending = false ∧ (∀ i : Fin 32, t.monitor.results[i].fresh = false) ∧ s.sameBytes t) ∧
    (∃ t, exec .monitorPowerOff s = .next t ∧ t.monitor.powered = false ∧ t.monitor.run = false ∧
      (∀ i : Fin 32, t.monitor.results[i].valid = false) ∧ (∀ k : Fin 8, t.assay.temp[k] = none) ∧ s.sameBytes t) ∧
    (s.monitor.powered = false → ∃ t, exec .monitorPowerReturn s = .next t ∧ t.monitor.powered = true ∧ s.sameBytes t)

/-- A conversion of a supply or humidity source ends, and CAL.SEQ did not discard it: the result register it was started for holds the
code, limited to the converter's range, with FRESH set, and VALID as the entry's count of conversions said when it started; no other
result register changes. A conversion that was discarded changes none (13.R353 to R357, R359, R360). -/
def Obligations.ConversionEnds : Prop :=
  ∀ (s : State) (cv : Converting) (raw : Int) (n : Fin 32), s.monitor.am0 = some cv → 88 ≤ cv.source → cv.reg = n.val →
    (cv.discard = false → ∃ t, exec (.monitorConversionEnd false raw) s = .next t ∧
      t.monitor.results[n].code = max 0 (min 4095 raw) ∧ t.monitor.results[n].clip = decide (raw < 0 ∨ 4095 < raw) ∧
      t.monitor.results[n].fresh = true ∧ t.monitor.results[n].valid = cv.valid ∧ t.monitor.results[n].source = cv.source ∧
      t.monitor.results[n].pass = s.monitor.pass ∧
      (∀ m : Fin 32, m ≠ n → t.monitor.results[m] = s.monitor.results[m]) ∧ s.sameBytes t) ∧
    (cv.discard = true → ∃ t, exec (.monitorConversionEnd false raw) s = .next t ∧ t.monitor.results = s.monitor.results ∧
      s.sameBytes t)

/-! ### The host port (chapter 14) -/

/-- The LPDDR commands of a channel that is on: ACTIVATE opens a row of its bank, mode register writes are stored, at the frequency set
point selected where the register has one, but for the read-only registers MR4 to MR8; a mode register read returns the register;
each training procedure is recorded and returns what it returns, ZQ calibration unless ZQ stop is set; and RFM and the power-down
commands change nothing else; no command touches the other channel, the stores or the registers. A mode register reads as it was
last written in its writable bits, and MR5, MR6 and MR7 read their vendor values whatever is written (14.R364 to R369). Where ZQ
stop and reset stand, and that FSP-WR selects, is the family's (assumptions 142 and 143). -/
def Obligations.LpddrCommands : Prop :=
  (∀ (s : State) (ch : Chan) (bank : Fin 16) (row : Fin 65536) (ma : Fin 128) (v : Byte) (fifo : List Byte), s.portOn = true →
    let trains (i : Instr) (n : BitVec 5) (p : List Byte → Prop) : Prop := ∃ t, exec i s = .next t ∧
      (t.chan ch).trained = (s.chan ch).trained ||| n ∧ p t.latch.bytes ∧ (t.chan ch).mr = (s.chan ch).mr ∧ s.sameBytes t
    exec (.lpddrActivate ch bank row) s =
      .next (s.updChan ch (fun k => { k with rows := k.rows.set bank (some row.val) })) ∧
    (mrReadOnly ma.val = false → exec (.modeRegisterWrite ch ma v) s =
      .next (s.updChan ch (fun k => { k with
        mr := NatMap.insert k.mr (mrKey k ma.val) v
        trained := if ma.val = 0x1C ∧ v.getLsbD 0 then k.trained &&& 0x0F else k.trained }))) ∧
    (mrReadOnly ma.val = true → exec (.modeRegisterWrite ch ma v) s = .next s) ∧
    exec (.modeRegisterRead ch ma) s = .next { s with latch := { s.latch with mrr := s.mrValue ch ma.val } } ∧
    exec (.lpddrRfm ch) s = .next s ∧
    exec (.powerDownEntry ch) s = .next (s.updChan ch (fun k => { k with powerDown := true })) ∧
    exec (.powerDownExit ch) s = .next (s.updChan ch (fun k => { k with powerDown := false })) ∧
    trains (.commandBusTraining ch) 1 (fun b => b.length = 2) ∧
    trains (.wck2ckLeveling ch) 2 (fun b => b.length = 2) ∧
    trains (.readDqCalibration ch) 4 (fun b => b = Config.readDqPattern (s.chan ch).mr) ∧
    trains (.writeDqTraining ch fifo) 8 (fun b => b = fifo) ∧
    ((s.mrValue ch 0x1C).getLsbD 1 = false → trains (.zqCalibration ch) 16 (fun b => b = s.latch.bytes)) ∧
    ((s.mrValue ch 0x1C).getLsbD 1 = true → exec (.zqCalibration ch) s = .next s)) ∧
  (∀ (s : State) (ch : Chan) (ma : Fin 128) (v : Byte), s.portOn = true → ma.val ≠ 0x10 →
    ∃ t u, exec (.modeRegisterWrite ch ma v) s = .next t ∧ exec (.modeRegisterRead ch ma) t = .next u ∧
      (ma.val < 4 ∨ 8 < ma.val →
        u.latch.mrr = (v &&& mrWrites ma.val) ||| (Config.mrReset ma.val &&& ~~~mrWrites ma.val)) ∧
      (ma.val = 5 → u.latch.mrr = 0x6B) ∧ (ma.val = 6 → u.latch.mrr = s.fuses.rev) ∧ (ma.val = 7 → u.latch.mrr = 0))

/-- Self-refresh: its entry marks the channel, with no row active, and, once no drain waits, the host idle; its exit ends that; REF
counts in HP_REF_CNT; HP_RESET_N clears the channel's mode registers and training; the loss of the host sets HOST_LOST, IDLE and the
LIVE cause (14.R389 to R391, 22.R531). That self-refresh closes the rows is the family's (assumption 144). -/
def Obligations.HostPresence : Prop :=
  ∀ (s : State) (ch : Chan), s.portOn = true →
    (s.chouse.scrub = none → s.power.cur = 0 → (∀ f ∈ s.port.frames, f.due = false) →
      ∃ t, exec (.selfRefreshEntry ch) s = .next t ∧ (t.chan ch).selfRefresh = true ∧
        (t.chan ch).rows = Vector.replicate 16 none ∧ t.port.idle = true) ∧
    (s.power.depth < 3 → (s.chan ch).selfRefresh = true → ∃ t, exec (.selfRefreshExit ch) s = .next t ∧
      (t.chan ch).selfRefresh = false ∧ t.port.idle = false ∧ s.sameBytes t) ∧
    (∃ t, exec (.lpddrRef ch) s = .next t ∧ t.port.refCnt = s.port.refCnt + 1 ∧ s.sameBytes t) ∧
    (∃ t, exec (.hpResetN ch) s = .next t ∧ (t.chan ch).mr = [] ∧ (t.chan ch).trained = 0 ∧ s.sameBytes t) ∧
    (s.port.selfRefresh = false → (s.port.hostLost = false ∨ s.port.idle = false) → ∃ t, exec .hostLost s = .next t ∧
      t.port.hostLost = true ∧ t.port.idle = true ∧ t.port.irqStatus = s.port.irqStatus ||| BitVec.ofNat 8 (2 ^ IRQ_LIVE) ∧
      s.sameBytes t)

/-- A burst to the submission ring is stored in the port buffer with its byte enables, byte for byte; no other byte changes
(14.R373). -/
def Obligations.RingWriteStores : Prop :=
  ∀ (s : State) (a : HostAddr) (data : Burst) (off : Nat), s.canonical = true → s.portOn = true → s.chouse.scrub = none →
    burstOk a data.length = true → s.hostOff a = some off → s.target a.ch off = .subRing →
    ∃ t, exec (.sqRingWrite a data) s = .next t ∧
      (∀ i b, data[i]? = some (some b) → t.mem.byte (portKey (off - 0x10000 + i)) = b) ∧
      (∀ k, (∀ i b, data[i]? = some (some b) → k ≠ portKey (off - 0x10000 + i)) → t.mem.byte k = s.mem.byte k) ∧
      t.cores = s.cores ∧ t.port = s.port

/-- The other bursts go where their host offset lies: an aperture's frame, a register of the control page block, the staging heap of
the Wharf; an offset where nothing stands is ignored and sets PROTO; a read returns its bytes (14.R368 to R377, 11.R300). -/
def Obligations.BurstsGo : Prop :=
  ∀ (s : State) (a : HostAddr) (data : Burst) (len : Fin 65) (off : Nat), s.portOn = true → s.chouse.scrub = none →
    s.hostOff a = some off →
    (burstOk a data.length = true → s.target a.ch off = .aperture →
      exec (.apertureWrite a data) s = .next (s.writeAperture a.ch off data)) ∧
    (burstOk a data.length = true → s.target a.ch off = .control →
      exec (.ctrlRegWrite a data) s = .next (s.writeControl off data)) ∧
    (burstOk a data.length = true → s.target a.ch off = .wharf →
      exec (.wharfWrite a data) s = .next (s.writeWharf off data)) ∧
    (burstOk a data.length = true → (s.target a.ch off = .unmapped ∨ s.target a.ch off = .compRing) →
      ∃ t, exec (.unmappedWrite a data) s = .next t ∧ t.port.proto = true ∧ s.sameBytes t) ∧
    (burstOk a len.val = true → ∃ t, exec (.apertureRead a len) s = .next t ∧
      t.latch.rd = ((s.countPkg PE_HP_RD_LINES 1).hostRead a.ch off len.val).1)

/-- Register writes of the host: HP_IRQ_ENABLE takes the value, a 1 written to HP_IRQ_STATUS clears its cause unless its condition
still holds, HP_LATENCY_BUDGET takes the value, HP_CQ_HEAD takes its low bits, HP_POOL and the bases wait for the frames that are
open, HP_WH_SPLIT takes a value from 1 on while nothing stands in the way (14.R371, R379, R387, R388, R393). The doorbells: a ready
port takes the submission tail, one that is not ready records it; a staging request joins its queue of 16, or is dropped (14.R375,
R378, R382). -/
def Obligations.HostRegisters : Prop :=
  (∀ (s : State) (v : W32) (x : W64), s.portOn = true → s.chouse.scrub = none →
    (∃ t, exec (.hpIrqEnableWrite v) s = .next t ∧ t.port.irqEnable = v.setWidth 8 ∧ t.port.irqStatus = s.port.irqStatus ∧
      s.sameBytes t) ∧
    (s.port.cqDue = false → ∃ t, exec (.hpIrqStatusClear v) s = .next t ∧
      t.port.irqStatus = s.port.irqStatus &&& ~~~(v.setWidth 8) ∧ s.sameBytes t) ∧
    (∃ t, exec (.hpLatencyBudgetWrite v) s = .next t ∧ t.port.budget = v.toNat ∧ s.sameBytes t) ∧
    (∃ t, exec (.hpCqHeadWrite v) s = .next t ∧ t.port.cqHead = v.toNat % 2 ^ s.port.cqLog ∧ s.sameBytes t) ∧
    (s.port.frames = [] → ∃ t, exec (.hpPoolWrite v) s = .next t ∧ t.port.pool = max 64 (min 1024 (v.toNat % 2048)) ∧
      t.port.staged = [] ∧ s.sameBytes t) ∧
    (s.port.frames = [] → ∃ t, exec (.hpApaBaseWrite x) s = .next t ∧ t.port.apaBase = bits x.toNat 24 10 ∧
      t.port.staged = s.port.staged.filter (fun g => decide (g.ch ≠ .a)) ∧ s.sameBytes t) ∧
    (s.port.frames = [] → ∃ t, exec (.hpApbBaseWrite x) s = .next t ∧ t.port.apbBase = bits x.toNat 24 10 ∧
      t.port.staged = s.port.staged.filter (fun g => decide (g.ch ≠ .b)) ∧ s.sameBytes t) ∧
    ((∀ m : Fin 16, s.models[m].st = .empty) → s.intakeOpen = false → ∃ t, exec (.hpWhSplitWrite v) s = .next t ∧
      t.port.split = max 1 (v.toNat % 64) ∧ s.sameBytes t) ∧
    (s.port.sqHead = s.port.recorded.getD s.port.sqTail → s.port.inUse = [] → s.port.cqHead = s.port.cqTail →
      ∃ t, exec (.hpRingCfgWrite v) s = .next t ∧ t.port.sqLog = max 6 (min 12 (v.toNat % 16)) ∧
        t.port.cqLog = max 6 (min 12 (v.toNat / 256 % 16)) ∧ t.port.sqHead = 0 ∧ t.port.cqTail = 0 ∧ t.port.cqPhase = true ∧
        (∀ a, portKey 0 ≤ a → a < portKey 0x80000 → t.mem.byte a = 0) ∧ s.sameOutside t (portKey 0) 0x80000)) ∧
  (∀ (s : State) (v : W32) (x : W64), s.portOn = true → s.chouse.scrub = none → s.port.frames = [] →
    (s.port.state = .ready → ∃ t, exec (.hpDbSqWrite v) s = .next t ∧ t.port.sqTail = v.toNat % 2 ^ s.port.sqLog ∧ s.sameBytes t) ∧
    (s.port.state ≠ .ready → ∃ t, exec (.hpDbSqWrite v) s = .next t ∧ t.port.recorded = some (v.toNat % 2 ^ s.port.sqLog) ∧
      t.port.sqTail = s.port.sqTail ∧ s.sameBytes t) ∧
    (s.port.stageQ.length < 16 → ∀ p ∈ [(Instr.stageRequest x, false), (.unstageRequest x, true)],
      ∃ t, exec p.1 s = .next t ∧ s.sameBytes t ∧ t.port.stageQ = s.port.stageQ ++
        [.host p.2 (bits x.toNat 52 11) (if bit x.toNat 51 then .b else .a) (bits x.toNat 12 19 * 4096) (bits x.toNat 0 12)]) ∧
    (16 ≤ s.port.stageQ.length → ∃ t, exec (.stageRequest x) s = .next t ∧ t.port.stageQ = s.port.stageQ ∧ t.port.drop = true))

/-- The head of the staging queue starts when no other copy is under way, no scrub runs, the device is in A and the port not halted;
when its copies are done, they are staged and it leaves the queue, which MOVE.STAGEs that waited may then enter (14.R378 to R380). A
write frame that times out drains, but for one of a confidential page, and a drained frame is freed (14.R374, R376, 17.R444). -/
def Obligations.StagingAndFrames : Prop :=
  (∀ s : State,
    (s.port.stageBusy = false → s.chouse.scrub = none → s.power.cur = 0 → s.power.inTrip = false → s.port.state ≠ .halted →
      (∀ un n ch addr k rest, s.port.stageQ = .host un n ch addr k :: rest →
        exec .stageRequestStart s = .next ((s.startHostStage un (requestPages n ch addr) k).pumpStaging)) ∧
      (∀ q uid td m rest, s.port.stageQ = .move q uid td m :: rest →
        exec .stageRequestStart s = .next ((s.startMoveStage q uid td m).pumpStaging))) ∧
    ((s.port.stageBusy = true ∨ s.power.inTrip = true ∨ s.port.state = .halted) → exec .stageRequestStart s = .next s) ∧
    (∀ q uid td m rest, s.port.stageBusy = true → s.port.stageQ = .move q uid td m :: rest →
      ∃ u, exec .stageCopyDone s = .next u.pumpStaging ∧ u.port.stageBusy = false ∧ u.port.stageQ = rest ∧
        (∀ g ∈ u.port.staged, g.copied = true) ∧ s.sameBytes u) ∧
    (∀ un n ch addr k rest, s.port.stageBusy = true → s.port.stageQ = .host un n ch addr k :: rest →
      ∃ u, exec .stageCopyDone s = .next u.pumpStaging ∧ u.port.stageBusy = false ∧ u.port.stageQ = rest ∧ u.port.stageResult = 0 ∧
        u.port.stageSeq = k ∧ (∀ g ∈ u.port.staged, g.copied = true) ∧ s.sameBytes u)) ∧
  (∀ (s : State) (ch : Chan) (page : Nat) (f : Frame),
    (s.port.frames.find? (isFrame ch page) = some f → s.confPage ch page = false →
      exec (.frameDrainTimeout ch page) s = .next (s.startDrain f)) ∧
    (s.port.frames.find? (isFrame ch page) = some f → s.confPage ch page = true → exec (.frameDrainTimeout ch page) s = .next s) ∧
    (s.port.frames.find? (fun g => decide (g.ch = ch) && g.page == page && g.draining) = some f →
      ∃ t, exec (.frameDrainDone ch page) s = .next t ∧ t.port.frames = s.port.frames.erase f ∧ s.sameBytes t))

/-- In plain mode the oldest finished request is posted when the completion ring has room: its entry stands at the old tail with the
phase, the tail moves, and its slot is free. In confidential mode it waits for the 1 us tick (14.R385, R387, 17.R449). -/
def Obligations.CompletionsPost : Prop :=
  ∀ (s : State) (c : Completion) (rest : List Completion), s.canonical = true → s.chouse.scrub = none → s.port.finished = c :: rest →
    (s.chouse.conf = false → s.port.deferred = [] → s.port.cqFull = false → s.port.cqTail < 4096 → c.frees = true →
      ∃ t, exec .cqPost s = .next t ∧ t.port.finished = rest ∧ t.port.cqTail = (s.port.cqTail + 1) % 2 ^ s.port.cqLog ∧
        t.mem.bytes (portKey (0x40000 + 64 * s.port.cqTail)) 64 = completionBytes c s.port.cqPhase ∧
        s.sameOutside t (portKey (0x40000 + 64 * s.port.cqTail)) 64 ∧
        t.port.inUse = s.port.inUse.filter (fun n => n != c.slot)) ∧
    (s.chouse.conf = false → s.port.deferred = [] → s.port.cqFull = true → exec .cqPost s = .next s) ∧
    (s.chouse.conf = true → exec .cqPost s =
      .next { s with port := { s.port with finished := rest, deferred := s.port.deferred ++ [c] } }) ∧
    (s.port.modTime ≠ 0 → s.port.unread.any (fun e => e.2.1 || e.2.2) = true → ∃ t, exec .cqIrqTimeout s = .next t ∧
      t.port.aged = true ∧ t.port.irqStatus = s.port.irqStatus ||| BitVec.ofNat 8 (2 ^ IRQ_CQ)) ∧
    (s.chouse.conf = true → s.port.deferred = [] → ∃ t, exec .confTimerTick s = .next t ∧
      t.port.tailShown = (s.port.cqTail, s.port.cqPhase) ∧ t.port.irqPin = (s.supply.vddIo && s.port.pinWanted) ∧ s.sameBytes t)

/-! ### Requests and jobs (chapters 11, 14, 15, 17, 21) -/

/-- The request at HP_SQ_HEAD is accepted by the row that it names: the head moves, its slot is in use, and the request goes on; a
malformed entry completes with HP_ENTRY_FORM. With no entry there the command changes nothing (14.R382 to R384). -/
def Obligations.RequestsAccepted : Prop :=
  ∀ (s : State), s.takeHead.port.sqHead = (s.port.sqHead + 1) % 2 ^ s.port.sqLog ∧
    s.takeHead.port.inUse = s.port.inUse ++ [s.port.sqHead] ∧
    ∀ p ∈ ([(.submitJob, s.namesImage, State.acceptJob), (.submitPipeline, s.namesRecord PIPE_MAGIC, State.acceptPipe),
        (.submitCancel, fun e => e.kind == 5, State.acceptCancel), (.submitLoad, fun e => e.kind == 2, State.acceptLoad false),
        (.submitRestore, fun e => e.kind == 3, State.acceptLoad true), (.submitUnload, fun e => e.kind == 4, State.acceptUnload),
        (.counterRequest, s.namesRecord COUNTER_MAGIC, State.acceptDump),
        (.submitSeal, fun e => e.kind == 0x10, State.acceptBlock sealForm State.runSeal),
        (.submitSession, fun e => e.kind == 0x11, State.acceptBlock sessionForm State.runSession),
        (.submitRekey, fun e => e.kind == 0x12, State.acceptBlock epochForm State.runRekey),
        (.submitRetire, fun e => e.kind == 0x13, State.acceptBlock epochForm State.runRetire)] :
        List (Instr × (Entry → Bool) × (Entry → Nat → State → State))),
      (s.headEntry = none → exec p.1 s = .next s) ∧
      (∀ e, s.headEntry = some e → p.2.1 e = true →
        (e.bad = false → exec p.1 s = .next (p.2.2 e s.port.sqHead s.takeHead)) ∧
        (e.bad = true → ∃ t, exec p.1 s = .next t ∧
          t.port.finished = s.port.finished ++ [e.completion s.port.sqHead HP_ENTRY_FORM]))

/-- What accepted requests do: a job whose image's header passes waits, and so does a pipeline whose record and images pass; a counter
request writes its entries; a CANCEL without a target completes with JOB_NO_TARGET, and one of a waiting job ends it; a LOAD, RESTORE
or UNLOAD completes with WL_BUSY while one is in progress, and begins otherwise; a SEAL takes the next counter and a fresh key, a
SESSION opens; a REKEY takes the next epoch, and a RETIRE ends the previous one (15.R399, R403 to R405, 11.R297, R299, 17.R438, R439,
R447, 21.R511, R512). -/
def Obligations.RequestEffects : Prop :=
  ∀ (s : State) (e : Entry), s.headEntry = some e → e.bad = false →
    let u := s.takeHead
    let slot := s.port.sqHead
    let off := e.arg0 % 2 ^ 44
    (e.kind = 1 → s.namesImage e = true → u.headerPasses off = true →
      ∃ t, exec .submitJob s = .next t ∧ t.jobs = s.jobs ++ [e.job slot (s.accepted + 1)] ∧ s.sameBytes t) ∧
    (∀ b, s.namesRecord PIPE_MAGIC e = true → u.readWh off 64 = some (b.take 64) → u.readWh off (64 + 64 * leAt b 6 1) = some b →
      pipeOk b e.mslot e.nbind = true → u.imagesPass b = true → ∃ t, exec .submitPipeline s = .next t ∧
        t.jobs = s.jobs ++ [(e.job slot (s.accepted + 1)).nextRun { record := b, stages := leAt b 6 1 } e.lengths] ∧ s.sameBytes t) ∧
    (∀ b, s.namesRecord COUNTER_MAGIC e = true → u.readWh off 64 = some b → u.dumpOk b e = true → bit e.flags 2 = false →
      s.canonical = true → bit (parseDump b).ops 4 = false →
      let n := (u.dump (parseDump b)).1.length
      let r := parseDump b
      ∃ t, exec .counterRequest s = .next t ∧ s.sameOutside t r.out (16 * r.len) ∧ t.port.finished = s.port.finished ++
        [{ e.completion slot 0 with d0 := min r.len n, d1 := n - min r.len n, d2 := s.lgTail }]) ∧
    (e.kind = 5 → (∀ j ∈ s.jobs, j.slot ≠ e.arg2 0) → ∃ t, exec .submitCancel s = .next t ∧
      t.port.finished = s.port.finished ++ [e.completion slot JOB_NO_TARGET] ∧ t.jobs = s.jobs) ∧
    (∀ j, e.kind = 5 → s.jobOf (e.arg2 0) = some j → j.home = none → j.st = .ending → ∃ t, exec .submitCancel s = .next t ∧
      t.port.finished = s.port.finished ++ [e.completion slot JOB_NO_TARGET] ∧ t.jobs = s.jobs) ∧
    (∀ j, e.kind = 5 → s.jobOf (e.arg2 0) = some j → j.home = none → j.st = .waiting → j.cancels = [] →
      ∃ t, exec .submitCancel s = .next t ∧ t.jobs = s.jobs.filter (fun x => x.slot != j.slot) ∧
        t.port.finished.map (fun c => (c.slot, c.status)) =
          s.port.finished.map (fun c => (c.slot, c.status)) ++ [(j.slot, JOB_CANCELLED), (slot, 0)]) ∧
    (s.load.isSome = true → ∀ p ∈ [(Instr.submitLoad, 2), (.submitRestore, 3), (.submitUnload, 4)], e.kind = p.2 →
      ∃ t, exec p.1 s = .next t ∧ t.port.finished = s.port.finished ++ [e.completion slot WL_BUSY] ∧ t.load = s.load) ∧
    (∀ map a, s.load = none → e.mslot < 16 → s.mgmt.waiting = none → u.readMap e = some map →
      firstIndex (u.entryFails map e.mslot) map = none → u.heapPlace = some a →
      ∀ p ∈ [(Instr.submitLoad, 2, false), (.submitRestore, 3, true)], e.kind = p.2.1 →
      (p.2.2 = true → (u.model e.mslot).st = .dormant) →
      ∃ t l, exec p.1 s = .next t ∧ t.load = some l ∧ l.mslot = e.mslot ∧ l.restore = p.2.2 ∧ l.pkgLen = e.arg0 ∧ l.map = map ∧
        l.heapAt = some a ∧ s.sameBytes t) ∧
    (s.load = none → e.mslot < 16 → s.mgmt.waiting = none → e.kind = 4 → ∃ t, exec .submitUnload s = .next t ∧
      (t.model e.mslot).unload = (s.model e.mslot).unload ++ [e.completion slot 0] ∧ s.sameBytes t) ∧
    (∀ b, u.blockAt off = some b → s.canonical = true →
      (e.kind = 0x10 → sealForm u b = true → ∃ t, exec .submitSeal s = .next t ∧
        t.keyIn 1 = some { ty := .x25519, bytes := leBytes 32 (Config.random s.chouse.draws).toNat } ∧
        t.chouse.sealCtr = (s.chouse.sealCtr + 1) % 2 ^ 64 ∧ t.chouse.sealFor = some t.chouse.sealCtr ∧
        s.sameOutside t (leAt b 0x20 8) sealOutBytes ∧ t.port.finished = s.port.finished ++
          [{ e.completion slot 0 with d0 := t.chouse.sealCtr, d1 := sealOutBytes }]) ∧
      (∀ k, e.kind = 0x11 → sessionForm u b = true → s.keyIn 1 = some k → s.chouse.sealFor = some (leAt b 0x20 8) →
        (x25519 k.bytes (b.take 32)).all (· == 0) = false → ∃ t, exec .submitSession s = .next t ∧
        let prk := hmac s.chouse.sealDigest (x25519 k.bytes (b.take 32))
        t.chouse.session = { live := true } ∧ t.keyIn 1 = none ∧
        t.keyIn 2 = some { ty := .aes256, bytes := pageKeyOf prk 0 } ∧ s.sameOutside t (leAt b 0x28 8) 64)) ∧
    (∀ b, u.blockAt off = some b → restZero b 1 = true → s.chouse.session.live = true →
      (e.kind = 0x12 → s.chouse.session.prevLive = false → leAt b 0 1 = (s.chouse.session.rekeys + 1).toNat % 4 →
        ∃ t, exec .submitRekey s = .next t ∧ t.chouse.session.rekeys = s.chouse.session.rekeys + 1 ∧
          t.chouse.session.prevLive = true ∧ s.sameBytes t) ∧
      (e.kind = 0x13 → s.chouse.session.previous = some (leAt b 0 1) → leAt b 0 1 ≠ s.chouse.session.current →
        ∃ t, exec .submitRetire s = .next t ∧ t.chouse.session.prevLive = false ∧ t.keyIn (2 + leAt b 0 1) = none ∧
          s.sameBytes t))

/-- The life of a job: the first job in the order that may be dispatched is launched on its core set, and a counter request among them
is carried out; the boundary of one that is
over resets its cores and zeroes their stores; a core's fault ends its job with the code; a companion job waits in its slot
(15.R396, R399 to R401, 07.R217, 19.R480). -/
def Obligations.JobRows : Prop :=
  (∀ (s : State) (j : Job), s.dispatches = true → s.firstJob s.jobs [] = some j → j.counter = false → s.dispatchFault j = none →
    ∀ img binds, s.jobImage (s.claimed j) = some img → s.bindTable (s.claimed j) = some binds →
      imageOk img (s.claimed j).nbind = true → exec .jobDispatch s = .next (s.launch (s.claimed j) img binds)) ∧
  (∀ (s : State) (j : Job), s.dispatches = true → s.firstJob s.jobs [] = some j → j.counter = true → exec .jobDispatch s =
    .next (({ s with jobs := s.jobs.filter (fun x => x.slot != j.slot) } : State).doDump j.entry j.slot)) ∧
  (∀ (s : State) (j : Job) (st : Nat), s.dispatches = true → s.firstJob s.jobs [] = some j → j.counter = false →
    s.dispatchFault j = some st →
    ∃ t, exec .jobDispatch s = .next t ∧ t.jobs = s.jobs.filter (fun x => x.slot != j.slot) ∧ s.sameBytes t) ∧
  (∀ (s : State) (slot : Nat) (j : Job), s.jobOf slot = some j → s.jobOver j = true → s.mgmt.waiting = none → s.assay.en = false →
    ∃ t, exec (.jobBoundary slot) s = .next t ∧ ∀ x ∈ j.cores, t.cores[coreIx x.2].job = none ∧
      t.cores[coreIx x.2].seq.running = false ∧ t.cores[coreIx x.2].seq.s = Vector.replicate 32 0 ∧
      t.cores[coreIx x.2].seq.flags = 0 ∧ t.cores[coreIx x.2].acc = [] ∧
      ∀ a, coreKey (coreIx x.2).val 0 ≤ a → a < coreKey (coreIx x.2).val 0 + coreStoreBytes → t.mem.byte a = 0) ∧
  (∀ (c : Fin 64) (s : State) (slot : Nat) (j : Job), s.cores[c].seq.faulted = true → s.cores[c].seq.reported = false →
    s.cores[c].drainedQueues = true → s.cores[c].job = some slot → s.jobOf slot = some j → j.st ≠ .ending →
    exec (.coreFaultReport c) s =
      .next ((s.updCore c (fun k => { k with seq := { k.seq with reported := true } })).endJob slot
        (s.cores[c].seq.fault0.toNat % 2 ^ 16) s.cores[c].seq.fault0.toNat s.cores[c].seq.fault1.toNat)) ∧
  (∀ (home : Fin 8) (n : Fin 4096) (entry : List Byte) (bind : List W64) (image : List Byte) (s : State), s.boot = .service →
    home.val ≠ s.shape.fabricId → (parseEntry entry).bad = false → (parseEntry entry).kind = 1 →
    s.jobOf (0x8000 + 0x1000 * home.val + n.val) = none → imageOk image (parseEntry entry).nbind = true →
    ∃ t j, exec (.companionJob home n entry bind image) s = .next t ∧ t.jobs = s.jobs ++ [j] ∧
      j.slot = 0x8000 + 0x1000 * home.val + n.val ∧ j.home = some home.val ∧ j.image = image ∧ j.binds = bind ∧ j.st = .waiting ∧
      t = { s with jobs := t.jobs })

/-- Intake: a staged chunk whose digest is right is verified, and one whose digest is wrong has its pages cleared and is asked for
again; an overdue chunk ends the request; idleness makes the manifest overdue; a holder pulls its chunks, and the intake device hears
that it has; a verified chunk is converted; a load announced meanwhile is answered with WL_BUSY (11.R297, R300 to R307). -/
def Obligations.IntakeRows : Prop :=
  ∀ (s : State) (l : LoadReq), s.load = some l →
    (∀ i rest m, l.toCheck = some i :: rest → l.manifest = some m →
      (sha512 (l.heap.bytes (m.chunk i).offset (m.chunk i).length) = (m.chunk i).digest →
        exec .chunkDigestCheck s = .next { s with load := some { l with
          toCheck := rest, chunks := updL l.chunks i (fun x => { x with verified := true, overdue := false }) } }) ∧
      (sha512 (l.heap.bytes (m.chunk i).offset (m.chunk i).length) ≠ (m.chunk i).digest → (l.chunks.getD i {}).failures < 3 →
        ∃ t, exec .chunkDigestCheck s = .next t ∧ t.port.finished = s.port.finished ++ [resendNotice { l with toCheck := rest } i] ∧
          s.sameBytes t)) ∧
    (∀ rest, l.toCheck = none :: rest → exec .chunkDigestCheck s =
      .next (s.checkManifest { l with toCheck := rest } (l.heap.bytes 0 (min (leNat (l.heap.bytes 0x24 4)) l.pkgLen)))) ∧
    (∀ i : Nat, i < 2 ^ 32 - 1 → l.intake = true → l.admitted = false → (l.chunks.getD i {}).overdue = true →
      (l.chunks.getD i {}).staged = false → ∃ t, exec (.chunkOverdueExpiry i) s = .next t ∧ t.load = none ∧
        t.port.finished = s.port.finished ++ [l.completion WL_SHARD_MISSING i]) ∧
    (l.intake = true → l.admitted = false → l.manifest = none → l.manifestStaged = false →
      exec .intakeIdleTimeout s = .next { s with load := some { l with manifestOverdue := true } }) ∧
    (∀ i m (b : List Byte), l.manifest = some m → i < m.chunks.length → l.intake = false → (m.chunk i).shard = s.shape.fabricId →
      (l.chunks.getD i {}).verified = false → b.length = (m.chunk i).length → sha512 b = (m.chunk i).digest →
      exec (.chunkPull i b) s = .next { s with load := some { l with heap := l.heap.write (m.chunk i).offset b
                                                                     chunks := updL l.chunks i (fun x => { x with staged := true, verified := true }) } }) ∧
    (∀ i m, l.manifest = some m → i < m.chunks.length → l.intake = false → (m.chunk i).shard = s.shape.fabricId →
      (l.chunks.getD i {}).verified = false → l.admitted = false → ∃ t, exec (.pullTimeout i) s = .next t ∧ t.load = none ∧
        t.port.finished = s.port.finished) ∧
    (∀ i place m, l.manifest = some m → s.mayConvert l m i place = true →
      (l.chunkBad m (m.chunk i) = false → exec (.chunkConvert i place) s = .next (s.convertChunk l m i place)) ∧
      (l.chunkBad m (m.chunk i) = true → l.admitted = false → l.intake = true →
        ∃ t, exec (.chunkConvert i place) s = .next t ∧ t.load = none ∧
          t.port.finished = s.port.finished ++ [l.completion WL_CHUNK_FORM i])) ∧
    (∀ i m (b : List Byte), l.manifest = some m → i < m.chunks.length → l.intake = true → (m.chunk i).shard ≠ s.shape.fabricId →
      (l.chunks.getD i {}).verified = true → (l.chunks.getD i {}).pulled = false → b.length = (m.chunk i).length →
      sha512 b = (m.chunk i).digest → exec (.chunkPull i b) s =
        .next { s with load := some { l with chunks := updL l.chunks i (fun x => { x with pulled := true }) } }) ∧
    (∀ (peer : Fin 8) (n : Fin 16) (len : Nat) (b : List Byte) (map : List W64),
      (peer.val = s.shape.fabricId → exec (.loadAnnounce peer n len b map) s = .next s) ∧
      (∀ sn, s.boot = .service → peer.val ≠ s.shape.fabricId → s.fabric.members[peer] = some (sn, false) → l.intake = true →
        exec (.loadAnnounce peer n len b map) s = .next (s.tellLoad peer.val WL_BUSY 0)))

/-- The loader: a holder that hears of a load takes it; a ply that may be programmed is, in a RESTORE after a VERIFY, and joins the
programmed ones; a complete LOAD is admitted and raises its slot's barrier, a complete RESTORE ends; the swap raises the barrier and
takes its step; a load that has failed rolls back;
an UNLOAD without dispatched jobs empties its slot (11.R305, R315 to R325). -/
def Obligations.LoaderRows : Prop :=
  (∀ (s : State) (l : LoadReq) (m : Manifest), s.load = some l → l.manifest = some m →
    (∀ (ply : Fin 8192) (d : DirEntry), l.entries.find? (fun e => e.1 == ply.val) = some (ply.val, d) →
      s.mayProgram l ply.val = true →
      let w8 := l.classOf m s.shape.fabricId ply.val
      let r := if l.restore then s.restorePly ply.val d w8 else s.loadPly ply.val d w8
      exec (.loaderPlyProgram ply) s =
        .next (if r.1 then r.2.updLoad (fun l => { l with programmed := l.programmed ++ [ply.val] })
          else r.2.loadFailure WL_PROG_FAIL ply.val)) ∧
    (l.admitted = false → l.restore = false → s.chunksDone l m = true → s.pliesDone l = true →
      ∃ t k, exec (.modelAdmission true) s = .next t ∧ t.load = some k ∧ k.admitted = true ∧ k.heap = [] ∧ k.heapAt = none ∧
        (l.mslot < 16 → (t.model l.mslot).barrier = true) ∧ s.sameBytes t) ∧
    (l.admitted = false → l.restore = true → l.intake = true → s.chunksDone l m = true → s.pliesDone l = true →
      ∃ t, exec (.modelAdmission true) s = .next t ∧ t.load = none ∧ t.port.finished = s.port.finished ++ [l.completion 0 0] ∧
        (l.mslot < 16 → (t.model l.mslot).st = .resident) ∧ s.sameBytes t) ∧
    (l.admitted = true → l.done.status = 0 → (s.model l.mslot).barrier = false → l.mslot < 16 →
      ∃ t, exec .swapProgram s = .next t ∧ (t.model l.mslot).barrier = true ∧ s.sameBytes t) ∧
    (l.admitted = true → l.done.status = 0 → (s.model l.mslot).barrier = true → s.slotBusy l.mslot = false →
      (∀ e ∈ s.swapPlies l m, s.usable (plyCore e.1) = true ∧ s.coreIdle (plyCore e.1) = true ∧
        s.progFree (plyCore e.1) 1 = true ∧ s.capFree (plyCore e.1) 1 = true) →
      exec .swapProgram s = .next (s.swapStep l m))) ∧
  (∀ (s : State) (l : LoadReq), s.load = some l → l.admitted = true → l.done.status ≠ 0 → s.slotBusy l.mslot = false → l.old = [] →
    l.programmed = [] → l.intake = true → ∃ t, exec .loadRollback s = .next t ∧ t.load = none ∧
      t.port.finished = s.port.finished ++ [l.completion l.done.status l.done.d2] ∧
      (l.mslot < 16 → (t.model l.mslot).barrier = false)) ∧
  (∀ (s : State) (n : Fin 16), s.load = none → (s.model n.val).unload ≠ [] → s.slotBusy n.val = false →
    ∃ t, exec (.unloadFree n) s = .next t ∧ (t.model n.val).st = .empty ∧ (t.model n.val).unload = [] ∧
      (t.model n.val).gen = (s.model n.val).gen) ∧
  (∀ (s : State) (peer : Fin 8) (n : Fin 16) (len : Nat) (b : List Byte) (map : List W64) (sn : W64), s.load = none →
    s.boot = .service → peer.val ≠ s.shape.fabricId → s.fabric.members[peer] = some (sn, false) → s.mgmt.waiting = none →
    (∀ p ∈ map.map (fun w => parsePlacement w.toNat), s.entryFails (map.map (fun w => parsePlacement w.toNat)) n.val p = false) →
    ∃ l, l.mslot = n.val ∧ l.intake = false ∧ l.intakeId = peer.val ∧ l.pkgLen = len ∧
      l.map = map.map (fun w => parsePlacement w.toNat) ∧
      l.restore = (decide ((s.model n.val).st = .dormant) &&
        decide ((s.model n.val).digest = sha512 (b.take (b.length - 64)))) ∧
      exec (.loadAnnounce peer n len b map) s = .next (({ s with load := some l } : State).checkManifest l b))

/-! ### Start-up, supplies, security, management (chapters 17, 18, 22, 23) -/

/-- The phases of start-up: PORST_N low resets what is volatile and keeps the Warehouse, the plies and the fuses; its rise runs the
hardware phase, or holds an internal reset while a rail is out; the boot ROM takes a valid bank or recovers; house firmware sets the
clocks from the header; service firmware makes the port READY, or HALTED in TRIP (22.R528, 23.R541, R546, 17.R428). -/
def Obligations.BootPhases : Prop :=
  ∀ s : State,
    (∃ t, exec .porstAssert s = .next t ∧ t.boot = .porst ∧ t.port = {} ∧ (∀ c : Fin 64, t.cores[c] = {}) ∧ t.fuses = s.fuses ∧
      t.plies = s.plies ∧ t.cells = s.cells ∧ t.jobs = [] ∧
      (∀ a, t.mem.byte a = if a / 2 ^ 44 = 0 then s.mem.byte a else 0)) ∧
    (s.boot = .porst → s.supply.out ≠ [] → ∃ t, exec .porstDeassert s = .next t ∧ t.boot = .internalReset) ∧
    (s.boot = .porst → s.supply.out = [] → s.refclk.present = true → ∃ t, exec .porstDeassert s = .next t ∧ t.boot = .hardware ∧
      t.house.running = true ∧ t.plies = s.plies) ∧
    (s.boot = .porst → s.supply.out = [] → s.refclk.present = false → ∃ t, exec .porstDeassert s = .next t ∧ t.boot = .selfTest ∧
      t.port.irqStatus = BitVec.ofNat 8 (2 ^ IRQ_CLK)) ∧
    (s.boot = .internalReset → s.refclk.present = true → ∃ t, exec .internalResetRelease s = .next t ∧ t.boot = .hardware ∧
      t.supply.out = []) ∧
    (s.boot = .hardware → s.bankValid s.chouse.bank = true → exec .bootRomPhase s = .next { s with boot := .rom }) ∧
    (s.boot = .hardware → s.bankValid s.chouse.bank = false → s.bankValid (1 - s.chouse.bank) = false →
      ∃ t, exec .bootRomPhase s = .next t ∧ t.boot = .recovery ∧ t.port.state = .halted) ∧
    (s.boot = .rom → s.assay.badRecords = [] → ∃ t, exec .houseFirmwarePhase s = .next t ∧ t.boot = .house ∧
      t.assay.age = s.assay.hdrAge ∧ t.assay.epoch = s.assay.hdrEpoch ∧ s.sameBytes t) ∧
    (s.boot = .house → s.mgmt.waiting = none → s.chouse.scrub = none → ∃ t, exec .serviceFirmwarePhase s = .next t ∧
      t.boot = .service ∧ t.port.state = (if s.power.inTrip then .halted else .ready) ∧ s.sameBytes t)

/-- Supplies, consent and scrub: an excursion of a rail is an internal reset, of a Warehouse rail with the loss of its contents; VPROG
low stops the pulses of the PROGs that integrate; VDD_IO releases DEV_IRQ_N; a press latches consent; the end of a scrub leaves every
SRAM and the host part zero, and the port READY (10.R279, 17.R433, R450, R451, 22.R527, R528). -/
def Obligations.SupplyEvents : Prop :=
  ∀ s : State,
    (∀ rail : Rail, s.railCounts rail = true → s.boot ≠ .porst → ∃ t, exec (.railExcursion rail) s = .next t ∧
      t.boot = .internalReset ∧ rail ∈ t.supply.out ∧ t.port = {} ∧
      (feedsWarehouse rail = true → (∀ a, t.mem.byte a = 0) ∧ t.written = []) ∧
      (feedsWarehouse rail = false → ∀ a, a / 2 ^ 44 = 0 → t.mem.byte a = s.mem.byte a)) ∧
    (∃ t, exec .vprogLowDuringProg s = .next t ∧ s.sameBytes t ∧
      (s.cores.toList.any progIntegrates = true → t.supply = s.supply ∧ ∀ c : Fin 64, ∀ i ∈ t.cores[c].loomQ, i.kind = .prog →
        i.phase = .integrating → i.vprogLow = true) ∧
      (s.cores.toList.any progIntegrates = false → t = { s with supply := { s.supply with vprogLow := true } })) ∧
    (∃ t, exec .vddIoLoss s = .next t ∧ t.supply.vddIo = false ∧ t.port.irqPin = false ∧ s.sameBytes t) ∧
    (s.chouse.scrub = none → s.chouse.conf = false → ∃ t, exec .vddIoReturn s = .next t ∧ t.supply.vddIo = true ∧
      t.port.irqPin = s.port.pinWanted ∧ s.sameBytes t) ∧
    (s.boot = .porst → exec .powerDownHold s = .next { s with supply := { s.supply with holding := true } }) ∧
    (s.portOn = true → s.supply.vddIo = true → exec .consentPress s = .next { s with chouse := { s.chouse with consent := true } }) ∧
    (exec .consentExpiry s = .next { s with chouse := { s.chouse with consent := false } }) ∧
    (∀ k, s.chouse.scrub = some k → k.looms = false → s.jobs = [] → s.load = none → s.power.inTrip = false →
      s.mgmt.joined = [] →
      ∃ t, exec .scrubEnd s = .next t ∧ t.chouse.scrub = none ∧ t.port.state = .ready ∧ t.port.cqTail = 0 ∧
        (∀ a, a / 2 ^ 44 ≠ 0 ∨ a < s.port.split % 64 * 2 ^ 28 → t.mem.byte a = 0) ∧
        (∀ c : Fin 64, t.cores[c].acc = [] ∧ t.cores[c].seq.flags = 0) ∧ t.keyIn 1 = none ∧
        t.chouse.conf = k.mode.getD s.chouse.conf)

/-- The SEC rows on the house sequencer complete: each with the operands that its descriptors name readable, its key slot holding a
key of its type, and its result writable. A result of fixed length stands at the BASE of its descriptor, and a message fills a
row; no byte outside the destination changes, and none where the row writes none (08.R246, 17.R424, R430). -/
def Obligations.SecRows : Prop :=
  ∀ (w : W128) (s : State), s.Takes .house w → s.canonical = true →
    let n := secSlot w
    let o := secOut w
    let x (slot : Nat) (t : TD) : Prop := s.Names .house slot false t ∧ s.readableRuns .house t
    let d (t : TD) : Prop := s.Names .house (wTdd w) true t ∧ tdEmpty t = false
    let fits (t : TD) (k : Nat) : Prop := s.localSpan .house true t.base k
    let quiet (i : Instr) (p : State → Prop) : Prop := i.wordOk = true →
      ∃ t, exec i s = .next t ∧ p t ∧ Seqr.wentOn s.house t.house ∧ s.sameBytes t
    let puts (i : Instr) (a : TD) (b : List Byte) : Prop := i.wordOk = true →
      ∃ t, exec i s = .next t ∧ t.bytesAt a.base b.length = b ∧ s.sameOutside t (a.base % 2 ^ 48) b.length ∧
        Seqr.wentOn s.house t.house
    let nonce := leBytes 12 ((s.house.scalar (seqRA w)).toNat + (s.house.scalar (seqRB w)).toNat % 2 ^ 32 * 2 ^ 64)
    quiet (.secHashInit .house w) (fun t => t.chouse.hash = updN s.chouse.hash (hashIx w) (fun _ => [])) ∧
    (∀ a, x (wTda w) a → quiet (.secHashUpdate .house w) (fun t =>
      t.chouse.hash = updN s.chouse.hash (hashIx w) (fun h => h ++ s.messageAt a))) ∧
    (∀ r, d r → fits r 64 → puts (.secHashFinal .house w) r (sha512 (getN s.chouse.hash (hashIx w) []))) ∧
    (∀ r a k, d r → fits r 64 → x (wTda w) a → s.keyIn n = some k → k.ty = .ed25519 →
      puts (.secSign .house w) r (edSign k.bytes (s.messageAt a))) ∧
    (∀ a b c, x (wTda w) a → s.Names .house (wTdb w) false b → s.Names .house (wTdc w) false c →
      s.readableSpan .house b.base 32 → s.readableSpan .house c.base 64 → quiet (.secVerify .house w) (fun t =>
        t.house.flags.getLsbD FLAG_CMP = edVerify (s.bytesAt b.base 32) (s.messageAt a) (s.bytesAt c.base 64))) ∧
    (∀ a k, s.Names .house (wTda w) false a → s.readableSpan .house a.base 32 → s.keyIn n = some k → k.ty = .x25519 → 0 < o →
      o < 64 → quiet (.secDh .house w) (fun t =>
        t.keyIn o = some { ty := .hkdf, bytes := x25519 k.bytes (s.bytesAt a.base 32) })) ∧
    (∀ a b k, x (wTda w) a → x (wTdb w) b → s.keyIn n = some k → k.ty = .hkdf →
      (∀ ty, wForm w = 0 → assignedType o = some ty → 0 < o → quiet (.secKdf .house w) (fun t =>
        t.keyIn o = some { ty := ty, bytes := hkdf k.bytes (s.messageAt a) (s.messageAt b) (keyLen ty) })) ∧
      (∀ r, wForm w = 1 → d r → OneRow r → fits r (rowLen r) → s.inSecure r = true →
        puts (.secKdf .house w) r (hkdf k.bytes (s.messageAt a) (s.messageAt b) (rowLen r)))) ∧
    (∀ r a b c k, d r → x (wTda w) a → x (wTdb w) b → s.keyIn n = some k → k.ty = .aes256 → OneRow r → OneRow a →
      rowLen a = rowLen r → fits r (rowLen r) →
      (s.Names .house (wTdc w) true c → tdEmpty c = false → fits c 16 →
        (r.base % 2 ^ 48 + rowLen r ≤ c.base % 2 ^ 48 ∨ c.base % 2 ^ 48 + 16 ≤ r.base % 2 ^ 48) →
        (Instr.secAeadSeal .house w).wordOk = true →
        let y := gcmSeal k.bytes nonce (s.messageAt b) (s.messageAt a)
        ∃ t, exec (.secAeadSeal .house w) s = .next t ∧ t.bytesAt r.base (rowLen r) = y.1 ∧ t.bytesAt c.base 16 = y.2 ∧
          s.sameOutsideRuns t [(r.base, rowLen r), (c.base, 16)]) ∧
      (s.Names .house (wTdc w) false c → s.readableSpan .house c.base 16 →
        let y := gcmOpen k.bytes nonce (s.messageAt b) (s.messageAt a) (s.bytesAt c.base 16)
        (y = none → quiet (.secAeadOpen .house w) (fun t => t.house.flags.getLsbD FLAG_CMP = false)) ∧
        (∀ pt, y = some pt → puts (.secAeadOpen .house w) r pt ∧ ((Instr.secAeadOpen .house w).wordOk = true →
          ∃ t, exec (.secAeadOpen .house w) s = .next t ∧ t.house.flags.getLsbD FLAG_CMP = true)))) ∧
    (n ≠ 0 → quiet (.secKeyZero .house w) (fun t => t.keyIn n = none)) ∧
    (0 < n → n < 64 → bits (wImm w) 8 2 < 3 → quiet (.secKeyGen .house w) (fun t => t.keyIn n =
      some { ty := keyTypeOf (bits (wImm w) 8 2), bytes := leBytes 32 (Config.random s.chouse.draws).toNat })) ∧
    (∀ r, d r → fits r 32 →
      (∀ k, s.keyIn n = some k → k.ty = .x25519 → puts (.secKeyPub .house w) r (x25519Pub k.bytes)) ∧
      (∀ k, s.keyIn n = some k → k.ty = .ed25519 → puts (.secKeyPub .house w) r (edPub k.bytes)) ∧
      ((Instr.secKeyPub .house w).wordOk = true → ∃ t, exec (.secKeyPub .house w) s = .next t ∧
        s.sameOutside t (r.base % 2 ^ 48) 32)) ∧
    (∀ a ty, x (wTda w) a → s.inSecure a = true → assignedType n = some ty → 0 < n → quiet (.secKeyImport .house w) (fun t =>
      t.keyIn n = some { ty := ty, bytes := s.messageAt a })) ∧
    (∀ r, d r → OneRow r → fits r (rowLen r) → puts (.secRand .house w) r
      (((List.range ((rowLen r + 31) / 32)).flatMap (fun i =>
        leBytes 32 (Config.random (s.chouse.draws + i)).toNat)).take (rowLen r))) ∧
    quiet (.secFuseRead .house w) (fun t => t.house.s = updN s.house.s (seqRD w)
      (fun _ => BitVec.ofNat 64 (Config.fuseWord n s.fuses.svnBits s.fuses.revoke s.fuses.debugOff).toNat)) ∧
    (∀ b, b = Config.fuseBit ((s.house.scalar (seqRA w)).toNat % 2 ^ 16) →
      (b ≤ 68 → quiet (.secFuseBurn .house w) (fun t => t.fuses = (s.burn b).fuses)) ∧
      (68 < b → (Instr.secFuseBurn .house w).wordOk = true → ∃ t, exec (.secFuseBurn .house w) s = .next t ∧ t.fuses = s.fuses ∧
        t.house.faulted = true ∧ t.house.fault0.toNat % 2 ^ 16 = SEC_FUSE_LOCK)) ∧
    (∀ r a, d r → s.Names .house (wTda w) false a → s.keyIn n = none → (Instr.secSign .house w).wordOk = true →
      ∃ t, exec (.secSign .house w) s = .next t ∧ t.house.faulted = true ∧ t.house.fault0.toNat % 2 ^ 16 = SEC_KEY_EMPTY ∧
        s.sameBytes t)

/-- The debug port: UNLOCKED, it halts, steps and resumes any sequencer and reads and writes what the house sequencer may reach, but
for region 0x3 and the CH_ block; otherwise its balls do nothing (17.R452). -/
def Obligations.DebugRows : Prop :=
  ∀ (q : SeqId) (s : State) (a n : Nat) (b : List Byte),
    (s.chouse.debug = .unlocked →
      (∃ t, exec (.debugHalt q) s = .next t ∧ (t.seqr q).halted = true ∧ t.decodes q = false ∧ s.sameBytes t ∧
        (∀ q', q' ≠ q → t.seqr q' = s.seqr q')) ∧
      ((s.seqr q).halted = true → ∃ t, exec (.debugStep q) s = .next t ∧ (t.seqr q).stepOne = true ∧ (t.seqr q).halted = true ∧
        s.sameBytes t) ∧
      (∃ t, exec (.debugResume q) s = .next t ∧ (t.seqr q).halted = false ∧ s.sameBytes t) ∧
      (debugReaches a n = true → s.readableSpan .house a n → ∃ t, exec (.debugAccess a n none) s = .next t ∧
        t.latch.bytes = s.bytesAt a n ∧ s.sameBytes t) ∧
      (debugReaches a b.length = true → s.canonical = true → s.localSpan .house true a b.length →
        ∃ t, exec (.debugAccess a n (some b)) s = .next t ∧ t.bytesAt a b.length = b ∧
          s.sameOutside t (a % 2 ^ 48) b.length) ∧
      (debugReaches a b.length = false → exec (.debugAccess a n (some b)) s = .next s) ∧
      (debugReaches a n = false → exec (.debugAccess a n none) s = .next s)) ∧
    (s.chouse.debug ≠ .unlocked → ∀ i ∈ [Instr.debugHalt q, .debugStep q, .debugResume q, .debugAccess a n none,
      .debugAccess a n (some b)], exec i s = .next s)

/-- The I3C target answers while the device is out of reset with VDD_IO present: it takes addresses and enables of in-band
interrupts, and the bus reads its identification, its limits and the response posted, or none; without VDD_IO it does not
acknowledge (18.R455, R456, R458). -/
def Obligations.I3cRows : Prop :=
  ∀ (s : State) (a : BitVec 7),
    (s.i3cOn = true →
      (s.mgmt.daddr = none → ∀ i ∈ [Instr.i3cEntdaa a, .i3cSetdasa a],
        exec i s = .next { s with mgmt := { s.mgmt with daddr := some a.toNat } }) ∧
      exec .i3cRstdaa s = .next { s with mgmt := { s.mgmt with daddr := none } } ∧
      exec .i3cEnec s = .next { s with mgmt := { s.mgmt with ibiEn := true } } ∧
      exec .i3cDisec s = .next { s with mgmt := { s.mgmt with ibiEn := false } } ∧
      (∀ p ∈ [(Instr.i3cGetmwl, beBytes 2 4176), (.i3cGetmrl, beBytes 2 4176), (.i3cGetbcr, [Config.i3cBcr]),
        (.i3cGetdcr, [Config.i3cDcr]), (.i3cGetstatus, beBytes 2 Config.i3cStatus.toNat),
        (.i3cGetpid, beBytes 6 (Config.i3cMfr.toNat * 2 ^ 33 + s.fuses.serial.toNat % 2 ^ 32))],
        exec p.1 s = .next { s with latch := { s.latch with i3c := some p.2, nack := false } }) ∧
      (∀ b, s.mgmt.response = some b →
        exec .mgResponseRead s = .next { s with latch := { s.latch with i3c := some b, nack := false } }) ∧
      (s.mgmt.response = none → exec .mgResponseRead s = .next { s with latch := { s.latch with i3c := none, nack := true } })) ∧
    (s.i3cOn = false → exec .i3cGetpid s = .next { s with latch := { s.latch with i3c := none, nack := true } }) ∧
    exec .i3cHdrEntry s = .next s

/-- A management request whose frame, signature and counter pass executes its command, after the counter is taken and a signature
that passed has ended the run of failures; GET_STATUS and TELEMETRY answer with their data, FENCE holds the cores it names,
PROVISION enrols the first principal, and the permanent lock burns PERM_DEBUG_OFF (18.R457 to R466, 16.R420, 17.R429, R448). -/
def Obligations.MgRows : Prop :=
  (∀ (s : State) (f : List Byte), s.MgPasses f →
    (∀ p ∈ [(Instr.mgGetStatus f, 1), (.mgTelemetry f, 2), (.mgFence f, 3), (.mgUnfence f, 4), (.mgScrub f, 5), (.mgSetMode f, 6),
      (.mgSetProfile f, 7), (.mgFwStage f, 8), (.mgFwCommit f, 9), (.mgRotateKeys f, 10), (.mgDebugUnlock f, 11),
      (.mgDebugPermanentLock f, 11), (.mgProvision f, 12), (.mgForceState f, 13)], leAt f 0 1 = p.2 → p.1.frameWf = true →
      exec p.1 s = .next ((s.mgTaken f).mgExecute (mgReqOf f))) ∧
    (leAt f 0 1 = 1 → ∃ t b, exec (.mgGetStatus f) s = .next t ∧ t.mgmt.response = some b ∧ t.mgmt.lost = 0 ∧
      t.mgmt.log = s.mgmt.log.drop 16 ∧ (b.drop 16).take ((s.mgTaken f).statusData).length = (s.mgTaken f).statusData ∧ s.sameBytes t) ∧
    (leAt f 0 1 = 3 → ∃ t, exec (.mgFence f) s = .next t ∧
      ∀ c : Fin 64, bit (leAt ((mgReqOf f).args) 0 8) c.val = true → t.cores[c].fencedMg = true) ∧
    (leAt f 0 1 = 4 → ∃ t, exec (.mgUnfence f) s = .next t ∧ s.sameBytes t ∧
      ∀ c : Fin 64, bit (leAt ((mgReqOf f).args) 0 8) c.val = true → t.cores[c].fencedMg = false) ∧
    (leAt f 0 1 = 12 → s.chouse.principal = none → ∃ t, exec (.mgProvision f) s = .next t ∧
      t.chouse.principal = some ((mgReqOf f).args.take 32) ∧ t.mgmt.ctr = (mgReqOf f).ctr) ∧
    (leAt f 0 1 = 11 → lockForm f = true → ∃ t, exec (.mgDebugPermanentLock f) s = .next t ∧ t.fuses.debugOff = true ∧
      t.chouse.debug = .disabled)) ∧
  (∀ s : State, exec .mgLockoutExpiry s = .next { s with mgmt := { s.mgmt with lockout := false } })

/-! ### Links, fabric, reliability, power, counters (chapters 16, 19, 20, 21) -/

/-- A Stitch link: it trains from DOWN, after a retry, a refusal or a fence; training at full or half width makes it authenticate, and
fewer lanes leave it DOWN; loss of alignment takes it down; a challenge is answered; a peer's Seal that does not pass refuses the
link, and one that passes keys it; at 2^48 frames it is re-keyed (19.R471 to R476, 20.R490). -/
def Obligations.LinkRows : Prop :=
  ∀ (s : State) (n : Fin 4),
    let l := s.fabric.links[n]
    let trains (t : State) : Prop := t.fabric.links[n].st = .train ∧ t.fabric.links[n].failed = false ∧
      t.fabric.links[n].refused = false ∧ (∀ m : Fin 4, m ≠ n → t.fabric.links[m] = s.fabric.links[m]) ∧ s.sameBytes t
    (s.canTrain = true →
      (l.st = .down → l.failed = false → l.refused = false → l.fenced = false →
        ∃ t, exec (.linkTrainingStart n) s = .next t ∧ trains t) ∧
      (l.st = .down → l.failed = true → l.fenced = false → ∃ t, exec (.linkRetry n) s = .next t ∧ trains t) ∧
      (l.refused = true → l.fenced = false → ∃ t, exec (.linkRejectRetrain n) s = .next t ∧ trains t) ∧
      (l.fenced = true → l.fences.length < 3 → ∃ t, exec (.linkFenceRetrain n) s = .next t ∧ trains t ∧
        t.fabric.links[n].fenced = false)) ∧
    (l.st = .train →
      ((inWindow s.timeUs 60000000 l.trainings).length < 15 → ∀ p ∈ [(LaneResult.full, false), (.half, true)],
        ∃ t, exec (.linkTrainingDone n p.1) s = .next t ∧ t.fabric.links[n].st = .auth ∧ t.fabric.links[n].half = p.2) ∧
      (∃ t, exec (.linkTrainingDone n .fewer) s = .next t ∧ t.fabric.links[n].st = .down ∧ t.fabric.links[n].failed = true)) ∧
    (∃ t, exec (.linkAlignmentLoss n) s = .next t ∧ t.fabric.links[n].st = .down ∧
      (∀ m : Fin 4, m ≠ n → t.fabric.links[m] = s.fabric.links[m]) ∧ s.sameBytes t) ∧
    (∀ nonce : List Byte, s.fabricRuns = true → s.linksIdle = false → nonce.length = 32 → l.st = .auth → ∃ t, exec (.linkChallenge n nonce) s = .next t ∧
      t.fabric.links[n].mySealDigest.length = 64 ∧ t.chouse.sealCtr = (s.chouse.sealCtr + 1) % 2 ^ 64 ∧ s.sameBytes t) ∧
    (∀ (b dik ca : List Byte) (p : Fin 4), s.fabricRuns = true → s.linksIdle = false → l.st = .auth → l.mySealDigest ≠ [] →
      (s.sealAccepted n.val b dik ca = false → ∃ t, exec (.linkSealReceived n b dik ca p) s = .next t ∧
        t.fabric.links[n].st = .down ∧ t.fabric.links[n].refused = true ∧ t.fabric.links[n].lastCode = FB_SEAL_REJECT) ∧
      (∀ k, s.sealAccepted n.val b dik ca = true → s.keyIn (16 + n.val) = some k →
        (x25519 k.bytes ((b.drop 0x60).take 32)).all (· == 0) = false → ∃ t, exec (.linkSealReceived n b dik ca p) s = .next t ∧
        t.fabric.links[n].st = .up ∧ t.fabric.links[n].rxCtr = 0 ∧ t.fabric.links[n].peerSerial = BitVec.ofNat 64 (leAt b 0x10 8) ∧
        t.keyIn (16 + n.val) = none ∧ s.sameBytes t)) ∧
    (2 ^ 48 ≤ l.txCtr → l.st = .up → ∃ t, exec (.linkRekey n) s = .next t ∧ t.fabric.links[n].st = .rekey)

/-- The fabric: member lists heard on an authenticated link are merged; settled ids become the member list; routes are rewritten; a
frame that passes under the next counter on a link that is not idle is accepted, and any other is discarded and counted; kept frames are sent again on
request; a member without a usable route is lost (19.R472, R475, R477, R478, R481). -/
def Obligations.FabricRows : Prop :=
  ∀ (s : State), s.fabricRuns = true → s.linksIdle = false →
    (∀ (n : Fin 4) (id : Fin 8) (ms : List Member), s.fabric.links[n].st = .up → ∃ t, exec (.memberList n id ms) s = .next t ∧
      t.fabric.heard = mergeMembers s.fabric.heard ms ∧ t.fabric.links[n].peerId = id.val ∧ t.fabric.exchanging = true ∧ s.sameBytes t) ∧
    (s.fabric.exchanging = true → ∃ t, exec .memberListStable s = .next t ∧ t.fabric.members = s.settleIds.1 ∧
      t.fabric.heard = [] ∧ t.fabric.exchanging = false ∧ s.sameBytes t) ∧
    (∀ dist, s.fabric.held = [] → ∃ t, exec (.routeRewrite dist) s = .next t ∧ (∀ i : Fin 8, t.fabric.routes[i] = s.routeTo dist i.val) ∧
      t.fabric.links = s.fabric.links ∧ s.sameBytes t) ∧
    (∀ (n : Fin 4) (h p tag : List Byte) (k : Key), s.fabric.links[n].st = .up → h.length = 16 →
      p.length ≤ 256 → p.length % 64 = 0 → tag.length = 16 → s.keyIn (12 + n.val) = some k →
      (∀ data, gcmOpen k.bytes (leBytes 12 (s.fabric.links[n].rxCtr + 1)) h p tag = some data →
        exec (.stitchFrameReceive n h p tag) s = .next (s.acceptFrame n.val h data)) ∧
      (gcmOpen k.bytes (leBytes 12 (s.fabric.links[n].rxCtr + 1)) h p tag = none →
        (inWindow s.timeUs 1000000 s.fabric.links[n].discards).length < 1023 →
        ∃ t, exec (.stitchFrameReceive n h p tag) s = .next t ∧ t.fabric.links[n].rxCtr = s.fabric.links[n].rxCtr ∧
          t.fabric.links[n].errors = min (s.fabric.links[n].errors + 1) 0xFFFF ∧ t.fabric.links[n].resend = true ∧ s.sameBytes t)) ∧
    (∀ (n : Fin 4) (c : Nat), s.fabric.links[n].st = .up → ∃ t, exec (.stitchResendRequest n c) s = .next t ∧
      t.fabric.links[n].txCtr = s.fabric.links[n].txCtr + (s.fabric.links[n].sent.filter (fun f => decide (c ≤ f.1))).length ∧
      s.sameBytes t) ∧
    (∀ (id : Fin 8) (sn : W64), s.fabric.members[id] = some (sn, false) → id.val ≠ s.shape.fabricId →
      s.fabric.routes[id].links &&& s.shape.linkMap = 0 → ∃ t, exec (.memberLost id) s = .next t ∧
        t.fabric.members[id] = some (sn, true) ∧ t.fabric.routes[id].lost = true)

/-- Reliability: a core's self-test that finds every converter in range changes nothing else, and one that does not fences the core;
a patrol read of a corrected error changes no byte, and enters the core's hour of corrected errors for a core store; one of an
uncorrectable error poisons the granule, in a core store fences the core, and at a cache location disables it; a slot's first fenced core gets its destination or falls
back, and a remap that is ready is programmed; the oldest Ledger record is written into the ring under its number (10.R276, R277,
20.R486, R487, R495 to R498, 21.R513, R516). -/
def Obligations.ReliabilityRows : Prop :=
  ∀ s : State,
    (∀ c : Fin 64, s.power.cur = 0 → s.capFree c 16 = true → s.cores[c].fencedLogic = false → s.usable c = true →
      s.coreIdle c = true →
      ∃ t, exec (.converterSelfTest c) s = .next t ∧
        (if (List.range 16).all (fun e => Config.selfTestPasses (s.fresh + e)) = true then t = { s with fresh := s.fresh + 16 }
          else t.cores[c].fencedLogic = true)) ∧
    (∀ a : Nat, addrRegion a ≤ 3 → s.mapped .house (addrRegion a) (addrOff a) = true →
      let c := coreIx (addrOff a / 0x100000)
      (addrRegion a ≠ 1 →
        (∃ t, exec (.patrolRead (.granule a) .corrected) s = .next t ∧ s.sameBytes t ∧ t.poison = s.poison) ∧
        (∃ t, exec (.patrolRead (.granule a) .uncorrectable) s = .next t ∧ s.sameBytes t ∧
          NatMap.get false t.poison (storeKey (addrRegion a) (addrOff a) / 64) = true)) ∧
      (addrRegion a = 1 →
        (∃ t, exec (.patrolRead (.granule a) .corrected) s = .next t ∧
          t.cores[c].corrected = s.timeUs :: inWindow s.timeUs 3600000000 s.cores[c].corrected) ∧
        (∃ t, exec (.patrolRead (.granule a) .uncorrectable) s = .next t ∧ t.cores[c].fencedLogic = true))) ∧
    (∀ c : Fin 64, (∃ t, exec (.patrolRead (.coreState c) .corrected) s = .next t ∧
        t.cores[c].corrected = s.timeUs :: inWindow s.timeUs 3600000000 s.cores[c].corrected) ∧
      (∃ t, exec (.patrolRead (.coreState c) .uncorrectable) s = .next t ∧ t.cores[c].fencedLogic = true)) ∧
    (∀ (k : Fin 8) (set way : Nat), set < 4096 → way < 16 → (set, way) ∉ s.clusters[k].disabled →
      s.clusters[k].disabled.length < 255 → ∃ t, exec (.patrolRead (.cacheLine k set way) .uncorrectable) s = .next t ∧
        t.clusters[k].disabled = s.clusters[k].disabled ++ [(set, way)] ∧ t.clusters[k].lineAt set way = none ∧
        (∀ g, s.clusters[k].lineAt set way = some g → NatMap.get false t.poison g = true) ∧ s.sameBytes t) ∧
    exec (.patrolRead (.granule 0) .clean) s = .next s ∧
    (∀ (c : Fin 64) (m : Fin 16), s.boot = .service → (s.model m.val).remaps.head? = some c.val → (s.model m.val).remapTo = none →
      (s.model m.val).st = .resident → s.chouse.scrub = none → (s.model m.val).pairs.length < 16 →
      exec (.remapStart c m) s = .next (s.startRemap m.val c) ∧
      (∀ d, s.remapDest m.val c = some d → ((s.startRemap m.val c).model m.val).remapTo = some (c.val, d.val) ∧
        (s.startRemap m.val c).cores[d].service = true)) ∧
    (∀ (c : Fin 64) (m : Fin 16) (d : Nat), (s.model m.val).remapTo = some (c.val, d) → s.remapReady (coreIx d) = true →
      exec (.remapProgram c m) s = .next (s.programRemap m.val c (coreIx d))) ∧
    (∀ r rest, s.canonical = true → s.lgQueue = r :: rest → s.chouse.conf = false → r.length = 32 →
      let key := s.lgBase + 32 * (s.lgTail % (128 * s.lgPages))
      ∃ t, exec .ledgerRecordWrite s = .next t ∧ t.lgQueue = rest ∧ t.lgTail = (s.lgTail + 1) % 2 ^ 32 ∧
        t.mem.bytes key 32 = r.take 24 ++ leBytes 4 (s.lgTail % 2 ^ 32) ++ r.drop 28 ∧ s.sameOutside t key 32)

/-- A request for an activity cap or a power ceiling above the fused limit is accepted and clamped to that limit, from the host
driver's write and from the management principal's SET_PROFILE, and reads return the clamped value; no fault is raised: the command
answers a state (00.R4). The fused limits are those that the registers' ranges admit. -/
def Obligations.ClampedLimits : Prop :=
  ∀ s : State, 16 ≤ s.fuses.actCapMax → s.fuses.actCapMax < 512 → 10 ≤ s.fuses.powerLimit → s.fuses.powerLimit < 1024 →
    (∀ v : W32, s.fuses.actCapMax ≤ v.toNat % 512 → ∃ t, exec (.pwCapWrite v) s = .next t ∧ t.power.cap = s.fuses.actCapMax ∧
      t.pwWord 0x008 % 512 = s.fuses.actCapMax ∧ s.sameBytes t) ∧
    (∀ v : Nat, s.fuses.powerLimit ≤ v / 1024 % 1024 → (s.writeCeil v).power.short = s.fuses.powerLimit ∧
      (s.writeCeil v).pwWord 0x004 / 1024 % 1024 = s.fuses.powerLimit ∧ (s.writeCeil v).power.sustain ≤ s.fuses.powerLimit ∧
      (s.fuses.powerLimit ≤ v % 1024 → (s.writeCeil v).pwWord 0x004 % 1024 = s.fuses.powerLimit)) ∧
    (∀ f : List Byte, s.MgPasses f → (mgReqOf f).cmd = 7 → ∃ t, exec (.mgSetProfile f) s = .next t ∧
      (s.fuses.actCapMax ≤ leAt (mgReqOf f).args 6 2 → t.power.cap = s.fuses.actCapMax ∧
        t.pwWord 0x008 % 512 = s.fuses.actCapMax) ∧
      (s.fuses.powerLimit ≤ leAt (mgReqOf f).args 4 2 → t.power.short = s.fuses.powerLimit ∧
        t.pwWord 0x004 / 1024 % 1024 = s.fuses.powerLimit ∧
        (s.fuses.powerLimit ≤ leAt (mgReqOf f).args 2 2 → t.pwWord 0x004 % 1024 = s.fuses.powerLimit)))

/-- Power: an estimate is taken and moves the levers, or holds them at their throttled values; a profile and a forced state are
written; a sleep state is entered after its hold time, and left; TRIP ends below ALERT, and a comparator trips a sleeping device
(16.R409 to R420). -/
def Obligations.PowerRows : Prop :=
  ∀ s : State,
    (∀ events leakage : Nat,
      let es := ((events + leakage) :: s.power.estimates).take 10
      let p100 := partOf es.sum 10
      let avg := s.power.avg + p100 - partOf s.power.avg 100000
      let p := creditStep (takeEstimate s.power (events + leakage))
      ∃ t, exec (.powerEstimate events leakage) s = .next t ∧ t.power.estimates = es ∧ t.power.avg = avg ∧
        t.power.p100 = min p100 0xFFFF ∧ t.power.p1s = min (partOf avg 100000) 0xFFFF ∧
        (s.power.throttling = true → t.power.capEff = 16 ∧ t.power.vddcSet = s.power.vddcMin ∧
          t.power.whEff = partOf s.power.whCeil 4) ∧
        (s.power.throttling = false → shortLimit s.fuses.powerLimit p < t.power.p100 →
          t.power.capEff = max 16 (s.power.capEff - (s.power.capEff + 7) / 8) ∧
          t.power.vddcSet = max s.power.vddcMin (s.power.vddcSet - 2)) ∧
        t = { s with power := t.power }) ∧
    (∀ v : W32, ∃ t, exec (.pwProfileWrite v) s = .next t ∧ t.power.profileP = v.getLsbD 0 ∧ t.power.burstEn = v.getLsbD 2 ∧
      t.power.g4En = v.getLsbD 3 ∧ t.power.whCeil = (if v.getLsbD 0 then 768 else 250) ∧ s.sameBytes t) ∧
    (∀ v : W32, ∃ t, exec (.pwForceWrite v) s = .next t ∧ t.power.forceEn = v.getLsbD 31 ∧ t.power.forceState = min (v.toNat % 8) 4 ∧
      s.sameBytes t) ∧
    (∀ g : Fin 5, s.sleepReady g.val = true →
      exec (.sleepHoldExpiry g) s = .next { s with power := { s.power with entering := some g.val } }) ∧
    (∀ g, s.mgmt.waiting = none → s.power.entering = some g → ∃ t, exec .sleepEntryDone s = .next t ∧ t.power.cur = g ∧
      t.power.entering = none ∧ (g = 3 → ∀ a, a / 2 ^ 44 = 1 → t.mem.byte a = 0) ∧
      (g = 4 → (∀ a, a / 2 ^ 44 = 0 → t.mem.byte a = 0) ∧ ∀ m : Fin 16, t.models[m].st ≠ .resident)) ∧
    (s.mgmt.waiting = none → s.power.waking = true → (∀ f ∈ s.port.frames, f.due = false) → ∃ t, exec .sleepExitDone s = .next t ∧ t.power.cur = 0 ∧
      t.power.waking = false ∧ t.monitor.powered = true ∧ s.sameBytes t) ∧
    (∀ x, s.power.inTrip = true → s.tMax = some x → x < 100 * (s.power.tAlert : Int) → ∃ t, exec .tripExit s = .next t ∧
      t.power.inTrip = false ∧ (s.port.state = .halted → s.boot = .service → s.commitWaits = false → t.port.state = .ready) ∧ s.sameBytes t) ∧
    (2 ≤ s.power.cur → s.power.inTrip = false → ∃ t, exec .sleepComparatorTrip s = .next t ∧ t.power.inTrip = true ∧
      t.power.tripped = true ∧ t.power.alerting = true ∧ s.sameBytes t)

/-- A program's writes of PC_SEL and PC_QUALq take effect when its job has PC_ACCESS, and are ignored otherwise; PC_DATA then reads 0,
as it does for an event number that is not defined (21.R506, R507, R517). -/
def Obligations.CounterRows : Prop :=
  ∀ (s : State) (c : Fin 64) (v : W32) (n : Fin 10),
    (s.cores[c].pcAccess = true →
      (∃ t, exec (.pcSelWrite c v) s = .next t ∧ t.cores[c].pcSel = v.toNat % 256 ∧ (∀ d : Fin 64, d ≠ c → t.cores[d] = s.cores[d]) ∧
        s.sameBytes t) ∧
      (∃ t, exec (.pcQualWrite c n v) s = .next t ∧
        t.cores[c].pcQual[n] = (if n.val ≤ 5 then min 31 (v.toNat % 128) else v.toNat % 128) ∧
        (∀ m : Fin 10, m ≠ n → t.cores[c].pcQual[m] = s.cores[c].pcQual[m]) ∧ s.sameBytes t)) ∧
    (s.cores[c].pcAccess = false → exec (.pcSelWrite c v) s = .next s ∧ exec (.pcQualWrite c n v) s = .next s ∧
      s.pcData c = (0, s)) ∧
    (coreEventDefined s.cores[c].pcSel = false → s.pcData c = (0, s))
end

