-- ==== Sys2Proof/Laws/Sparse.lean ====
section
/-!
SUPPORT. Sparse maps and byte memory: the canonical form is kept by every operation, and a read after a write gives what was
written there and the old value elsewhere.
-/

namespace Sys2Proof

variable {α : Type} [DecidableEq α]

/-! ### Canonical form -/

theorem NatMap.wfFrom_le (d : α) {b c : Nat} (h : c ≤ b) : ∀ {m : NatMap α}, NatMap.wfFrom d b m = true → NatMap.wfFrom d c m = true
  | [], _ => rfl
  | (k, v) :: m, hm => by
    simp only [NatMap.wfFrom, Bool.and_eq_true, decide_eq_true_eq] at hm ⊢
    exact ⟨⟨by omega, hm.1.2⟩, hm.2⟩

theorem NatMap.erase_wfFrom (d : α) (k : Nat) : ∀ {b : Nat} {m : NatMap α}, NatMap.wfFrom d b m = true →
    NatMap.wfFrom d b (NatMap.erase m k) = true
  | _, [], _ => rfl
  | b, (k', v) :: m, hm => by
    simp only [NatMap.wfFrom, Bool.and_eq_true, decide_eq_true_eq] at hm
    unfold NatMap.erase
    split
    · exact NatMap.wfFrom_le d (by omega) hm.2
    · simp only [NatMap.wfFrom, Bool.and_eq_true, decide_eq_true_eq]
      exact ⟨hm.1, NatMap.erase_wfFrom d k hm.2⟩

theorem NatMap.insert_wfFrom (d : α) (k : Nat) (v : α) (hv : v ≠ d) : ∀ {b : Nat} {m : NatMap α}, b ≤ k →
    NatMap.wfFrom d b m = true → NatMap.wfFrom d b (NatMap.insert m k v) = true
  | b, [], hb, _ => by simp [NatMap.insert, NatMap.wfFrom, hb, hv]
  | b, (k', v') :: m, hb, hm => by
    simp only [NatMap.wfFrom, Bool.and_eq_true, decide_eq_true_eq] at hm
    unfold NatMap.insert
    split
    · simp only [NatMap.wfFrom, Bool.and_eq_true, decide_eq_true_eq]
      exact ⟨⟨hb, hv⟩, ⟨by omega, hm.1.2⟩, hm.2⟩
    · split
      · rename_i h
        simp only [NatMap.wfFrom, Bool.and_eq_true, decide_eq_true_eq]
        exact ⟨⟨hb, hv⟩, h ▸ hm.2⟩
      · simp only [NatMap.wfFrom, Bool.and_eq_true, decide_eq_true_eq]
        exact ⟨hm.1, NatMap.insert_wfFrom d k v hv (by omega) hm.2⟩

theorem NatMap.put_wf (d : α) (m : NatMap α) (k : Nat) (v : α) (h : NatMap.wf d m = true) :
    NatMap.wf d (NatMap.put d m k v) = true := by
  unfold NatMap.put
  split
  · exact NatMap.erase_wfFrom d k h
  · rename_i hv
    exact NatMap.insert_wfFrom d k v hv (Nat.zero_le k) h

theorem NatMap.update_wf (d : α) (m : NatMap α) (k : Nat) (f : α → α) (h : NatMap.wf d m = true) :
    NatMap.wf d (NatMap.update d m k f) = true := NatMap.put_wf d m k _ h

theorem NatMap.keep_wfFrom (d : α) (p : Nat → Bool) : ∀ {b : Nat} {m : NatMap α}, NatMap.wfFrom d b m = true →
    NatMap.wfFrom d b (NatMap.keep p m) = true
  | _, [], _ => rfl
  | b, (k, v) :: m, hm => by
    simp only [NatMap.wfFrom, Bool.and_eq_true, decide_eq_true_eq] at hm
    have ih := NatMap.keep_wfFrom d p hm.2
    unfold NatMap.keep at ih ⊢
    rw [List.filter_cons]
    split
    · simp only [NatMap.wfFrom, Bool.and_eq_true, decide_eq_true_eq]
      exact ⟨hm.1, ih⟩
    · exact NatMap.wfFrom_le d (by omega) ih

theorem NatMap.keep_wf (d : α) (p : Nat → Bool) (m : NatMap α) (h : NatMap.wf d m = true) :
    NatMap.wf d (NatMap.keep p m) = true := NatMap.keep_wfFrom d p h

/-! ### Reads after writes -/

theorem NatMap.get_insert (d : α) (k j : Nat) (v : α) : ∀ m : NatMap α,
    NatMap.get d (NatMap.insert m k v) j = if j = k then v else NatMap.get d m j
  | [] => by simp [NatMap.insert, NatMap.get]
  | (k', v') :: m => by
    have ih := NatMap.get_insert d k j v m
    unfold NatMap.insert
    split
    · simp [NatMap.get]
    · split
      · rename_i h
        subst h
        simp only [NatMap.get]
        split <;> rfl
      · rename_i h1 h2
        simp only [NatMap.get, ih]
        by_cases hj : j = k'
        · subst hj
          simp [Ne.symm h2]
        · simp [hj]

theorem NatMap.get_lt (d : α) {b j : Nat} (hj : j < b) : ∀ {m : NatMap α}, NatMap.wfFrom d b m = true → NatMap.get d m j = d
  | [], _ => rfl
  | (k, v) :: m, hm => by
    simp only [NatMap.wfFrom, Bool.and_eq_true, decide_eq_true_eq] at hm
    have hne : j ≠ k := by omega
    simp only [NatMap.get, hne, if_false]
    exact NatMap.get_lt d (b := k + 1) (by omega) hm.2

theorem NatMap.get_erase (d : α) (k j : Nat) : ∀ {b : Nat} {m : NatMap α}, NatMap.wfFrom d b m = true →
    NatMap.get d (NatMap.erase m k) j = if j = k then d else NatMap.get d m j
  | _, [], _ => by simp [NatMap.erase, NatMap.get]
  | b, (k', v) :: m, hm => by
    simp only [NatMap.wfFrom, Bool.and_eq_true, decide_eq_true_eq] at hm
    unfold NatMap.erase
    split
    · rename_i h
      subst h
      by_cases hj : j = k
      · subst hj
        simp [NatMap.get_lt d (Nat.lt_succ_self j) hm.2]
      · simp [NatMap.get, hj]
    · rename_i h
      simp only [NatMap.get, NatMap.get_erase d k j hm.2]
      by_cases hj : j = k'
      · subst hj
        simp [Ne.symm h]
      · simp [hj]

/-- A read after a write of one entry. -/
theorem NatMap.get_put (d : α) (m : NatMap α) (k j : Nat) (v : α) (h : NatMap.wf d m = true) :
    NatMap.get d (NatMap.put d m k v) j = if j = k then v else NatMap.get d m j := by
  unfold NatMap.put
  split
  · rename_i hv
    rw [NatMap.get_erase d k j h, hv]
  · exact NatMap.get_insert d k j v m

/-! ### Byte memory -/

/-- Where no cell lies below `b`, the bytes below it are zero. -/
theorem Memory.bytes_low {m : Memory} {b : Nat} : ∀ (n : Nat) {a : Nat}, NatMap.wfFrom 0 b m = true → a + n ≤ b →
    m.bytes a n = List.replicate n 0
  | 0, _, _, _ => rfl
  | n + 1, _, h, l => by
    rw [Memory.bytes, Memory.byte, NatMap.get_lt 0 (by omega) h, Memory.bytes_low n h (by omega), List.replicate_succ]

theorem Memory.set_wf (m : Memory) (a : Nat) (b : Byte) (h : m.wf = true) : (m.set a b).wf = true := NatMap.put_wf 0 m a b h

theorem Memory.write_wf : ∀ (bs : List Byte) (m : Memory) (a : Nat), m.wf = true → (m.write a bs).wf = true
  | [], _, _, h => h
  | b :: bs, m, a, h => Memory.write_wf bs (m.set a b) (a + 1) (Memory.set_wf m a b h)

theorem Memory.writeMasked_wf : ∀ (bs : List (Option Byte)) (m : Memory) (a : Nat), m.wf = true → (m.writeMasked a bs).wf = true
  | [], _, _, h => h
  | none :: bs, m, a, h => Memory.writeMasked_wf bs m (a + 1) h
  | some b :: bs, m, a, h => Memory.writeMasked_wf bs (m.set a b) (a + 1) (Memory.set_wf m a b h)

theorem Memory.zero_wf (m : Memory) (a n : Nat) (h : m.wf = true) : (m.zero a n).wf = true := NatMap.keep_wf 0 _ m h

theorem Memory.byte_set (m : Memory) (a j : Nat) (b : Byte) (h : m.wf = true) :
    (m.set a b).byte j = if j = a then b else m.byte j := NatMap.get_put 0 m a j b h

/-- A write leaves every byte outside it alone. -/
theorem Memory.byte_write_outside : ∀ (bs : List Byte) (m : Memory) (a j : Nat), m.wf = true → j < a ∨ a + bs.length ≤ j →
    (m.write a bs).byte j = m.byte j
  | [], _, _, _, _, _ => rfl
  | b :: bs, m, a, j, h, hj => by
    simp only [List.length_cons] at hj
    rw [Memory.write, Memory.byte_write_outside bs (m.set a b) (a + 1) j (Memory.set_wf m a b h) (by omega),
      Memory.byte_set m a j b h, if_neg (by omega)]

/-- A byte written reads as written. -/
theorem Memory.byte_write_inside : ∀ (bs : List Byte) (m : Memory) (a i : Nat) (hi : i < bs.length), m.wf = true →
    (m.write a bs).byte (a + i) = bs[i]
  | b :: bs, m, a, 0, _, h => by
    rw [Memory.write, Memory.byte_write_outside bs (m.set a b) (a + 1) (a + 0) (Memory.set_wf m a b h) (by omega),
      Memory.byte_set m a (a + 0) b h]
    simp
  | b :: bs, m, a, i + 1, hi, h => by
    have := Memory.byte_write_inside bs (m.set a b) (a + 1) i (by simpa using hi) (Memory.set_wf m a b h)
    rw [Memory.write]
    simpa [Nat.add_assoc, Nat.add_comm 1 i] using this

end Sys2Proof
end

