-- ==== Sys2Proof/Laws/State.lean ====
section
/-!
SUPPORT. The updates of State: for each, what it leaves of every field and what it makes of its own, as simp lemmas, so that no proof
unfolds a record update; and what the operations on the byte stores can do.
-/

namespace Sys2Proof.Machine

/-! ### A core -/

section

variable (s : State) (c : Fin 64) (f : Core → Core)

@[simp] theorem State.updCore_pending : (s.updCore c f).pending = s.pending := rfl
@[simp] theorem State.updCore_boot : (s.updCore c f).boot = s.boot := rfl
@[simp] theorem State.updCore_timeUs : (s.updCore c f).timeUs = s.timeUs := rfl
@[simp] theorem State.updCore_fuses : (s.updCore c f).fuses = s.fuses := rfl
@[simp] theorem State.updCore_shape : (s.updCore c f).shape = s.shape := rfl
@[simp] theorem State.updCore_refclk : (s.updCore c f).refclk = s.refclk := rfl
@[simp] theorem State.updCore_supply : (s.updCore c f).supply = s.supply := rfl
@[simp] theorem State.updCore_house : (s.updCore c f).house = s.house := rfl
@[simp] theorem State.updCore_clusters : (s.updCore c f).clusters = s.clusters := rfl
@[simp] theorem State.updCore_mem : (s.updCore c f).mem = s.mem := rfl
@[simp] theorem State.updCore_poison : (s.updCore c f).poison = s.poison := rfl
@[simp] theorem State.updCore_written : (s.updCore c f).written = s.written := rfl
@[simp] theorem State.updCore_capWait : (s.updCore c f).capWait = s.capWait := rfl
@[simp] theorem State.updCore_capHeld : (s.updCore c f).capHeld = s.capHeld := rfl
@[simp] theorem State.updCore_progWait : (s.updCore c f).progWait = s.progWait := rfl
@[simp] theorem State.updCore_progHeld : (s.updCore c f).progHeld = s.progHeld := rfl
@[simp] theorem State.updCore_port : (s.updCore c f).port = s.port := rfl
@[simp] theorem State.updCore_jobs : (s.updCore c f).jobs = s.jobs := rfl
@[simp] theorem State.updCore_accepted : (s.updCore c f).accepted = s.accepted := rfl
@[simp] theorem State.updCore_load : (s.updCore c f).load = s.load := rfl
@[simp] theorem State.updCore_models : (s.updCore c f).models = s.models := rfl
@[simp] theorem State.updCore_plies : (s.updCore c f).plies = s.plies := rfl
@[simp] theorem State.updCore_cells : (s.updCore c f).cells = s.cells := rfl
@[simp] theorem State.updCore_cellClock : (s.updCore c f).cellClock = s.cellClock := rfl
@[simp] theorem State.updCore_assay : (s.updCore c f).assay = s.assay := rfl
@[simp] theorem State.updCore_monitor : (s.updCore c f).monitor = s.monitor := rfl
@[simp] theorem State.updCore_power : (s.updCore c f).power = s.power := rfl
@[simp] theorem State.updCore_chouse : (s.updCore c f).chouse = s.chouse := rfl
@[simp] theorem State.updCore_mgmt : (s.updCore c f).mgmt = s.mgmt := rfl
@[simp] theorem State.updCore_fabric : (s.updCore c f).fabric = s.fabric := rfl
@[simp] theorem State.updCore_pkgEvents : (s.updCore c f).pkgEvents = s.pkgEvents := rfl
@[simp] theorem State.updCore_pcPsel : (s.updCore c f).pcPsel = s.pcPsel := rfl
@[simp] theorem State.updCore_lgBase : (s.updCore c f).lgBase = s.lgBase := rfl
@[simp] theorem State.updCore_lgPages : (s.updCore c f).lgPages = s.lgPages := rfl
@[simp] theorem State.updCore_lgEn : (s.updCore c f).lgEn = s.lgEn := rfl
@[simp] theorem State.updCore_lgK : (s.updCore c f).lgK = s.lgK := rfl
@[simp] theorem State.updCore_lgTail : (s.updCore c f).lgTail = s.lgTail := rfl
@[simp] theorem State.updCore_lgQueue : (s.updCore c f).lgQueue = s.lgQueue := rfl
@[simp] theorem State.updCore_latch : (s.updCore c f).latch = s.latch := rfl
@[simp] theorem State.updCore_fresh : (s.updCore c f).fresh = s.fresh := rfl

@[simp] theorem State.updCore_self : (s.updCore c f).cores[c.val] = f s.cores[c.val] := by simp [State.updCore]
@[simp] theorem State.updCore_other : ∀ {d : Fin 64}, d ≠ c → (s.updCore c f).cores[d.val] = s.cores[d.val] := by
  intro d h
  simp [State.updCore, Fin.val_ne_of_ne h.symm]

end

/-! ### A sequencer -/

section

variable (s : State) (q : SeqId) (f : Seqr → Seqr)

@[simp] theorem State.updSeqr_pending : (s.updSeqr q f).pending = s.pending := by cases q <;> rfl
@[simp] theorem State.updSeqr_boot : (s.updSeqr q f).boot = s.boot := by cases q <;> rfl
@[simp] theorem State.updSeqr_timeUs : (s.updSeqr q f).timeUs = s.timeUs := by cases q <;> rfl
@[simp] theorem State.updSeqr_fuses : (s.updSeqr q f).fuses = s.fuses := by cases q <;> rfl
@[simp] theorem State.updSeqr_shape : (s.updSeqr q f).shape = s.shape := by cases q <;> rfl
@[simp] theorem State.updSeqr_refclk : (s.updSeqr q f).refclk = s.refclk := by cases q <;> rfl
@[simp] theorem State.updSeqr_supply : (s.updSeqr q f).supply = s.supply := by cases q <;> rfl
@[simp] theorem State.updSeqr_clusters : (s.updSeqr q f).clusters = s.clusters := by cases q <;> rfl
@[simp] theorem State.updSeqr_mem : (s.updSeqr q f).mem = s.mem := by cases q <;> rfl
@[simp] theorem State.updSeqr_poison : (s.updSeqr q f).poison = s.poison := by cases q <;> rfl
@[simp] theorem State.updSeqr_written : (s.updSeqr q f).written = s.written := by cases q <;> rfl
@[simp] theorem State.updSeqr_capWait : (s.updSeqr q f).capWait = s.capWait := by cases q <;> rfl
@[simp] theorem State.updSeqr_capHeld : (s.updSeqr q f).capHeld = s.capHeld := by cases q <;> rfl
@[simp] theorem State.updSeqr_progWait : (s.updSeqr q f).progWait = s.progWait := by cases q <;> rfl
@[simp] theorem State.updSeqr_progHeld : (s.updSeqr q f).progHeld = s.progHeld := by cases q <;> rfl
@[simp] theorem State.updSeqr_port : (s.updSeqr q f).port = s.port := by cases q <;> rfl
@[simp] theorem State.updSeqr_jobs : (s.updSeqr q f).jobs = s.jobs := by cases q <;> rfl
@[simp] theorem State.updSeqr_accepted : (s.updSeqr q f).accepted = s.accepted := by cases q <;> rfl
@[simp] theorem State.updSeqr_load : (s.updSeqr q f).load = s.load := by cases q <;> rfl
@[simp] theorem State.updSeqr_models : (s.updSeqr q f).models = s.models := by cases q <;> rfl
@[simp] theorem State.updSeqr_plies : (s.updSeqr q f).plies = s.plies := by cases q <;> rfl
@[simp] theorem State.updSeqr_cells : (s.updSeqr q f).cells = s.cells := by cases q <;> rfl
@[simp] theorem State.updSeqr_cellClock : (s.updSeqr q f).cellClock = s.cellClock := by cases q <;> rfl
@[simp] theorem State.updSeqr_assay : (s.updSeqr q f).assay = s.assay := by cases q <;> rfl
@[simp] theorem State.updSeqr_monitor : (s.updSeqr q f).monitor = s.monitor := by cases q <;> rfl
@[simp] theorem State.updSeqr_power : (s.updSeqr q f).power = s.power := by cases q <;> rfl
@[simp] theorem State.updSeqr_chouse : (s.updSeqr q f).chouse = s.chouse := by cases q <;> rfl
@[simp] theorem State.updSeqr_mgmt : (s.updSeqr q f).mgmt = s.mgmt := by cases q <;> rfl
@[simp] theorem State.updSeqr_fabric : (s.updSeqr q f).fabric = s.fabric := by cases q <;> rfl
@[simp] theorem State.updSeqr_pkgEvents : (s.updSeqr q f).pkgEvents = s.pkgEvents := by cases q <;> rfl
@[simp] theorem State.updSeqr_pcPsel : (s.updSeqr q f).pcPsel = s.pcPsel := by cases q <;> rfl
@[simp] theorem State.updSeqr_lgBase : (s.updSeqr q f).lgBase = s.lgBase := by cases q <;> rfl
@[simp] theorem State.updSeqr_lgPages : (s.updSeqr q f).lgPages = s.lgPages := by cases q <;> rfl
@[simp] theorem State.updSeqr_lgEn : (s.updSeqr q f).lgEn = s.lgEn := by cases q <;> rfl
@[simp] theorem State.updSeqr_lgK : (s.updSeqr q f).lgK = s.lgK := by cases q <;> rfl
@[simp] theorem State.updSeqr_lgTail : (s.updSeqr q f).lgTail = s.lgTail := by cases q <;> rfl
@[simp] theorem State.updSeqr_lgQueue : (s.updSeqr q f).lgQueue = s.lgQueue := by cases q <;> rfl
@[simp] theorem State.updSeqr_latch : (s.updSeqr q f).latch = s.latch := by cases q <;> rfl
@[simp] theorem State.updSeqr_fresh : (s.updSeqr q f).fresh = s.fresh := by cases q <;> rfl

@[simp] theorem State.seqr_updSeqr : (s.updSeqr q f).seqr q = f (s.seqr q) := by
  cases q <;> simp [State.updSeqr, State.seqr, State.updCore]
@[simp] theorem State.seqr_updSeqr_other : ∀ {r : SeqId}, r ≠ q → (s.updSeqr q f).seqr r = s.seqr r := by
  intro r h
  cases q with
  | house => cases r with
    | house => exact absurd rfl h
    | core d => rfl
  | core c => cases r with
    | house => rfl
    | core d =>
      have n : c.val ≠ d.val := fun e => h (by rw [Fin.ext e])
      simp [State.updSeqr, State.seqr, State.updCore, n]

end

/-! ### A cluster -/

section

variable (s : State) (k : Fin 8) (f : Cluster → Cluster)

@[simp] theorem State.updCluster_pending : (s.updCluster k f).pending = s.pending := rfl
@[simp] theorem State.updCluster_boot : (s.updCluster k f).boot = s.boot := rfl
@[simp] theorem State.updCluster_timeUs : (s.updCluster k f).timeUs = s.timeUs := rfl
@[simp] theorem State.updCluster_fuses : (s.updCluster k f).fuses = s.fuses := rfl
@[simp] theorem State.updCluster_shape : (s.updCluster k f).shape = s.shape := rfl
@[simp] theorem State.updCluster_refclk : (s.updCluster k f).refclk = s.refclk := rfl
@[simp] theorem State.updCluster_supply : (s.updCluster k f).supply = s.supply := rfl
@[simp] theorem State.updCluster_cores : (s.updCluster k f).cores = s.cores := rfl
@[simp] theorem State.updCluster_house : (s.updCluster k f).house = s.house := rfl
@[simp] theorem State.updCluster_mem : (s.updCluster k f).mem = s.mem := rfl
@[simp] theorem State.updCluster_poison : (s.updCluster k f).poison = s.poison := rfl
@[simp] theorem State.updCluster_written : (s.updCluster k f).written = s.written := rfl
@[simp] theorem State.updCluster_capWait : (s.updCluster k f).capWait = s.capWait := rfl
@[simp] theorem State.updCluster_capHeld : (s.updCluster k f).capHeld = s.capHeld := rfl
@[simp] theorem State.updCluster_progWait : (s.updCluster k f).progWait = s.progWait := rfl
@[simp] theorem State.updCluster_progHeld : (s.updCluster k f).progHeld = s.progHeld := rfl
@[simp] theorem State.updCluster_port : (s.updCluster k f).port = s.port := rfl
@[simp] theorem State.updCluster_jobs : (s.updCluster k f).jobs = s.jobs := rfl
@[simp] theorem State.updCluster_accepted : (s.updCluster k f).accepted = s.accepted := rfl
@[simp] theorem State.updCluster_load : (s.updCluster k f).load = s.load := rfl
@[simp] theorem State.updCluster_models : (s.updCluster k f).models = s.models := rfl
@[simp] theorem State.updCluster_plies : (s.updCluster k f).plies = s.plies := rfl
@[simp] theorem State.updCluster_cells : (s.updCluster k f).cells = s.cells := rfl
@[simp] theorem State.updCluster_cellClock : (s.updCluster k f).cellClock = s.cellClock := rfl
@[simp] theorem State.updCluster_assay : (s.updCluster k f).assay = s.assay := rfl
@[simp] theorem State.updCluster_monitor : (s.updCluster k f).monitor = s.monitor := rfl
@[simp] theorem State.updCluster_power : (s.updCluster k f).power = s.power := rfl
@[simp] theorem State.updCluster_chouse : (s.updCluster k f).chouse = s.chouse := rfl
@[simp] theorem State.updCluster_mgmt : (s.updCluster k f).mgmt = s.mgmt := rfl
@[simp] theorem State.updCluster_fabric : (s.updCluster k f).fabric = s.fabric := rfl
@[simp] theorem State.updCluster_pkgEvents : (s.updCluster k f).pkgEvents = s.pkgEvents := rfl
@[simp] theorem State.updCluster_pcPsel : (s.updCluster k f).pcPsel = s.pcPsel := rfl
@[simp] theorem State.updCluster_lgBase : (s.updCluster k f).lgBase = s.lgBase := rfl
@[simp] theorem State.updCluster_lgPages : (s.updCluster k f).lgPages = s.lgPages := rfl
@[simp] theorem State.updCluster_lgEn : (s.updCluster k f).lgEn = s.lgEn := rfl
@[simp] theorem State.updCluster_lgK : (s.updCluster k f).lgK = s.lgK := rfl
@[simp] theorem State.updCluster_lgTail : (s.updCluster k f).lgTail = s.lgTail := rfl
@[simp] theorem State.updCluster_lgQueue : (s.updCluster k f).lgQueue = s.lgQueue := rfl
@[simp] theorem State.updCluster_latch : (s.updCluster k f).latch = s.latch := rfl
@[simp] theorem State.updCluster_fresh : (s.updCluster k f).fresh = s.fresh := rfl

@[simp] theorem State.updCluster_self : (s.updCluster k f).clusters[k.val] = f s.clusters[k.val] := by simp [State.updCluster]

end

/-! ### Free values -/

section

variable (s : State)

@[simp] theorem State.draw_pending : (s.draw.2).pending = s.pending := rfl
@[simp] theorem State.draw_boot : (s.draw.2).boot = s.boot := rfl
@[simp] theorem State.draw_timeUs : (s.draw.2).timeUs = s.timeUs := rfl
@[simp] theorem State.draw_fuses : (s.draw.2).fuses = s.fuses := rfl
@[simp] theorem State.draw_shape : (s.draw.2).shape = s.shape := rfl
@[simp] theorem State.draw_refclk : (s.draw.2).refclk = s.refclk := rfl
@[simp] theorem State.draw_supply : (s.draw.2).supply = s.supply := rfl
@[simp] theorem State.draw_cores : (s.draw.2).cores = s.cores := rfl
@[simp] theorem State.draw_house : (s.draw.2).house = s.house := rfl
@[simp] theorem State.draw_clusters : (s.draw.2).clusters = s.clusters := rfl
@[simp] theorem State.draw_mem : (s.draw.2).mem = s.mem := rfl
@[simp] theorem State.draw_poison : (s.draw.2).poison = s.poison := rfl
@[simp] theorem State.draw_written : (s.draw.2).written = s.written := rfl
@[simp] theorem State.draw_capWait : (s.draw.2).capWait = s.capWait := rfl
@[simp] theorem State.draw_capHeld : (s.draw.2).capHeld = s.capHeld := rfl
@[simp] theorem State.draw_progWait : (s.draw.2).progWait = s.progWait := rfl
@[simp] theorem State.draw_progHeld : (s.draw.2).progHeld = s.progHeld := rfl
@[simp] theorem State.draw_port : (s.draw.2).port = s.port := rfl
@[simp] theorem State.draw_jobs : (s.draw.2).jobs = s.jobs := rfl
@[simp] theorem State.draw_accepted : (s.draw.2).accepted = s.accepted := rfl
@[simp] theorem State.draw_load : (s.draw.2).load = s.load := rfl
@[simp] theorem State.draw_models : (s.draw.2).models = s.models := rfl
@[simp] theorem State.draw_plies : (s.draw.2).plies = s.plies := rfl
@[simp] theorem State.draw_cells : (s.draw.2).cells = s.cells := rfl
@[simp] theorem State.draw_cellClock : (s.draw.2).cellClock = s.cellClock := rfl
@[simp] theorem State.draw_assay : (s.draw.2).assay = s.assay := rfl
@[simp] theorem State.draw_monitor : (s.draw.2).monitor = s.monitor := rfl
@[simp] theorem State.draw_power : (s.draw.2).power = s.power := rfl
@[simp] theorem State.draw_chouse : (s.draw.2).chouse = s.chouse := rfl
@[simp] theorem State.draw_mgmt : (s.draw.2).mgmt = s.mgmt := rfl
@[simp] theorem State.draw_fabric : (s.draw.2).fabric = s.fabric := rfl
@[simp] theorem State.draw_pkgEvents : (s.draw.2).pkgEvents = s.pkgEvents := rfl
@[simp] theorem State.draw_pcPsel : (s.draw.2).pcPsel = s.pcPsel := rfl
@[simp] theorem State.draw_lgBase : (s.draw.2).lgBase = s.lgBase := rfl
@[simp] theorem State.draw_lgPages : (s.draw.2).lgPages = s.lgPages := rfl
@[simp] theorem State.draw_lgEn : (s.draw.2).lgEn = s.lgEn := rfl
@[simp] theorem State.draw_lgK : (s.draw.2).lgK = s.lgK := rfl
@[simp] theorem State.draw_lgTail : (s.draw.2).lgTail = s.lgTail := rfl
@[simp] theorem State.draw_lgQueue : (s.draw.2).lgQueue = s.lgQueue := rfl
@[simp] theorem State.draw_latch : (s.draw.2).latch = s.latch := rfl

@[simp] theorem State.draw_fst : s.draw.1 = s.fresh := rfl
@[simp] theorem State.draw_fresh : s.draw.2.fresh = s.fresh + 1 := rfl

end

/-! ### Package events -/

section

variable (s : State) (ev n : Nat)

@[simp] theorem State.countPkg_pending : (s.countPkg ev n).pending = s.pending := rfl
@[simp] theorem State.countPkg_boot : (s.countPkg ev n).boot = s.boot := rfl
@[simp] theorem State.countPkg_timeUs : (s.countPkg ev n).timeUs = s.timeUs := rfl
@[simp] theorem State.countPkg_fuses : (s.countPkg ev n).fuses = s.fuses := rfl
@[simp] theorem State.countPkg_shape : (s.countPkg ev n).shape = s.shape := rfl
@[simp] theorem State.countPkg_refclk : (s.countPkg ev n).refclk = s.refclk := rfl
@[simp] theorem State.countPkg_supply : (s.countPkg ev n).supply = s.supply := rfl
@[simp] theorem State.countPkg_cores : (s.countPkg ev n).cores = s.cores := rfl
@[simp] theorem State.countPkg_house : (s.countPkg ev n).house = s.house := rfl
@[simp] theorem State.countPkg_clusters : (s.countPkg ev n).clusters = s.clusters := rfl
@[simp] theorem State.countPkg_mem : (s.countPkg ev n).mem = s.mem := rfl
@[simp] theorem State.countPkg_poison : (s.countPkg ev n).poison = s.poison := rfl
@[simp] theorem State.countPkg_written : (s.countPkg ev n).written = s.written := rfl
@[simp] theorem State.countPkg_capWait : (s.countPkg ev n).capWait = s.capWait := rfl
@[simp] theorem State.countPkg_capHeld : (s.countPkg ev n).capHeld = s.capHeld := rfl
@[simp] theorem State.countPkg_progWait : (s.countPkg ev n).progWait = s.progWait := rfl
@[simp] theorem State.countPkg_progHeld : (s.countPkg ev n).progHeld = s.progHeld := rfl
@[simp] theorem State.countPkg_port : (s.countPkg ev n).port = s.port := rfl
@[simp] theorem State.countPkg_jobs : (s.countPkg ev n).jobs = s.jobs := rfl
@[simp] theorem State.countPkg_accepted : (s.countPkg ev n).accepted = s.accepted := rfl
@[simp] theorem State.countPkg_load : (s.countPkg ev n).load = s.load := rfl
@[simp] theorem State.countPkg_models : (s.countPkg ev n).models = s.models := rfl
@[simp] theorem State.countPkg_plies : (s.countPkg ev n).plies = s.plies := rfl
@[simp] theorem State.countPkg_cells : (s.countPkg ev n).cells = s.cells := rfl
@[simp] theorem State.countPkg_cellClock : (s.countPkg ev n).cellClock = s.cellClock := rfl
@[simp] theorem State.countPkg_assay : (s.countPkg ev n).assay = s.assay := rfl
@[simp] theorem State.countPkg_monitor : (s.countPkg ev n).monitor = s.monitor := rfl
@[simp] theorem State.countPkg_power : (s.countPkg ev n).power = s.power := rfl
@[simp] theorem State.countPkg_chouse : (s.countPkg ev n).chouse = s.chouse := rfl
@[simp] theorem State.countPkg_mgmt : (s.countPkg ev n).mgmt = s.mgmt := rfl
@[simp] theorem State.countPkg_fabric : (s.countPkg ev n).fabric = s.fabric := rfl
@[simp] theorem State.countPkg_pcPsel : (s.countPkg ev n).pcPsel = s.pcPsel := rfl
@[simp] theorem State.countPkg_lgBase : (s.countPkg ev n).lgBase = s.lgBase := rfl
@[simp] theorem State.countPkg_lgPages : (s.countPkg ev n).lgPages = s.lgPages := rfl
@[simp] theorem State.countPkg_lgEn : (s.countPkg ev n).lgEn = s.lgEn := rfl
@[simp] theorem State.countPkg_lgK : (s.countPkg ev n).lgK = s.lgK := rfl
@[simp] theorem State.countPkg_lgTail : (s.countPkg ev n).lgTail = s.lgTail := rfl
@[simp] theorem State.countPkg_lgQueue : (s.countPkg ev n).lgQueue = s.lgQueue := rfl
@[simp] theorem State.countPkg_latch : (s.countPkg ev n).latch = s.latch := rfl
@[simp] theorem State.countPkg_fresh : (s.countPkg ev n).fresh = s.fresh := rfl


end

/-! ### Interrupt causes -/

section

variable (s : State)

@[simp] theorem State.settlePin_pending : (s.settlePin).pending = s.pending := by unfold State.settlePin; split <;> (try split) <;> rfl
@[simp] theorem State.settlePin_boot : (s.settlePin).boot = s.boot := by unfold State.settlePin; split <;> (try split) <;> rfl
@[simp] theorem State.settlePin_timeUs : (s.settlePin).timeUs = s.timeUs := by unfold State.settlePin; split <;> (try split) <;> rfl
@[simp] theorem State.settlePin_fuses : (s.settlePin).fuses = s.fuses := by unfold State.settlePin; split <;> (try split) <;> rfl
@[simp] theorem State.settlePin_shape : (s.settlePin).shape = s.shape := by unfold State.settlePin; split <;> (try split) <;> rfl
@[simp] theorem State.settlePin_refclk : (s.settlePin).refclk = s.refclk := by unfold State.settlePin; split <;> (try split) <;> rfl
@[simp] theorem State.settlePin_supply : (s.settlePin).supply = s.supply := by unfold State.settlePin; split <;> (try split) <;> rfl
@[simp] theorem State.settlePin_cores : (s.settlePin).cores = s.cores := by unfold State.settlePin; split <;> (try split) <;> rfl
@[simp] theorem State.settlePin_house : (s.settlePin).house = s.house := by unfold State.settlePin; split <;> (try split) <;> rfl
@[simp] theorem State.settlePin_clusters : (s.settlePin).clusters = s.clusters := by unfold State.settlePin; split <;> (try split) <;> rfl
@[simp] theorem State.settlePin_mem : (s.settlePin).mem = s.mem := by unfold State.settlePin; split <;> (try split) <;> rfl
@[simp] theorem State.settlePin_poison : (s.settlePin).poison = s.poison := by unfold State.settlePin; split <;> (try split) <;> rfl
@[simp] theorem State.settlePin_written : (s.settlePin).written = s.written := by unfold State.settlePin; split <;> (try split) <;> rfl
@[simp] theorem State.settlePin_capWait : (s.settlePin).capWait = s.capWait := by unfold State.settlePin; split <;> (try split) <;> rfl
@[simp] theorem State.settlePin_capHeld : (s.settlePin).capHeld = s.capHeld := by unfold State.settlePin; split <;> (try split) <;> rfl
@[simp] theorem State.settlePin_progWait : (s.settlePin).progWait = s.progWait := by unfold State.settlePin; split <;> (try split) <;> rfl
@[simp] theorem State.settlePin_progHeld : (s.settlePin).progHeld = s.progHeld := by unfold State.settlePin; split <;> (try split) <;> rfl
@[simp] theorem State.settlePin_jobs : (s.settlePin).jobs = s.jobs := by unfold State.settlePin; split <;> (try split) <;> rfl
@[simp] theorem State.settlePin_accepted : (s.settlePin).accepted = s.accepted := by unfold State.settlePin; split <;> (try split) <;> rfl
@[simp] theorem State.settlePin_load : (s.settlePin).load = s.load := by unfold State.settlePin; split <;> (try split) <;> rfl
@[simp] theorem State.settlePin_models : (s.settlePin).models = s.models := by unfold State.settlePin; split <;> (try split) <;> rfl
@[simp] theorem State.settlePin_plies : (s.settlePin).plies = s.plies := by unfold State.settlePin; split <;> (try split) <;> rfl
@[simp] theorem State.settlePin_cells : (s.settlePin).cells = s.cells := by unfold State.settlePin; split <;> (try split) <;> rfl
@[simp] theorem State.settlePin_cellClock : (s.settlePin).cellClock = s.cellClock := by unfold State.settlePin; split <;> (try split) <;> rfl
@[simp] theorem State.settlePin_assay : (s.settlePin).assay = s.assay := by unfold State.settlePin; split <;> (try split) <;> rfl
@[simp] theorem State.settlePin_monitor : (s.settlePin).monitor = s.monitor := by unfold State.settlePin; split <;> (try split) <;> rfl
@[simp] theorem State.settlePin_power : (s.settlePin).power = s.power := by unfold State.settlePin; split <;> (try split) <;> rfl
@[simp] theorem State.settlePin_chouse : (s.settlePin).chouse = s.chouse := by unfold State.settlePin; split <;> (try split) <;> rfl
@[simp] theorem State.settlePin_mgmt : (s.settlePin).mgmt = s.mgmt := by unfold State.settlePin; split <;> (try split) <;> rfl
@[simp] theorem State.settlePin_fabric : (s.settlePin).fabric = s.fabric := by unfold State.settlePin; split <;> (try split) <;> rfl
@[simp] theorem State.settlePin_pkgEvents : (s.settlePin).pkgEvents = s.pkgEvents := by unfold State.settlePin; split <;> (try split) <;> rfl
@[simp] theorem State.settlePin_pcPsel : (s.settlePin).pcPsel = s.pcPsel := by unfold State.settlePin; split <;> (try split) <;> rfl
@[simp] theorem State.settlePin_lgBase : (s.settlePin).lgBase = s.lgBase := by unfold State.settlePin; split <;> (try split) <;> rfl
@[simp] theorem State.settlePin_lgPages : (s.settlePin).lgPages = s.lgPages := by unfold State.settlePin; split <;> (try split) <;> rfl
@[simp] theorem State.settlePin_lgEn : (s.settlePin).lgEn = s.lgEn := by unfold State.settlePin; split <;> (try split) <;> rfl
@[simp] theorem State.settlePin_lgK : (s.settlePin).lgK = s.lgK := by unfold State.settlePin; split <;> (try split) <;> rfl
@[simp] theorem State.settlePin_lgTail : (s.settlePin).lgTail = s.lgTail := by unfold State.settlePin; split <;> (try split) <;> rfl
@[simp] theorem State.settlePin_lgQueue : (s.settlePin).lgQueue = s.lgQueue := by unfold State.settlePin; split <;> (try split) <;> rfl
@[simp] theorem State.settlePin_latch : (s.settlePin).latch = s.latch := by unfold State.settlePin; split <;> (try split) <;> rfl
@[simp] theorem State.settlePin_fresh : (s.settlePin).fresh = s.fresh := by unfold State.settlePin; split <;> (try split) <;> rfl

@[simp] theorem State.settlePin_irqStatus : s.settlePin.port.irqStatus = s.port.irqStatus := by unfold State.settlePin; split <;> (try split) <;> rfl

end

/-! ### An interrupt cause raised -/

section

variable (s : State) (b : Nat)

@[simp] theorem State.raiseIrq_pending : (s.raiseIrq b).pending = s.pending := by simp [State.raiseIrq]
@[simp] theorem State.raiseIrq_boot : (s.raiseIrq b).boot = s.boot := by simp [State.raiseIrq]
@[simp] theorem State.raiseIrq_timeUs : (s.raiseIrq b).timeUs = s.timeUs := by simp [State.raiseIrq]
@[simp] theorem State.raiseIrq_fuses : (s.raiseIrq b).fuses = s.fuses := by simp [State.raiseIrq]
@[simp] theorem State.raiseIrq_shape : (s.raiseIrq b).shape = s.shape := by simp [State.raiseIrq]
@[simp] theorem State.raiseIrq_refclk : (s.raiseIrq b).refclk = s.refclk := by simp [State.raiseIrq]
@[simp] theorem State.raiseIrq_supply : (s.raiseIrq b).supply = s.supply := by simp [State.raiseIrq]
@[simp] theorem State.raiseIrq_cores : (s.raiseIrq b).cores = s.cores := by simp [State.raiseIrq]
@[simp] theorem State.raiseIrq_house : (s.raiseIrq b).house = s.house := by simp [State.raiseIrq]
@[simp] theorem State.raiseIrq_clusters : (s.raiseIrq b).clusters = s.clusters := by simp [State.raiseIrq]
@[simp] theorem State.raiseIrq_mem : (s.raiseIrq b).mem = s.mem := by simp [State.raiseIrq]
@[simp] theorem State.raiseIrq_poison : (s.raiseIrq b).poison = s.poison := by simp [State.raiseIrq]
@[simp] theorem State.raiseIrq_written : (s.raiseIrq b).written = s.written := by simp [State.raiseIrq]
@[simp] theorem State.raiseIrq_capWait : (s.raiseIrq b).capWait = s.capWait := by simp [State.raiseIrq]
@[simp] theorem State.raiseIrq_capHeld : (s.raiseIrq b).capHeld = s.capHeld := by simp [State.raiseIrq]
@[simp] theorem State.raiseIrq_progWait : (s.raiseIrq b).progWait = s.progWait := by simp [State.raiseIrq]
@[simp] theorem State.raiseIrq_progHeld : (s.raiseIrq b).progHeld = s.progHeld := by simp [State.raiseIrq]
@[simp] theorem State.raiseIrq_jobs : (s.raiseIrq b).jobs = s.jobs := by simp [State.raiseIrq]
@[simp] theorem State.raiseIrq_accepted : (s.raiseIrq b).accepted = s.accepted := by simp [State.raiseIrq]
@[simp] theorem State.raiseIrq_load : (s.raiseIrq b).load = s.load := by simp [State.raiseIrq]
@[simp] theorem State.raiseIrq_models : (s.raiseIrq b).models = s.models := by simp [State.raiseIrq]
@[simp] theorem State.raiseIrq_plies : (s.raiseIrq b).plies = s.plies := by simp [State.raiseIrq]
@[simp] theorem State.raiseIrq_cells : (s.raiseIrq b).cells = s.cells := by simp [State.raiseIrq]
@[simp] theorem State.raiseIrq_cellClock : (s.raiseIrq b).cellClock = s.cellClock := by simp [State.raiseIrq]
@[simp] theorem State.raiseIrq_assay : (s.raiseIrq b).assay = s.assay := by simp [State.raiseIrq]
@[simp] theorem State.raiseIrq_monitor : (s.raiseIrq b).monitor = s.monitor := by simp [State.raiseIrq]
@[simp] theorem State.raiseIrq_power : (s.raiseIrq b).power = s.power := by simp [State.raiseIrq]
@[simp] theorem State.raiseIrq_chouse : (s.raiseIrq b).chouse = s.chouse := by simp [State.raiseIrq]
@[simp] theorem State.raiseIrq_mgmt : (s.raiseIrq b).mgmt = s.mgmt := by simp [State.raiseIrq]
@[simp] theorem State.raiseIrq_fabric : (s.raiseIrq b).fabric = s.fabric := by simp [State.raiseIrq]
@[simp] theorem State.raiseIrq_pkgEvents : (s.raiseIrq b).pkgEvents = s.pkgEvents := by simp [State.raiseIrq]
@[simp] theorem State.raiseIrq_pcPsel : (s.raiseIrq b).pcPsel = s.pcPsel := by simp [State.raiseIrq]
@[simp] theorem State.raiseIrq_lgBase : (s.raiseIrq b).lgBase = s.lgBase := by simp [State.raiseIrq]
@[simp] theorem State.raiseIrq_lgPages : (s.raiseIrq b).lgPages = s.lgPages := by simp [State.raiseIrq]
@[simp] theorem State.raiseIrq_lgEn : (s.raiseIrq b).lgEn = s.lgEn := by simp [State.raiseIrq]
@[simp] theorem State.raiseIrq_lgK : (s.raiseIrq b).lgK = s.lgK := by simp [State.raiseIrq]
@[simp] theorem State.raiseIrq_lgTail : (s.raiseIrq b).lgTail = s.lgTail := by simp [State.raiseIrq]
@[simp] theorem State.raiseIrq_lgQueue : (s.raiseIrq b).lgQueue = s.lgQueue := by simp [State.raiseIrq]
@[simp] theorem State.raiseIrq_latch : (s.raiseIrq b).latch = s.latch := by simp [State.raiseIrq]
@[simp] theorem State.raiseIrq_fresh : (s.raiseIrq b).fresh = s.fresh := by simp [State.raiseIrq]

@[simp] theorem State.raiseIrq_irqStatus : (s.raiseIrq b).port.irqStatus = s.port.irqStatus ||| BitVec.ofNat 8 (2 ^ b) := by simp [State.raiseIrq]

end

/-! ### Finished requests -/

section

variable (s : State) (c : Completion)

@[simp] theorem State.finishReq_pending : (s.finishReq c).pending = s.pending := rfl
@[simp] theorem State.finishReq_boot : (s.finishReq c).boot = s.boot := rfl
@[simp] theorem State.finishReq_timeUs : (s.finishReq c).timeUs = s.timeUs := rfl
@[simp] theorem State.finishReq_fuses : (s.finishReq c).fuses = s.fuses := rfl
@[simp] theorem State.finishReq_shape : (s.finishReq c).shape = s.shape := rfl
@[simp] theorem State.finishReq_refclk : (s.finishReq c).refclk = s.refclk := rfl
@[simp] theorem State.finishReq_supply : (s.finishReq c).supply = s.supply := rfl
@[simp] theorem State.finishReq_cores : (s.finishReq c).cores = s.cores := rfl
@[simp] theorem State.finishReq_house : (s.finishReq c).house = s.house := rfl
@[simp] theorem State.finishReq_clusters : (s.finishReq c).clusters = s.clusters := rfl
@[simp] theorem State.finishReq_mem : (s.finishReq c).mem = s.mem := rfl
@[simp] theorem State.finishReq_poison : (s.finishReq c).poison = s.poison := rfl
@[simp] theorem State.finishReq_written : (s.finishReq c).written = s.written := rfl
@[simp] theorem State.finishReq_capWait : (s.finishReq c).capWait = s.capWait := rfl
@[simp] theorem State.finishReq_capHeld : (s.finishReq c).capHeld = s.capHeld := rfl
@[simp] theorem State.finishReq_progWait : (s.finishReq c).progWait = s.progWait := rfl
@[simp] theorem State.finishReq_progHeld : (s.finishReq c).progHeld = s.progHeld := rfl
@[simp] theorem State.finishReq_jobs : (s.finishReq c).jobs = s.jobs := rfl
@[simp] theorem State.finishReq_accepted : (s.finishReq c).accepted = s.accepted := rfl
@[simp] theorem State.finishReq_load : (s.finishReq c).load = s.load := rfl
@[simp] theorem State.finishReq_models : (s.finishReq c).models = s.models := rfl
@[simp] theorem State.finishReq_plies : (s.finishReq c).plies = s.plies := rfl
@[simp] theorem State.finishReq_cells : (s.finishReq c).cells = s.cells := rfl
@[simp] theorem State.finishReq_cellClock : (s.finishReq c).cellClock = s.cellClock := rfl
@[simp] theorem State.finishReq_assay : (s.finishReq c).assay = s.assay := rfl
@[simp] theorem State.finishReq_monitor : (s.finishReq c).monitor = s.monitor := rfl
@[simp] theorem State.finishReq_power : (s.finishReq c).power = s.power := rfl
@[simp] theorem State.finishReq_chouse : (s.finishReq c).chouse = s.chouse := rfl
@[simp] theorem State.finishReq_mgmt : (s.finishReq c).mgmt = s.mgmt := rfl
@[simp] theorem State.finishReq_fabric : (s.finishReq c).fabric = s.fabric := rfl
@[simp] theorem State.finishReq_pkgEvents : (s.finishReq c).pkgEvents = s.pkgEvents := rfl
@[simp] theorem State.finishReq_pcPsel : (s.finishReq c).pcPsel = s.pcPsel := rfl
@[simp] theorem State.finishReq_lgBase : (s.finishReq c).lgBase = s.lgBase := rfl
@[simp] theorem State.finishReq_lgPages : (s.finishReq c).lgPages = s.lgPages := rfl
@[simp] theorem State.finishReq_lgEn : (s.finishReq c).lgEn = s.lgEn := rfl
@[simp] theorem State.finishReq_lgK : (s.finishReq c).lgK = s.lgK := rfl
@[simp] theorem State.finishReq_lgTail : (s.finishReq c).lgTail = s.lgTail := rfl
@[simp] theorem State.finishReq_lgQueue : (s.finishReq c).lgQueue = s.lgQueue := rfl
@[simp] theorem State.finishReq_latch : (s.finishReq c).latch = s.latch := rfl
@[simp] theorem State.finishReq_fresh : (s.finishReq c).fresh = s.fresh := rfl

@[simp] theorem State.finishReq_finished : (s.finishReq c).port.finished = s.port.finished ++ [c] := rfl
@[simp] theorem State.finishReq_inUse : (s.finishReq c).port.inUse = s.port.inUse := rfl

end

/-! ### Jobs -/

section

variable (s : State) (slot : Nat) (f : Job → Job)

@[simp] theorem State.updJob_pending : (s.updJob slot f).pending = s.pending := rfl
@[simp] theorem State.updJob_boot : (s.updJob slot f).boot = s.boot := rfl
@[simp] theorem State.updJob_timeUs : (s.updJob slot f).timeUs = s.timeUs := rfl
@[simp] theorem State.updJob_fuses : (s.updJob slot f).fuses = s.fuses := rfl
@[simp] theorem State.updJob_shape : (s.updJob slot f).shape = s.shape := rfl
@[simp] theorem State.updJob_refclk : (s.updJob slot f).refclk = s.refclk := rfl
@[simp] theorem State.updJob_supply : (s.updJob slot f).supply = s.supply := rfl
@[simp] theorem State.updJob_cores : (s.updJob slot f).cores = s.cores := rfl
@[simp] theorem State.updJob_house : (s.updJob slot f).house = s.house := rfl
@[simp] theorem State.updJob_clusters : (s.updJob slot f).clusters = s.clusters := rfl
@[simp] theorem State.updJob_mem : (s.updJob slot f).mem = s.mem := rfl
@[simp] theorem State.updJob_poison : (s.updJob slot f).poison = s.poison := rfl
@[simp] theorem State.updJob_written : (s.updJob slot f).written = s.written := rfl
@[simp] theorem State.updJob_capWait : (s.updJob slot f).capWait = s.capWait := rfl
@[simp] theorem State.updJob_capHeld : (s.updJob slot f).capHeld = s.capHeld := rfl
@[simp] theorem State.updJob_progWait : (s.updJob slot f).progWait = s.progWait := rfl
@[simp] theorem State.updJob_progHeld : (s.updJob slot f).progHeld = s.progHeld := rfl
@[simp] theorem State.updJob_port : (s.updJob slot f).port = s.port := rfl
@[simp] theorem State.updJob_accepted : (s.updJob slot f).accepted = s.accepted := rfl
@[simp] theorem State.updJob_load : (s.updJob slot f).load = s.load := rfl
@[simp] theorem State.updJob_models : (s.updJob slot f).models = s.models := rfl
@[simp] theorem State.updJob_plies : (s.updJob slot f).plies = s.plies := rfl
@[simp] theorem State.updJob_cells : (s.updJob slot f).cells = s.cells := rfl
@[simp] theorem State.updJob_cellClock : (s.updJob slot f).cellClock = s.cellClock := rfl
@[simp] theorem State.updJob_assay : (s.updJob slot f).assay = s.assay := rfl
@[simp] theorem State.updJob_monitor : (s.updJob slot f).monitor = s.monitor := rfl
@[simp] theorem State.updJob_power : (s.updJob slot f).power = s.power := rfl
@[simp] theorem State.updJob_chouse : (s.updJob slot f).chouse = s.chouse := rfl
@[simp] theorem State.updJob_mgmt : (s.updJob slot f).mgmt = s.mgmt := rfl
@[simp] theorem State.updJob_fabric : (s.updJob slot f).fabric = s.fabric := rfl
@[simp] theorem State.updJob_pkgEvents : (s.updJob slot f).pkgEvents = s.pkgEvents := rfl
@[simp] theorem State.updJob_pcPsel : (s.updJob slot f).pcPsel = s.pcPsel := rfl
@[simp] theorem State.updJob_lgBase : (s.updJob slot f).lgBase = s.lgBase := rfl
@[simp] theorem State.updJob_lgPages : (s.updJob slot f).lgPages = s.lgPages := rfl
@[simp] theorem State.updJob_lgEn : (s.updJob slot f).lgEn = s.lgEn := rfl
@[simp] theorem State.updJob_lgK : (s.updJob slot f).lgK = s.lgK := rfl
@[simp] theorem State.updJob_lgTail : (s.updJob slot f).lgTail = s.lgTail := rfl
@[simp] theorem State.updJob_lgQueue : (s.updJob slot f).lgQueue = s.lgQueue := rfl
@[simp] theorem State.updJob_latch : (s.updJob slot f).latch = s.latch := rfl
@[simp] theorem State.updJob_fresh : (s.updJob slot f).fresh = s.fresh := rfl


end

/-! ### The load -/

section

variable (s : State) (f : LoadReq → LoadReq)

@[simp] theorem State.updLoad_pending : (s.updLoad f).pending = s.pending := rfl
@[simp] theorem State.updLoad_boot : (s.updLoad f).boot = s.boot := rfl
@[simp] theorem State.updLoad_timeUs : (s.updLoad f).timeUs = s.timeUs := rfl
@[simp] theorem State.updLoad_fuses : (s.updLoad f).fuses = s.fuses := rfl
@[simp] theorem State.updLoad_shape : (s.updLoad f).shape = s.shape := rfl
@[simp] theorem State.updLoad_refclk : (s.updLoad f).refclk = s.refclk := rfl
@[simp] theorem State.updLoad_supply : (s.updLoad f).supply = s.supply := rfl
@[simp] theorem State.updLoad_cores : (s.updLoad f).cores = s.cores := rfl
@[simp] theorem State.updLoad_house : (s.updLoad f).house = s.house := rfl
@[simp] theorem State.updLoad_clusters : (s.updLoad f).clusters = s.clusters := rfl
@[simp] theorem State.updLoad_mem : (s.updLoad f).mem = s.mem := rfl
@[simp] theorem State.updLoad_poison : (s.updLoad f).poison = s.poison := rfl
@[simp] theorem State.updLoad_written : (s.updLoad f).written = s.written := rfl
@[simp] theorem State.updLoad_capWait : (s.updLoad f).capWait = s.capWait := rfl
@[simp] theorem State.updLoad_capHeld : (s.updLoad f).capHeld = s.capHeld := rfl
@[simp] theorem State.updLoad_progWait : (s.updLoad f).progWait = s.progWait := rfl
@[simp] theorem State.updLoad_progHeld : (s.updLoad f).progHeld = s.progHeld := rfl
@[simp] theorem State.updLoad_port : (s.updLoad f).port = s.port := rfl
@[simp] theorem State.updLoad_jobs : (s.updLoad f).jobs = s.jobs := rfl
@[simp] theorem State.updLoad_accepted : (s.updLoad f).accepted = s.accepted := rfl
@[simp] theorem State.updLoad_models : (s.updLoad f).models = s.models := rfl
@[simp] theorem State.updLoad_plies : (s.updLoad f).plies = s.plies := rfl
@[simp] theorem State.updLoad_cells : (s.updLoad f).cells = s.cells := rfl
@[simp] theorem State.updLoad_cellClock : (s.updLoad f).cellClock = s.cellClock := rfl
@[simp] theorem State.updLoad_assay : (s.updLoad f).assay = s.assay := rfl
@[simp] theorem State.updLoad_monitor : (s.updLoad f).monitor = s.monitor := rfl
@[simp] theorem State.updLoad_power : (s.updLoad f).power = s.power := rfl
@[simp] theorem State.updLoad_chouse : (s.updLoad f).chouse = s.chouse := rfl
@[simp] theorem State.updLoad_mgmt : (s.updLoad f).mgmt = s.mgmt := rfl
@[simp] theorem State.updLoad_fabric : (s.updLoad f).fabric = s.fabric := rfl
@[simp] theorem State.updLoad_pkgEvents : (s.updLoad f).pkgEvents = s.pkgEvents := rfl
@[simp] theorem State.updLoad_pcPsel : (s.updLoad f).pcPsel = s.pcPsel := rfl
@[simp] theorem State.updLoad_lgBase : (s.updLoad f).lgBase = s.lgBase := rfl
@[simp] theorem State.updLoad_lgPages : (s.updLoad f).lgPages = s.lgPages := rfl
@[simp] theorem State.updLoad_lgEn : (s.updLoad f).lgEn = s.lgEn := rfl
@[simp] theorem State.updLoad_lgK : (s.updLoad f).lgK = s.lgK := rfl
@[simp] theorem State.updLoad_lgTail : (s.updLoad f).lgTail = s.lgTail := rfl
@[simp] theorem State.updLoad_lgQueue : (s.updLoad f).lgQueue = s.lgQueue := rfl
@[simp] theorem State.updLoad_latch : (s.updLoad f).latch = s.latch := rfl
@[simp] theorem State.updLoad_fresh : (s.updLoad f).fresh = s.fresh := rfl

@[simp] theorem State.updLoad_load : (s.updLoad f).load = s.load.map f := rfl

end

/-! ### A model slot -/

section

variable (s : State) (m : Nat) (f : Model → Model)

@[simp] theorem State.updModel_pending : (s.updModel m f).pending = s.pending := rfl
@[simp] theorem State.updModel_boot : (s.updModel m f).boot = s.boot := rfl
@[simp] theorem State.updModel_timeUs : (s.updModel m f).timeUs = s.timeUs := rfl
@[simp] theorem State.updModel_fuses : (s.updModel m f).fuses = s.fuses := rfl
@[simp] theorem State.updModel_shape : (s.updModel m f).shape = s.shape := rfl
@[simp] theorem State.updModel_refclk : (s.updModel m f).refclk = s.refclk := rfl
@[simp] theorem State.updModel_supply : (s.updModel m f).supply = s.supply := rfl
@[simp] theorem State.updModel_cores : (s.updModel m f).cores = s.cores := rfl
@[simp] theorem State.updModel_house : (s.updModel m f).house = s.house := rfl
@[simp] theorem State.updModel_clusters : (s.updModel m f).clusters = s.clusters := rfl
@[simp] theorem State.updModel_mem : (s.updModel m f).mem = s.mem := rfl
@[simp] theorem State.updModel_poison : (s.updModel m f).poison = s.poison := rfl
@[simp] theorem State.updModel_written : (s.updModel m f).written = s.written := rfl
@[simp] theorem State.updModel_capWait : (s.updModel m f).capWait = s.capWait := rfl
@[simp] theorem State.updModel_capHeld : (s.updModel m f).capHeld = s.capHeld := rfl
@[simp] theorem State.updModel_progWait : (s.updModel m f).progWait = s.progWait := rfl
@[simp] theorem State.updModel_progHeld : (s.updModel m f).progHeld = s.progHeld := rfl
@[simp] theorem State.updModel_port : (s.updModel m f).port = s.port := rfl
@[simp] theorem State.updModel_jobs : (s.updModel m f).jobs = s.jobs := rfl
@[simp] theorem State.updModel_accepted : (s.updModel m f).accepted = s.accepted := rfl
@[simp] theorem State.updModel_load : (s.updModel m f).load = s.load := rfl
@[simp] theorem State.updModel_plies : (s.updModel m f).plies = s.plies := rfl
@[simp] theorem State.updModel_cells : (s.updModel m f).cells = s.cells := rfl
@[simp] theorem State.updModel_cellClock : (s.updModel m f).cellClock = s.cellClock := rfl
@[simp] theorem State.updModel_assay : (s.updModel m f).assay = s.assay := rfl
@[simp] theorem State.updModel_monitor : (s.updModel m f).monitor = s.monitor := rfl
@[simp] theorem State.updModel_power : (s.updModel m f).power = s.power := rfl
@[simp] theorem State.updModel_chouse : (s.updModel m f).chouse = s.chouse := rfl
@[simp] theorem State.updModel_mgmt : (s.updModel m f).mgmt = s.mgmt := rfl
@[simp] theorem State.updModel_fabric : (s.updModel m f).fabric = s.fabric := rfl
@[simp] theorem State.updModel_pkgEvents : (s.updModel m f).pkgEvents = s.pkgEvents := rfl
@[simp] theorem State.updModel_pcPsel : (s.updModel m f).pcPsel = s.pcPsel := rfl
@[simp] theorem State.updModel_lgBase : (s.updModel m f).lgBase = s.lgBase := rfl
@[simp] theorem State.updModel_lgPages : (s.updModel m f).lgPages = s.lgPages := rfl
@[simp] theorem State.updModel_lgEn : (s.updModel m f).lgEn = s.lgEn := rfl
@[simp] theorem State.updModel_lgK : (s.updModel m f).lgK = s.lgK := rfl
@[simp] theorem State.updModel_lgTail : (s.updModel m f).lgTail = s.lgTail := rfl
@[simp] theorem State.updModel_lgQueue : (s.updModel m f).lgQueue = s.lgQueue := rfl
@[simp] theorem State.updModel_latch : (s.updModel m f).latch = s.latch := rfl
@[simp] theorem State.updModel_fresh : (s.updModel m f).fresh = s.fresh := rfl

@[simp] theorem State.model_updModel : m < 16 → (s.updModel m f).model m = f (s.model m) := by
  intro h
  simp [State.updModel, State.model, updN, getN, h]

end

/-! ### Plies -/

section

variable (s : State) (q : Nat) (f : PlyRec → PlyRec)

@[simp] theorem State.updPly_pending : (s.updPly q f).pending = s.pending := rfl
@[simp] theorem State.updPly_boot : (s.updPly q f).boot = s.boot := rfl
@[simp] theorem State.updPly_timeUs : (s.updPly q f).timeUs = s.timeUs := rfl
@[simp] theorem State.updPly_fuses : (s.updPly q f).fuses = s.fuses := rfl
@[simp] theorem State.updPly_shape : (s.updPly q f).shape = s.shape := rfl
@[simp] theorem State.updPly_refclk : (s.updPly q f).refclk = s.refclk := rfl
@[simp] theorem State.updPly_supply : (s.updPly q f).supply = s.supply := rfl
@[simp] theorem State.updPly_cores : (s.updPly q f).cores = s.cores := rfl
@[simp] theorem State.updPly_house : (s.updPly q f).house = s.house := rfl
@[simp] theorem State.updPly_clusters : (s.updPly q f).clusters = s.clusters := rfl
@[simp] theorem State.updPly_mem : (s.updPly q f).mem = s.mem := rfl
@[simp] theorem State.updPly_poison : (s.updPly q f).poison = s.poison := rfl
@[simp] theorem State.updPly_written : (s.updPly q f).written = s.written := rfl
@[simp] theorem State.updPly_capWait : (s.updPly q f).capWait = s.capWait := rfl
@[simp] theorem State.updPly_capHeld : (s.updPly q f).capHeld = s.capHeld := rfl
@[simp] theorem State.updPly_progWait : (s.updPly q f).progWait = s.progWait := rfl
@[simp] theorem State.updPly_progHeld : (s.updPly q f).progHeld = s.progHeld := rfl
@[simp] theorem State.updPly_port : (s.updPly q f).port = s.port := rfl
@[simp] theorem State.updPly_jobs : (s.updPly q f).jobs = s.jobs := rfl
@[simp] theorem State.updPly_accepted : (s.updPly q f).accepted = s.accepted := rfl
@[simp] theorem State.updPly_load : (s.updPly q f).load = s.load := rfl
@[simp] theorem State.updPly_models : (s.updPly q f).models = s.models := rfl
@[simp] theorem State.updPly_cells : (s.updPly q f).cells = s.cells := rfl
@[simp] theorem State.updPly_cellClock : (s.updPly q f).cellClock = s.cellClock := rfl
@[simp] theorem State.updPly_assay : (s.updPly q f).assay = s.assay := rfl
@[simp] theorem State.updPly_monitor : (s.updPly q f).monitor = s.monitor := rfl
@[simp] theorem State.updPly_power : (s.updPly q f).power = s.power := rfl
@[simp] theorem State.updPly_chouse : (s.updPly q f).chouse = s.chouse := rfl
@[simp] theorem State.updPly_mgmt : (s.updPly q f).mgmt = s.mgmt := rfl
@[simp] theorem State.updPly_fabric : (s.updPly q f).fabric = s.fabric := rfl
@[simp] theorem State.updPly_pkgEvents : (s.updPly q f).pkgEvents = s.pkgEvents := rfl
@[simp] theorem State.updPly_pcPsel : (s.updPly q f).pcPsel = s.pcPsel := rfl
@[simp] theorem State.updPly_lgBase : (s.updPly q f).lgBase = s.lgBase := rfl
@[simp] theorem State.updPly_lgPages : (s.updPly q f).lgPages = s.lgPages := rfl
@[simp] theorem State.updPly_lgEn : (s.updPly q f).lgEn = s.lgEn := rfl
@[simp] theorem State.updPly_lgK : (s.updPly q f).lgK = s.lgK := rfl
@[simp] theorem State.updPly_lgTail : (s.updPly q f).lgTail = s.lgTail := rfl
@[simp] theorem State.updPly_lgQueue : (s.updPly q f).lgQueue = s.lgQueue := rfl
@[simp] theorem State.updPly_latch : (s.updPly q f).latch = s.latch := rfl
@[simp] theorem State.updPly_fresh : (s.updPly q f).fresh = s.fresh := rfl


end

/-! ### Assay's work -/

section

variable (s : State) (q : Nat) (f : AssayPly → AssayPly)

@[simp] theorem State.updAssay_pending : (s.updAssay q f).pending = s.pending := rfl
@[simp] theorem State.updAssay_boot : (s.updAssay q f).boot = s.boot := rfl
@[simp] theorem State.updAssay_timeUs : (s.updAssay q f).timeUs = s.timeUs := rfl
@[simp] theorem State.updAssay_fuses : (s.updAssay q f).fuses = s.fuses := rfl
@[simp] theorem State.updAssay_shape : (s.updAssay q f).shape = s.shape := rfl
@[simp] theorem State.updAssay_refclk : (s.updAssay q f).refclk = s.refclk := rfl
@[simp] theorem State.updAssay_supply : (s.updAssay q f).supply = s.supply := rfl
@[simp] theorem State.updAssay_cores : (s.updAssay q f).cores = s.cores := rfl
@[simp] theorem State.updAssay_house : (s.updAssay q f).house = s.house := rfl
@[simp] theorem State.updAssay_clusters : (s.updAssay q f).clusters = s.clusters := rfl
@[simp] theorem State.updAssay_mem : (s.updAssay q f).mem = s.mem := rfl
@[simp] theorem State.updAssay_poison : (s.updAssay q f).poison = s.poison := rfl
@[simp] theorem State.updAssay_written : (s.updAssay q f).written = s.written := rfl
@[simp] theorem State.updAssay_capWait : (s.updAssay q f).capWait = s.capWait := rfl
@[simp] theorem State.updAssay_capHeld : (s.updAssay q f).capHeld = s.capHeld := rfl
@[simp] theorem State.updAssay_progWait : (s.updAssay q f).progWait = s.progWait := rfl
@[simp] theorem State.updAssay_progHeld : (s.updAssay q f).progHeld = s.progHeld := rfl
@[simp] theorem State.updAssay_port : (s.updAssay q f).port = s.port := rfl
@[simp] theorem State.updAssay_jobs : (s.updAssay q f).jobs = s.jobs := rfl
@[simp] theorem State.updAssay_accepted : (s.updAssay q f).accepted = s.accepted := rfl
@[simp] theorem State.updAssay_load : (s.updAssay q f).load = s.load := rfl
@[simp] theorem State.updAssay_models : (s.updAssay q f).models = s.models := rfl
@[simp] theorem State.updAssay_plies : (s.updAssay q f).plies = s.plies := rfl
@[simp] theorem State.updAssay_cells : (s.updAssay q f).cells = s.cells := rfl
@[simp] theorem State.updAssay_cellClock : (s.updAssay q f).cellClock = s.cellClock := rfl
@[simp] theorem State.updAssay_monitor : (s.updAssay q f).monitor = s.monitor := rfl
@[simp] theorem State.updAssay_power : (s.updAssay q f).power = s.power := rfl
@[simp] theorem State.updAssay_chouse : (s.updAssay q f).chouse = s.chouse := rfl
@[simp] theorem State.updAssay_mgmt : (s.updAssay q f).mgmt = s.mgmt := rfl
@[simp] theorem State.updAssay_fabric : (s.updAssay q f).fabric = s.fabric := rfl
@[simp] theorem State.updAssay_pkgEvents : (s.updAssay q f).pkgEvents = s.pkgEvents := rfl
@[simp] theorem State.updAssay_pcPsel : (s.updAssay q f).pcPsel = s.pcPsel := rfl
@[simp] theorem State.updAssay_lgBase : (s.updAssay q f).lgBase = s.lgBase := rfl
@[simp] theorem State.updAssay_lgPages : (s.updAssay q f).lgPages = s.lgPages := rfl
@[simp] theorem State.updAssay_lgEn : (s.updAssay q f).lgEn = s.lgEn := rfl
@[simp] theorem State.updAssay_lgK : (s.updAssay q f).lgK = s.lgK := rfl
@[simp] theorem State.updAssay_lgTail : (s.updAssay q f).lgTail = s.lgTail := rfl
@[simp] theorem State.updAssay_lgQueue : (s.updAssay q f).lgQueue = s.lgQueue := rfl
@[simp] theorem State.updAssay_latch : (s.updAssay q f).latch = s.latch := rfl
@[simp] theorem State.updAssay_fresh : (s.updAssay q f).fresh = s.fresh := rfl


end

/-! ### A link -/

section

variable (s : State) (n : Nat) (f : Link → Link)

@[simp] theorem State.updLink_pending : (s.updLink n f).pending = s.pending := rfl
@[simp] theorem State.updLink_boot : (s.updLink n f).boot = s.boot := rfl
@[simp] theorem State.updLink_timeUs : (s.updLink n f).timeUs = s.timeUs := rfl
@[simp] theorem State.updLink_fuses : (s.updLink n f).fuses = s.fuses := rfl
@[simp] theorem State.updLink_shape : (s.updLink n f).shape = s.shape := rfl
@[simp] theorem State.updLink_refclk : (s.updLink n f).refclk = s.refclk := rfl
@[simp] theorem State.updLink_supply : (s.updLink n f).supply = s.supply := rfl
@[simp] theorem State.updLink_cores : (s.updLink n f).cores = s.cores := rfl
@[simp] theorem State.updLink_house : (s.updLink n f).house = s.house := rfl
@[simp] theorem State.updLink_clusters : (s.updLink n f).clusters = s.clusters := rfl
@[simp] theorem State.updLink_mem : (s.updLink n f).mem = s.mem := rfl
@[simp] theorem State.updLink_poison : (s.updLink n f).poison = s.poison := rfl
@[simp] theorem State.updLink_written : (s.updLink n f).written = s.written := rfl
@[simp] theorem State.updLink_capWait : (s.updLink n f).capWait = s.capWait := rfl
@[simp] theorem State.updLink_capHeld : (s.updLink n f).capHeld = s.capHeld := rfl
@[simp] theorem State.updLink_progWait : (s.updLink n f).progWait = s.progWait := rfl
@[simp] theorem State.updLink_progHeld : (s.updLink n f).progHeld = s.progHeld := rfl
@[simp] theorem State.updLink_port : (s.updLink n f).port = s.port := rfl
@[simp] theorem State.updLink_jobs : (s.updLink n f).jobs = s.jobs := rfl
@[simp] theorem State.updLink_accepted : (s.updLink n f).accepted = s.accepted := rfl
@[simp] theorem State.updLink_load : (s.updLink n f).load = s.load := rfl
@[simp] theorem State.updLink_models : (s.updLink n f).models = s.models := rfl
@[simp] theorem State.updLink_plies : (s.updLink n f).plies = s.plies := rfl
@[simp] theorem State.updLink_cells : (s.updLink n f).cells = s.cells := rfl
@[simp] theorem State.updLink_cellClock : (s.updLink n f).cellClock = s.cellClock := rfl
@[simp] theorem State.updLink_assay : (s.updLink n f).assay = s.assay := rfl
@[simp] theorem State.updLink_monitor : (s.updLink n f).monitor = s.monitor := rfl
@[simp] theorem State.updLink_power : (s.updLink n f).power = s.power := rfl
@[simp] theorem State.updLink_chouse : (s.updLink n f).chouse = s.chouse := rfl
@[simp] theorem State.updLink_mgmt : (s.updLink n f).mgmt = s.mgmt := rfl
@[simp] theorem State.updLink_pkgEvents : (s.updLink n f).pkgEvents = s.pkgEvents := rfl
@[simp] theorem State.updLink_pcPsel : (s.updLink n f).pcPsel = s.pcPsel := rfl
@[simp] theorem State.updLink_lgBase : (s.updLink n f).lgBase = s.lgBase := rfl
@[simp] theorem State.updLink_lgPages : (s.updLink n f).lgPages = s.lgPages := rfl
@[simp] theorem State.updLink_lgEn : (s.updLink n f).lgEn = s.lgEn := rfl
@[simp] theorem State.updLink_lgK : (s.updLink n f).lgK = s.lgK := rfl
@[simp] theorem State.updLink_lgTail : (s.updLink n f).lgTail = s.lgTail := rfl
@[simp] theorem State.updLink_lgQueue : (s.updLink n f).lgQueue = s.lgQueue := rfl
@[simp] theorem State.updLink_latch : (s.updLink n f).latch = s.latch := rfl
@[simp] theorem State.updLink_fresh : (s.updLink n f).fresh = s.fresh := rfl


end

/-! ### A host channel -/

section

variable (s : State) (ch : Chan) (f : ChanState → ChanState)

@[simp] theorem State.updChan_pending : (s.updChan ch f).pending = s.pending := by cases ch <;> rfl
@[simp] theorem State.updChan_boot : (s.updChan ch f).boot = s.boot := by cases ch <;> rfl
@[simp] theorem State.updChan_timeUs : (s.updChan ch f).timeUs = s.timeUs := by cases ch <;> rfl
@[simp] theorem State.updChan_fuses : (s.updChan ch f).fuses = s.fuses := by cases ch <;> rfl
@[simp] theorem State.updChan_shape : (s.updChan ch f).shape = s.shape := by cases ch <;> rfl
@[simp] theorem State.updChan_refclk : (s.updChan ch f).refclk = s.refclk := by cases ch <;> rfl
@[simp] theorem State.updChan_supply : (s.updChan ch f).supply = s.supply := by cases ch <;> rfl
@[simp] theorem State.updChan_cores : (s.updChan ch f).cores = s.cores := by cases ch <;> rfl
@[simp] theorem State.updChan_house : (s.updChan ch f).house = s.house := by cases ch <;> rfl
@[simp] theorem State.updChan_clusters : (s.updChan ch f).clusters = s.clusters := by cases ch <;> rfl
@[simp] theorem State.updChan_mem : (s.updChan ch f).mem = s.mem := by cases ch <;> rfl
@[simp] theorem State.updChan_poison : (s.updChan ch f).poison = s.poison := by cases ch <;> rfl
@[simp] theorem State.updChan_written : (s.updChan ch f).written = s.written := by cases ch <;> rfl
@[simp] theorem State.updChan_capWait : (s.updChan ch f).capWait = s.capWait := by cases ch <;> rfl
@[simp] theorem State.updChan_capHeld : (s.updChan ch f).capHeld = s.capHeld := by cases ch <;> rfl
@[simp] theorem State.updChan_progWait : (s.updChan ch f).progWait = s.progWait := by cases ch <;> rfl
@[simp] theorem State.updChan_progHeld : (s.updChan ch f).progHeld = s.progHeld := by cases ch <;> rfl
@[simp] theorem State.updChan_jobs : (s.updChan ch f).jobs = s.jobs := by cases ch <;> rfl
@[simp] theorem State.updChan_accepted : (s.updChan ch f).accepted = s.accepted := by cases ch <;> rfl
@[simp] theorem State.updChan_load : (s.updChan ch f).load = s.load := by cases ch <;> rfl
@[simp] theorem State.updChan_models : (s.updChan ch f).models = s.models := by cases ch <;> rfl
@[simp] theorem State.updChan_plies : (s.updChan ch f).plies = s.plies := by cases ch <;> rfl
@[simp] theorem State.updChan_cells : (s.updChan ch f).cells = s.cells := by cases ch <;> rfl
@[simp] theorem State.updChan_cellClock : (s.updChan ch f).cellClock = s.cellClock := by cases ch <;> rfl
@[simp] theorem State.updChan_assay : (s.updChan ch f).assay = s.assay := by cases ch <;> rfl
@[simp] theorem State.updChan_monitor : (s.updChan ch f).monitor = s.monitor := by cases ch <;> rfl
@[simp] theorem State.updChan_power : (s.updChan ch f).power = s.power := by cases ch <;> rfl
@[simp] theorem State.updChan_chouse : (s.updChan ch f).chouse = s.chouse := by cases ch <;> rfl
@[simp] theorem State.updChan_mgmt : (s.updChan ch f).mgmt = s.mgmt := by cases ch <;> rfl
@[simp] theorem State.updChan_fabric : (s.updChan ch f).fabric = s.fabric := by cases ch <;> rfl
@[simp] theorem State.updChan_pkgEvents : (s.updChan ch f).pkgEvents = s.pkgEvents := by cases ch <;> rfl
@[simp] theorem State.updChan_pcPsel : (s.updChan ch f).pcPsel = s.pcPsel := by cases ch <;> rfl
@[simp] theorem State.updChan_lgBase : (s.updChan ch f).lgBase = s.lgBase := by cases ch <;> rfl
@[simp] theorem State.updChan_lgPages : (s.updChan ch f).lgPages = s.lgPages := by cases ch <;> rfl
@[simp] theorem State.updChan_lgEn : (s.updChan ch f).lgEn = s.lgEn := by cases ch <;> rfl
@[simp] theorem State.updChan_lgK : (s.updChan ch f).lgK = s.lgK := by cases ch <;> rfl
@[simp] theorem State.updChan_lgTail : (s.updChan ch f).lgTail = s.lgTail := by cases ch <;> rfl
@[simp] theorem State.updChan_lgQueue : (s.updChan ch f).lgQueue = s.lgQueue := by cases ch <;> rfl
@[simp] theorem State.updChan_latch : (s.updChan ch f).latch = s.latch := by cases ch <;> rfl
@[simp] theorem State.updChan_fresh : (s.updChan ch f).fresh = s.fresh := by cases ch <;> rfl

@[simp] theorem State.chan_updChan : (s.updChan ch f).chan ch = f (s.chan ch) := by cases ch <;> rfl

end

/-! ### A key slot -/

section

variable (s : State) (n : Nat) (k : Option Key)

@[simp] theorem State.setKey_pending : (s.setKey n k).pending = s.pending := by unfold State.setKey; split <;> rfl
@[simp] theorem State.setKey_boot : (s.setKey n k).boot = s.boot := by unfold State.setKey; split <;> rfl
@[simp] theorem State.setKey_timeUs : (s.setKey n k).timeUs = s.timeUs := by unfold State.setKey; split <;> rfl
@[simp] theorem State.setKey_fuses : (s.setKey n k).fuses = s.fuses := by unfold State.setKey; split <;> rfl
@[simp] theorem State.setKey_shape : (s.setKey n k).shape = s.shape := by unfold State.setKey; split <;> rfl
@[simp] theorem State.setKey_refclk : (s.setKey n k).refclk = s.refclk := by unfold State.setKey; split <;> rfl
@[simp] theorem State.setKey_supply : (s.setKey n k).supply = s.supply := by unfold State.setKey; split <;> rfl
@[simp] theorem State.setKey_cores : (s.setKey n k).cores = s.cores := by unfold State.setKey; split <;> rfl
@[simp] theorem State.setKey_house : (s.setKey n k).house = s.house := by unfold State.setKey; split <;> rfl
@[simp] theorem State.setKey_clusters : (s.setKey n k).clusters = s.clusters := by unfold State.setKey; split <;> rfl
@[simp] theorem State.setKey_mem : (s.setKey n k).mem = s.mem := by unfold State.setKey; split <;> rfl
@[simp] theorem State.setKey_poison : (s.setKey n k).poison = s.poison := by unfold State.setKey; split <;> rfl
@[simp] theorem State.setKey_written : (s.setKey n k).written = s.written := by unfold State.setKey; split <;> rfl
@[simp] theorem State.setKey_capWait : (s.setKey n k).capWait = s.capWait := by unfold State.setKey; split <;> rfl
@[simp] theorem State.setKey_capHeld : (s.setKey n k).capHeld = s.capHeld := by unfold State.setKey; split <;> rfl
@[simp] theorem State.setKey_progWait : (s.setKey n k).progWait = s.progWait := by unfold State.setKey; split <;> rfl
@[simp] theorem State.setKey_progHeld : (s.setKey n k).progHeld = s.progHeld := by unfold State.setKey; split <;> rfl
@[simp] theorem State.setKey_port : (s.setKey n k).port = s.port := by unfold State.setKey; split <;> rfl
@[simp] theorem State.setKey_jobs : (s.setKey n k).jobs = s.jobs := by unfold State.setKey; split <;> rfl
@[simp] theorem State.setKey_accepted : (s.setKey n k).accepted = s.accepted := by unfold State.setKey; split <;> rfl
@[simp] theorem State.setKey_load : (s.setKey n k).load = s.load := by unfold State.setKey; split <;> rfl
@[simp] theorem State.setKey_models : (s.setKey n k).models = s.models := by unfold State.setKey; split <;> rfl
@[simp] theorem State.setKey_plies : (s.setKey n k).plies = s.plies := by unfold State.setKey; split <;> rfl
@[simp] theorem State.setKey_cells : (s.setKey n k).cells = s.cells := by unfold State.setKey; split <;> rfl
@[simp] theorem State.setKey_cellClock : (s.setKey n k).cellClock = s.cellClock := by unfold State.setKey; split <;> rfl
@[simp] theorem State.setKey_assay : (s.setKey n k).assay = s.assay := by unfold State.setKey; split <;> rfl
@[simp] theorem State.setKey_monitor : (s.setKey n k).monitor = s.monitor := by unfold State.setKey; split <;> rfl
@[simp] theorem State.setKey_power : (s.setKey n k).power = s.power := by unfold State.setKey; split <;> rfl
@[simp] theorem State.setKey_mgmt : (s.setKey n k).mgmt = s.mgmt := by unfold State.setKey; split <;> rfl
@[simp] theorem State.setKey_fabric : (s.setKey n k).fabric = s.fabric := by unfold State.setKey; split <;> rfl
@[simp] theorem State.setKey_pkgEvents : (s.setKey n k).pkgEvents = s.pkgEvents := by unfold State.setKey; split <;> rfl
@[simp] theorem State.setKey_pcPsel : (s.setKey n k).pcPsel = s.pcPsel := by unfold State.setKey; split <;> rfl
@[simp] theorem State.setKey_lgBase : (s.setKey n k).lgBase = s.lgBase := by unfold State.setKey; split <;> rfl
@[simp] theorem State.setKey_lgPages : (s.setKey n k).lgPages = s.lgPages := by unfold State.setKey; split <;> rfl
@[simp] theorem State.setKey_lgEn : (s.setKey n k).lgEn = s.lgEn := by unfold State.setKey; split <;> rfl
@[simp] theorem State.setKey_lgK : (s.setKey n k).lgK = s.lgK := by unfold State.setKey; split <;> rfl
@[simp] theorem State.setKey_lgTail : (s.setKey n k).lgTail = s.lgTail := by unfold State.setKey; split <;> rfl
@[simp] theorem State.setKey_lgQueue : (s.setKey n k).lgQueue = s.lgQueue := by unfold State.setKey; split <;> rfl
@[simp] theorem State.setKey_latch : (s.setKey n k).latch = s.latch := by unfold State.setKey; split <;> rfl
@[simp] theorem State.setKey_fresh : (s.setKey n k).fresh = s.fresh := by unfold State.setKey; split <;> rfl

@[simp] theorem State.keyIn_setKey : n ≠ 0 → n < 64 → (s.setKey n k).keyIn n = k := by
  intro h g
  simp [State.setKey, State.keyIn, updN, getN, h, g]

end

/-! ### The byte stores -/

/-- What a write to the Warehouse does beside its bytes: cache lines and the counts of its channels. -/
theorem State.warehouseWrite_eq (s : State) (key n : Nat) :
    ∃ cl pe, s.warehouseWrite key n = { s with clusters := cl, pkgEvents := pe } := by
  have h : ∀ (l : List Nat) (t : State), ∃ pe,
      l.foldl (fun s a => s.countPkg (PE_WH_WR + channelOf a) 1) t = { t with pkgEvents := pe } := by
    intro l
    induction l with
    | nil => intro t; exact ⟨t.pkgEvents, rfl⟩
    | cons a l ih =>
      intro t
      obtain ⟨pe, h⟩ := ih (t.countPkg (PE_WH_WR + channelOf a) 1)
      exact ⟨pe, by rw [List.foldl_cons, h]; rfl⟩
  unfold State.warehouseWrite
  split
  · obtain ⟨pe, e⟩ := h (granulesOf key n) (s.cacheDrop key n)
    exact ⟨(s.cacheDrop key n).clusters, pe, by rw [e]; rfl⟩
  · exact ⟨s.clusters, s.pkgEvents, rfl⟩

/-- Everything that a write of bytes to a local store can change. -/
theorem State.poke_eq (s : State) (key : Nat) (bs : List Byte) : ∃ cl pe wr po,
    s.poke key bs = { s with mem := s.mem.write key bs, clusters := cl, pkgEvents := pe, written := wr, poison := po } := by
  obtain ⟨cl, pe, h⟩ := ({ s with mem := s.mem.write key bs } : State).warehouseWrite_eq key bs.length
  exact ⟨cl, pe, _, _, by unfold State.poke State.markWritten; rw [h]⟩

section

variable (s : State) (key : Nat) (bs : List Byte) (n : Nat)

@[simp] theorem State.poke_pending : (s.poke key bs).pending = s.pending := by obtain ⟨_, _, _, _, h⟩ := s.poke_eq key bs; rw [h]
@[simp] theorem State.poke_boot : (s.poke key bs).boot = s.boot := by obtain ⟨_, _, _, _, h⟩ := s.poke_eq key bs; rw [h]
@[simp] theorem State.poke_timeUs : (s.poke key bs).timeUs = s.timeUs := by obtain ⟨_, _, _, _, h⟩ := s.poke_eq key bs; rw [h]
@[simp] theorem State.poke_fuses : (s.poke key bs).fuses = s.fuses := by obtain ⟨_, _, _, _, h⟩ := s.poke_eq key bs; rw [h]
@[simp] theorem State.poke_shape : (s.poke key bs).shape = s.shape := by obtain ⟨_, _, _, _, h⟩ := s.poke_eq key bs; rw [h]
@[simp] theorem State.poke_refclk : (s.poke key bs).refclk = s.refclk := by obtain ⟨_, _, _, _, h⟩ := s.poke_eq key bs; rw [h]
@[simp] theorem State.poke_supply : (s.poke key bs).supply = s.supply := by obtain ⟨_, _, _, _, h⟩ := s.poke_eq key bs; rw [h]
@[simp] theorem State.poke_cores : (s.poke key bs).cores = s.cores := by obtain ⟨_, _, _, _, h⟩ := s.poke_eq key bs; rw [h]
@[simp] theorem State.poke_house : (s.poke key bs).house = s.house := by obtain ⟨_, _, _, _, h⟩ := s.poke_eq key bs; rw [h]
@[simp] theorem State.poke_mem : (s.poke key bs).mem = s.mem.write key bs := by obtain ⟨_, _, _, _, h⟩ := s.poke_eq key bs; rw [h]
@[simp] theorem State.poke_capWait : (s.poke key bs).capWait = s.capWait := by obtain ⟨_, _, _, _, h⟩ := s.poke_eq key bs; rw [h]
@[simp] theorem State.poke_capHeld : (s.poke key bs).capHeld = s.capHeld := by obtain ⟨_, _, _, _, h⟩ := s.poke_eq key bs; rw [h]
@[simp] theorem State.poke_progWait : (s.poke key bs).progWait = s.progWait := by obtain ⟨_, _, _, _, h⟩ := s.poke_eq key bs; rw [h]
@[simp] theorem State.poke_progHeld : (s.poke key bs).progHeld = s.progHeld := by obtain ⟨_, _, _, _, h⟩ := s.poke_eq key bs; rw [h]
@[simp] theorem State.poke_port : (s.poke key bs).port = s.port := by obtain ⟨_, _, _, _, h⟩ := s.poke_eq key bs; rw [h]
@[simp] theorem State.poke_jobs : (s.poke key bs).jobs = s.jobs := by obtain ⟨_, _, _, _, h⟩ := s.poke_eq key bs; rw [h]
@[simp] theorem State.poke_accepted : (s.poke key bs).accepted = s.accepted := by obtain ⟨_, _, _, _, h⟩ := s.poke_eq key bs; rw [h]
@[simp] theorem State.poke_load : (s.poke key bs).load = s.load := by obtain ⟨_, _, _, _, h⟩ := s.poke_eq key bs; rw [h]
@[simp] theorem State.poke_models : (s.poke key bs).models = s.models := by obtain ⟨_, _, _, _, h⟩ := s.poke_eq key bs; rw [h]
@[simp] theorem State.poke_plies : (s.poke key bs).plies = s.plies := by obtain ⟨_, _, _, _, h⟩ := s.poke_eq key bs; rw [h]
@[simp] theorem State.poke_cells : (s.poke key bs).cells = s.cells := by obtain ⟨_, _, _, _, h⟩ := s.poke_eq key bs; rw [h]
@[simp] theorem State.poke_cellClock : (s.poke key bs).cellClock = s.cellClock := by obtain ⟨_, _, _, _, h⟩ := s.poke_eq key bs; rw [h]
@[simp] theorem State.poke_assay : (s.poke key bs).assay = s.assay := by obtain ⟨_, _, _, _, h⟩ := s.poke_eq key bs; rw [h]
@[simp] theorem State.poke_monitor : (s.poke key bs).monitor = s.monitor := by obtain ⟨_, _, _, _, h⟩ := s.poke_eq key bs; rw [h]
@[simp] theorem State.poke_power : (s.poke key bs).power = s.power := by obtain ⟨_, _, _, _, h⟩ := s.poke_eq key bs; rw [h]
@[simp] theorem State.poke_chouse : (s.poke key bs).chouse = s.chouse := by obtain ⟨_, _, _, _, h⟩ := s.poke_eq key bs; rw [h]
@[simp] theorem State.poke_mgmt : (s.poke key bs).mgmt = s.mgmt := by obtain ⟨_, _, _, _, h⟩ := s.poke_eq key bs; rw [h]
@[simp] theorem State.poke_fabric : (s.poke key bs).fabric = s.fabric := by obtain ⟨_, _, _, _, h⟩ := s.poke_eq key bs; rw [h]
@[simp] theorem State.poke_pcPsel : (s.poke key bs).pcPsel = s.pcPsel := by obtain ⟨_, _, _, _, h⟩ := s.poke_eq key bs; rw [h]
@[simp] theorem State.poke_lgBase : (s.poke key bs).lgBase = s.lgBase := by obtain ⟨_, _, _, _, h⟩ := s.poke_eq key bs; rw [h]
@[simp] theorem State.poke_lgPages : (s.poke key bs).lgPages = s.lgPages := by obtain ⟨_, _, _, _, h⟩ := s.poke_eq key bs; rw [h]
@[simp] theorem State.poke_lgEn : (s.poke key bs).lgEn = s.lgEn := by obtain ⟨_, _, _, _, h⟩ := s.poke_eq key bs; rw [h]
@[simp] theorem State.poke_lgK : (s.poke key bs).lgK = s.lgK := by obtain ⟨_, _, _, _, h⟩ := s.poke_eq key bs; rw [h]
@[simp] theorem State.poke_lgTail : (s.poke key bs).lgTail = s.lgTail := by obtain ⟨_, _, _, _, h⟩ := s.poke_eq key bs; rw [h]
@[simp] theorem State.poke_lgQueue : (s.poke key bs).lgQueue = s.lgQueue := by obtain ⟨_, _, _, _, h⟩ := s.poke_eq key bs; rw [h]
@[simp] theorem State.poke_latch : (s.poke key bs).latch = s.latch := by obtain ⟨_, _, _, _, h⟩ := s.poke_eq key bs; rw [h]
@[simp] theorem State.poke_fresh : (s.poke key bs).fresh = s.fresh := by obtain ⟨_, _, _, _, h⟩ := s.poke_eq key bs; rw [h]
@[simp] theorem State.zero_pending : (s.zero key n).pending = s.pending := rfl
@[simp] theorem State.zero_boot : (s.zero key n).boot = s.boot := rfl
@[simp] theorem State.zero_timeUs : (s.zero key n).timeUs = s.timeUs := rfl
@[simp] theorem State.zero_fuses : (s.zero key n).fuses = s.fuses := rfl
@[simp] theorem State.zero_shape : (s.zero key n).shape = s.shape := rfl
@[simp] theorem State.zero_refclk : (s.zero key n).refclk = s.refclk := rfl
@[simp] theorem State.zero_supply : (s.zero key n).supply = s.supply := rfl
@[simp] theorem State.zero_cores : (s.zero key n).cores = s.cores := rfl
@[simp] theorem State.zero_house : (s.zero key n).house = s.house := rfl
@[simp] theorem State.zero_clusters : (s.zero key n).clusters = s.clusters := rfl
@[simp] theorem State.zero_mem : (s.zero key n).mem = s.mem.zero key n := rfl
@[simp] theorem State.zero_written : (s.zero key n).written = s.written := rfl
@[simp] theorem State.zero_capWait : (s.zero key n).capWait = s.capWait := rfl
@[simp] theorem State.zero_capHeld : (s.zero key n).capHeld = s.capHeld := rfl
@[simp] theorem State.zero_progWait : (s.zero key n).progWait = s.progWait := rfl
@[simp] theorem State.zero_progHeld : (s.zero key n).progHeld = s.progHeld := rfl
@[simp] theorem State.zero_port : (s.zero key n).port = s.port := rfl
@[simp] theorem State.zero_jobs : (s.zero key n).jobs = s.jobs := rfl
@[simp] theorem State.zero_accepted : (s.zero key n).accepted = s.accepted := rfl
@[simp] theorem State.zero_load : (s.zero key n).load = s.load := rfl
@[simp] theorem State.zero_models : (s.zero key n).models = s.models := rfl
@[simp] theorem State.zero_plies : (s.zero key n).plies = s.plies := rfl
@[simp] theorem State.zero_cells : (s.zero key n).cells = s.cells := rfl
@[simp] theorem State.zero_cellClock : (s.zero key n).cellClock = s.cellClock := rfl
@[simp] theorem State.zero_assay : (s.zero key n).assay = s.assay := rfl
@[simp] theorem State.zero_monitor : (s.zero key n).monitor = s.monitor := rfl
@[simp] theorem State.zero_power : (s.zero key n).power = s.power := rfl
@[simp] theorem State.zero_chouse : (s.zero key n).chouse = s.chouse := rfl
@[simp] theorem State.zero_mgmt : (s.zero key n).mgmt = s.mgmt := rfl
@[simp] theorem State.zero_fabric : (s.zero key n).fabric = s.fabric := rfl
@[simp] theorem State.zero_pkgEvents : (s.zero key n).pkgEvents = s.pkgEvents := rfl
@[simp] theorem State.zero_pcPsel : (s.zero key n).pcPsel = s.pcPsel := rfl
@[simp] theorem State.zero_lgBase : (s.zero key n).lgBase = s.lgBase := rfl
@[simp] theorem State.zero_lgPages : (s.zero key n).lgPages = s.lgPages := rfl
@[simp] theorem State.zero_lgEn : (s.zero key n).lgEn = s.lgEn := rfl
@[simp] theorem State.zero_lgK : (s.zero key n).lgK = s.lgK := rfl
@[simp] theorem State.zero_lgTail : (s.zero key n).lgTail = s.lgTail := rfl
@[simp] theorem State.zero_lgQueue : (s.zero key n).lgQueue = s.lgQueue := rfl
@[simp] theorem State.zero_latch : (s.zero key n).latch = s.latch := rfl
@[simp] theorem State.zero_fresh : (s.zero key n).fresh = s.fresh := rfl

end

/-- The bytes that a write stores. -/
theorem State.poke_byte (s : State) (key : Nat) (bs : List Byte) (h : s.mem.wf = true) {i : Nat} (l : i < bs.length) :
    (s.poke key bs).mem.byte (key + i) = bs[i] := by
  rw [State.poke_mem]
  exact Memory.byte_write_inside bs s.mem key i l h

/-- The bytes that a write leaves. -/
theorem State.poke_other (s : State) (key : Nat) (bs : List Byte) (h : s.mem.wf = true) {a : Nat}
    (l : a < key ∨ key + bs.length ≤ a) : (s.poke key bs).mem.byte a = s.mem.byte a := by
  rw [State.poke_mem]
  exact Memory.byte_write_outside bs s.mem key a h l

/-- A write keeps the stores in canonical form. -/
theorem State.poke_wf (s : State) (key : Nat) (bs : List Byte) (h : s.mem.wf = true) : (s.poke key bs).mem.wf = true := by
  rw [State.poke_mem]
  exact Memory.write_wf bs s.mem key h

/-! ### What a row answers -/

/-- An instruction row answers a state where its word is its own or nobody's, and is ill-formed otherwise. -/
theorem State.instr_eq (s : State) (i : Instr) (q : SeqId) (w : W128) (body : ExecM Flow) :
    (i.wordOk = true → s.instr i q w body = .next (s.decode q w body)) ∧
    (i.wordOk = false → s.instr i q w body = .refused .illFormed) := by
  constructor <;> intro h <;> simp [State.instr, h]

/-- The request at the head: nothing without one or with one of another row, HP_ENTRY_FORM for a malformed one, and else its effect. -/
theorem State.accept_cases (s : State) (want : Entry → Bool) (f : Entry → Nat → State → State) :
    s.accept want f = .next (match s.headEntry with
      | none => s
      | some e => if !want e then s
        else if e.bad then s.takeHead.finishReq (e.completion s.port.sqHead HP_ENTRY_FORM) else f e s.port.sqHead s.takeHead) := by
  unfold State.accept
  cases s.headEntry <;> rfl

end Sys2Proof.Machine
end

