-- ==== Sys2Proof/Tests/Slice0.lean ====
section
/-!
SUPPORT. Tests: what WellFormed refuses, single steps and values from the manual or the standards it names, and for each statement
a state that meets its hypotheses (`test_hyps_…`, after the statement's name). Four clauses have no such state here: a bank of
valid images and a Seal that is accepted rest on signatures under a root key that is an open value (17.R425, R426), and the
ciphers of the kernel are too slow to evaluate SEC.AEAD OPEN, with a tag that passes and with one that does not.
-/

namespace Sys2Proof.Tests

open Sys2Proof.Machine

-- One theorem after the other: the kernel evaluates each of them, and side by side they would need too many stacks.
set_option Elab.async false

/-! ### Words, descriptors and states -/

/-- A word by its fields (07.R198): CLASS, OP, FORM, TDD, TDA, TDB, TDC, FLAGS, IMM. -/
def word (cls op form tdd tda tdb tdc flags imm : Nat) : W128 :=
  BitVec.ofNat 128 (cls * 2 ^ 124 + op * 2 ^ 118 + form * 2 ^ 112 + tdd * 2 ^ 104 + tda * 2 ^ 96 + tdb * 2 ^ 88
    + tdc * 2 ^ 80 + flags * 2 ^ 48 + imm)

/-- A tensor in the store of core 0: base, EXT0, EXT1, EXT2, FORMAT and strides; and one of one plane. -/
def tensor3 (base e0 e1 e2 fmt str1 str2 : Nat) : TD :=
  { base := 2 ^ 44 + base, ext0 := e0, ext1 := e1, ext2 := e2, ext3 := 1, eff0 := e0, eff1 := e1, eff2 := e2, eff3 := 1
    str1 := str1, str2 := str2, bound := 100000, format := fmt }
def tensor (base e0 e1 fmt : Nat) : TD := tensor3 base e0 e1 1 fmt 64 64

/-- The same in secure SRAM. -/
def secure (base e0 e1 fmt : Nat) : TD := { tensor base e0 e1 fmt with base := 3 * 2 ^ 44 + base }

/-- Core 0 runs a program with its descriptor slots at 0x1000. -/
def core0 : State := State.reset.updSeqr (.core 0) (fun r => { r with running := true, codeLen := 100, tdBase := 0x1000 })

/-- Service firmware and house firmware run, with the house descriptor slots at 0x1000 of secure SRAM. -/
def served : State :=
  { State.reset with
    boot := .service, port := { State.reset.port with state := .ready }, house := { State.reset.house with tdBase := 0x1000 } }

/-- Bytes from an address on, as memory lists them. -/
def cellsFrom : Nat → List Byte → Memory
  | _, [] => []
  | a, b :: bs => if b = 0 then cellsFrom (a + 1) bs else (a, b) :: cellsFrom (a + 1) bs
/-- The machine with these bytes in its stores: runs in rising order of their addresses. -/
def stored (runs : List (Nat × List Byte)) (s : State) : State := { s with mem := runs.flatMap (fun r => cellsFrom r.1 r.2) }
/-- A byte of core 0's store and of secure SRAM. -/
def at0 (o : Nat) : Nat := coreKey 0 o
def atS (o : Nat) : Nat := storeKey 3 o
/-- Descriptors in the slots from 0x1000 on. -/
def slots (key : Nat → Nat) (ds : List TD) : Nat × List Byte := (key 0x1000, ds.flatMap tdBytes)

/-- The state after a command; the state before it where it stops. -/
def after (i : Instr) (s : State) : State :=
  match exec i s with
  | .next t => t
  | _ => s

/-- A command answers a state. -/
def runs (i : Instr) (s : State) : Bool :=
  match exec i s with
  | .next _ => true
  | _ => false

/-- Scalar registers of core 0 set. -/
def withS (n : Nat) (v : W64) (s : State) : State := s.updSeqr (.core 0) (fun r => { r with s := updN r.s n (fun _ => v) })


/-! ### Checks that the hypotheses of the statements reduce to -/

/-- The parts of State.Takes, as one Boolean. -/
def takesOk (s : State) (q : SeqId) (w : W128) : Bool :=
  s.decodes q && decide ((s.seqr q).pc < (s.seqr q).codeLen) && listedWord w && !decPriv q w

theorem takes_of_ok {s : State} {q : SeqId} {w : W128} (h : takesOk s q w = true) : s.Takes q w := by
  simp only [takesOk, Bool.and_eq_true, decide_eq_true_eq, Bool.not_eq_true'] at h
  exact ⟨h.1.1.1, h.1.1.2, h.1.2, h.2⟩

theorem millTakes_of_ok {s : State} {q : SeqId} {w : W128} (h : takesOk s q w = true) (c : s.canonical = true)
    (a : (s.seqr q).millQ = []) : s.MillTakes q w := ⟨takes_of_ok h, c, a⟩

theorem moveTakes_of_ok {s : State} {q : SeqId} {w : W128} (h : takesOk s q w = true) (c : s.canonical = true)
    (a : s.inQueues q 63 = []) : s.MoveTakes q w := ⟨takes_of_ok h, c, a⟩

/-- The descriptor in a slot, with actual lengths. -/
def tdIn (s : State) (q : SeqId) (slot : Nat) : TD :=
  withActual (parseTd (s.mem.bytes (slotKey q (s.seqr q).tdBase slot) 64)) (s.seqr q).al

/-- The parts of State.Names for a tensor in no stream, but for its bytes. -/
def namesOk (s : State) (q : SeqId) (slot : Nat) (dest : Bool) (t : TD) : Bool :=
  decide (slotKey q (s.seqr q).tdBase slot + 64 ≤ slotEnd q) &&
    s.writesPending q (slotKey q (s.seqr q).tdBase slot) 64 == false &&
    s.poisoned (slotKey q (s.seqr q).tdBase slot) 64 == false && tdFault t dest == none && bit t.stream 7 == false

theorem names_of_ok {s : State} {q : SeqId} {slot : Nat} {dest : Bool} {t : TD} (e : tdIn s q slot = t)
    (h : namesOk s q slot dest t = true) : s.Names q slot dest t := by
  simp only [namesOk, Bool.and_eq_true, decide_eq_true_eq, beq_iff_eq] at h
  exact ⟨h.1.1.1.1, h.1.1.1.2, h.1.1.2, e.symm, h.1.2, fun x => by rw [h.2] at x; exact absurd x (by decide)⟩

/-- The parts of OneRow. -/
def oneRowOk (t : TD) : Bool :=
  t.skind == 0 && bit t.stream 7 == false && decide (0 < t.eff0) && t.eff1 == 1 && t.eff2 == 1 && t.eff3 == 1

theorem oneRow_of_ok {t : TD} (h : oneRowOk t = true) : OneRow t := by
  simp only [oneRowOk, Bool.and_eq_true, decide_eq_true_eq, beq_iff_eq] at h
  exact ⟨h.1.1.1.1.1, h.1.1.1.1.2, h.1.1.1.2, h.1.1.2, h.1.2, h.2⟩

/-- The parts of State.localSpan. -/
def localOk (s : State) (q : SeqId) (write : Bool) (a n : Nat) : Bool :=
  decide (a + n ≤ 2 ^ 51) && (List.range n).all (fun i => addrDev (a + i) == s.shape.fabricId &&
    (decide (addrRegion (a + i) ≤ 1) || addrRegion (a + i) == 3) && s.accessFault q false write (a + i) == none)

theorem local_of_ok {s : State} {q : SeqId} {write : Bool} {a n : Nat} (h : localOk s q write a n = true) :
    s.localSpan q write a n := by
  simp only [localOk, Bool.and_eq_true, decide_eq_true_eq, List.all_eq_true, List.mem_range, Bool.or_eq_true, beq_iff_eq] at h
  exact ⟨h.1, fun i hi => ⟨(h.2 i hi).1.1, (h.2 i hi).1.2, (h.2 i hi).2⟩⟩

theorem readable_of_ok {s : State} {q : SeqId} {a n : Nat} (h : localOk s q false a n = true)
    (p : s.poisoned (a % 2 ^ 48) n = false) : s.readableSpan q a n := ⟨local_of_ok h, p⟩

/-- Every run of a tensor is readable. -/
theorem readableRuns_of_ok {s : State} {q : SeqId} {t : TD}
    (h : (tdRuns t).all (fun r => localOk s q false r.1 r.2 && s.poisoned (r.1 % 2 ^ 48) r.2 == false) = true) :
    s.readableRuns q t := by
  intro r hr
  have := List.all_eq_true.mp h r hr
  simp only [Bool.and_eq_true, beq_iff_eq] at this
  exact readable_of_ok this.1 this.2


/-! ### The field of Curve25519, evaluated

Every value is evaluated before it is passed on, which is how the kernel can check a scalar multiplication. -/

def force {α : Type} (n : Nat) (f : Nat → α) : α :=
  match n with
  | 0 => f 0
  | m + 1 => f (m + 1)
@[simp] theorem force_eq {α : Type} (n : Nat) (f : Nat → α) : force n f = f n := by cases n <;> rfl
def ladderF (u k : Nat) : Nat → Nat → Nat → Nat → Nat → Nat × Nat
  | 0, x, z, _, _ => (x, z)
  | n + 1, x2, z2, x3, z3 =>
    force (if k / 2 ^ n % 2 = 1 then x3 else x2) fun p => force (if k / 2 ^ n % 2 = 1 then z3 else z2) fun q =>
    force (if k / 2 ^ n % 2 = 1 then x2 else x3) fun r => force (if k / 2 ^ n % 2 = 1 then z2 else z3) fun t =>
    force (fMul (fAdd p q) (fAdd p q)) fun aa => force (fMul (fSub p q) (fSub p q)) fun bb => force (fSub aa bb) fun e =>
    force (fMul (fSub r t) (fAdd p q)) fun da => force (fMul (fAdd r t) (fSub p q)) fun cb =>
    force (fMul (fAdd da cb) (fAdd da cb)) fun x3 => force (fMul u (fMul (fSub da cb) (fSub da cb))) fun z3 =>
    force (fMul aa bb) fun x2 => force (fMul e (fAdd aa (fMul 121665 e))) fun z2 =>
    if k / 2 ^ n % 2 = 1 then ladderF u k n x3 z3 x2 z2 else ladderF u k n x2 z2 x3 z3
theorem ladder_forced (u k n : Nat) : ∀ x2 z2 x3 z3, ladder u k n (x2, z2) (x3, z3) = ladderF u k n x2 z2 x3 z3 := by
  induction n with
  | zero => intros; rfl
  | succ n ih =>
    intro x2 z2 x3 z3
    by_cases h : k / 2 ^ n % 2 = 1 <;> simp [ladder, ladderF, h, ih]

def powModF : Nat → Nat → Nat → Nat → Nat → Nat
  | 0, _, _, p, r => r % p
  | n + 1, b, e, p, r =>
    force (b * b % p) fun c => force (e / 2) fun d => force (r * (if e % 2 = 1 then b else 1) % p) fun r => powModF n c d p r
theorem powMod_forced (n : Nat) : ∀ b e p r, r * powMod n b e p % p = powModF n b e p r := by
  induction n with
  | zero => intros; simp [powMod, powModF]
  | succ n ih =>
    intro b e p r
    simp only [powMod, powModF, force_eq, ← ih]
    split <;> simp only [Nat.mul_one, Nat.one_mul, Nat.mul_mod_mod, Nat.mod_mul_mod, Nat.mul_assoc]


theorem x25519_forced (priv peer : List Byte) (k u : Nat) (hk : clamp25519 (leNat priv) = k) (hu : leNat peer % 2 ^ 255 = u) :
    x25519 priv peer = leBytes 32 (powModF 256 (ladderF u k 255 1 0 u 1).2 (p25519 - 2) p25519 (ladderF u k 255 1 0 u 1).1) := by
  unfold x25519
  rw [hk, hu]; dsimp only; rw [ladder_forced]
  exact congrArg (leBytes 32) (powMod_forced 256 _ (p25519 - 2) p25519 _)

/-! ### A signature that every message has

Under the key that encodes the neutral point, R the same and S zero sign every message, which gives the management requests
below a signature that passes. -/

theorem powMod_spec (n : Nat) : ∀ b e p, e < 2 ^ n → powMod n b e p % p = b ^ e % p := by
  induction n with
  | zero => intro b e p h; simp [powMod, show e = 0 by omega]
  | succ n ih =>
    intro b e p h
    have g := ih (b * b % p) (e / 2) p (by omega)
    rw [← Nat.pow_mod] at g
    have e2 : b ^ e = (if e % 2 = 1 then b else 1) * (b * b) ^ (e / 2) := by
      conv_lhs => rw [← Nat.mod_add_div e 2, pow_add, pow_mul, sq]
      rcases Nat.mod_two_eq_zero_or_one e with h | h <;> simp [h]
    rw [powMod, Nat.mod_mod, Nat.mul_mod, g, ← Nat.mul_mod, e2]
theorem powMod_mod (n b e p : Nat) : powMod (n + 1) b e p % p = powMod (n + 1) b e p := by rw [powMod, Nat.mod_mod]
/-- Powers of two in the field. -/
def pw (j : Nat) : Nat := 2 ^ j % p25519
theorem pw_order : 2 ^ (p25519 - 1) % p25519 = 1 := by
  rw [← powMod_spec 256 _ _ _ (by decide +kernel)]
  have h := powMod_forced 256 2 (p25519 - 1) p25519 1
  rw [Nat.one_mul] at h
  rw [h]
  decide +kernel
theorem pw_inv (j : Nat) : fMul (pw j) (fInv (pw j)) = 1 := by
  have h : fMul (pw j) (fInv (pw j)) = pw j * (powMod 256 (pw j) (p25519 - 2) p25519 % p25519) % p25519 :=
    (Nat.mul_mod_mod _ _ _).symm
  rw [h, powMod_spec _ _ _ _ (by decide +kernel), Nat.mul_mod_mod, ← pow_succ', show p25519 - 2 + 1 = p25519 - 1 by decide +kernel,
  pw, ← Nat.pow_mod, ← pow_mul, Nat.mul_comm, pow_mul, Nat.pow_mod, pw_order, one_pow]
  decide +kernel
theorem pw_mul (i j : Nat) : fMul (pw i) (pw j) = pw (i + j) := by simp [fMul, pw, pow_add]
theorem pw_add (j : Nat) : fAdd (pw j) (pw j) = pw (j + 1) := by simp [fAdd, pw, pow_succ, Nat.mul_two]
theorem pw_sub (j : Nat) : fSub (pw j) 0 = pw j := by simp [fSub, pw]
theorem pw_self (j : Nat) : fSub (pw j) (pw j) = 0 := by simp [fSub, pw]
/-- The neutral point in its extended coordinates. -/
def neutral (j : Nat) : EdPoint := (0, pw j, pw j, 0)
theorem neutral_add (i j : Nat) : edAdd (neutral i) (neutral j) = neutral (2 * (i + j + 1)) := by
  have z (a : Nat) : fMul 0 a = 0 := by simp [fMul]
  have o (a : Nat) : fAdd a 0 = a % p25519 := by simp [fAdd]
  have d (j : Nat) : fMul 2 (pw j) = pw (1 + j) := pw_mul 1 j
  have m (j : Nat) : pw j % p25519 = pw j := by simp [pw]
  simp only [edAdd, neutral, z, o, m, d, pw_sub, pw_mul, pw_self, pw_add,
    show 1 + (i + j) + (i + j + 1) = 2 * (i + j + 1) by omega, show 1 + (i + j) + (1 + (i + j)) = 2 * (i + j + 1) by omega]
theorem neutral_mul (n : Nat) : ∀ k i, ∃ j, edMul n k (neutral i) = neutral j := by
  induction n with
  | zero => intro k i; exact ⟨0, rfl⟩
  | succ n ih =>
    intro k i
    obtain ⟨j, h⟩ := ih (k / 2) (2 * (i + i + 1))
    simp only [edMul, neutral_add, h]
    split
    · exact ⟨_, rfl⟩
    · exact ⟨_, rfl⟩
theorem edMul_zero (n : Nat) : ∀ p, edMul n 0 p = neutral 0 := by
  induction n with
  | zero => intro p; rfl
  | succ n ih => intro p; simp [edMul, ih]
theorem neutral_encode (j : Nat) : edEncode (neutral j) = leBytes 32 1 := by
  simp only [edEncode, neutral, pw_inv]
  simp [fMul]
theorem neutral_decode : edDecode (leBytes 32 1) = some (0, 1, 1, 0) := by
  have v : leNat (leBytes 32 1) = 1 := by decide +kernel
  have z (a : Nat) : fMul (fSub (fMul 1 1) 1) a = 0 := by
    rw [show fSub (fMul 1 1) 1 = 0 by decide +kernel]; simp [fMul]
  have r (e : Nat) (h : e < 2 ^ 256) (k : e ≠ 0) : powMod 256 0 e p25519 = 0 := by
    have g := powMod_spec 256 0 e p25519 h
    rwa [powMod_mod 255, zero_pow k, Nat.zero_mod] at g
  have q : fSqrt 0 = some 0 := by
    unfold fSqrt; rw [r _ (by decide +kernel) (by decide +kernel)]; decide +kernel
  unfold edDecode
  simp only [v, show 1 % 2 ^ 255 = 1 by decide +kernel, z, q]
  decide +kernel
theorem edVerify_neutral (m : List Byte) : edVerify (leBytes 32 1) m (leBytes 32 1 ++ leBytes 32 0) = true := by
  have a : (leBytes 32 1 ++ leBytes 32 0).take 32 = leBytes 32 1 := by decide +kernel
  have s : leNat (((leBytes 32 1 ++ leBytes 32 0).drop 32).take 32) = 0 := by decide +kernel
  have e (k : Nat) : edEncode (edAdd (edMul 256 0 edBase) (edMul 256 k (fSub 0 0, 1, 1, fSub 0 0))) = leBytes 32 1 := by
    rw [show ((fSub 0 0, 1, 1, fSub 0 0) : EdPoint) = neutral 0 by decide +kernel, edMul_zero]
    obtain ⟨j, h⟩ := neutral_mul 256 k 0
    rw [h, neutral_add, neutral_encode]
  unfold edVerify
  simp only [a, s, neutral_decode, e]
  decide +kernel

/-! ### What WellFormed refuses, the queue, and values from outside the model -/

/-- The word of SEQ.JOIN in the row of SEQ.NOP; a burst of 31 bytes; a FENCE's frame in the row of UNFENCE. -/
theorem test_wellFormed_refuses : (Instr.seqNop (.core 0) (word 0 5 0 0 0 0 0 0 0)).wordOk = false ∧
    (Instr.seqJoin (.core 0) (word 0 5 0 0 0 0 0 0 0)).wordOk = true ∧
    (Instr.sqRingWrite { ch := .a, bank := 0, col := 0 } (List.replicate 31 none)).burstWf = false ∧
    (Instr.sqRingWrite { ch := .a, bank := 0, col := 32 } (List.replicate 64 none)).burstWf = false ∧
    (Instr.sqRingWrite { ch := .a, bank := 0, col := 64 } (List.replicate 64 none)).burstWf = true ∧
    (Instr.mgUnfence [3]).frameWf = false := by decide +kernel
/-- An ill-formed command is refused by that name. -/
theorem test_illFormed_refused : (match exec (.mgUnfence [3]) State.reset with | .refused .illFormed => true | _ => false) = true := by
  decide +kernel
theorem test_reset_queue : State.reset.pending = [] := rfl
/-- A step takes the front command: HP_REF_CNT counts, and the queue is shorter. -/
theorem test_step_front : (match step { served with pending := [.lpddrRef .a, .lpddrRef .b] } with
    | .next t => t.port.refCnt == 1 && t.pending == [.lpddrRef .b]
    | _ => false) = true := by decide +kernel

/-- IADD wraps at 32 bits (06.R167): 0xFFFFFFFF + 7 is 6. -/
theorem test_iadd_wraps : ((after (.millVecIadd (.core 0) (word 4 1 0x0D 0 0 0 0 0xB (0xFF * 2 ^ 40 + 2 * 2 ^ 35 + 3 * 2 ^ 30 + 2 ^ 20)))
    (withS 3 7 (withS 2 0xFFFFFFFF core0))).seqr (.core 0)).scalar 1 = 6 := by decide +kernel
/-- The example of FIPS 180-4: the SHA-512 digest of "abc" begins DD AF 35 A1. -/
theorem test_sha512 : (sha512 [0x61, 0x62, 0x63]).take 4 = [0xDD, 0xAF, 0x35, 0xA1] := by decide +kernel
/-- The check value of CRC-32C, of "123456789". -/
theorem test_crc32c : crc32c [0x31, 0x32, 0x33, 0x34, 0x35, 0x36, 0x37, 0x38, 0x39] = 0xE3069283 := by decide +kernel
/-- The first example of RFC 7748, chapter 5.2. -/
theorem test_x25519 : x25519 (beBytes 32 0xA546E36BF0527C9D3B16154B82465EDD62144C0AC1FC5A18506A2244BA449AC4)
    (beBytes 32 0xE6DB6867583030DB3594C1A424B15F7C726624EC26B3353B10A903A6D0AB1C4C) =
    beBytes 32 0xC3DA55379DE9C6908E94EA4DF28D084F32ECCF03491C71F754B4075577A28552 := by
  rw [x25519_forced _ _ _ _ rfl rfl]
  decide +kernel
/-- The table of 02.R56: a(T) is 1.000 at 45 degrees C and 0.480 at 25. -/
theorem test_agingRate : rne (agingRate 4500 * 1000) = 1000 ∧ rne (agingRate 2500 * 1000) = 480 := by decide +kernel
/-! ### The machine, the shape table, REFCLK, grants -/

theorem test_hyps_StepRunsFront : ({ core0 with pending := [.vddIoLoss] } : State).pending = .vddIoLoss :: [] := rfl
theorem test_hyps_StepGoesOn : ({ core0 with pending := [.vddIoLoss] } : State).queueOk = true := by decide +kernel
theorem test_hyps_StepKeepsCanonical : (stored [(at0 0, [1, 0, 2])] core0).canonical = true ∧
    ∃ t, step (stored [(at0 0, [1, 0, 2])] core0) = .next t := ⟨by decide +kernel, _, rfl⟩

/-- A shape change waits; the update is open. -/
def shapeWaits : State := { State.reset with shape := { State.reset.shape with changes := [.cap 100, .links 1 2] } }
theorem test_hyps_ShapeUpdates : shapeWaits.updating = false ∧ shapeWaits.shape.changes = .cap 100 :: [.links 1 2] ∧
    (after .shapeUpdateBegin shapeWaits).updating = true ∧ (after .shapeUpdateBegin shapeWaits).mgmt.waiting = none := by
  decide +kernel

/-- REFCLK has gone. -/
def stopped : State := { served with refclk := { present := false, locked := false } }
theorem test_hyps_RefclkEvents : served.refclk.present = true ∧ served.boot = .service ∧ State.reset.boot ≠ .service ∧
    stopped.refclk.present = false ∧ stopped.refclk.lost = false ∧ stopped.boot ≠ .selfTest := by decide +kernel

/-- A request for one engine of core 0. -/
def asks : GrantReq := { core := 0, count := 1 }
theorem test_hyps_GrantsWhole :
    let s : State := { served with capWait := [asks], progWait := [asks] }
    s.engineReady = true ∧ s.capWait = asks :: [] ∧ s.capFits asks = true ∧ s.progWait = asks :: [] ∧ s.progFits asks = true ∧
      ({ s with power := { s.power with inTrip := true } } : State).power.inTrip = true := by decide +kernel

/-! ### LOOM -/

/-- Core 0 with operands for LOOM words: an image of two rows, eight A8U codes, an INT32 row of 512, a row for PROBE. -/
def image : TD := tensor3 0x4000 512 2 1 2 512 1024
def codes : TD := tensor 0x2000 8 1 0
def sums : TD := tensor3 0x10000 512 1 1 3 2048 2048
def probes : TD := tensor 0x8000 4 1 3
def loomed : State := stored [slots at0 [image, codes, sums, probes], (at0 0x2000, [1, 2, 3])] core0
theorem loomed_slots : tdIn loomed (.core 0) 0 = image ∧ tdIn loomed (.core 0) 1 = codes ∧ tdIn loomed (.core 0) 2 = sums ∧
    tdIn loomed (.core 0) 3 = probes := by decide +kernel

/-- MVM and MVMT of engine 0, ply 0; PROG and VERIFY of rows 0 and 1; PROBE; PLY of engine 0 to ply 5. -/
def mvmWord (op : Nat) : W128 := word 3 op 0 2 1 0 0 0 (0xFF * 2 ^ 40 + 1 * 2 ^ 24)
def progWord (op : Nat) : W128 := word 3 op 0 0 0 0 0 1 (2 * 2 ^ 24)
def probeWord : W128 := word 3 5 0 3 0 0 0 1 2
def plyWord : W128 := word 3 2 0 0 0 0 0 1 5

theorem test_hyps_LoomRows_mvm : ∀ p ∈ [(mvmWord 0, false), (mvmWord 1, true)],
    loomed.Takes (.core 0) p.1 ∧ loomed.cores[0].loomQ.length < 8 ∧ bits (wImm p.1) 40 8 = 0xFF ∧ bit (wImm p.1) 20 = false ∧
    loomed.Names (.core 0) 2 true sums ∧ loomed.Names (.core 0) 1 false codes ∧ tdEmpty sums = false ∧ tdEmpty codes = false ∧
    loomed.enginesOf 0 p.1 ≠ [] ∧ loomed.MvChecks 0 p.1 p.2 (loomed.enginesOf 0 p.1) codes sums := by
  have n2 : loomed.Names (.core 0) 2 true sums := names_of_ok loomed_slots.2.2.1 (by decide +kernel)
  have n1 : loomed.Names (.core 0) 1 false codes := names_of_ok loomed_slots.2.1 (by decide +kernel)
  intro p hp
  simp only [List.mem_cons, List.mem_nil_iff, or_false] at hp
  obtain rfl | rfl := hp
  all_goals
    refine ⟨takes_of_ok (by decide +kernel), by decide +kernel, by decide +kernel, by decide +kernel, n2, n1, by decide +kernel,
      by decide +kernel, by decide +kernel, ?_⟩
    exact ⟨by decide +kernel, by decide +kernel, by decide +kernel, fun h => absurd h (by decide +kernel), by decide +kernel,
      by decide +kernel, by decide +kernel⟩

theorem test_hyps_LoomRows_prog : ∀ op ∈ [3, 4],
    loomed.Takes (.core 0) (progWord op) ∧ loomed.Names (.core 0) 0 false image ∧
    tdFmt image = .int8 ∧ image.ext0 = 512 ∧ image.eff1 = bits (wImm (progWord op)) 24 11 ∧
    image.eff2 = (loomed.maskAt 0 (progWord op) (bits (wImm (progWord op)) 45 3)).length ∧
    bits (wImm (progWord op)) 35 10 + bits (wImm (progWord op)) 24 11 ≤ 1024 ∧ tdEmpty image = false := by
  have n : loomed.Names (.core 0) 0 false image := names_of_ok loomed_slots.1 (by decide +kernel)
  intro op h
  simp only [List.mem_cons, List.mem_nil_iff, or_false] at h
  obtain rfl | rfl := h
  all_goals
    exact ⟨takes_of_ok (by decide +kernel), n, by decide +kernel, by decide +kernel, by decide +kernel, by decide +kernel,
      by decide +kernel, by decide +kernel⟩

theorem test_hyps_LoomRows_probe : loomed.Takes (.core 0) probeWord ∧ loomed.Names (.core 0) 3 true probes ∧
    tdFmt probes = .int32 ∧ probes.eff1 = (loomed.maskAt 0 probeWord (bits (wImm probeWord) 45 3)).length ∧
    bits (wImm probeWord) 0 8 ≠ 0 ∧ tdEmpty probes = false ∧ loomed.Takes (.core 0) plyWord ∧ loomed.cores[0].loomQ = [] :=
  ⟨takes_of_ok (by decide +kernel), names_of_ok loomed_slots.2.2.2 (by decide +kernel), by decide +kernel, by decide +kernel,
    by decide +kernel, by decide +kernel, takes_of_ok (by decide +kernel), by decide +kernel⟩

/-- An MVM of one vector that integrates, one that has ended its window, and one drained. -/
def integrates : LoomInstr := { phase := .integrating, vecs := [0], q := { uid := 5 } }
def oneLoom (i : LoomInstr) : State := core0.updCore 0 (fun k => { k with loomQ := [i] })
theorem test_hyps_ConversionPipeline :
    (oneLoom integrates).integratingMv 0 = some integrates ∧ (oneLoom integrates).loomOf 0 5 = some integrates ∧
    integrates.windows + 1 = integrates.vecs.length ∧
    nextDrain (oneLoom { integrates with windows := 1, phase := .converting, engines := [{}] }).cores[0].loomQ 0 = some (5, 0, 0) ∧
    nextDrain core0.cores[0].loomQ 0 = none ∧ nextSum core0.cores[0].loomQ = none ∧
    (nextSum (oneLoom { integrates with windows := 1, phase := .converting, drained := [(0, 0)], engines := [{}] }).cores[0].loomQ).isSome
      = true := by decide +kernel

/-! ### MILL -/

/-- Core 0 with rows for the Mill: 0, 3 and 11 INT32 rows to write, 1 and 2 INT8 rows, 4 an INT32 row, 5 and 6 FP32 rows, 7 the
payloads of 5, 8 bytes, 9 four zero words, 10 two RAW records of 4 words, 12 a table image with LO 0 and HI 1. -/
def mill (i : Nat) : TD :=
  [tensor 0x2000 1 1 3, tensor 0x2040 3 1 2, tensor 0x2080 3 1 2, tensor 0x20C0 2 1 3, tensor 0x2100 3 1 3, tensor 0x2140 2 1 8,
    tensor 0x2180 2 1 8, tensor 0x21C0 2 1 3, tensor 0x2200 3 1 0, tensor 0x2240 4 1 3, tensor 0x2280 8 1 3, tensor 0x22C0 2 1 3,
    tensor 0x9000 514 1 3].getD i {}
def milled : State :=
  stored [slots at0 ((List.range 13).map mill), (at0 0x2040, [1, 2, 253]), (at0 0x2080, [4, 5, 6]),
    (at0 0x2100, leBytes 4 7 ++ leBytes 4 4294967293 ++ leBytes 4 2), (at0 0x2140, leBytes 4 0x40000000 ++ leBytes 4 0x3F800000),
    (at0 0x21C0, leBytes 4 11 ++ leBytes 4 12), (at0 0x2200, [65, 66, 67]), (at0 0x2280, List.replicate 32 1),
    (at0 (0x9000 + 2048), leBytes 4 0 ++ leBytes 4 0x3F800000)] core0
theorem milled_low : ∀ i, i < 7 → tdIn milled (.core 0) i = mill i := by decide +kernel
theorem milled_high : ∀ i, i < 6 → tdIn milled (.core 0) (7 + i) = mill (7 + i) := by decide +kernel
theorem mill_names {i : Nat} {dest : Bool} (h : i < 13) (ok : namesOk milled (.core 0) i dest (mill i) = true) :
    milled.Names (.core 0) i dest (mill i) := by
  by_cases c : i < 7
  · exact names_of_ok (milled_low i c) ok
  · obtain ⟨j, rfl⟩ : ∃ j, i = 7 + j := ⟨i - 7, by omega⟩
    exact names_of_ok (milled_high j (by omega)) ok
theorem milled_canonical : milled.canonical = true := by decide +kernel

/-- IADD of S2 and S3 into S1; MATMUL of slots 1 and 2; RED of slot 4 into S1; MERGE of slot 10 into slot 9; SORT and TOPK of slots
5 and 7; RNG into slot 3; WALK of slot 8; TABLE LOAD and EVAL. -/
def iaddWord : W128 := word 4 1 0x0D 0 0 0 0 0xB (0xFF * 2 ^ 40 + 2 * 2 ^ 35 + 3 * 2 ^ 30 + 1 * 2 ^ 20)
def matmulWord : W128 := word 4 0 0 0 1 2 0 4 (0xFF * 2 ^ 40)
def redWord (form : Nat) : W128 := word 4 2 form 0 4 0 0 0x10 (1 * 2 ^ 20)
def mergeWord : W128 := word 4 2 6 9 10 0 0 2 0
def sortWord : W128 := word 4 3 0 6 5 7 3 0 0
def topkWord : W128 := word 4 4 0 6 5 0 3 0 2
def rngWord : W128 := word 4 6 0 3 0 0 0 0 (2 * 2 ^ 43 + 4 * 2 ^ 38)
def walkWord : W128 := word 4 5 0 4 8 9 0 0 (1 * 2 ^ 16)
def tableWord (form a : Nat) : W128 := word 4 7 form 6 a 0 0 0 1

theorem test_hyps_MillVecScalar : (withS 3 7 (withS 2 0xFFFFFFFF core0)).MillTakes (.core 0) iaddWord ∧
    singleElement iaddWord = true ∧ wOp iaddWord = 1 ∧ bits (wImm iaddWord) 40 8 = 0xFF ∧
    (Instr.millVecIadd (.core 0) iaddWord).wordOk = true :=
  ⟨millTakes_of_ok (by decide +kernel) (by decide +kernel) (by decide +kernel), by decide +kernel, by decide +kernel,
    by decide +kernel, by decide +kernel⟩

/-- The Mill starts a word at once on core 0. -/
theorem mill_takes {w : W128} (h : takesOk milled (.core 0) w = true) : milled.MillTakes (.core 0) w :=
  millTakes_of_ok h milled_canonical (by decide +kernel)

theorem test_hyps_MillMatmulRow : milled.MillTakes (.core 0) matmulWord ∧ (Instr.millMatmul (.core 0) matmulWord).wordOk = true ∧
    wFlag matmulWord 0 = false ∧ wFlag matmulWord 1 = false ∧ wFlag matmulWord 2 = true ∧ wFlag matmulWord 3 = false ∧
    bits (wImm matmulWord) 40 8 = 0xFF ∧ bit (wImm matmulWord) 11 = false ∧ milled.Names (.core 0) 0 true (mill 0) ∧
    milled.Names (.core 0) 1 false (mill 1) ∧ milled.Names (.core 0) 2 false (mill 2) ∧ OneRow (mill 0) ∧ OneRow (mill 1) ∧
    OneRow (mill 2) ∧ (mill 0).format = 3 ∧ (mill 0).eff0 = 1 ∧ (mill 1).format = 2 ∧ (mill 2).format = 2 ∧
    (mill 1).ext0 = (mill 2).ext0 ∧ (mill 1).ext1 = 1 ∧ (mill 2).ext1 = 1 ∧ (mill 1).eff0 = (mill 2).eff0 ∧
    (mill 1).eff0 ≤ 1024 ∧ milled.readableSpan (.core 0) (mill 1).base (rowLen (mill 1)) ∧
    milled.readableSpan (.core 0) (mill 2).base (rowLen (mill 2)) ∧
    milled.localSpan (.core 0) true (mill 0).base (rowLen (mill 0)) :=
  ⟨mill_takes (by decide +kernel), by decide +kernel, by decide +kernel, by decide +kernel, by decide +kernel, by decide +kernel,
    by decide +kernel, by decide +kernel, mill_names (by decide) (by decide +kernel), mill_names (by decide) (by decide +kernel),
    mill_names (by decide) (by decide +kernel), oneRow_of_ok (by decide +kernel), oneRow_of_ok (by decide +kernel),
    oneRow_of_ok (by decide +kernel), by decide +kernel, by decide +kernel, by decide +kernel, by decide +kernel, by decide +kernel,
    by decide +kernel, by decide +kernel, by decide +kernel, by decide +kernel, readable_of_ok (by decide +kernel) (by decide +kernel),
    readable_of_ok (by decide +kernel) (by decide +kernel), local_of_ok (by decide +kernel)⟩

theorem test_hyps_MillRedRows : milled.MillTakes (.core 0) (redWord 0) ∧ wFlag (redWord 0) 3 = false ∧
    milled.Names (.core 0) 4 false (mill 4) ∧ OneRow (mill 4) ∧ (mill 4).format = 3 ∧
    milled.readableSpan (.core 0) (mill 4).base (rowLen (mill 4)) ∧ wFlag (redWord 0) 4 = true ∧ bits (wFlags (redWord 0)) 1 2 = 0 ∧
    (((milled.rowRaw (mill 4)).map (signed 32)).map (fun x => x * x)).sum < 2 ^ 47 ∧
    (Instr.millRedSum (.core 0) (redWord 0)).wordOk = true :=
  ⟨mill_takes (by decide +kernel), by decide +kernel, mill_names (by decide) (by decide +kernel), oneRow_of_ok (by decide +kernel),
    by decide +kernel, readable_of_ok (by decide +kernel) (by decide +kernel), by decide +kernel, by decide +kernel,
    by decide +kernel, by decide +kernel⟩

theorem test_hyps_MillRedRows_merge : milled.MillTakes (.core 0) mergeWord ∧ wFlag mergeWord 3 = false ∧
    milled.Names (.core 0) 10 false (mill 10) ∧ OneRow (mill 10) ∧ (mill 10).format = 3 ∧
    milled.readableSpan (.core 0) (mill 10).base (rowLen (mill 10)) ∧ milled.Names (.core 0) 9 true (mill 9) ∧ OneRow (mill 9) ∧
    (mill 9).format = 3 ∧ (mill 9).eff0 = 4 ∧ milled.localSpan (.core 0) true (mill 9).base 16 ∧ wFlag mergeWord 4 = false ∧
    bits (wFlags mergeWord) 1 2 = 1 ∧ (mill 10).ext0 = (mill 10).eff0 ∧ (mill 10).ext0 = 8 ∧
    (mergeRaw ((parts (milled.bytesAt (mill 10).base (rowLen (mill 10))) ((mill 10).eff0 / 4)).map parseRaw)).n ≠ 0 ∧
    (mergeRaw ((parts (milled.bytesAt (mill 10).base (rowLen (mill 10))) ((mill 10).eff0 / 4)).map parseRaw)).sat = false ∧
    (Instr.millRedMerge (.core 0) mergeWord).wordOk = true :=
  ⟨mill_takes (by decide +kernel), by decide +kernel, mill_names (by decide) (by decide +kernel), oneRow_of_ok (by decide +kernel),
    by decide +kernel, readable_of_ok (by decide +kernel) (by decide +kernel), mill_names (by decide) (by decide +kernel),
    oneRow_of_ok (by decide +kernel), by decide +kernel, by decide +kernel, local_of_ok (by decide +kernel), by decide +kernel,
    by decide +kernel, by decide +kernel, by decide +kernel, by decide +kernel, by decide +kernel, by decide +kernel⟩

theorem test_hyps_MillSortRows : milled.MillTakes (.core 0) sortWord ∧ milled.MillTakes (.core 0) topkWord ∧
    milled.Names (.core 0) 6 true (mill 6) ∧ milled.Names (.core 0) 5 false (mill 5) ∧ milled.Names (.core 0) 3 true (mill 3) ∧
    milled.Names (.core 0) 7 false (mill 7) ∧ OneRow (mill 6) ∧ OneRow (mill 5) ∧ OneRow (mill 3) ∧ OneRow (mill 7) ∧
    ((mill 6).format = 8 ∧ (mill 5).format = 8 ∧ (mill 3).format = 3 ∧ (mill 7).format = 3 ∧ (mill 6).eff0 = (mill 3).eff0 ∧
      (mill 5).eff0 = (mill 6).eff0 ∧ (mill 7).eff0 = (mill 6).eff0 ∧ (mill 5).ext0 ≤ 4096) ∧
    milled.readableSpan (.core 0) (mill 5).base (rowLen (mill 5)) ∧ milled.readableSpan (.core 0) (mill 7).base (rowLen (mill 7)) ∧
    milled.localSpan (.core 0) true (mill 6).base (rowLen (mill 6)) ∧
    milled.localSpan (.core 0) true (mill 3).base (rowLen (mill 3)) ∧ rowsApart (mill 6) (mill 3) ∧
    (wFlag topkWord 1 = false ∧ (mill 6).eff0 = bits (wImm topkWord) 0 9 ∧
      (Instr.millSort (.core 0) sortWord).wordOk = true ∧ (Instr.millTopk (.core 0) topkWord).wordOk = true) :=
  ⟨mill_takes (by decide +kernel), mill_takes (by decide +kernel), mill_names (by decide) (by decide +kernel), mill_names (by decide) (by decide +kernel),
    mill_names (by decide) (by decide +kernel), mill_names (by decide) (by decide +kernel), oneRow_of_ok (by decide +kernel),
    oneRow_of_ok (by decide +kernel), oneRow_of_ok (by decide +kernel), oneRow_of_ok (by decide +kernel), by decide +kernel,
    readable_of_ok (by decide +kernel) (by decide +kernel), readable_of_ok (by decide +kernel) (by decide +kernel),
    local_of_ok (by decide +kernel), local_of_ok (by decide +kernel), .inr (by decide +kernel), by decide +kernel⟩

theorem test_hyps_MillRngWalkRows : milled.MillTakes (.core 0) rngWord ∧ milled.Names (.core 0) 3 true (mill 3) ∧ OneRow (mill 3) ∧
    milled.localSpan (.core 0) true (mill 3).base (rowLen (mill 3)) ∧
    ((Instr.millRng (.core 0) rngWord).wordOk = true ∧ wFlag rngWord 0 = false ∧ bits (wImm rngWord) 43 5 % 2 = 0 ∧
      bits (wImm rngWord) 38 5 % 2 = 0 ∧ (mill 3).format = 3 ∧ wForm rngWord = 0) :=
  ⟨mill_takes (by decide +kernel), mill_names (by decide) (by decide +kernel), oneRow_of_ok (by decide +kernel), local_of_ok (by decide +kernel),
    by decide +kernel⟩

theorem test_hyps_MillRngWalkRows_walk : milled.MillTakes (.core 0) walkWord ∧ milled.Names (.core 0) 4 true (mill 4) ∧
    OneRow (mill 4) ∧ milled.localSpan (.core 0) true (mill 4).base (rowLen (mill 4)) ∧
    milled.Names (.core 0) 8 false (mill 8) ∧ milled.Names (.core 0) 9 false (mill 9) ∧ OneRow (mill 8) ∧
    milled.readableSpan (.core 0) (mill 8).base (rowLen (mill 8)) ∧ milled.readableSpan (.core 0) (mill 9).base 8 ∧
    (fmtBits (tdFmt (mill 8)) = 8 ∧ bit (mill 9).stream 7 = false ∧ tdNone (mill 9) = false ∧ 8 ≤ tdSpan (mill 9) ∧
      (mill 4).format = 3 ∧ (mill 8).eff0 ≤ (mill 4).eff0 ∧ (Instr.millWalk (.core 0) walkWord).wordOk = true ∧
      bits (leNat (milled.bytesAt (mill 9).base 8)) 31 9 = 0 ∧
      8 * bits (wImm walkWord) 24 24 + 4 * bits (leNat (milled.bytesAt (mill 9).base 8)) 40 24 ≤ tdSpan (mill 9)) :=
  ⟨mill_takes (by decide +kernel), mill_names (by decide) (by decide +kernel), oneRow_of_ok (by decide +kernel), local_of_ok (by decide +kernel),
    mill_names (by decide) (by decide +kernel), mill_names (by decide) (by decide +kernel), oneRow_of_ok (by decide +kernel),
    readable_of_ok (by decide +kernel) (by decide +kernel), readable_of_ok (by decide +kernel) (by decide +kernel), by decide +kernel⟩

/-- The table image of `milled` with a NaN as LO. -/
def badTable : State := stored [(at0 (0x1000 + 64 * 12), tdBytes (mill 12)),
  (at0 (0x9000 + 2048), leBytes 4 0x7FC00000 ++ leBytes 4 0x3F800000)] core0
theorem test_hyps_MillTableRows_load : milled.MillTakes (.core 0) (tableWord 0 12) ∧ milled.Names (.core 0) 12 false (mill 12) ∧
    ((Instr.millTableLoad (.core 0) (tableWord 0 12)).wordOk = true ∧ milled.tableBusy (.core 0) 1 = false ∧
      tdEmpty (mill 12) = false ∧ bit (mill 12).stream 7 = false) ∧
    milled.readableSpan (.core 0) (mill 12).base 2056 :=
  ⟨mill_takes (by decide +kernel), mill_names (by decide) (by decide +kernel), by decide +kernel,
    readable_of_ok (by decide +kernel) (by decide +kernel)⟩
theorem test_hyps_MillTableRows_image : tableOk (parseTable (milled.bytesAt (mill 12).base 2056)) = true ∧
    tableOk (parseTable (badTable.bytesAt (mill 12).base 2056)) = false := by decide +kernel

theorem test_hyps_MillTableRows_eval : milled.MillTakes (.core 0) (tableWord 1 5) ∧ milled.Names (.core 0) 5 false (mill 5) ∧
    milled.Names (.core 0) 6 true (mill 6) ∧ OneRow (mill 6) ∧ OneRow (mill 5) ∧ (mill 6).format = 8 ∧ (mill 5).format = 8 ∧
    (mill 5).eff0 = (mill 6).eff0 ∧ milled.readableSpan (.core 0) (mill 5).base (rowLen (mill 5)) ∧
    milled.localSpan (.core 0) true (mill 6).base (rowLen (mill 6)) ∧ (Instr.millTableEval (.core 0) (tableWord 1 5)).wordOk = true :=
  ⟨mill_takes (by decide +kernel), mill_names (by decide) (by decide +kernel), mill_names (by decide) (by decide +kernel), oneRow_of_ok (by decide +kernel),
    oneRow_of_ok (by decide +kernel), by decide +kernel, by decide +kernel, by decide +kernel,
    readable_of_ok (by decide +kernel) (by decide +kernel), local_of_ok (by decide +kernel), by decide +kernel⟩

/-! ### SEQ and SYNC -/

/-- SEQ words: SET forms with RD S1, RA S2, RB S3; LOOP to instruction 5, 3 times; BR to 7; NOP; JOIN with END; TALLY forms with RA
S2, RB S3. -/
def setWord (form flags : Nat) : W128 := word 0 3 form 0 0 0 0 flags (1 * 2 ^ 43 + 2 * 2 ^ 38 + 3 * 2 ^ 33)
def loopWord (last n : Nat) : W128 := word 0 1 0 0 0 0 0 0 (last * 2 ^ 32 + n)
def brWord (form target : Nat) : W128 := word 0 2 form 0 0 0 0 0 target
def joinWord : W128 := word 0 5 0 0 0 0 0 1 0
def tallyWord (form : Nat) : W128 := word 0 4 form 0 0 0 0 0 (1 * 2 ^ 43 + 2 * 2 ^ 38 + 3 * 2 ^ 33)

theorem test_hyps_SeqSetRules : ∀ form ∈ List.range 10, core0.Takes (.core 0) (setWord form 0) := by
  intro form h
  have : takesOk core0 (.core 0) (setWord form 0) = true := by
    have key : (List.range 10).all (fun f => takesOk core0 (.core 0) (setWord f 0)) = true := by decide +kernel
    exact List.all_eq_true.mp key form h
  exact takes_of_ok this

/-- Core 0 in a loop of instructions 1 to 9; and in four loops. -/
def looped : State := core0.updSeqr (.core 0) (fun r => { r with pc := 2, loops := [{ first := 1, last := 9, remaining := 2 }] })
def fourLoops : State := core0.updSeqr (.core 0) (fun r =>
  { r with pc := 2, loops := List.replicate 4 { first := 1, last := 9, remaining := 2 } })
theorem test_hyps_SeqLoopRules : takesOk looped (.core 0) (loopWord 5 3) = true ∧
    (Instr.seqLoop (.core 0) (loopWord 5 3)).wordOk = true ∧
    (looped.seqr (.core 0)).pc < wordBits (loopWord 5 3) 32 12 ∧
    wordBits (loopWord 5 3) 32 12 < (looped.seqr (.core 0)).codeLen ∧ (looped.seqr (.core 0)).loops.length < 4 ∧
    (∀ e ∈ (looped.seqr (.core 0)).loops.head?, wordBits (loopWord 5 3) 32 12 ≤ e.last) ∧
    -- the three faults
    takesOk looped (.core 0) (loopWord 2 3) = true ∧ wordBits (loopWord 2 3) 32 12 ≤ (looped.seqr (.core 0)).pc ∧
    takesOk looped (.core 0) (loopWord 12 3) = true ∧
    (∃ e ∈ (looped.seqr (.core 0)).loops.head?, e.last < wordBits (loopWord 12 3) 32 12) ∧
    takesOk fourLoops (.core 0) (loopWord 5 3) = true ∧ 4 ≤ (fourLoops.seqr (.core 0)).loops.length := by decide +kernel

theorem test_hyps_SeqBranches : takesOk looped (.core 0) (brWord 0 7) = true ∧ takesOk looped (.core 0) (brWord 1 11) = true ∧
    looped.inQueues (.core 0) (wFlags (brWord 0 7) / 2 ^ 8 % 64) = [] ∧ wordBits (brWord 0 7) 0 12 < (looped.seqr (.core 0)).codeLen ∧
    (∀ e ∈ (looped.seqr (.core 0)).loops.head?, e.first ≤ wordBits (brWord 0 7) 0 12 ∧ wordBits (brWord 0 7) 0 12 ≤ e.last) ∧
    (looped.seqr (.core 0)).loops = { first := 1, last := 9, remaining := 2 } :: [] ∧ 9 < wordBits (brWord 1 11) 0 12 ∧
    (Instr.seqBrJump (.core 0) (brWord 0 7)).wordOk = true ∧ (Instr.seqBrBreak (.core 0) (brWord 1 11)).wordOk = true := by
  decide +kernel

theorem test_hyps_SeqNopAndJoin : takesOk core0 (.core 0) (word 0 0 0 0 0 0 0 0 0) = true ∧ takesOk core0 (.core 0) joinWord = true ∧
    core0.drained (.core 0) = true ∧
    (core0.updSeqr (.core 0) (fun r => { r with millQ := [{}] })).drained (.core 0) = false := by decide +kernel

/-- Core 0 runs job 3, which owns the Tally of its cluster, open for 4 tiles of operation 9; S2 is 2. -/
def tallied : State :=
  { withS 2 2 core0 with
    clusters := core0.clusters.set 0 { tally := { owner := some 3, open_ := true, opnum := 9, count := 4, next := 1 } } }.updCore 0
    (fun k => { k with job := some 3 })
theorem test_hyps_TallyRules : (List.range 4).all (fun f => takesOk tallied (.core 0) (tallyWord f)) = true ∧
    tallied.ownTally (.core 0) = some (clusterOf 0) ∧ tallied.clusters[clusterOf 0].tally.open_ = true ∧
    tallied.clusters[clusterOf 0].tally.next < tallied.clusters[clusterOf 0].tally.count ∧ tallied.coreBit 0 = true ∧
    ((tallied.cores[0].seq.scalar 2).toNat % 2 ^ 32 < tallied.clusters[clusterOf 0].tally.count ∧
      tallied.clusters[clusterOf 0].tally.opnum ≠ (tallied.cores[0].seq.scalar 3).toNat % 2 ^ 16) ∧
    (withS 3 9 (withS 2 4 tallied)).ownTally (.core 0) = some (clusterOf 0) ∧
    core0.ownTally (.core 0) = none ∧ takesOk core0 (.core 0) (tallyWord 1) = true := by decide +kernel

/-- SIGNAL, ADD and READ of counter 5, WAIT GE 5 for 2, WAIT EPOCH. -/
def signalWord : W128 := word 1 0 0 0 0 0 0 0 (5 * 2 ^ 32)
def addWord : W128 := word 1 1 0 0 0 0 0 0 (5 * 2 ^ 32 + 7 * 2 ^ 16 + 9)
def waitWord (form : Nat) : W128 := word 1 2 form 0 0 0 0 0 (5 * 2 ^ 32 + 2)
def readWord : W128 := word 1 3 0 0 0 0 0 0 (5 * 2 ^ 32 + 1)
theorem test_hyps_SyncEntersBuffer : takesOk core0 (.core 0) signalWord = true ∧ takesOk core0 (.core 0) addWord = true ∧
    (core0.seqr (.core 0)).syncBuf.length < 8 ∧ core0.syncIndexOk 5 = true ∧ wordBits signalWord 32 16 = 5 ∧
    (Instr.syncSignal (.core 0) signalWord).wordOk = true ∧ (Instr.syncAdd (.core 0) addWord).wordOk = true := by decide +kernel

/-- Core 0 with an operation on counter 5 in its buffer. -/
def buffered : State := core0.updSeqr (.core 0) (fun r => { r with syncBuf := [{ index := 5, v := 7, t := 9 }] })
theorem test_hyps_SyncCounterRules : (buffered.seqr (.core 0)).syncBuf = { index := 5, v := 7, t := 9 } :: [] ∧
    buffered.canonical = true ∧ (∀ c : Fin 64, (buffered.seqr (.core c)).wait = none) ∧ (buffered.seqr .house).wait = none := by
  decide +kernel

/-- Core 0 waits for counter 5 with a limit. -/
def waits : State := core0.updSeqr (.core 0) (fun r => { r with wait := some { cond := .ge 5 2, limited := true } })
theorem test_hyps_SyncWaits : takesOk core0 (.core 0) (waitWord 0) = true ∧ takesOk core0 (.core 0) (waitWord 1) = true ∧
    core0.waitHolds (.ge 5 2) = false ∧ core0.waitHolds (.ge 5 0) = true ∧ core0.syncIndexOk 5 = true ∧
    (waits.seqr (.core 0)).wait = some { cond := .ge 5 2, limited := true } := by decide +kernel
theorem test_hyps_SyncReadValue : takesOk core0 (.core 0) readWord = true ∧ (Instr.syncRead (.core 0) readWord).wordOk = true ∧
    core0.syncIndexOk (wordBits readWord 32 16) = true := by decide +kernel

/-! ### MOVE, streams and completion -/

/-- Core 0 with rows to move: 0 a destination in its store, 1 a source there, 2 a tensor in the Warehouse, 3 a stream's slots. -/
def moved (i : Nat) : TD :=
  [tensor 0x2000 2 1 3, tensor 0x2040 2 1 3, { tensor 0 2 1 3 with base := 0x100 }, tensor 0x3000 2 1 3].getD i {}
def mover : State :=
  stored [(0x100, leBytes 4 77 ++ leBytes 4 78), slots at0 ((List.range 4).map moved), (at0 0x2040, leBytes 4 5 ++ leBytes 4 6)] core0
theorem mover_slots : ∀ i, i < 4 → tdIn mover (.core 0) i = moved i := by decide +kernel
theorem mover_names {i : Nat} {dest : Bool} (h : i < 4) (ok : namesOk mover (.core 0) i dest (moved i) = true) :
    mover.Names (.core 0) i dest (moved i) := names_of_ok (mover_slots i h) ok
theorem mover_canonical : mover.canonical = true := by decide +kernel

/-- LOAD of slot 2 to slot 0, STORE of slot 1 to slot 2, PREFETCH and STAGE of slot 2, STREAM 1 of slot 2 into slot 3. -/
def loadWord : W128 := word 2 0 0 0 2 0 0 0 0
def storeWord : W128 := word 2 1 0 2 1 0 0 0 0
def touchWord (op : Nat) : W128 := word 2 op 0 0 2 0 0 0 0
def streamWord : W128 := word 2 2 0 3 2 0 0 0 (1 + 1 * 2 ^ 4)

theorem mover_takes {w : W128} (h : takesOk mover (.core 0) w = true) : mover.MoveTakes (.core 0) w :=
  moveTakes_of_ok h mover_canonical (by decide +kernel)
theorem test_hyps_MoveRows_copy : mover.MoveTakes (.core 0) loadWord ∧ mover.MoveTakes (.core 0) storeWord ∧
    mover.Names (.core 0) 0 true (moved 0) ∧ mover.Names (.core 0) 2 false (moved 2) ∧ mover.Names (.core 0) 2 true (moved 2) ∧
    mover.Names (.core 0) 1 false (moved 1) ∧ OneRow (moved 0) ∧ OneRow (moved 1) ∧ OneRow (moved 2) ∧
    mover.readableSpan (.core 0) (moved 2).base (rowLen (moved 2)) ∧ mover.readableSpan (.core 0) (moved 1).base (rowLen (moved 1)) ∧
    mover.localSpan (.core 0) true (moved 0).base (rowLen (moved 0)) ∧
    mover.localSpan (.core 0) true (moved 2).base (rowLen (moved 2)) ∧
    ((Instr.moveLoad (.core 0) loadWord).wordOk = true ∧ (Instr.moveStore (.core 0) storeWord).wordOk = true ∧
      addrRegion (moved 0).base = 1 ∧ addrRegion (moved 1).base = 1 ∧ (moved 2).eff0 = (moved 0).eff0 ∧
      (moved 1).eff0 = (moved 2).eff0 ∧ (moved 0).format = 3 ∧ (moved 1).format = 3 ∧ (moved 2).format = 3) :=
  ⟨mover_takes (by decide +kernel), mover_takes (by decide +kernel), mover_names (by decide) (by decide +kernel),
    mover_names (by decide) (by decide +kernel), mover_names (by decide) (by decide +kernel), mover_names (by decide) (by decide +kernel),
    oneRow_of_ok (by decide +kernel), oneRow_of_ok (by decide +kernel), oneRow_of_ok (by decide +kernel),
    readable_of_ok (by decide +kernel) (by decide +kernel), readable_of_ok (by decide +kernel) (by decide +kernel),
    local_of_ok (by decide +kernel), local_of_ok (by decide +kernel), by decide +kernel⟩
theorem test_hyps_MoveRows_others : mover.MoveTakes (.core 0) (touchWord 3) ∧ mover.MoveTakes (.core 0) (touchWord 4) ∧
    mover.MoveTakes (.core 0) streamWord ∧ mover.Names (.core 0) 3 true (moved 3) ∧
    ((Instr.movePrefetch (.core 0) (touchWord 3)).wordOk = true ∧ (Instr.moveStage (.core 0) (touchWord 4)).wordOk = true ∧
      tdEmpty (moved 2) = false ∧ bit (moved 2).stream 7 = false ∧ mover.port.stageQ.length < 16 ∧
      (Instr.moveStream (.core 0) streamWord).wordOk = true ∧ bit (wImm streamWord) 3 = false ∧
      2 ≤ bits (wImm streamWord) 4 4 + 1 ∧ bits (wImm streamWord) 8 4 + 1 ≤ bits (wImm streamWord) 4 4 + 1 ∧
      getN mover.cores[0].streams (bits (wImm streamWord) 0 3) none = none) :=
  ⟨mover_takes (by decide +kernel), mover_takes (by decide +kernel), mover_takes (by decide +kernel),
    mover_names (by decide) (by decide +kernel), by decide +kernel⟩

/-- Core 0 with an open in stream of two tiles on stream 1, and an out stream with a full slot on stream 2. -/
def streaming : State := core0.updCore 0 (fun k => { k with streams := (k.streams.set 1 (some
  { mem := { tensor 0 4 1 3 with base := 0x100 }, slot := tensor 0x3000 2 1 3, tiles := 2 })).set 2 (some
  { mem := { tensor 0 4 1 3 with base := 0x100 }, slot := tensor 0x3000 2 1 3, tiles := 2, out := true, full := [0] }) })
theorem test_hyps_StreamSlots : (getN streaming.cores[0].streams 1 none).any (fun m => m.mayFill) = true ∧
    (getN streaming.cores[0].streams 2 none).any (fun m => !m.mayFill && m.full == [0] && m.out && !m.closed) = true := by
  decide +kernel

/-- Core 0 with a Mill entry, a mover entry and a LOOM instruction that have run. -/
def ran : State := (core0.updSeqr (.core 0) (fun r =>
  { r with millQ := [{ uid := 1, opcode := 0x4100 }], moverQ := r.moverQ.set 0 [{ uid := 2, opcode := 0x2000 }] })).updCore 0
    (fun k => { k with loomQ := [{ q := { uid := 3 }, phase := .done }] })
theorem test_hyps_CompletionRules : (ran.seqr (.core 0)).millQ[0]? = some { uid := 1, opcode := 0x4100 } ∧
    ran.millMay (ran.seqr (.core 0)).millQ 0 = true ∧ (ran.seqr (.core 0)).moverQ[0] = [{ uid := 2, opcode := 0x2000 }] ∧
    ran.acked { uid := 2, opcode := 0x2000 } = true ∧ ran.cores[0].loomQ = [{ q := { uid := 3 }, phase := .done }] ∧
    ran.canonical = true ∧ (∀ c : Fin 64, (ran.seqr (.core c)).wait = none) ∧ (ran.seqr .house).wait = none := by decide +kernel

/-! ### CAL, Assay and the monitor converters -/

/-- House words of class 0xC with RD S1, RA S2, RB S3. -/
def calWord (op form tdd tda imm : Nat) : W128 := word 0xC op form tdd tda 0 0 0 (1 * 2 ^ 43 + 2 * 2 ^ 38 + 3 * 2 ^ 33 + imm)
theorem test_hyps_CalRegisterRows : [calWord 1 0 0 0 4, calWord 0 0 0 0 4, calWord 2 0 0 0 4, calWord 4 0 0 0 0].all
    (fun w => takesOk served .house w) = true := by decide +kernel

/-- House firmware with a trim record at 0x2000 of secure SRAM, and a place for a record at 0x3000. -/
def calTd (i : Nat) : TD := [secure 0x2000 512 1 3, secure 0x3000 64 1 3].getD i {}
def calling : State := stored [slots atS ((List.range 2).map calTd)] served
theorem calling_slots : ∀ i, i < 2 → tdIn calling .house i = calTd i := by decide +kernel
theorem test_hyps_CalTensorRows : calling.canonical = true ∧ calling.Names .house 0 false (calTd 0) ∧
    calling.Names .house 1 true (calTd 1) ∧ calling.readableSpan .house (calTd 0).base 256 ∧
    calling.localSpan .house true (calTd 1).base 256 ∧
    (takesOk calling .house (calWord 3 0 0 0 0) = true ∧ takesOk calling .house (calWord 5 0 0 0 0) = true ∧
      takesOk calling .house (calWord 5 1 0 0 0) = true ∧ takesOk calling .house (calWord 6 0 1 0 0) = true ∧
      tdEmpty (calTd 0) = false ∧ tdEmpty (calTd 1) = false ∧ calling.usable (plyCore 0) = true ∧
      (calling.readRecord 0).isSome = true) :=
  ⟨by decide +kernel, names_of_ok (calling_slots 0 (by decide)) (by decide +kernel),
    names_of_ok (calling_slots 1 (by decide)) (by decide +kernel), readable_of_ok (by decide +kernel) (by decide +kernel),
    local_of_ok (by decide +kernel), by decide +kernel⟩
theorem test_hyps_CalTensorRows_trim : calling.readableSpan .house (calTd 0).base 2048 :=
  readable_of_ok (by decide +kernel) (by decide +kernel)

/-- Assay with work: a PROBE and a VERIFY scheduled on core 0 and 1, a measurement without a minimum on an owned ply 0, ply 1 a year
old and bound to a golden image. -/
def assaying : State :=
  { served with
    cores := (served.cores.set 0 { calCore := [{ emask := 1, tdd := secure 0x3000 4 1 3 }], applyMark := true }).set 1
      { calCore := [{ verify := true, emask := 1 }] }
    plies := [(0, { owner := some 2, written := true }), (1, { owner := some 2, written := true })]
    assay := { served.assay with
      minSamples := 0, age := Vector.replicate 8 (2 ^ 46), plies := [(0, { meas := { active := true } })] } }
theorem test_hyps_AssayEvents : assaying.assayActs = true ∧ assaying.usable 0 = true ∧ assaying.coreIdle 0 = true ∧
    assaying.capFree 0 1 = true ∧ enginesIn 1 = [0] ∧ (secure 0x3000 4 1 3).eff1 = 1 ∧ assaying.canonical = true ∧
    localOk assaying .house true (rowAddr (secure 0x3000 4 1 3) 0 0 0) (4 * 4) = true ∧ assaying.canApply 0 = true ∧
    (assaying.assayPly 0).meas.active = true ∧ assaying.calPly 0 = true ∧ assaying.plyDue 1 = true := by decide +kernel
theorem test_hyps_AssayEvents_more : assaying.usable 1 = true ∧ assaying.coreIdle 1 = true ∧ assaying.capFree 1 1 = true ∧
    assaying.cores[1].calCore = { verify := true, emask := 1 } :: [] ∧ tdEmpty ({} : TD) = true ∧
    assaying.supply.holding = false ∧ assaying.cores[plyCore 8000].calCore = [] := by decide +kernel

/-- Ply 1 was last fitted after a second, and is a year old. -/
def aged : State := assaying.updAssay 1 (fun a => { a with fullAge := 0x3F800000 })
theorem test_hyps_AssayTriggers : aged.calPly 1 = true ∧ (aged.assayPly 1).firedFull = false ∧ aged.ageReached 1 true = true ∧
    aged.assayActs = true ∧ ({ aged with boot := .rom } : State).assayActs = false ∧ assaying.ageReached 1 true = false := by
  decide +kernel

theorem test_hyps_ReadsClear : served.portOn = true ∧ served.chouse.scrub = none := by decide +kernel

/-- The monitor converters in a pass, and stopped with a trigger waiting. -/
def passing : State := { served with monitor := { served.monitor with run := true } }
def triggered : State := { served with monitor := { served.monitor with pending := true } }
theorem test_hyps_MonitorControl : passing.monitor.powered = true ∧ passing.monitor.run = true ∧ served.monitor.powered = true ∧
    served.monitor.run = false ∧ served.monitor.free = true ∧ triggered.monitor.pending = true ∧ triggered.monitor.free = true ∧
    ({ served with monitor := { served.monitor with powered := false } } : State).monitor.powered = false := by decide +kernel

/-- AM0 converts a supply for result 25. -/
def supplyCv : Converting := { source := 88, reg := 25, entry := 25 }
theorem test_hyps_ConversionEnds :
    ({ passing with monitor := { passing.monitor with am0 := some supplyCv } } : State).monitor.am0 = some supplyCv ∧
    88 ≤ supplyCv.source ∧ supplyCv.reg = (25 : Fin 32).val ∧ supplyCv.discard = false := by decide +kernel

/-! ### The host port -/

/-- A host access: channel A, a bank with its row active, column 0. -/
def hosted : State := { served with
  port := { served.port with
    chanA := { rows := Vector.ofFn (fun b : Fin 16 => [some 2, some 0, some 512, some 300].getD b.val none) }
    chanB := { rows := Vector.ofFn (fun b : Fin 16 => if b = 0 then some 0 else none) } } }
def bankA (b : Fin 16) : HostAddr := { ch := .a, bank := b, col := 0 }
def wharfAddr : HostAddr := { ch := .b, bank := 0, col := 0 }
/-- A write of 32 bytes, the second masked. -/
def burst32 : Burst := some 0xA5 :: none :: List.replicate 30 (some 7)

/-- The channel with ZQ stop as `v` has it, at every frequency set point. -/
def zqStop (v : Byte) : State := hosted.updChan .a (fun k => { k with mr := (List.range 4).map (fun i => (128 * i + 0x1C, v)) })
theorem zqStop_reads (v : Byte) : ((zqStop v).mrValue .a 0x1C).getLsbD 1 = v.getLsbD 1 := by
  have h : ∀ i : Fin 4, NatMap.get (Config.mrReset 0x1C) ((zqStop v).chan .a).mr (128 * i.val + 0x1C) = v := by decide +revert
  have g : NatMap.get (Config.mrReset 0x1C) ((zqStop v).chan .a).mr (mrKey ((zqStop v).chan .a) 0x1C) = v := by
    unfold mrKey
    split
    · exact h ⟨_, Nat.mod_lt _ (by decide)⟩
    · exact h 0
  simp [State.mrValue, mrHeld, g, mrWrites]
theorem test_hyps_LpddrCommands : hosted.portOn = true ∧ mrReadOnly 0x1C = false ∧ mrReadOnly 5 = true ∧
    (zqStop 0).portOn = true ∧ (zqStop 2).portOn = true ∧ ((zqStop 0).mrValue .a 0x1C).getLsbD 1 = false ∧
    ((zqStop 2).mrValue .a 0x1C).getLsbD 1 = true :=
  ⟨by decide, by decide, by decide, by decide, by decide, by rw [zqStop_reads]; rfl, by rw [zqStop_reads]; rfl⟩
theorem test_hyps_HostPresence : hosted.portOn = true ∧ hosted.chouse.scrub = none ∧ hosted.power.cur = 0 ∧
    (∀ f ∈ hosted.port.frames, f.due = false) ∧ hosted.power.depth < 3 ∧
    ((after (.selfRefreshEntry .a) hosted).chan .a).selfRefresh = true ∧ (after (.selfRefreshEntry .a) hosted).portOn = true ∧
    (after (.selfRefreshEntry .a) hosted).power.depth < 3 ∧ hosted.port.selfRefresh = false ∧ hosted.port.hostLost = false := by
  decide +kernel
theorem test_hyps_RingWriteStores : hosted.canonical = true ∧ hosted.portOn = true ∧ hosted.chouse.scrub = none ∧
    burstOk (bankA 0) burst32.length = true ∧ hosted.hostOff (bankA 0) = some 0x10000 ∧
    hosted.target .a 0x10000 = .subRing := by decide +kernel
theorem test_hyps_BurstsGo : hosted.hostOff (bankA 1) = some 0x800 ∧ hosted.target .a 0x800 = .control ∧
    hosted.hostOff (bankA 2) = some 0x1001000 ∧ hosted.target .a 0x1001000 = .aperture ∧
    hosted.hostOff (bankA 3) = some 0x961800 ∧ hosted.target .a 0x961800 = .unmapped ∧
    hosted.hostOff wharfAddr = some 0 ∧ hosted.target .b 0 = .wharf ∧ hosted.target .a 0x50000 = .compRing ∧
    burstOk (bankA 2) 64 = true := by decide +kernel
theorem test_hyps_HostRegisters : hosted.port.cqDue = false ∧ hosted.port.frames = [] ∧
    (∀ m : Fin 16, hosted.models[m].st = .empty) ∧ hosted.intakeOpen = false ∧
    hosted.port.sqHead = hosted.port.recorded.getD hosted.port.sqTail ∧ hosted.port.inUse = [] ∧
    hosted.port.cqHead = hosted.port.cqTail ∧ hosted.port.state = .ready ∧ State.reset.port.state ≠ .ready ∧
    State.reset.portOn = true ∧ State.reset.chouse.scrub = none ∧ hosted.port.stageQ.length < 16 ∧
    16 ≤ ({ hosted with port := { hosted.port with stageQ := List.replicate 16 (.host false 1 .a 0 0) } } : State).port.stageQ.length := by
  decide +kernel

/-- A staging request of the host waits; one of core 0 is under way. -/
def staging : State := { hosted with port := { hosted.port with stageQ := [.host false 1 .a 0x1000000 3] } }
def stagingMove : State := { hosted with port := { hosted.port with stageBusy := true, stageQ := [.move (.core 0) 1 (tensor 0x2000 8 4 3) 0] } }
def stagingHost : State := { staging with port := { staging.port with stageBusy := true } }
/-- A frame of page 0x1000000 is open; one of 0x1001000 drains; and the same in confidential mode. -/
def framed : State := { hosted with port := { hosted.port with frames := [{ page := 0x1020000 }, { page := 0x1021000, draining := true }] } }
def framedConf : State := { framed with chouse := { framed.chouse with conf := true } }
theorem test_hyps_StagingAndFrames : staging.port.stageBusy = false ∧ staging.chouse.scrub = none ∧ staging.power.cur = 0 ∧
    staging.power.inTrip = false ∧ staging.port.state ≠ .halted ∧
    framed.port.frames.find? (isFrame .a 0x1020000) = some { page := 0x1020000 } ∧ framed.confPage .a 0x1020000 = false ∧
    framedConf.confPage .a 0x1020000 = true ∧
    framed.port.frames.find? (fun g => decide (g.ch = .a) && g.page == 0x1021000 && g.draining) =
      some { page := 0x1021000, draining := true } ∧ stagingMove.port.stageBusy = true ∧ stagingHost.port.stageBusy = true ∧
    stagingMove.port.stageQ = .move (.core 0) 1 (tensor 0x2000 8 4 3) 0 :: [] ∧
    stagingHost.port.stageQ = .host false 1 .a 0x1000000 3 :: [] := by decide +kernel

/-- A request in slot 5 has finished. -/
def posting : State := { hosted with port := { hosted.port with
  finished := [{ kind := 1, slot := 5, tag := 0x11223344, irq := true }], inUse := [5], modTime := 10, unread := [(0, true, false)], modCount := 4 } }
def postingFull : State := { posting with port := { posting.port with cqHead := 1 } }
def postingConf : State := { posting with chouse := { posting.chouse with conf := true } }
theorem test_hyps_CompletionsPost : posting.canonical = true ∧ posting.chouse.scrub = none ∧ posting.chouse.conf = false ∧
    posting.port.deferred = [] ∧ posting.port.cqFull = false ∧ posting.port.cqTail < 4096 ∧
    (posting.port.finished.map (·.frees)) = [true] ∧ postingFull.port.cqFull = true ∧ postingFull.canonical = true ∧
    postingConf.chouse.conf = true ∧ posting.port.modTime ≠ 0 ∧
    posting.port.unread.any (fun e => e.2.1 || e.2.2) = true := by decide +kernel

/-! ### Requests and jobs -/

/-- A ring entry: KIND, MSLOT, ARG0, ARG1, AL0. -/
def ringEntry (kind mslot arg0 arg1 al0 : Nat) : List Byte :=
  leBytes 1 kind ++ leBytes 1 0 ++ leBytes 1 mslot ++ leBytes 5 0x1100 ++ leBytes 8 arg0 ++ leBytes 8 arg1 ++ leBytes 8 0 ++ leBytes 32 al0
/-- The machine with an entry at the head of the ring and bytes at 0x4000 of the Warehouse. -/
def requesting (e b : List Byte) : State :=
  stored [(0x4000, b), (portKey 0, e)] { hosted with port := { hosted.port with sqTail := 1 } }

theorem test_hyps_RequestsAccepted :
    ([(ringEntry 1 255 0x4000 0 0, fun s => s.namesImage), (ringEntry 5 255 0 0 0, fun _ e => e.kind == 5),
      (ringEntry 2 0 0 0 0, fun _ e => e.kind == 2), (ringEntry 0x13 255 0 0 0, fun _ e => e.kind == 0x13)] :
      List (List Byte × (State → Entry → Bool))).all (fun p => let s := requesting p.1 []
        s.headEntry == some (parseEntry p.1) && p.2 s (parseEntry p.1) && !(parseEntry p.1).bad) = true ∧
    hosted.headEntry = none ∧ (requesting (ringEntry 9 255 0 0 0) []).headEntry = some (parseEntry (ringEntry 9 255 0 0 0)) ∧
    (parseEntry (ringEntry 9 255 0 0 0)).bad = true ∧ (parseEntry (ringEntry 5 16 0 0 0)).bad = true := by decide +kernel

/-- An image of one word, a SEQ.JOIN with END. -/
def imageBytes : List Byte :=
  leBytes 4 0x4C444853 ++ leBytes 2 1 ++ leBytes 2 1 ++ leBytes 8 0 ++ leBytes 4 64 ++ leBytes 16 0 ++ leBytes 4 80 ++ leBytes 24 0 ++
    leBytes 16 (word 0 5 0 0 0 0 0 1 0).toNat
/-- A pipeline of one stage whose image stands at 0x4100, and a counter request that writes at 0x8000. -/
def pipeBytes : List Byte :=
  leBytes 4 PIPE_MAGIC ++ leBytes 2 1 ++ leBytes 58 1 ++ leBytes 48 0x4100 ++ leBytes 2 0xFF ++ leBytes 2 0 ++ leBytes 12 1 ++
    List.replicate 128 0 ++ imageBytes
def dumpBytes : List Byte :=
  leBytes 4 COUNTER_MAGIC ++ leBytes 2 1 ++ leBytes 2 0 ++ leBytes 8 0x8000 ++ leBytes 4 1 ++ leBytes 4 1 ++ leBytes 40 0
def jobEntry : List Byte := ringEntry 1 255 0x4000 0 0
theorem test_hyps_RequestEffects :
    (let s := requesting jobEntry imageBytes;
      s.namesImage (parseEntry jobEntry) = true ∧ s.takeHead.headerPasses 0x4000 = true) ∧
    (let s := requesting jobEntry pipeBytes;
      s.namesRecord PIPE_MAGIC (parseEntry jobEntry) = true ∧ s.takeHead.readWh 0x4000 64 = some ((pipeBytes.take 128).take 64) ∧
        s.takeHead.readWh 0x4000 128 = some (pipeBytes.take 128) ∧ leAt pipeBytes 6 1 = 1 ∧
        pipeOk (pipeBytes.take 128) 255 0 = true ∧ s.takeHead.imagesPass (pipeBytes.take 128) = true) ∧
    (let s := requesting jobEntry dumpBytes;
      s.namesRecord COUNTER_MAGIC (parseEntry jobEntry) = true ∧ s.takeHead.readWh 0x4000 64 = some dumpBytes ∧
        s.takeHead.dumpOk dumpBytes (parseEntry jobEntry) = true ∧ s.canonical = true ∧ bit (parseDump dumpBytes).ops 4 = false) := by
  decide +kernel

/-- A CANCEL of slot 3, with a job there. -/
def cancelling (st : JobState) : State := { requesting (ringEntry 5 255 0 0 3) [] with jobs := [{ slot := 3, st := st }] }
/-- A LOAD of an empty map into slot 2, and a RESTORE. -/
def loading (kind : Nat) (busy : Bool) : State := { requesting (ringEntry kind 2 0x10000 0x4000 0) [] with
  load := if busy then some {} else none, models := Vector.ofFn (fun m : Fin 16 => if m = 2 then { st := .dormant } else {}) }
theorem test_hyps_RequestEffects_more :
    (let s := cancelling .ending;
      s.headEntry.isSome = true ∧ ((parseEntry (ringEntry 5 255 0 0 3)).arg2 0) = 3 ∧ (s.jobOf 3).map (·.st) = some .ending) ∧
    (cancelling .waiting).headEntry.isSome = true ∧ ((cancelling .waiting).jobOf 3).map (fun j => (j.st, j.home, j.cancels)) =
      some (.waiting, none, []) ∧
    (loading 2 true).headEntry.isSome = true ∧ (loading 2 true).load.isSome = true ∧ (loading 3 true).headEntry.isSome = true ∧
    (loading 4 true).headEntry.isSome = true ∧ (loading 4 false).headEntry.isSome = true ∧ (loading 4 false).load = none ∧
    (loading 2 false).mgmt.waiting = none ∧
    (loading 2 false).takeHead.readMap (parseEntry (ringEntry 2 2 0x10000 0x4000 0)) = some [] ∧
    firstIndex ((loading 2 false).takeHead.entryFails [] 2) [] = none ∧ ((loading 3 false).takeHead.model 2).st = .dormant := by
  decide +kernel
/-- Where nothing below 2^44 is stored, no ply has a directory entry. -/
theorem dirOf_empty {s : State} (h : NatMap.wfFrom 0 (2 ^ 44) s.mem = true) {q : Nat} (hq : q < 8192) : (s.dirOf q).valid = false := by
  unfold State.dirOf State.peek
  rw [Memory.bytes_low 64 h (by unfold dirAddr; omega)]
  decide +kernel
theorem test_hyps_RequestEffects_heap : ∃ a, (loading 2 false).takeHead.heapPlace = some a := by
  have d : (loading 2 false).takeHead.allocated = [] := by
    unfold State.allocated
    rw [List.filterMap_eq_nil_iff.mpr (fun q hq => by rw [dirOf_empty (by decide +kernel) (List.mem_range.mp hq)]; rfl)]
    decide +kernel
  have e : (loading 2 false).takeHead.canPlace (roundUpPage (loading 2 false).takeHead.allocLow) (2 ^ 30) = true := by
    unfold State.canPlace; rw [d]; decide +kernel
  simp only [State.heapPlace, State.freeStarts, d, List.map_nil]
  split
  · exact ⟨_, rfl⟩
  · exact ⟨_, List.find?_cons_of_pos e⟩

/-- The blocks of the security requests: a SEAL and a SESSION with OUT at 0x8000; a REKEY and a RETIRE of one epoch. -/
def sealing (kind : Nat) (b : List Byte) : State :=
  let s := requesting (ringEntry kind 255 0x4000 0 0) b
  { s with chouse := { s.chouse with
      session := { live := true, rekeys := if kind = 0x13 then 1 else 0, prevLive := kind == 0x13 }, sealFor := some 5 } }.setKey 1
    (some { ty := .x25519, bytes := leBytes 32 7 })
def sealBlock : List Byte := leBytes 32 9 ++ leBytes 32 0x8000
def sessionBlock : List Byte := leBytes 32 9 ++ leBytes 8 5 ++ leBytes 24 0x8000
theorem test_hyps_RequestEffects_seal :
    (let s := sealing 0x10 sealBlock;
      s.headEntry.isSome = true ∧ s.takeHead.blockAt 0x4000 = some sealBlock ∧ sealForm s.takeHead sealBlock = true ∧
        s.canonical = true) ∧
    (let s := sealing 0x11 sessionBlock;
      s.takeHead.blockAt 0x4000 = some sessionBlock ∧ sessionForm s.takeHead sessionBlock = true ∧
        s.keyIn 1 = some { ty := .x25519, bytes := leBytes 32 7 } ∧ s.chouse.sealFor = some (leAt sessionBlock 0x20 8)) ∧
    (let s := sealing 0x12 (leBytes 64 1);
      s.takeHead.blockAt 0x4000 = some (leBytes 64 1) ∧ restZero (leBytes 64 1) 1 = true ∧ s.chouse.session.prevLive = false ∧
        leAt (leBytes 64 1) 0 1 = (s.chouse.session.rekeys + 1).toNat % 4) ∧
    (let s := sealing 0x13 (leBytes 64 0);
      s.takeHead.blockAt 0x4000 = some (leBytes 64 0) ∧ s.chouse.session.previous = some 0 ∧
        leAt (leBytes 64 0) 0 1 ≠ s.chouse.session.current) := by decide +kernel
theorem test_hyps_RequestEffects_session : (x25519 (leBytes 32 7) (sessionBlock.take 32)).all (· == 0) = false := by
  rw [x25519_forced _ _ (2 ^ 254) 9 (by decide +kernel) (by decide +kernel)]
  decide +kernel

/-- Jobs without a model slot wait: a plain one, a counter request, and one whose slot's model is not resident. -/
def dispatching (j : Job) : State := { requesting jobEntry imageBytes with jobs := [j] }
def plainJob : Job := { slot := 3, arg0 := 0x4000, arg1 := 0x5000 }
theorem test_hyps_JobRows : (let s := dispatching plainJob;
      s.dispatches = true ∧ s.firstJob s.jobs [] = some plainJob ∧ s.dispatchFault plainJob = none ∧
        s.jobImage (s.claimed plainJob) = some imageBytes ∧ s.bindTable (s.claimed plainJob) = some [] ∧
        imageOk imageBytes (s.claimed plainJob).nbind = true) ∧
    (let s := dispatching { plainJob with counter := true };
      s.firstJob s.jobs [] = some { plainJob with counter := true }) ∧
    (let s := dispatching { plainJob with mslot := 4 };
      s.firstJob s.jobs [] = some { plainJob with mslot := 4 } ∧ s.dispatchFault { plainJob with mslot := 4 } = some JOB_MODEL) := by
  decide +kernel
/-- A job of core 0 is over; another has faulted. -/
def overJob : Job := { slot := 3, st := .running, cores := [(0, 0)] }
def jobOver : State := { served with jobs := [overJob], cores := served.cores.set 0 { job := some 3, seq := { ended := true } } }
def jobFaulted : State := { served with jobs := [overJob], cores := served.cores.set 0 { job := some 3, seq := { faulted := true } } }
theorem test_hyps_JobRows_ends : jobOver.jobOf 3 = some overJob ∧ jobOver.jobOver overJob = true ∧ jobOver.mgmt.waiting = none ∧
    ({ jobOver with assay := { jobOver.assay with en := false } } : State).assay.en = false ∧ jobFaulted.cores[0].seq.faulted = true ∧
    jobFaulted.cores[0].seq.reported = false ∧ jobFaulted.cores[0].drainedQueues = true ∧ jobFaulted.cores[0].job = some 3 ∧
    jobFaulted.jobOf 3 = some overJob ∧ served.boot = .service ∧ (1 : Fin 8).val ≠ served.shape.fabricId ∧
    (parseEntry jobEntry).bad = false ∧ (parseEntry jobEntry).kind = 1 ∧ served.jobOf (0x8000 + 0x1000 * 1 + 7) = none ∧
    imageOk imageBytes (parseEntry jobEntry).nbind = true := by decide +kernel

/-! ### Loads -/

/-- Manifests of one chunk: an empty one of a shard, and a column-scale chunk of one zero. -/
def chunkOf (shard : Nat) (good : Bool) : Manifest := { chunks := [{ shard := shard, digest := if good then sha512 [] else [] }] }
def scaleOf (n : Nat) : Manifest := { layers := [{}], chunks := [{ kind := 1, rows := 1, cols := n, length := 4 * n }] }
/-- A load of one chunk in the state given, of this device as the intake device or a holder. -/
def intake (m : Option Manifest) (c : ChunkState) (own : Bool) (check : List (Option Nat)) : State :=
  { hosted with
    load := some { manifest := m, chunks := [c], intake := own, toCheck := check }
    fabric := { hosted.fabric with members := hosted.fabric.members.set 1 (some (77, false)) } }
theorem test_hyps_IntakeRows :
    (let m := chunkOf 0 true; sha512 (({} : LoadReq).heap.bytes (m.chunk 0).offset (m.chunk 0).length) = (m.chunk 0).digest) ∧
    (let m := chunkOf 0 false; sha512 (({} : LoadReq).heap.bytes (m.chunk 0).offset (m.chunk 0).length) ≠ (m.chunk 0).digest) ∧
    ((intake (some (chunkOf 0 true)) {} true [some 0]).load.map (fun l => (l.toCheck, l.intake, l.admitted))) =
      some ([some 0], true, false) ∧
    ((intake none { overdue := true } true [none]).load.map (fun l =>
      ((l.chunks.getD 0 {}).overdue, (l.chunks.getD 0 {}).staged, l.manifestStaged))) = some (true, false, false) ∧
    (chunkOf 0 true).chunks.length = 1 ∧ ((chunkOf 0 true).chunk 0).shard = hosted.shape.fabricId ∧
    ((chunkOf 1 true).chunk 0).shard ≠ hosted.shape.fabricId ∧ hosted.boot = .service ∧
    (intake none {} true []).fabric.members[(1 : Fin 8)] = some (77, false) := by decide +kernel
theorem test_hyps_IntakeRows_convert :
    (let s := intake (some (scaleOf 0)) { verified := true } true [];
      s.load.all (fun l => s.mayConvert l (scaleOf 0) 0 0 && !l.chunkBad (scaleOf 0) ((scaleOf 0).chunk 0))) = true ∧
    (let s := intake (some (scaleOf 1)) { verified := true } true [];
      s.load.all (fun l => s.mayConvert l (scaleOf 1) 0 0 && l.chunkBad (scaleOf 1) ((scaleOf 1).chunk 0))) = true := by
  decide +kernel

/-- A load into slot 2 with ply 0 converted, at the point given; the slot owns ply 0 in a RESTORE and in a swap. -/
def filling (restore admitted barrier : Bool) (status : Nat) (map : List Placement) : State :=
  { hosted with
    load := some { mslot := 2, restore := restore, admitted := admitted, manifest := some {}, entries := [(0, {})], map := map
                   done := { status := status } }
    plies := if restore || barrier then [(0, { owner := some 2, written := true })] else []
    models := Vector.ofFn (fun m : Fin 16 => if m = 2 then { barrier := barrier } else {}) }
/-- The load of a state. -/
def loadOf (s : State) : LoadReq := s.load.getD {}
theorem test_hyps_LoaderRows :
    ([false, true].all (fun r => let s := filling r false false 0 [{}];
      (loadOf s).entries.find? (fun e => e.1 == 0) == some (0, {}) && s.mayProgram (loadOf s) 0)) = true ∧
    ([false, true].all (fun r => let s := filling r false false 0 [];
      s.chunksDone (loadOf s) {} && s.pliesDone (loadOf s) && (loadOf s).intake)) = true ∧
    (let s := filling false true false 0 []; (loadOf s).done.status = 0 ∧ (s.model 2).barrier = false) ∧
    (let s := filling false true true 0 []; (s.model 2).barrier = true ∧ s.slotBusy 2 = false ∧ s.swapPlies (loadOf s) {} = [(0, {})] ∧
      s.usable (plyCore 0) = true ∧ s.coreIdle (plyCore 0) = true ∧ s.progFree (plyCore 0) 1 = true ∧ s.capFree (plyCore 0) 1 = true) ∧
    (let s := filling false true true WL_PROG_FAIL [];
      (loadOf s).done.status ≠ 0 ∧ s.slotBusy 2 = false ∧ (loadOf s).old = [] ∧ (loadOf s).programmed = [] ∧ (loadOf s).intake = true) := by
  decide +kernel
/-- An UNLOAD of slot 2 waits, and device 1 is a member. -/
def unloading : State := { intake none {} true [] with
  load := none, models := Vector.ofFn (fun m : Fin 16 => if m = 2 then { unload := [{ slot := 4 }], gen := 9 } else {}) }
theorem test_hyps_LoaderRows_more : unloading.load = none ∧ (unloading.model 2).unload ≠ [] ∧ unloading.slotBusy 2 = false ∧
    unloading.boot = .service ∧ unloading.mgmt.waiting = none ∧
    (∀ p ∈ [BitVec.ofNat 64 (7 * 2 ^ 19)].map (fun w => parsePlacement w.toNat),
      unloading.entryFails ([BitVec.ofNat 64 (7 * 2 ^ 19)].map (fun w => parsePlacement w.toNat)) 3 p = false) := by decide +kernel

/-! ### SEC and the debug port -/

/-- House words of class 0xD, and house firmware with a result of 64 bytes in slot 0, one of 16 in slot 4, messages of 16, 32 and 64
bytes in slots 1 to 3, and a key of each type. -/
def secWord (op form tdd tda tdb tdc imm : Nat) : W128 := word 0xD op form tdd tda tdb tdc 0 (1 * 2 ^ 43 + 2 * 2 ^ 38 + 3 * 2 ^ 33 + imm)
def secTd (i : Nat) : TD :=
  [secure 0x8000 16 1 3, secure 0x4000 4 1 3, secure 0x5000 8 1 3, secure 0x6000 16 1 3, secure 0x9000 4 1 3].getD i {}
def aKey (ty : KeyType) : Key := { ty := ty, bytes := leBytes 32 9 }
def securing : State :=
  (((stored [slots atS ((List.range 5).map secTd)] served).setKey 1 (some (aKey .x25519))).setKey 2 (some (aKey .aes256))).setKey 6
    (some (aKey .hkdf)) |>.setKey 16 (some (aKey .ed25519))
theorem securing_slots : ∀ i, i < 5 → tdIn securing .house i = secTd i := by decide +kernel
theorem securing_names (i : Nat) (hi : i < 5) (dest : Bool) (h : namesOk securing .house i dest (secTd i) = true) :
    securing.Names .house i dest (secTd i) := names_of_ok (securing_slots i hi) h
theorem test_hyps_SecRows_words : ([secWord 0 0 0 0 0 0 3, secWord 0 1 0 1 0 0 3, secWord 0 2 0 0 0 0 3, secWord 1 0 0 1 0 0 16,
    secWord 2 0 0 1 2 3 0, secWord 3 0 0 2 0 0 0x601, secWord 4 0 0 1 2 0 0x206, secWord 4 1 0 1 2 0 6, secWord 5 0 4 1 2 3 2,
    secWord 5 1 4 1 2 3 2, secWord 6 0 0 0 0 0 2, secWord 6 1 0 0 0 0 0x201, secWord 6 2 0 0 0 0 1, secWord 6 3 0 2 0 0 1,
    secWord 7 0 0 0 0 0 0, secWord 8 0 0 0 0 0 0, secWord 8 1 0 0 0 0 0].all (takesOk securing .house)) = true ∧
    securing.canonical = true := by decide +kernel
theorem test_hyps_SecRows : securing.Names .house 0 true (secTd 0) ∧ securing.localSpan .house true (secTd 0).base 64 ∧
    securing.Names .house 1 false (secTd 1) ∧ securing.readableRuns .house (secTd 1) ∧
    securing.Names .house 2 false (secTd 2) ∧ securing.readableRuns .house (secTd 2) ∧
    securing.readableSpan .house (secTd 2).base 32 ∧ securing.Names .house 3 false (secTd 3) ∧
    securing.readableSpan .house (secTd 3).base 64 ∧ OneRow (secTd 0) ∧ OneRow (secTd 1) ∧ OneRow (secTd 4) ∧
    securing.Names .house 4 true (secTd 4) ∧ securing.localSpan .house true (secTd 4).base 16 ∧
    securing.Names .house 3 true (secTd 3) ∧ securing.localSpan .house true (secTd 3).base 16 :=
  ⟨securing_names 0 (by decide) true (by decide +kernel), local_of_ok (by decide +kernel),
    securing_names 1 (by decide) false (by decide +kernel), readableRuns_of_ok (by decide +kernel),
    securing_names 2 (by decide) false (by decide +kernel), readableRuns_of_ok (by decide +kernel),
    readable_of_ok (by decide +kernel) (by decide +kernel), securing_names 3 (by decide) false (by decide +kernel),
    readable_of_ok (by decide +kernel) (by decide +kernel), oneRow_of_ok (by decide +kernel), oneRow_of_ok (by decide +kernel),
    oneRow_of_ok (by decide +kernel), securing_names 4 (by decide) true (by decide +kernel), local_of_ok (by decide +kernel),
    securing_names 3 (by decide) true (by decide +kernel), local_of_ok (by decide +kernel)⟩
theorem test_hyps_SecRows_more : (List.range 5).all (fun i => tdEmpty (secTd i) == false) = true ∧
    securing.keyIn 1 = some (aKey .x25519) ∧ securing.keyIn 2 = some (aKey .aes256) ∧ securing.keyIn 6 = some (aKey .hkdf) ∧
    securing.keyIn 16 = some (aKey .ed25519) ∧ securing.keyIn 17 = none ∧ rowLen (secTd 1) = rowLen (secTd 4) ∧ rowLen (secTd 0) = 64 ∧
    (secTd 3).base % 2 ^ 48 + 16 ≤ (secTd 4).base % 2 ^ 48 ∧ securing.inSecure (secTd 0) = true ∧ securing.inSecure (secTd 2) = true ∧
    assignedType 1 = some .x25519 ∧ assignedType 2 = some .aes256 := by decide +kernel

/-- Debug is unlocked, and core 3 halted. -/
def unlocked : State := { served with
  chouse := { served.chouse with debug := .unlocked }, cores := served.cores.set 3 { seq := { halted := true } } }
theorem test_hyps_DebugRows : unlocked.chouse.debug = .unlocked ∧ (unlocked.seqr (.core 3)).halted = true ∧
    debugReaches 0x4000 8 = true ∧ debugReaches (3 * 2 ^ 44) 8 = false ∧ unlocked.canonical = true ∧
    served.chouse.debug ≠ .unlocked ∧ unlocked.readableSpan .house 0x4000 8 ∧ unlocked.localSpan .house true 0x4000 8 :=
  ⟨by decide +kernel, by decide +kernel, by decide +kernel, by decide +kernel, by decide +kernel, by decide +kernel,
    readable_of_ok (by decide +kernel) (by decide +kernel), local_of_ok (by decide +kernel)⟩

/-! ### Start-up, supplies and management -/

/-- PORST_N is low, with and without a rail out, with and without REFCLK; an internal reset; and the hardware phase with banks that
hold nothing. -/
def porst (out : List Rail) (ref : Bool) : State := { State.reset with
  boot := .porst, supply := { State.reset.supply with out := out }, refclk := { State.reset.refclk with present := ref } }
def inReset : State := { porst [.vddC] true with boot := .internalReset }
def noBank : State := { State.reset with chouse := { State.reset.chouse with banks := Vector.replicate 2 {} } }
theorem test_hyps_BootPhases : (porst [.vddC] true).supply.out ≠ [] ∧ (porst [] true).boot = .porst ∧ (porst [] true).supply.out = [] ∧
    (porst [] true).refclk.present = true ∧ (porst [] false).refclk.present = false ∧ inReset.boot = .internalReset ∧
    inReset.refclk.present = true ∧ noBank.boot = .hardware ∧ noBank.bankValid noBank.chouse.bank = false ∧
    noBank.bankValid (1 - noBank.chouse.bank) = false ∧ ({ State.reset with boot := .rom } : State).assay.badRecords = [] ∧
    ({ served with boot := .house } : State).mgmt.waiting = none ∧ ({ served with boot := .house } : State).chouse.scrub = none := by
  decide +kernel

/-- A scrub whose looms are done; a PROG of core 0 that integrates. -/
def scrubbing : State := { served with chouse := { served.chouse with scrub := some { mode := some true } } }
def pulsing : State := { served with cores := served.cores.set 0 { loomQ := [{ kind := .prog, phase := .integrating }] } }
theorem test_hyps_SupplyEvents : served.railCounts .vddW1 = true ∧ feedsWarehouse .vddW1 = true ∧ feedsWarehouse .vddC = false ∧
    served.railCounts .vddC = true ∧ served.boot ≠ .porst ∧ pulsing.cores.toList.any progIntegrates = true ∧
    served.cores.toList.any progIntegrates = false ∧ served.chouse.scrub = none ∧ served.chouse.conf = false ∧
    (porst [] true).boot = .porst ∧ served.portOn = true ∧ served.supply.vddIo = true ∧
    scrubbing.chouse.scrub = some { mode := some true } ∧ ({ mode := some true } : Scrub).looms = false ∧ scrubbing.jobs = [] ∧
    scrubbing.load = none ∧ scrubbing.power.inTrip = false ∧ scrubbing.mgmt.joined = [] := by decide +kernel

theorem test_hyps_I3cRows : served.i3cOn = true ∧ served.mgmt.daddr = none ∧ served.mgmt.response = none ∧
    ({ served with mgmt := { served.mgmt with response := some [1] } } : State).mgmt.response = some [1] ∧
    ({ served with supply := { served.supply with vddIo := false } } : State).i3cOn = false := by decide +kernel

/-- A request by its command and arguments, under counter 9, with the signature of the neutral key; and the machine with that key as
its principal. -/
def mgFrame (cmd : Nat) (args : List Byte) : List Byte :=
  leBytes 1 cmd ++ leBytes 1 0 ++ leBytes 2 args.length ++ leBytes 4 0 ++ leBytes 8 9 ++ args ++ (leBytes 32 1 ++ leBytes 32 0)
def managed (p : Option (List Byte)) : State := { served with chouse := { served.chouse with principal := p } }
def neutralKey : List Byte := leBytes 32 1
/-- What MgPasses asks for beside the signature. -/
def mgOk (s : State) (f : List Byte) : Bool :=
  !s.mgNacks f && s.frameOk f && (s.chouse.principal.isSome || leAt f 0 1 == 12 || leAt f 0 1 == 1) &&
    s.sigKey (mgReqOf f) == some neutralKey && f.drop (0x10 + (mgReqOf f).args.length) == leBytes 32 1 ++ leBytes 32 0 &&
    decide (s.mgmt.ctr < (mgReqOf f).ctr) && argsOk (s.boot == .recovery) (mgReqOf f).cmd (mgReqOf f).args
theorem mgPasses_of_ok {s : State} {f : List Byte} (h : mgOk s f = true) : s.MgPasses f := by
  simp only [mgOk, Bool.and_eq_true, Bool.or_eq_true, Bool.not_eq_true', beq_iff_eq, decide_eq_true_eq] at h
  obtain ⟨⟨⟨⟨⟨⟨a, b⟩, c⟩, k⟩, g⟩, n⟩, r⟩ := h
  refine ⟨a, b, ?_, ?_, n, r⟩
  · rcases c with (c | c) | c
    · exact .inl c
    · exact .inr (.inl c)
    · exact .inr (.inr c)
  · unfold State.sigOk
    rw [k, g]
    exact edVerify_neutral _
/-- A frame of every command. -/
def mgFrames : List (List Byte) :=
  [mgFrame 1 [], mgFrame 2 [], mgFrame 3 (leBytes 9 5), mgFrame 4 (leBytes 9 5), mgFrame 5 (leBytes 4 0), mgFrame 6 [1],
   mgFrame 7 (leBytes 2 0 ++ leBytes 2 1023 ++ leBytes 2 1023 ++ leBytes 2 511 ++ leBytes 3 0), mgFrame 8 (leBytes 8 1), mgFrame 9 [14],
   mgFrame 10 (leBytes 100 0), mgFrame 11 [0], mgFrame 11 [1], mgFrame 13 [0, 0]]
theorem test_hyps_MgRows : ∀ f ∈ mgFrames, (managed (some neutralKey)).MgPasses f := by
  have h : ∀ f ∈ mgFrames, mgOk (managed (some neutralKey)) f = true := by decide +kernel
  exact fun f hf => mgPasses_of_ok (h f hf)
theorem test_hyps_MgRows_provision : (managed none).MgPasses (mgFrame 12 neutralKey) ∧
    (managed none).chouse.principal = none := ⟨mgPasses_of_ok (by decide +kernel), by decide +kernel⟩
theorem test_hyps_MgRows_forms : leAt (mgFrame 3 (leBytes 9 5)) 0 1 = 3 ∧ lockForm (mgFrame 11 [1]) = true ∧
    (Instr.mgDebugUnlock (mgFrame 11 [0])).frameWf = true ∧ (Instr.mgDebugPermanentLock (mgFrame 11 [1])).frameWf = true ∧
    (Instr.mgFence (mgFrame 3 (leBytes 9 5))).frameWf = true ∧ (Instr.mgFence (mgFrame 4 (leBytes 9 5))).frameWf = false := by
  decide +kernel

/-! ### Links, fabric, reliability, power and counters -/

/-- Link 0 in the state given; device 1 is a member. -/
def linked (l : Link) : State := { served with fabric := { served.fabric with
  links := served.fabric.links.set 0 l, members := served.fabric.members.set 1 (some (77, false)) } }
theorem test_hyps_LinkRows : (linked {}).canTrain = true ∧ (linked {}).fabric.links[(0 : Fin 4)] = {} ∧
    ({} : Link).st = .down ∧ ({ failed := true } : Link).fenced = false ∧ ({ fenced := true } : Link).fences.length < 3 ∧
    (inWindow (linked { st := .train }).timeUs 60000000 ({} : Link).trainings).length < 15 ∧
    (linked { st := .auth }).fabricRuns = true ∧ (linked { st := .auth }).linksIdle = false ∧ (leBytes 32 5).length = 32 ∧
    (linked { st := .auth, mySealDigest := [1] }).sealAccepted 0 [] [] [] = false ∧ 2 ^ 48 ≤ ({ txCtr := 2 ^ 48 } : Link).txCtr := by
  decide +kernel

/-- A tag that passes, and one that does not. -/
theorem gcm_passes (k n h p : List Byte) : gcmOpen k n h p (gcmTag k n h p) = some (gcmText k n p) := if_pos rfl
theorem gcm_fails (k n h p : List Byte) (l : gcmTag k n h p ≠ []) : gcmOpen k n h p ((gcmTag k n h p).map (~~~ ·)) = none := by
  refine if_neg (fun e => ?_)
  cases g : gcmTag k n h p with
  | nil => exact l g
  | cons b t =>
    rw [g, List.map_cons] at e
    have e := congrArg (fun x : Byte => x.getLsbD 0) (List.cons.inj e).1
    simp at e
/-- Link 0 is UP under a key in slot 12. -/
def upLink : State := (linked { st := .up }).setKey 12 (some (aKey .aes256))
theorem test_hyps_FabricRows : upLink.fabricRuns = true ∧ upLink.linksIdle = false ∧ upLink.fabric.links[(0 : Fin 4)].st = .up ∧
    ({ upLink with fabric := { upLink.fabric with exchanging := true } } : State).fabric.exchanging = true ∧ upLink.fabric.held = [] ∧
    upLink.keyIn (12 + (0 : Fin 4).val) = some (aKey .aes256) ∧
    (inWindow upLink.timeUs 1000000 upLink.fabric.links[(0 : Fin 4)].discards).length < 1023 ∧
    upLink.fabric.members[(1 : Fin 8)] = some (77, false) ∧ (1 : Fin 8).val ≠ upLink.shape.fabricId ∧
    upLink.fabric.routes[(1 : Fin 8)].links &&& upLink.shape.linkMap = 0 := by decide +kernel
theorem test_hyps_FabricRows_frame : let k := (aKey .aes256).bytes; let n := leBytes 12 (upLink.fabric.links[(0 : Fin 4)].rxCtr + 1);
    let h := leBytes 16 3;
    (gcmTag k n h []).length = 16 ∧ ((gcmTag k n h []).map (~~~ ·)).length = 16 ∧
      gcmOpen k n h [] (gcmTag k n h []) = some (gcmText k n []) ∧ gcmOpen k n h [] ((gcmTag k n h []).map (~~~ ·)) = none := by
  have l : (gcmTag (aKey .aes256).bytes (leBytes 12 (upLink.fabric.links[(0 : Fin 4)].rxCtr + 1)) (leBytes 16 3) []).length = 16 := by
    decide +kernel
  exact ⟨l, by rw [List.length_map]; exact l, gcm_passes _ _ _ _, gcm_fails _ _ _ _ (fun e => by rw [e] at l; exact absurd l (by decide))⟩

/-- Slot 2 has lost core 7, whose plies move to core 9; a Ledger record is queued. -/
def remapping (dst : Option (Nat × Nat)) : State := { served with
  models := Vector.ofFn (fun m : Fin 16 => if m = 2 then { st := .resident, remaps := [7], remapTo := dst } else {})
  cores := served.cores.set 7 { fencedLogic := true }
  lgQueue := [List.replicate 32 1], lgBase := 0x10000 }
theorem test_hyps_ReliabilityRows : served.power.cur = 0 ∧ served.capFree 5 16 = true ∧ served.cores[5].fencedLogic = false ∧
    served.usable 5 = true ∧ served.coreIdle 5 = true ∧ served.mapped .house 0 0x4000 = true ∧
    served.mapped .house 1 0x4000 = true ∧ (3, 4) ∉ served.clusters[0].disabled ∧ served.clusters[0].disabled.length < 255 ∧
    ((remapping none).model 2).remaps.head? = some 7 ∧ ((remapping none).model 2).remapTo = none ∧
    ((remapping none).model 2).st = .resident ∧ (remapping none).chouse.scrub = none ∧ ((remapping none).model 2).pairs.length < 16 ∧
    ((remapping none).remapDest 2 7).isSome = true ∧ ((remapping (some (7, 9))).model 2).remapTo = some (7, 9) ∧
    (remapping (some (7, 9))).remapReady (coreIx 9) = true ∧ (remapping none).canonical = true ∧
    (remapping none).lgQueue = List.replicate 32 1 :: [] ∧ (remapping none).chouse.conf = false := by decide +kernel

theorem test_hyps_ClampedLimits : 16 ≤ served.fuses.actCapMax ∧ served.fuses.actCapMax < 512 ∧ 10 ≤ served.fuses.powerLimit ∧
    served.fuses.powerLimit < 1024 ∧ served.fuses.actCapMax ≤ (511 : W32).toNat % 512 ∧
    served.fuses.powerLimit ≤ (1023 * 1024 + 1023) / 1024 % 1024 ∧ (mgReqOf (mgFrames.getD 6 [])).cmd = 7 ∧
    served.fuses.actCapMax ≤ leAt (mgReqOf (mgFrames.getD 6 [])).args 6 2 ∧
    served.fuses.powerLimit ≤ leAt (mgReqOf (mgFrames.getD 6 [])).args 2 2 := by decide +kernel

/-- Power states: throttling, forced into G1, entering G3, waking, in TRIP at 50 degrees C, and in G2. -/
def powered (p : Power) : State := { served with
  power := p, monitor := { served.monitor with latest := served.monitor.latest.set 64 (some 0) } }
theorem test_hyps_PowerRows : (powered { throttling := true }).power.throttling = true ∧
    (powered { forceEn := true, forceState := 1 }).sleepReady 1 = true ∧ (powered { entering := some 3 }).mgmt.waiting = none ∧
    (powered { waking := true }).power.waking = true ∧ (∀ f ∈ (powered { waking := true }).port.frames, f.due = false) ∧
    (powered { inTrip := true }).tMax.any (fun x => decide (x < 100 * (95 : Int))) = true ∧ (powered { inTrip := true }).boot = .service ∧
    (powered { inTrip := true }).commitWaits = false ∧ 2 ≤ (powered { cur := 2 }).power.cur ∧
    (powered { cur := 2 }).power.inTrip = false ∧
    shortLimit served.fuses.powerLimit (creditStep (takeEstimate served.power 655350)) < 65535 := by decide +kernel

theorem test_hyps_CounterRows : ({ served with cores := served.cores.set 3 { pcAccess := true } } : State).cores[3].pcAccess = true ∧
    served.cores[3].pcAccess = false ∧ coreEventDefined 0x54 = false := by decide +kernel

end Sys2Proof.Tests
end

section
/-!
PROOF. Caps and ceilings stay within the fused limits (00.R4): what the writes of the power registers store, what the registers then
read as, and that SET_PROFILE ends in the same writes.
-/

namespace Sys2Proof.Machine

/-! ### The nearer limit of a range -/

theorem clampNat_of_hi_le {lo hi v : Nat} (l : lo ≤ hi) (h : hi ≤ v) : clampNat lo hi v = hi := by
  simp [clampNat, h, l]

theorem clampNat_le_hi {lo hi : Nat} (l : lo ≤ hi) (v : Nat) : clampNat lo hi v ≤ hi := max_le l (min_le_left hi v)

/-! ### The writes of the power registers -/

section

variable (s : State) (v : Nat)

/-- Everything that a write of CAP can change. -/
theorem State.writeCap_eq : ∃ ch, s.writeCap v = { s with
    power := { s.power with cap := clampNat 16 s.fuses.actCapMax v, capEff := min s.power.capEff (clampNat 16 s.fuses.actCapMax v) }
    shape := { s.shape with changes := ch } } := by
  simp only [State.writeCap]
  split
  · exact ⟨_, rfl⟩
  · exact ⟨s.shape.changes, rfl⟩

@[simp] theorem State.writeCap_cap : (s.writeCap v).power.cap = clampNat 16 s.fuses.actCapMax v := by
  obtain ⟨_, h⟩ := s.writeCap_eq v; rw [h]
@[simp] theorem State.writeCap_short : (s.writeCap v).power.short = s.power.short := by obtain ⟨_, h⟩ := s.writeCap_eq v; rw [h]
@[simp] theorem State.writeCap_sustain : (s.writeCap v).power.sustain = s.power.sustain := by
  obtain ⟨_, h⟩ := s.writeCap_eq v; rw [h]
@[simp] theorem State.writeCap_fuses : (s.writeCap v).fuses = s.fuses := by obtain ⟨_, h⟩ := s.writeCap_eq v; rw [h]
@[simp] theorem State.writeCap_mem : (s.writeCap v).mem = s.mem := by obtain ⟨_, h⟩ := s.writeCap_eq v; rw [h]

@[simp] theorem State.writeLimits_power (sustain short : Nat) : (s.writeLimits sustain short).power =
    { s.power with short := clampNat 10 s.fuses.powerLimit short
                   sustain := clampNat 10 (clampNat 10 s.fuses.powerLimit short) sustain } := rfl
@[simp] theorem State.writeLimits_fuses (sustain short : Nat) : (s.writeLimits sustain short).fuses = s.fuses := rfl

@[simp] theorem holdLevers_cap (p : Power) : (holdLevers p).cap = p.cap := by unfold holdLevers; split <;> rfl
@[simp] theorem holdLevers_short (p : Power) : (holdLevers p).short = p.short := by unfold holdLevers; split <;> rfl
@[simp] theorem holdLevers_sustain (p : Power) : (holdLevers p).sustain = p.sustain := by unfold holdLevers; split <;> rfl

@[simp] theorem State.writeWhCeil_cap : (s.writeWhCeil v).power.cap = s.power.cap := by simp [State.writeWhCeil]
@[simp] theorem State.writeWhCeil_short : (s.writeWhCeil v).power.short = s.power.short := by simp [State.writeWhCeil]
@[simp] theorem State.writeWhCeil_sustain : (s.writeWhCeil v).power.sustain = s.power.sustain := by simp [State.writeWhCeil]
@[simp] theorem State.writeWhCeil_fuses : (s.writeWhCeil v).fuses = s.fuses := rfl

@[simp] theorem State.writeProfile_fuses (g4En burstEn profileP : Bool) : (s.writeProfile g4En burstEn profileP).fuses = s.fuses := by
  cases profileP <;> simp [State.writeProfile]

theorem State.writeCeil_short : (s.writeCeil v).power.short = clampNat 10 s.fuses.powerLimit (bits v 10 10) := rfl
theorem State.writeCeil_sustain : (s.writeCeil v).power.sustain = clampNat 10 (s.writeCeil v).power.short (bits v 0 10) := rfl

end

/-! ### What PW_CAP and PW_CEIL read as -/

theorem State.pwWord_cap (s : State) (h : s.power.cap < 512) : s.pwWord 0x008 % 512 = s.power.cap := by
  change (s.power.capEff % 512 * 2 ^ 16 + s.power.cap % 512) % 512 = s.power.cap
  omega

theorem State.pwWord_short (s : State) (h : s.power.short < 1024) : s.pwWord 0x004 / 1024 % 1024 = s.power.short := by
  change (s.power.progBudget % 64 * 2 ^ 20 + s.power.short % 1024 * 2 ^ 10 + s.power.sustain % 1024) / 1024 % 1024 = s.power.short
  omega

theorem State.pwWord_sustain (s : State) (h : s.power.sustain < 1024) : s.pwWord 0x004 % 1024 = s.power.sustain := by
  change (s.power.progBudget % 64 * 2 ^ 20 + s.power.short % 1024 * 2 ^ 10 + s.power.sustain % 1024) % 1024 = s.power.sustain
  omega

/-! ### SET_PROFILE (18.R462) -/

section

variable (s : State)

@[simp] theorem State.respond_power (ctr cmd result : Nat) (data : List Byte) : (s.respond ctr cmd result data).power = s.power := rfl

/-- The levers as SET_PROFILE leaves them: the profile's values, and over them those given that are not 0. -/
def State.profileSet (s : State) (a : List Byte) : State :=
  let s := s.writeProfile (bit (leAt a 1 1) 1) (bit (leAt a 1 1) 0) (leAt a 0 1 == 1)
  let s := s.writeLimits (orKeep (leAt a 2 2) s.power.sustain) (orKeep (leAt a 4 2) s.power.short)
  let s := if leAt a 6 2 = 0 then s else s.writeCap (leAt a 6 2)
  let s := if leAt a 8 2 = 0 then s else s.writeWhCeil (leAt a 8 2)
  { s with power := { s.power with progBudget := if leAt a 10 1 = 0 then s.power.progBudget else clampNat 1 64 (leAt a 10 1) } }

/-- SET_PROFILE sets the levers, raises MGMT where one changed, and answers. -/
theorem State.mgProfile_eq (r : MgReq) : let t := s.profileSet r.args
    s.mgProfile r = (if t.power = s.power then t else t.raiseIrq IRQ_MGMT).respond r.ctr r.cmd 0
      (leBytes 4 (pwCeil t.power) ++ leBytes 4 (pwCap t.power) ++ leBytes 4 (pwWh t.power)) := rfl

theorem State.mgProfile_power (r : MgReq) : (s.mgProfile r).power = (s.profileSet r.args).power := by
  simp only [State.mgProfile_eq, State.respond_power, apply_ite State.power, State.raiseIrq_power, ite_self]

variable {a : List Byte}

theorem State.profileSet_cap (h : leAt a 6 2 ≠ 0) : (s.profileSet a).power.cap = clampNat 16 s.fuses.actCapMax (leAt a 6 2) := by
  by_cases w : leAt a 8 2 = 0 <;> simp [State.profileSet, h, w]

theorem State.profileSet_short (h : leAt a 4 2 ≠ 0) :
    (s.profileSet a).power.short = clampNat 10 s.fuses.powerLimit (leAt a 4 2) := by
  by_cases c : leAt a 6 2 = 0 <;> by_cases w : leAt a 8 2 = 0 <;> simp [State.profileSet, orKeep, h, c, w]

theorem State.profileSet_sustain (h : leAt a 2 2 ≠ 0) :
    (s.profileSet a).power.sustain = clampNat 10 (s.profileSet a).power.short (leAt a 2 2) := by
  by_cases c : leAt a 6 2 = 0 <;> by_cases w : leAt a 8 2 = 0 <;> simp [State.profileSet, orKeep, h, c, w]

end

/-! ### A request that passes its checks (18.R457 to R461) -/

section

variable {s : State} {f : List Byte}

/-- A wake event changes the power state only. -/
theorem State.wakeEvent_eq (s : State) (strong : Bool) : ∃ p, s.wakeEvent strong = { s with power := p } := by
  simp only [State.wakeEvent, State.startWake]
  split
  · exact ⟨_, rfl⟩
  · split <;> exact ⟨_, rfl⟩

@[simp] theorem State.wakeEvent_boot (s : State) (g : Bool) : (s.wakeEvent g).boot = s.boot := by
  obtain ⟨_, h⟩ := s.wakeEvent_eq g; rw [h]
@[simp] theorem State.wakeEvent_fuses (s : State) (g : Bool) : (s.wakeEvent g).fuses = s.fuses := by
  obtain ⟨_, h⟩ := s.wakeEvent_eq g; rw [h]
@[simp] theorem State.wakeEvent_chouse (s : State) (g : Bool) : (s.wakeEvent g).chouse = s.chouse := by
  obtain ⟨_, h⟩ := s.wakeEvent_eq g; rw [h]
@[simp] theorem State.wakeEvent_mgmt (s : State) (g : Bool) : (s.wakeEvent g).mgmt = s.mgmt := by
  obtain ⟨_, h⟩ := s.wakeEvent_eq g; rw [h]

/-- The state in which a request is checked: the write woke the device, and the old response is gone. -/
def State.mgWoken (s : State) : State :=
  ({ s with latch := { s.latch with nack := false }, mgmt := { s.mgmt with response := none } } : State).wakeEvent true

@[simp] theorem State.mgWoken_boot (s : State) : s.mgWoken.boot = s.boot := by simp [State.mgWoken]
@[simp] theorem State.mgWoken_chouse (s : State) : s.mgWoken.chouse = s.chouse := by simp [State.mgWoken]
@[simp] theorem State.mgWoken_mgmt (s : State) : s.mgWoken.mgmt = { s.mgmt with response := none } := by simp [State.mgWoken]

@[simp] theorem State.mgTaken_fuses (s : State) (f : List Byte) : (s.mgTaken f).fuses = s.fuses := by simp [State.mgTaken]
@[simp] theorem State.mgTaken_chouse (s : State) (f : List Byte) : (s.mgTaken f).chouse = s.chouse := by simp [State.mgTaken]

/-- A request that passes the checks after the frame's form executes, with its counter taken. -/
theorem State.mgChecked_of_passes {r : MgReq} (known : s.chouse.principal.isSome = true ∨ r.cmd = 12 ∨ r.cmd = 1)
    (signed : s.sigOk r f = true) (newer : s.mgmt.ctr < r.ctr) (args : argsOk (s.boot == .recovery) r.cmd r.args = true) :
    s.mgChecked r f = ({ s with mgmt := { s.mgmt with
      failRun := if (s.sigKey r).isSome then 0 else s.mgmt.failRun, ctr := r.ctr } } : State).mgExecute r := by
  have known : (s.chouse.principal.isNone && r.cmd != 12 && r.cmd != 1) = false := by
    rcases known with k | k | k
    · simp [Option.ne_none_iff_isSome.mpr k]
    · simp [k]
    · simp [k]
  by_cases k : (s.sigKey r).isSome = true <;> simp [State.mgChecked, known, signed, args, k, Nat.not_le.mpr newer]

/-- A request that passes every check executes in the state in which its write was taken. -/
theorem State.MgPasses.mgWrite_eq (h : s.MgPasses f) : s.mgWrite f = (s.mgTaken f).mgExecute (mgReqOf f) := by
  have form : s.mgWoken.frameOk f = true := by simpa [State.frameOk, State.cmdListed] using h.form
  have key : s.mgWoken.sigKey (mgReqOf f) = s.sigKey (mgReqOf f) := by simp [State.sigKey]
  have known : s.mgWoken.chouse.principal.isSome = true ∨ (mgReqOf f).cmd = 12 ∨ (mgReqOf f).cmd = 1 :=
    s.mgWoken_chouse ▸ h.known
  have signed : s.mgWoken.sigOk (mgReqOf f) f = true := by simpa [State.sigOk, key] using h.signed
  calc s.mgWrite f
    _ = if !s.mgWoken.frameOk f then s.mgWoken.respond (mgReqOf f).ctr (leAt f 0 1) MG_FRAME []
        else s.mgWoken.mgChecked (mgReqOf f) f := if_neg (by simp [h.taken])
    _ = s.mgWoken.mgChecked (mgReqOf f) f := if_neg (by simp [form])
    _ = (s.mgTaken f).mgExecute (mgReqOf f) := by
      rw [State.mgChecked_of_passes known signed (by simpa using h.newer) (by simpa using h.args), key]
      rfl

/-- While a scrub runs the port takes only the requests that join it. -/
theorem State.MgPasses.scrub_none (h : s.MgPasses f) (scrubs : leAt f 0 1 ≠ 5 ∧ leAt f 0 1 ≠ 6) : s.chouse.scrub = none := by
  obtain ⟨⟨⟨_, free⟩, _⟩, _⟩ : (((_ ∧ (s.mgBusy && !s.joins f) = false) ∧ _) ∧ _) := by
    simpa only [State.mgNacks, Bool.or_eq_false_iff] using h.taken
  have joins : s.joins f = false := by simp [State.joins, scrubs]
  have idle : s.mgBusy = false := by simpa [joins] using free
  obtain ⟨_, noScrub⟩ := Bool.or_eq_false_iff.mp idle
  simpa using noScrub

/-- A frame belongs to the row of its own CMD. -/
theorem frameIs_of_leAt {cmd : Nat} (h : leAt f 0 1 = cmd) : frameIs cmd f = true := by
  cases f with
  | nil => rfl
  | cons b f =>
    have head : b.toNat = cmd := by simpa [leAt, leNat] using h
    simp [frameIs, head]

theorem State.MgPasses.exec_mgSetProfile (h : s.MgPasses f) (c : (mgReqOf f).cmd = 7) :
    exec (.mgSetProfile f) s = .next ((s.mgTaken f).mgProfile (mgReqOf f)) := by
  have c' : leAt f 0 1 = 7 := c
  have idle := h.scrub_none (by omega)
  calc exec (.mgSetProfile f) s = s.manage (frameIs 7 f) f := rfl
    _ = .next ((s.mgTaken f).mgExecute (mgReqOf f)) := by simp [State.manage, frameIs_of_leAt c', h.mgWrite_eq]
    _ = .next ((s.mgTaken f).mgProfile (mgReqOf f)) := by simp [State.mgExecute, idle, c]

end

/-! ### The limits of the fuses -/

section

variable {s : State}

/-- A cap at the fused limit is what PW_CAP reads as. -/
theorem State.cap_reads {m : Nat} (l : m < 512) (h : s.power.cap = m) : s.power.cap = m ∧ s.pwWord 0x008 % 512 = m :=
  ⟨h, by rw [s.pwWord_cap (h ▸ l), h]⟩

/-- A SHORT at the fused limit is what PW_CEIL reads as. -/
theorem State.short_reads {m : Nat} (l : m < 1024) (h : s.power.short = m) : s.power.short = m ∧ s.pwWord 0x004 / 1024 % 1024 = m :=
  ⟨h, by rw [s.pwWord_short (h ▸ l), h]⟩

theorem State.pwCapWrite_clamps (lo : 16 ≤ s.fuses.actCapMax) (hi : s.fuses.actCapMax < 512) (v : W32)
    (above : s.fuses.actCapMax ≤ v.toNat % 512) : ∃ t, exec (.pwCapWrite v) s = .next t ∧ t.power.cap = s.fuses.actCapMax ∧
      t.pwWord 0x008 % 512 = s.fuses.actCapMax ∧ s.sameBytes t := by
  have cap : (s.writeCap (bits v.toNat 0 9)).power.cap = s.fuses.actCapMax := by
    rw [State.writeCap_cap, clampNat_of_hi_le lo (by simpa [bits] using above)]
  obtain ⟨cap, reads⟩ := State.cap_reads hi cap
  exact ⟨_, rfl, cap, reads, fun a => by rw [State.writeCap_mem]⟩

theorem State.writeCeil_clamps (lo : 10 ≤ s.fuses.powerLimit) (hi : s.fuses.powerLimit < 1024) (v : Nat)
    (above : s.fuses.powerLimit ≤ v / 1024 % 1024) : (s.writeCeil v).power.short = s.fuses.powerLimit ∧
      (s.writeCeil v).pwWord 0x004 / 1024 % 1024 = s.fuses.powerLimit ∧ (s.writeCeil v).power.sustain ≤ s.fuses.powerLimit ∧
      (s.fuses.powerLimit ≤ v % 1024 → (s.writeCeil v).pwWord 0x004 % 1024 = s.fuses.powerLimit) := by
  have short : (s.writeCeil v).power.short = s.fuses.powerLimit := by
    rw [State.writeCeil_short, clampNat_of_hi_le lo (by simpa [bits] using above)]
  have sustain : (s.writeCeil v).power.sustain = clampNat 10 s.fuses.powerLimit (bits v 0 10) := by
    rw [State.writeCeil_sustain, short]
  have le : (s.writeCeil v).power.sustain ≤ s.fuses.powerLimit := sustain ▸ clampNat_le_hi lo _
  obtain ⟨short, reads⟩ := State.short_reads hi short
  refine ⟨short, reads, le, fun aboveSustain => ?_⟩
  rw [State.pwWord_sustain _ (le.trans_lt hi), sustain, clampNat_of_hi_le lo (by simpa [bits] using aboveSustain)]

theorem State.mgProfile_clamps_cap (lo : 16 ≤ s.fuses.actCapMax) (hi : s.fuses.actCapMax < 512) (r : MgReq)
    (above : s.fuses.actCapMax ≤ leAt r.args 6 2) : (s.mgProfile r).power.cap = s.fuses.actCapMax ∧
      (s.mgProfile r).pwWord 0x008 % 512 = s.fuses.actCapMax :=
  State.cap_reads hi (by rw [s.mgProfile_power, s.profileSet_cap (by omega), clampNat_of_hi_le lo above])

theorem State.mgProfile_clamps_ceil (lo : 10 ≤ s.fuses.powerLimit) (hi : s.fuses.powerLimit < 1024) (r : MgReq)
    (above : s.fuses.powerLimit ≤ leAt r.args 4 2) : (s.mgProfile r).power.short = s.fuses.powerLimit ∧
      (s.mgProfile r).pwWord 0x004 / 1024 % 1024 = s.fuses.powerLimit ∧
      (s.fuses.powerLimit ≤ leAt r.args 2 2 → (s.mgProfile r).pwWord 0x004 % 1024 = s.fuses.powerLimit) := by
  have short : (s.mgProfile r).power.short = s.fuses.powerLimit := by
    rw [s.mgProfile_power, s.profileSet_short (by omega), clampNat_of_hi_le lo above]
  obtain ⟨short, reads⟩ := State.short_reads hi short
  refine ⟨short, reads, fun aboveSustain => ?_⟩
  have sustain : (s.mgProfile r).power.sustain = s.fuses.powerLimit := by
    rw [s.mgProfile_power, s.profileSet_sustain (by omega), ← s.mgProfile_power, short, clampNat_of_hi_le lo aboveSustain]
  rw [State.pwWord_sustain _ (sustain ▸ hi), sustain]

end

/-- Settles O58: the register writes clamp to the fused limits, and SET_PROFILE ends in the same writes. -/
theorem clampedLimits : Obligations.ClampedLimits := by
  intro s capLo capHi ceilLo ceilHi
  refine ⟨State.pwCapWrite_clamps capLo capHi, State.writeCeil_clamps ceilLo ceilHi, fun f passes c => ?_⟩
  have fuses := s.mgTaken_fuses f
  refine ⟨_, passes.exec_mgSetProfile c, fun above => ?_, fun above => ?_⟩
  · rw [← fuses] at capLo capHi above ⊢
    exact State.mgProfile_clamps_cap capLo capHi _ above
  · rw [← fuses] at ceilLo ceilHi above ⊢
    exact State.mgProfile_clamps_ceil ceilLo ceilHi _ above

end Sys2Proof.Machine
end

section
/-!
PROOF. What the completion of an instruction leaves of the sequencers, the stores and the sync counters (07.R210), with the WAITs
that it ends (07.R211).
-/

namespace Sys2Proof.Machine

/-! ### Changes of the books: counts, stream slots, QSTAT totals and the Ledger -/

/-- Every sequencer, every byte and every sync counter is as it was. -/
structure State.SameProgram (s t : State) : Prop where
  seqr : ∀ q, t.seqr q = s.seqr q
  mem : t.mem = s.mem
  clusters : t.clusters = s.clusters

section

variable {s t u : State}

theorem State.SameProgram.refl (s : State) : s.SameProgram s := ⟨fun _ => rfl, rfl, rfl⟩

theorem State.SameProgram.trans (h : s.SameProgram t) (k : t.SameProgram u) : s.SameProgram u :=
  ⟨fun q => (k.seqr q).trans (h.seqr q), k.mem.trans h.mem, k.clusters.trans h.clusters⟩

theorem State.SameProgram.updSeqr (h : s.SameProgram t) (q : SeqId) (f : Seqr → Seqr) :
    (s.updSeqr q f).SameProgram (t.updSeqr q f) := by
  refine ⟨fun p => ?_, by simp [h.mem], by simp [h.clusters]⟩
  by_cases e : p = q
  · subst e; simp [h.seqr]
  · simp [e, h.seqr]

theorem State.SameProgram.foldl {α : Type} {f : State → α → State} (h : ∀ (s : State) a, s.SameProgram (f s a)) (l : List α)
    (s : State) : s.SameProgram (l.foldl f s) := by
  induction l generalizing s with
  | nil => exact .refl s
  | cons a l ih => exact (h s a).trans (ih _)

theorem State.sameProgram_updCore (s : State) (c : Fin 64) {f : Core → Core} (h : ∀ k, (f k).seq = k.seq) :
    s.SameProgram (s.updCore c f) := by
  refine ⟨fun q => ?_, rfl, rfl⟩
  cases q with
  | house => rfl
  | core d =>
    by_cases e : d = c
    · subst e; simp [State.seqr, h]
    · simp [State.seqr, State.updCore_other s c f e]

theorem State.sameProgram_countSeq (s : State) (q : SeqId) (ev n : Nat) : s.SameProgram (s.countSeq q ev n) := by
  cases q with
  | house => exact .refl s
  | core c => exact State.sameProgram_updCore s c (f := fun k => { k with events := _ }) fun _ => rfl

theorem State.sameProgram_addTotals (s : State) (c : Fin 64) (ts : List (Nat × QTotals)) : s.SameProgram (s.addTotals c ts) := by
  refine State.SameProgram.foldl (fun s e => ?_) ts s
  dsimp only
  split
  · exact s.sameProgram_updCore c fun _ => rfl
  · refine State.SameProgram.trans ?_ (State.sameProgram_countSeq _ (.core c) _ _)
    exact s.sameProgram_updCore c fun _ => rfl

theorem State.sameProgram_ledger (s : State) (c : Fin 64) (e : QEntry) (flags : Nat) : s.SameProgram (s.ledger c e flags) := by
  have counted := s.sameProgram_updCore c (f := fun k => { k with retired := s.cores[c].retired + 1 }) fun _ => rfl
  unfold State.ledger
  split
  · exact .refl s
  · dsimp only
    split
    · split
      · exact counted.trans ⟨fun q => by cases q <;> rfl, rfl, rfl⟩
      · exact counted.trans ⟨fun q => by cases q <;> rfl, rfl, rfl⟩
    · exact counted

/-- Freeing and handing over stream slots leaves a core's sequencer. -/
theorem foldl_slots_seq {f : Core → Nat → Core} (h : ∀ k n, (f k n).seq = k.seq) (l : List Nat) (k : Core) :
    (l.foldl f k).seq = k.seq := by
  induction l generalizing k with
  | nil => rfl
  | cons n l ih => exact (ih _).trans (h k n)

end

/-! ### A completion (07.R210) -/

/-- A sequencer that instructions have completed on keeps everything but its sync buffer, its WAIT and SQ_FLAGS.SAT, which a DONE
increment that clamps sets (07.R215). -/
def Seqr.Kept (r t : Seqr) : Prop :=
  ∃ buf x fl, t = { r with syncBuf := buf, wait := x, flags := fl } ∧ ∀ f, f ≠ FLAG_SAT → fl.getLsbD f = r.flags.getLsbD f

theorem Seqr.Kept.refl (r : Seqr) : r.Kept r := ⟨_, _, _, rfl, fun _ _ => rfl⟩

theorem Seqr.Kept.trans {r t u : Seqr} (h : r.Kept t) (k : t.Kept u) : r.Kept u := by
  obtain ⟨_, _, _, rfl, same⟩ := h
  obtain ⟨_, _, _, rfl, same'⟩ := k
  exact ⟨_, _, _, rfl, fun f n => (same' f n).trans (same f n)⟩

/-- Instructions have completed: sequencers are kept, and no byte changed. -/
structure State.Kept (s t : State) : Prop where
  seqr : ∀ q, (s.seqr q).Kept (t.seqr q)
  mem : t.mem = s.mem

section

variable {s t u : State}

theorem State.Kept.refl (s : State) : s.Kept s := ⟨fun _ => .refl _, rfl⟩

theorem State.Kept.trans (h : s.Kept t) (k : t.Kept u) : s.Kept u :=
  ⟨fun q => (h.seqr q).trans (k.seqr q), k.mem.trans h.mem⟩

theorem State.SameProgram.kept (h : s.SameProgram t) : s.Kept t := ⟨fun q => h.seqr q ▸ .refl _, h.mem⟩

theorem State.kept_updSeqr (s : State) (q : SeqId) {f : Seqr → Seqr} (h : (s.seqr q).Kept (f (s.seqr q))) :
    s.Kept (s.updSeqr q f) := by
  refine ⟨fun p => ?_, by simp⟩
  by_cases e : p = q
  · subst e; simpa using h
  · simpa [e] using Seqr.Kept.refl _

end

/-- A flag replaced reads as its value, and every other flag as before. -/
theorem flagPut_getLsbD (f : BitVec 6) (b : Nat) (v : Bool) (i : Nat) :
    (flagPut f b v).getLsbD i = if i < 6 ∧ i = b then v else f.getLsbD i := by
  have mask : (BitVec.ofNat 6 (2 ^ b)).getLsbD i = decide (i < 6 ∧ i = b) := by
    rw [BitVec.getLsbD_ofNat, Nat.testBit_two_pow]
    simp [eq_comm]
  cases v
  · calc (flagPut f b false).getLsbD i
      _ = (f.getLsbD i && (decide (i < 6) && !decide (i < 6 ∧ i = b))) := by
        rw [← mask, ← BitVec.getLsbD_not, ← BitVec.getLsbD_and]; rfl
      _ = _ := by
        by_cases l : i < 6
        · simp [l, Bool.and_comm]
        · simp [l, BitVec.getLsbD_of_ge f i (Nat.le_of_not_lt l)]
  · calc (flagPut f b true).getLsbD i
      _ = (f.getLsbD i || decide (i < 6 ∧ i = b)) := by rw [← mask, ← BitVec.getLsbD_or]; rfl
      _ = _ := by simp [Bool.or_comm]

section

variable (s : State) (q : SeqId)

theorem State.putCounter_seqr (idx : Nat) (v : Counter) (p : SeqId) : (s.putCounter idx v).seqr p = s.seqr p := by cases p <;> rfl

theorem State.kept_putCounter (idx : Nat) (v : Counter) : s.Kept (s.putCounter idx v) :=
  ⟨fun p => s.putCounter_seqr idx v p ▸ .refl _, rfl⟩

/-- Setting SAT writes the flag and counts it (21.R509). -/
theorem State.setFlag_sat (s : State) (q : SeqId) :
    (s.updSeqr q (fun r => { r with flags := flagPut r.flags FLAG_SAT true })).SameProgram (s.setFlag q FLAG_SAT) :=
  State.sameProgram_countSeq _ q _ _

theorem State.kept_setFlag_sat (s : State) (q : SeqId) : s.Kept (s.setFlag q FLAG_SAT) :=
  (s.kept_updSeqr q ⟨_, _, _, rfl, fun f n => by simp [flagPut_getLsbD, n]⟩).trans (s.setFlag_sat q).kept

theorem State.setFlag_sat_seqr_other (s : State) {p : SeqId} (h : p ≠ q) : (s.setFlag q FLAG_SAT).seqr p = s.seqr p := by
  rw [(s.setFlag_sat q).seqr, State.seqr_updSeqr_other _ _ _ h]

theorem State.kept_applyCounter (idx : Nat) (v : Int) (t : Nat) : s.Kept (s.applyCounter q idx v t) := by
  unfold State.applyCounter
  dsimp only
  split
  · exact (s.kept_putCounter ..).trans (State.kept_setFlag_sat _ q)
  · exact s.kept_putCounter ..

theorem State.applyCounter_seqr_other (idx : Nat) (v : Int) (t : Nat) {p : SeqId} (h : p ≠ q) :
    (s.applyCounter q idx v t).seqr p = s.seqr p := by
  unfold State.applyCounter
  dsimp only
  split
  · rw [State.setFlag_sat_seqr_other q _ h, State.putCounter_seqr]
  · rw [State.putCounter_seqr]

variable (e : QEntry) (flags : Nat)

/-- The counts of a completing instruction (21.R508, R509). -/
def State.retireCounts : State :=
  let s := s.countSeq q EV_SLOT_RETIRED 1
  let s := (classEvent e.opcode).elim s (fun ev => s.countSeq q ev 1)
  if e.noop then s.countSeq q EV_NOOPS 1 else s

/-- What a completion changes before its DONE increment: counts, waits on it, its stream slots and its QSTAT totals. -/
def State.retireBooks : State :=
  let s := (s.retireCounts q e).updSeqr q (unwait [e.uid])
  match q with
  | .core c => (s.updCore c (fun k => e.hands.foldl handSlot (e.frees.foldl freeSlot k))).addTotals c e.totals
  | .house => s

/-- A DONE increment, where the instruction has one. -/
def State.retireDone : State := e.done.elim s (fun idx => s.applyCounter q idx 1 0)

theorem State.retire_core (c : Fin 64) :
    s.retire (.core c) e flags = ((s.retireBooks (.core c) e).retireDone (.core c) e).ledger c e flags := by
  unfold State.retire State.retireBooks State.retireCounts State.retireDone
  cases classEvent e.opcode <;> cases e.done <;> rfl

theorem State.retire_house : s.retire .house e flags = (s.retireBooks .house e).retireDone .house e := by
  unfold State.retire State.retireBooks State.retireCounts State.retireDone
  cases classEvent e.opcode <;> cases e.done <;> rfl

theorem State.sameProgram_retireCounts : s.SameProgram (s.retireCounts q e) := by
  have slot := s.sameProgram_countSeq q EV_SLOT_RETIRED 1
  have ofClass : s.SameProgram ((classEvent e.opcode).elim (s.countSeq q EV_SLOT_RETIRED 1)
      (fun ev => (s.countSeq q EV_SLOT_RETIRED 1).countSeq q ev 1)) := by
    cases classEvent e.opcode with
    | none => exact slot
    | some ev => exact slot.trans (State.sameProgram_countSeq ..)
  unfold State.retireCounts
  dsimp only
  split
  · exact ofClass.trans (State.sameProgram_countSeq ..)
  · exact ofClass

theorem State.sameProgram_retireBooks : (s.updSeqr q (unwait [e.uid])).SameProgram (s.retireBooks q e) := by
  have unwaited := (s.sameProgram_retireCounts q e).updSeqr q (unwait [e.uid])
  cases q with
  | house => exact unwaited
  | core c =>
    have slots (k : Core) : (e.hands.foldl handSlot (e.frees.foldl freeSlot k)).seq = k.seq :=
      (foldl_slots_seq (f := handSlot) (fun _ _ => rfl) _ _).trans (foldl_slots_seq (f := freeSlot) (fun _ _ => rfl) _ _)
    exact unwaited.trans ((State.sameProgram_updCore _ c slots).trans (State.sameProgram_addTotals _ c e.totals))

theorem State.sameProgram_retire : ((s.retireBooks q e).retireDone q e).SameProgram (s.retire q e flags) := by
  cases q with
  | house => exact s.retire_house e flags ▸ .refl _
  | core c => exact s.retire_core e flags c ▸ State.sameProgram_ledger ..

theorem State.kept_unwait (gone : List Nat) : s.Kept (s.updSeqr q (unwait gone)) :=
  s.kept_updSeqr q ⟨_, _, _, rfl, fun _ _ => rfl⟩

theorem State.kept_retireDone : s.Kept (s.retireDone q e) := by
  unfold State.retireDone
  cases e.done with
  | none => exact .refl s
  | some idx => exact s.kept_applyCounter q idx 1 0

theorem State.retireDone_seqr_other {p : SeqId} (h : p ≠ q) : (s.retireDone q e).seqr p = s.seqr p := by
  unfold State.retireDone
  cases e.done with
  | none => rfl
  | some idx => exact s.applyCounter_seqr_other q idx 1 0 h

theorem State.kept_retire : s.Kept (s.retire q e flags) :=
  (((s.kept_unwait q _).trans (s.sameProgram_retireBooks q e).kept).trans (State.kept_retireDone _ q e)).trans
    (s.sameProgram_retire q e flags).kept

/-- Without a DONE increment a completion ends waits on it, and changes no other part of a sequencer and no counter. -/
theorem State.retire_of_done_none (h : e.done = none) : (s.updSeqr q (unwait [e.uid])).SameProgram (s.retire q e flags) := by
  have after := s.sameProgram_retire q e flags
  rw [State.retireDone, h] at after
  exact (s.sameProgram_retireBooks q e).trans after

theorem State.retire_seqr_other {p : SeqId} (h : p ≠ q) : (s.retire q e flags).seqr p = s.seqr p := by
  rw [(s.sameProgram_retire q e flags).seqr, State.retireDone_seqr_other _ _ _ h, (s.sameProgram_retireBooks q e).seqr,
    State.seqr_updSeqr_other _ _ _ h]

end

/-! ### The WAITs that a completion ends (07.R211) -/

section

variable (s : State)

theorem State.kept_endWait (q : SeqId) : s.Kept (s.endWait q) := by
  unfold State.endWait
  split
  · exact (s.kept_updSeqr q ⟨_, _, _, rfl, fun _ _ => rfl⟩).trans (State.kept_retire ..)
  · exact .refl s

theorem State.endWait_seqr_other {p q : SeqId} (h : p ≠ q) : (s.endWait q).seqr p = s.seqr p := by
  unfold State.endWait
  split
  · rw [State.retire_seqr_other _ _ _ _ h, State.seqr_updSeqr_other _ _ _ h]
  · rfl

theorem State.waitOver_of_none {s : State} {q : SeqId} (h : (s.seqr q).wait = none) : s.waitOver q = false := by
  simp [State.waitOver, h]

/-- Ends of WAITs keep every sequencer, and leave one alone that is in no WAIT. -/
theorem State.settleN_keeps (n : Nat) : s.Kept (State.settleN n s) ∧
    ∀ p, (s.seqr p).wait = none → (State.settleN n s).seqr p = s.seqr p := by
  induction n generalizing s with
  | zero => exact ⟨.refl s, fun _ _ => rfl⟩
  | succ n ih =>
    unfold State.settleN
    split
    case h_2 => exact ⟨.refl s, fun _ _ => rfl⟩
    case h_1 q found =>
      obtain ⟨kept, alone⟩ := ih (s.endWait q)
      refine ⟨(s.kept_endWait q).trans kept, fun p idle => ?_⟩
      have ne : p ≠ q := by
        rintro rfl
        have due := List.find?_some found
        simp [State.waitOver_of_none idle] at due
      have same := s.endWait_seqr_other ne
      rw [alone p (by rw [same, idle]), same]

theorem State.kept_settle : s.Kept s.settle := (s.settleN_keeps 65).1

theorem State.settle_seqr_of_wait_none {q : SeqId} (h : (s.seqr q).wait = none) : s.settle.seqr q = s.seqr q :=
  (s.settleN_keeps 65).2 q h

theorem State.settle_of_no_wait (h : ∀ q, (s.seqr q).wait = none) : s.settle = s := by
  have idle : allSeqs.find? s.waitOver = none := by simp [State.waitOver_of_none (h _)]
  simp [State.settle, State.settleN, idle]

end

theorem State.kept_complete (s : State) (q : SeqId) (e : QEntry) (flags : Nat) : s.Kept (s.complete q e flags) :=
  (s.kept_retire q e flags).trans (State.kept_settle _)

end Sys2Proof.Machine
end

section
/-!
PROOF. The instructions that only write registers of their sequencer and complete at their decode (07.R208), in one rule, and by it
SEQ.SET (08.R227) and SYNC.READ (08.R231).
-/

namespace Sys2Proof.Machine

/-! ### Completion at decode -/

/-- The sequencer has taken a serial number for a new instruction. -/
def State.numbered (s : State) (q : SeqId) : State := s.updSeqr q (fun r => { r with nextUid := (s.seqr q).nextUid + 1 })

/-- The entry under which an instruction completes at its decode (07.R208). -/
def State.ownEntry (s : State) (q : SeqId) (w : W128) : QEntry :=
  { uid := (s.seqr q).nextUid + 1, pc := (s.seqr q).pc, opcode := wOpcode w, done := donesTo q w }

/-- The state in which an instruction has completed at its decode. -/
def State.completedNow (s : State) (q : SeqId) (w : W128) : State :=
  (s.numbered q).complete q (s.ownEntry q w) 0

theorem completeNow_run (q : SeqId) (w : W128) (s : State) : (completeNow q w).run s = .ok () (s.completedNow q w) := rfl

theorem now_run {q : SeqId} {w : W128} {body : ExecM Flow} {s t : State} {f : Flow} (h : body.run s = .ok f t) :
    (now q w body).run s = .ok f (t.completedNow q w) := by
  simp [now, h, completeNow_run]

/-- A word that the sequencer takes, and whose body goes on, changes the state as its body does. -/
theorem State.Takes.decode_next {s t : State} {q : SeqId} {w : W128} (h : s.Takes q w) {body : ExecM Flow}
    (run : body.run s = .ok .next t) : s.decode q w body = t.updSeqr q (fun r => r.advance (s.seqr q).pc .next) := by
  have steps : (decodeSteps q w body).run s = .ok .next t := by
    simp [decodeSteps, demand, h.inCode, h.listed, h.allowed, run]
  simp [State.decode, h.decodes, steps]

theorem State.Takes.wait_none {s : State} {q : SeqId} {w : W128} (h : s.Takes q w) : (s.seqr q).wait = none := by
  have decodes := h.decodes
  simp only [State.decodes, Seqr.decodes, Bool.and_eq_true, Option.isNone_iff_eq_none] at decodes
  obtain ⟨⟨⟨_, idle⟩, _⟩, _⟩ := decodes
  exact idle

/-- DONE_EN = 0 leaves an instruction without a DONE increment. -/
theorem donesTo_eq_none (q : SeqId) {w : W128} (h : wDoneEn w = false) : donesTo q w = none := by
  cases q with
  | core c => simp [donesTo, h]
  | house => rfl

section

variable (s : State) (q : SeqId) (w : W128)

theorem State.numbered_seqr : (s.numbered q).seqr q = { s.seqr q with nextUid := (s.seqr q).nextUid + 1 } :=
  State.seqr_updSeqr ..

theorem State.numbered_seqr_other {p : SeqId} (h : p ≠ q) : (s.numbered q).seqr p = s.seqr p := State.seqr_updSeqr_other _ _ _ h

/-- The state in which an instruction completes at its decode, before WAITs are looked at. -/
def State.retiredNow : State := (s.numbered q).retire q (s.ownEntry q w) 0

/-- Without a DONE counter, a completion at decode changes the sequencer's serial number and ends waits on it, and no other part
of a sequencer, no byte and no counter. -/
theorem State.sameProgram_retiredNow (done : wDoneEn w = false) :
    ((s.numbered q).updSeqr q (unwait [(s.ownEntry q w).uid])).SameProgram (s.retiredNow q w) :=
  State.retire_of_done_none _ q _ 0 (donesTo_eq_none q done)

theorem State.retiredNow_seqr (done : wDoneEn w = false) :
    (s.retiredNow q w).seqr q = unwait [(s.ownEntry q w).uid] ((s.numbered q).seqr q) := by
  rw [(s.sameProgram_retiredNow q w done).seqr, State.seqr_updSeqr]

theorem State.retiredNow_wait (done : wDoneEn w = false) (p : SeqId) : ((s.retiredNow q w).seqr p).wait = (s.seqr p).wait := by
  by_cases e : p = q
  · rw [e, s.retiredNow_seqr q w done, s.numbered_seqr]; rfl
  · rw [(s.sameProgram_retiredNow q w done).seqr, State.seqr_updSeqr_other _ _ _ e, s.numbered_seqr_other q e]

/-- A completion at decode leaves every sequencer's registers, index and loops, and every byte. -/
theorem State.kept_completedNow : (s.numbered q).Kept (s.completedNow q w) := State.kept_complete ..

/-- Without a DONE counter, a completion at decode leaves the flags of its sequencer, which is in no WAIT. -/
theorem State.completedNow_flags (done : wDoneEn w = false) (idle : (s.seqr q).wait = none) :
    ((s.completedNow q w).seqr q).flags = (s.seqr q).flags :=
  calc ((s.completedNow q w).seqr q).flags
    _ = ((s.retiredNow q w).seqr q).flags :=
      congrArg Seqr.flags (State.settle_seqr_of_wait_none _ ((s.retiredNow_wait q w done q).trans idle))
    _ = (s.seqr q).flags := by rw [s.retiredNow_seqr q w done, s.numbered_seqr]; rfl

/-- Without a DONE counter, a completion at decode changes no counter when no sequencer is in a WAIT. -/
theorem State.completedNow_clusters (done : wDoneEn w = false) (idle : ∀ p, (s.seqr p).wait = none) :
    (s.completedNow q w).clusters = s.clusters :=
  calc (s.completedNow q w).clusters
    _ = (s.retiredNow q w).clusters :=
      congrArg State.clusters (State.settle_of_no_wait _ fun p => (s.retiredNow_wait q w done p).trans (idle p))
    _ = s.clusters := by simp [(s.sameProgram_retiredNow q w done).clusters, State.numbered]

end

/-- What an instruction leaves that writes its sequencer's registers by `g`, completes at its decode and goes on: the registers
that `g` gives, the next index by the loop-end step, and everything else as the statements' frames say it. -/
structure State.Ran (s : State) (q : SeqId) (w : W128) (g : Seqr → Seqr) (t : State) : Prop where
  scalars : (t.seqr q).s = (g (s.seqr q)).s
  actuals : (t.seqr q).al = (g (s.seqr q)).al
  special : Seqr.sameSpecial (g (s.seqr q)) (t.seqr q)
  flag : ∀ f, f ≠ FLAG_SAT → (t.seqr q).flags.getLsbD f = (g (s.seqr q)).flags.getLsbD f
  flags : wDoneEn w = false → (t.seqr q).flags = (g (s.seqr q)).flags
  wentOn : Seqr.wentOn (s.seqr q) (t.seqr q)
  others : s.othersKeep t q
  bytes : s.sameBytes t
  clusters : wDoneEn w = false → (∀ p, (s.seqr p).wait = none) → t.clusters = s.clusters

/-- The one rule of the instructions that only write registers of their sequencer and complete at their decode (07.R208). -/
theorem State.Takes.ran {s : State} {q : SeqId} {w : W128} (h : s.Takes q w) {body : ExecM Flow} {g : Seqr → Seqr}
    (run : body.run s = .ok .next ((s.updSeqr q g).completedNow q w)) (wait : (g (s.seqr q)).wait = (s.seqr q).wait)
    (loops : (g (s.seqr q)).loops = (s.seqr q).loops) : s.Ran q w g (s.decode q w body) := by
  rw [h.decode_next run]
  have kept := (s.updSeqr q g).kept_completedNow q w
  obtain ⟨buf, x, fl, own, flag⟩ := kept.seqr q
  rw [State.numbered_seqr, State.seqr_updSeqr] at own flag
  have waits (p : SeqId) : ((s.updSeqr q g).seqr p).wait = (s.seqr p).wait := by
    by_cases e : p = q
    · rw [e, State.seqr_updSeqr, wait]
    · rw [State.seqr_updSeqr_other _ _ _ e]
  constructor
  case scalars | actuals => simp [Seqr.advance, own]
  case special => simp [Seqr.advance, own, Seqr.sameSpecial]
  case flag => simpa [Seqr.advance, own] using flag
  case wentOn => simp [Seqr.advance, own, Seqr.wentOn, loops]
  case flags =>
    intro done
    simpa [Seqr.advance] using (s.updSeqr q g).completedNow_flags q w done ((waits q).trans h.wait_none)
  case others =>
    intro p ne
    obtain ⟨_, _, _, other, _⟩ := kept.seqr p
    rw [State.numbered_seqr_other _ _ ne, State.seqr_updSeqr_other _ _ _ ne] at other
    simp [ne, other, Seqr.sameSpecial]
  case bytes =>
    intro a
    simp [kept.mem, State.numbered]
  case clusters =>
    intro done idle
    simp [(s.updSeqr q g).completedNow_clusters q w done fun p => (waits p).trans (idle p)]

/-- A row whose instruction only writes its sequencer's registers by `g`, completes at its decode and goes on. -/
theorem State.Takes.exec_ran {s : State} {q : SeqId} {w : W128} (h : s.Takes q w) {i : Instr} {body : ExecM Flow}
    (g : Seqr → Seqr) (ok : i.wordOk = true) (means : exec i s = s.instr i q w body)
    (run : body.run s = .ok .next ((s.updSeqr q g).completedNow q w)) (wait : (g (s.seqr q)).wait = (s.seqr q).wait)
    (loops : (g (s.seqr q)).loops = (s.seqr q).loops) : ∃ t, exec i s = .next t ∧ s.Ran q w g t :=
  ⟨_, means.trans ((State.instr_eq ..).1 ok), h.ran run wait loops⟩

/-! ### SEQ.SET (08.R227) -/

/-- IMM32 of a SEQ word as 64 bits is its sign extension. -/
theorem ofNat_seqImm (w : W128) : BitVec.ofNat 64 (seqImm w) = (BitVec.ofNat 32 (wordBits w 0 32)).signExtend 64 := by
  have toInt : (BitVec.ofNat 32 (wordBits w 0 32)).toInt = signed 32 (wordBits w 0 32) := by
    simp only [BitVec.toInt_eq_toNat_cond, BitVec.toNat_ofNat, signed]
    split <;> split <;> omega
  apply BitVec.eq_of_toNat_eq
  rw [BitVec.signExtend, toInt, BitVec.toNat_ofInt, BitVec.toNat_ofNat, seqImm, unsigned]
  omega

/-- COND of a comparison, as the orders of the words' values. -/
theorem seqCond_eq (c : Nat) (x y : W64) : seqCond c x y = (match c with
    | 0 => decide (x = y)
    | 1 => decide (x.toInt < y.toInt)
    | 2 => decide (x.toNat < y.toNat)
    | _ => decide (x.toInt ≤ y.toInt)) := by
  match c with
  | 0 | 1 | 2 | _ + 3 => rfl

section

variable {s : State} {q : SeqId} {w : W128} (h : s.Takes q w)
include h

/-- A SET with a destination. -/
theorem State.Takes.exec_setRD {i : Instr} {f : Seqr → Nat} {v : W64} (means : exec i s = s.instr i q w (setRD q w f))
    (value : BitVec.ofNat 64 (f (s.seqr q)) = v) (ok : i.wordOk = true) :
    ∃ t, exec i s = .next t ∧ (t.seqr q).s = updN (s.seqr q).s (wordBits w 43 5) (fun _ => v) ∧
      Seqr.wentOn (s.seqr q) (t.seqr q) ∧ Seqr.sameSpecial (s.seqr q) (t.seqr q) ∧ s.othersKeep t q ∧ s.sameBytes t ∧
      (wDoneEn w = false → (t.seqr q).flags = (s.seqr q).flags) := by
  obtain ⟨t, exec_eq, ran⟩ := h.exec_ran
    (fun r => { r with s := updN r.s (wordBits w 43 5) (fun _ => BitVec.ofNat 64 (f (s.seqr q))) }) ok means (now_run rfl) rfl rfl
  exact ⟨t, exec_eq, value ▸ ran.scalars, ran.wentOn, ran.special, ran.others, ran.bytes, ran.flags⟩

/-- A comparison: its body writes CMP with the outcome `v`. -/
theorem State.Takes.exec_writeCmp {i : Instr} {body : ExecM Flow} {v : Bool} (means : exec i s = s.instr i q w (now q w body))
    (run : body.run s = .ok .next (s.writeCmp q v)) (ok : i.wordOk = true) :
    ∃ t, exec i s = .next t ∧ (t.seqr q).flags.getLsbD FLAG_CMP = v ∧
      (wDoneEn w = false → ∀ f, f ≠ FLAG_CMP → (t.seqr q).flags.getLsbD f = (s.seqr q).flags.getLsbD f) ∧
      (t.seqr q).s = (s.seqr q).s ∧ Seqr.wentOn (s.seqr q) (t.seqr q) ∧ Seqr.sameSpecial (s.seqr q) (t.seqr q) ∧
      s.othersKeep t q ∧ s.sameBytes t := by
  obtain ⟨t, exec_eq, ran⟩ := h.exec_ran (fun r => { r with flags := flagPut r.flags FLAG_CMP v }) ok means (now_run run) rfl rfl
  refine ⟨t, exec_eq, ?_, fun done f ne => ?_, ran.scalars, ran.wentOn, ran.special, ran.others, ran.bytes⟩
  · rw [ran.flag FLAG_CMP (by decide), flagPut_getLsbD, if_pos ⟨by decide, rfl⟩]
  · rw [ran.flags done, flagPut_getLsbD, if_neg fun e => ne e.2]

end

/-- Settles O18: each form is a body that only writes registers of its sequencer, and completes at its decode. -/
theorem seqSetRules : Obligations.SeqSetRules := by
  intro q w s h r a b imm holds
  have value (v : W64) : BitVec.ofNat 64 v.toNat = v := by simp
  have immediate : BitVec.ofNat 64 (seqImm w) = imm := ofNat_seqImm w
  have compare (x y : W64) : seqCond (wFlags w % 4) x y = holds x y := seqCond_eq ..
  have signedly (x y u v : W64) : (if x.slt y then u else v) = if x.toInt < y.toInt then u else v := by simp [BitVec.slt]
  refine ⟨?_, ?_, fun ok => ?_⟩
  · simp only [List.forall_mem_cons]
    have movi := h.exec_setRD (i := .seqSetMovi q w) rfl immediate
    have add := h.exec_setRD (i := .seqSetAdd q w) rfl (value (a + b))
    have addi := h.exec_setRD (i := .seqSetAddi q w) rfl ((value _).trans (congrArg (a + ·) immediate))
    have sub := h.exec_setRD (i := .seqSetSub q w) rfl (value (a - b))
    have min := h.exec_setRD (i := .seqSetMin q w) rfl ((value _).trans (signedly b a b a))
    have max := h.exec_setRD (i := .seqSetMax q w) rfl ((value _).trans (signedly a b b a))
    have getal := h.exec_setRD (i := .seqSetGetal q w) rfl (BitVec.ofNat_toNat ..)
    exact ⟨movi, add, addi, sub, min, max, getal, by simp⟩
  · simp only [List.forall_mem_cons, ← compare, ← immediate]
    exact ⟨h.exec_writeCmp (i := .seqSetCmp q w) rfl rfl, h.exec_writeCmp (i := .seqSetCmpi q w) rfl rfl, by simp⟩
  · obtain ⟨t, exec_eq, ran⟩ := h.exec_ran (i := .seqSetSetal q w)
      (fun r => { r with al := updN r.al (wordBits w 0 3) (fun _ => (r.scalar (seqRA w)).setWidth 32) }) ok rfl (now_run rfl) rfl rfl
    obtain ⟨_, tdBase, fault0, fault1, faulted⟩ := ran.special
    exact ⟨t, exec_eq, ran.actuals, ran.scalars, tdBase, faulted, fault0, fault1, ran.flags, ran.wentOn, ran.others, ran.bytes⟩

/-! ### SYNC.READ (08.R231) -/

theorem demand_run {b : Bool} {code : Nat} {s : State} (h : b = true) : (demand b code).run s = .ok () s := by
  simp [demand, h]

/-- The index of a SYNC word, where it names a counter (07.R213). -/
theorem syncIndex_run {s : State} {q : SeqId} {w : W128} {ireg : Bool} {idx : Nat}
    (index : (if ireg then ((s.seqr q).scalar (wordBits w 32 5)).toNat % 2 ^ 16 else wordBits w 32 16) = idx)
    (named : s.syncIndexOk idx = true) : (syncIndex q w ireg).run s = .ok idx s := by
  cases ireg with
  | false =>
    have index : wordBits w 32 16 = idx := index
    simp [syncIndex, index, demand_run named]
  | true =>
    have index : ((s.seqr q).scalar (wordBits w 32 5)).toNat % 2 ^ 16 = idx := index
    simp [syncIndex, scalar, -Nat.reducePow, index, demand_run named]

/-- Settles O26: the body reads the counter, writes RD and completes, with no look at a queue. -/
theorem syncReadValue : Obligations.SyncReadValue := by
  intro q w s h ok r idx named
  have index : (syncIndex q w (wFlag w 8)).run s = .ok idx s := syncIndex_run rfl named
  obtain ⟨t, exec_eq, ran⟩ := h.exec_ran (i := .syncRead q w) (fun r => { r with
    s := updN r.s (wordBits w 0 5) fun _ => BitVec.ofNat 64 ((s.counterAt idx).value + (s.counterAt idx).epoch * 2 ^ 32) }) ok rfl
    (by simp [index, putScalar, change, completeNow_run]) rfl rfl
  exact ⟨t, exec_eq, ran.scalars, fun done => ⟨ran.flags done, ran.clusters done⟩, ran.wentOn, ran.special, ran.others, ran.bytes⟩

end Sys2Proof.Machine
end

section
/-!
PROOF. What every operation of the model keeps: the queue of commands, the fuses (00.R2, 08.R246) and the canonical form of the sparse
parts; and, but for the few that write them, the fabric's members and routes. `s₀.LeadsTo s` says that `s` may follow `s₀`; each
operation on states has one lemma, "where `s₀` leads to `s`, it leads to what the operation makes of `s`", and each execution of an
instruction one of `s₀.LeadsOn`. `s₀.Follows s` says the same without the members and routes.
-/

namespace Sys2Proof.Machine

-- The lemmas are elaborated one after another: side by side, their threads would need more memory than a check allows.
set_option Elab.async false

/-! ### The canonical form, part by part -/

/-- `State.canonical`, with its parts named. -/
structure State.Canon (s : State) : Prop where
  mem : s.mem.wf = true
  poison : NatMap.wf false s.poison = true
  written : NatMap.wf false s.written = true
  plies : NatMap.wf {} s.plies = true
  cells : NatMap.wf {} s.cells = true
  pkgEvents : NatMap.wf 0 s.pkgEvents = true
  assayPlies : NatMap.wf {} s.assay.plies = true
  stored : NatMap.wf ([], []) s.assay.stored = true
  counters : ∀ k ∈ s.clusters, NatMap.wf {} k.counters = true
  tallies : ∀ k ∈ s.clusters, NatMap.wf false k.tally.map = true
  events : ∀ k ∈ s.cores, NatMap.wf 0 k.events = true

theorem State.canonical_iff (s : State) : s.canonical = true ↔ s.Canon := by
  simp only [State.canonical, Bool.and_eq_true, List.all_eq_true, Vector.mem_toList_iff]
  constructor
  · rintro ⟨⟨⟨⟨⟨⟨⟨⟨⟨mem, poison⟩, written⟩, plies⟩, cells⟩, pkg⟩, assay⟩, stored⟩, clusters⟩, events⟩
    exact ⟨mem, poison, written, plies, cells, pkg, assay, stored, fun k m => (clusters k m).1, fun k m => (clusters k m).2, events⟩
  · rintro ⟨mem, poison, written, plies, cells, pkg, assay, stored, counters, tallies, events⟩
    exact ⟨⟨⟨⟨⟨⟨⟨⟨⟨mem, poison⟩, written⟩, plies⟩, cells⟩, pkg⟩, assay⟩, stored⟩, fun k m => ⟨counters k m, tallies k m⟩⟩, events⟩

/-! ### The relation -/

/-- What holds between a state and every state that a command makes of it. -/
structure State.Follows (s₀ s : State) : Prop where
  pending : s.pending = s₀.pending
  burns : s₀.fuses.burnsKept s.fuses
  made : s.fuses.made = s₀.fuses.made
  canon : s₀.Canon → s.Canon

/-- The fabric's members and routes. -/
def State.roster (s : State) := (s.fabric.members, s.fabric.routes)

/-- What holds between a state and every state that an operation makes of it, but for the few that write members or routes. -/
structure State.LeadsTo (s₀ s : State) : Prop extends s₀.Follows s where
  roster : s.roster = s₀.roster

theorem and_or_absorb {n : Nat} (x y : BitVec n) : x &&& (x ||| y) = x :=
  BitVec.eq_of_getElem_eq fun i hi => by
    rw [BitVec.getElem_and, BitVec.getElem_or]
    cases x[i] <;> rfl

theorem Fuses.burnsKept_refl (f : Fuses) : f.burnsKept f := ⟨BitVec.and_self, BitVec.and_self, id⟩

theorem State.LeadsTo.refl (s : State) : s.LeadsTo s := ⟨⟨rfl, s.fuses.burnsKept_refl, rfl, id⟩, rfl⟩

/-- The parts of the state that `LeadsTo` speaks of. -/
def State.vital (s : State) :=
  (s.pending, s.fuses, s.cores, s.clusters, s.mem, s.poison, s.written, s.plies, s.cells, s.pkgEvents, s.assay.plies, s.assay.stored,
    s.roster)

section

variable {s₀ s t : State}

/-- An operation that keeps the queue and the fuses, and the canonical form. -/
theorem State.LeadsTo.of_canon (h : s₀.LeadsTo s) (canon : s.Canon → t.Canon) (pending : t.pending = s.pending := by rfl)
    (fuses : t.fuses = s.fuses := by rfl) (roster : t.roster = s.roster := by rfl) : s₀.LeadsTo t :=
  ⟨⟨pending.trans h.pending, fuses ▸ h.burns, fuses ▸ h.made, fun c => canon (h.canon c)⟩, roster.trans h.roster⟩

/-- What follows a state that another leads to follows that one. -/
theorem State.Follows.leads (h : s₀.Follows s) (k : s.LeadsTo t) : s₀.Follows t := by
  obtain ⟨svn, revoke, off⟩ := h.burns
  obtain ⟨svn', revoke', off'⟩ := k.burns
  refine ⟨k.pending.trans h.pending, ⟨?_, ?_, off' ∘ off⟩, k.made.trans h.made, k.canon ∘ h.canon⟩
  · rw [← svn, BitVec.and_assoc, svn']
  · rw [← revoke, BitVec.and_assoc, revoke']

/-- A write of the fabric's record changes nothing that `Follows` speaks of. -/
theorem State.Follows.of_fabric {f : Fabric} (h : s₀.Follows s) : s₀.Follows { s with fabric := f } :=
  ⟨h.pending, h.burns, h.made, fun c => { h.canon c with }⟩

theorem State.Follows.ite {p : Prop} [Decidable p] (h : s₀.Follows s) (k : s₀.Follows t) : s₀.Follows (if p then s else t) := by
  split
  · exact h
  · exact k

/-- An operation that changes no vital part. -/
theorem State.LeadsTo.of_vital (h : s₀.LeadsTo s) (same : t.vital = s.vital) : s₀.LeadsTo t := by
  simp only [State.vital, Prod.mk.injEq] at same
  obtain ⟨pending, fuses, cores, clusters, mem, poison, written, plies, cells, pkg, assay, stored, roster⟩ := same
  refine h.of_canon (fun c => ?_) pending fuses roster
  constructor
  case mem => exact mem ▸ c.mem
  case poison => exact poison ▸ c.poison
  case written => exact written ▸ c.written
  case plies => exact plies ▸ c.plies
  case cells => exact cells ▸ c.cells
  case pkgEvents => exact pkg ▸ c.pkgEvents
  case assayPlies => exact assay ▸ c.assayPlies
  case stored => exact stored ▸ c.stored
  case counters => exact clusters ▸ c.counters
  case tallies => exact clusters ▸ c.tallies
  case events => exact cores ▸ c.events

theorem State.LeadsTo.ite {p : Prop} [Decidable p] (h : s₀.LeadsTo s) (k : s₀.LeadsTo t) : s₀.LeadsTo (if p then s else t) := by
  split
  · exact h
  · exact k

theorem State.LeadsTo.ite_snd {α : Type} {p : Prop} [Decidable p] {x y : α × State} (h : s₀.LeadsTo x.2) (k : s₀.LeadsTo y.2) :
    s₀.LeadsTo (if p then x else y).2 := by
  split
  · exact h
  · exact k

theorem State.LeadsTo.foldl {α : Type} {f : State → α → State} {l : List α} (step : ∀ {s a}, s₀.LeadsTo s → s₀.LeadsTo (f s a))
    (h : s₀.LeadsTo s) : s₀.LeadsTo (l.foldl f s) := by
  induction l generalizing s with
  | nil => exact h
  | cons a l ih => exact ih (step h)

/-! ### The vital parts, one at a time -/

theorem State.LeadsTo.of_cores {cores : Vector Core 64} (h : s₀.LeadsTo s)
    (events : (∀ k ∈ s.cores, NatMap.wf 0 k.events = true) → ∀ k ∈ cores, NatMap.wf 0 k.events = true) :
    s₀.LeadsTo { s with cores := cores } :=
  h.of_canon fun c => { c with events := events c.events }

theorem State.LeadsTo.of_clusters {clusters : Vector Cluster 8} (h : s₀.LeadsTo s)
    (sparse : (∀ k ∈ s.clusters, NatMap.wf {} k.counters = true ∧ NatMap.wf false k.tally.map = true) →
      ∀ k ∈ clusters, NatMap.wf {} k.counters = true ∧ NatMap.wf false k.tally.map = true) :
    s₀.LeadsTo { s with clusters := clusters } :=
  h.of_canon fun c =>
    have parts := sparse fun k m => ⟨c.counters k m, c.tallies k m⟩
    { c with counters := fun k m => (parts k m).1, tallies := fun k m => (parts k m).2 }

theorem State.LeadsTo.of_mem {mem : Memory} (h : s₀.LeadsTo s) (wf : s.mem.wf = true → mem.wf = true) :
    s₀.LeadsTo { s with mem := mem } := h.of_canon fun c => { c with mem := wf c.mem }

theorem State.LeadsTo.of_poison {poison : NatMap Bool} (h : s₀.LeadsTo s)
    (wf : NatMap.wf false s.poison = true → NatMap.wf false poison = true) : s₀.LeadsTo { s with poison := poison } :=
  h.of_canon fun c => { c with poison := wf c.poison }

theorem State.LeadsTo.of_written {written : NatMap Bool} (h : s₀.LeadsTo s)
    (wf : NatMap.wf false s.written = true → NatMap.wf false written = true) : s₀.LeadsTo { s with written := written } :=
  h.of_canon fun c => { c with written := wf c.written }

theorem State.LeadsTo.of_pkgEvents {events : NatMap Nat} (h : s₀.LeadsTo s)
    (wf : NatMap.wf 0 s.pkgEvents = true → NatMap.wf 0 events = true) : s₀.LeadsTo { s with pkgEvents := events } :=
  h.of_canon fun c => { c with pkgEvents := wf c.pkgEvents }

theorem State.LeadsTo.of_cells {cells : NatMap PlyCells} (h : s₀.LeadsTo s)
    (wf : NatMap.wf {} s.cells = true → NatMap.wf {} cells = true) : s₀.LeadsTo { s with cells := cells } :=
  h.of_canon fun c => { c with cells := wf c.cells }

theorem State.LeadsTo.of_stored {stored : NatMap (List Byte × List Byte)} (h : s₀.LeadsTo s)
    (wf : NatMap.wf ([], []) s.assay.stored = true → NatMap.wf ([], []) stored = true) :
    s₀.LeadsTo { s with assay := { s.assay with stored := stored } } := h.of_canon fun c => { c with stored := wf c.stored }

/-- An operation that changes the fuses: it keeps what is burned and what manufacture fused. -/
theorem State.LeadsTo.of_fuses {f : Fuses} (h : s₀.LeadsTo s) (burns : s.fuses.burnsKept f) (made : f.made = s.fuses.made) :
    s₀.LeadsTo { s with fuses := f } := by
  obtain ⟨svn, revoke, off⟩ := h.burns
  obtain ⟨svn', revoke', off'⟩ := burns
  refine ⟨⟨h.pending, ⟨?_, ?_, off' ∘ off⟩, made.trans h.made, fun c => { h.canon c with }⟩, h.roster⟩
  · rw [← svn, BitVec.and_assoc, svn']
  · rw [← revoke, BitVec.and_assoc, revoke']

theorem State.LeadsTo.updCore {c : Fin 64} {f : Core → Core} (h : s₀.LeadsTo s)
    (events : NatMap.wf 0 s.cores[c].events = true → NatMap.wf 0 (f s.cores[c]).events = true := by exact id) :
    s₀.LeadsTo (s.updCore c f) :=
  h.of_cores fun wf k m => (Vector.mem_or_eq_of_mem_set m).elim (wf k) fun e => e ▸ events (wf _ (Vector.getElem_mem c.isLt))

theorem State.LeadsTo.updCluster {k : Fin 8} {f : Cluster → Cluster} (h : s₀.LeadsTo s)
    (sparse : NatMap.wf {} s.clusters[k].counters = true ∧ NatMap.wf false s.clusters[k].tally.map = true →
      NatMap.wf {} (f s.clusters[k]).counters = true ∧ NatMap.wf false (f s.clusters[k]).tally.map = true := by exact id) :
    s₀.LeadsTo (s.updCluster k f) :=
  h.of_clusters fun wf u m => (Vector.mem_or_eq_of_mem_set m).elim (wf u) fun e => e ▸ sparse (wf _ (Vector.getElem_mem k.isLt))

/-! ### Parts that the relation does not speak of -/

theorem State.LeadsTo.of_port {p : Port} (h : s₀.LeadsTo s) : s₀.LeadsTo { s with port := p } := h.of_vital rfl

theorem State.LeadsTo.of_chouse {c : House} (h : s₀.LeadsTo s) : s₀.LeadsTo { s with chouse := c } := h.of_vital rfl

theorem State.LeadsTo.of_mgmt {m : Mgmt} (h : s₀.LeadsTo s) : s₀.LeadsTo { s with mgmt := m } := h.of_vital rfl

theorem State.LeadsTo.of_supply {v : Supply} (h : s₀.LeadsTo s) : s₀.LeadsTo { s with supply := v } := h.of_vital rfl

theorem State.LeadsTo.of_latch {l : Latch} (h : s₀.LeadsTo s) : s₀.LeadsTo { s with latch := l } := h.of_vital rfl

theorem State.LeadsTo.of_fresh {n : Nat} (h : s₀.LeadsTo s) : s₀.LeadsTo { s with fresh := n } := h.of_vital rfl

theorem State.LeadsTo.of_progWait {prog : List GrantReq} (h : s₀.LeadsTo s) : s₀.LeadsTo { s with progWait := prog } := h.of_vital rfl

theorem State.LeadsTo.of_waits {cap prog : List GrantReq} (h : s₀.LeadsTo s) :
    s₀.LeadsTo { s with capWait := cap, progWait := prog } := h.of_vital rfl

theorem foldl_events {α : Type} (f : Core → α → Core) (same : ∀ k n, (f k n).events = k.events) (l : List α) (k : Core) :
    (l.foldl f k).events = k.events := by
  induction l generalizing k with
  | nil => rfl
  | cons n l ih => exact (ih (f k n)).trans (same k n)

/-! ### Execution of an instruction -/

/-- The state that an execution ends in, by a result or by a fault. -/
def ExecM.after {α : Type} (m : ExecM α) (s : State) : State :=
  match m.run s with
  | .ok _ t => t
  | .error _ t => t

/-- From each state that `s₀` leads to, the execution ends in such a state. -/
def State.LeadsOn (s₀ : State) {α : Type} (m : ExecM α) : Prop := ∀ s, s₀.LeadsTo s → s₀.LeadsTo (m.after s)

namespace State.LeadsOn

variable {α β : Type} {m n : ExecM α} {f : α → ExecM β}

theorem ok {a : α} (k : s₀.LeadsOn m) (h : s₀.LeadsTo s) (run : m.run s = .ok a t) : s₀.LeadsTo t := by
  simpa only [ExecM.after, run] using k s h

theorem error {e : FaultInfo} (k : s₀.LeadsOn m) (h : s₀.LeadsTo s) (run : m.run s = .error e t) : s₀.LeadsTo t := by
  simpa only [ExecM.after, run] using k s h

theorem pure {a : α} : s₀.LeadsOn (Pure.pure a : ExecM α) := fun _ h => h

theorem throw {e : FaultInfo} : s₀.LeadsOn (MonadExcept.throw e : ExecM α) := fun _ h => h

theorem bind (k : s₀.LeadsOn m) (l : ∀ a, s₀.LeadsOn (f a)) : s₀.LeadsOn (m >>= f) := by
  intro s h
  simp only [ExecM.after, EStateM.run_bind]
  cases run : m.run s with
  | ok a t => exact l a t (k.ok h run)
  | error e t => exact k.error h run

/-- What follows a read of the state may rest on that state. -/
theorem getBind {g : State → ExecM β} (k : ∀ {s}, s₀.LeadsTo s → s₀.LeadsOn (g s)) : s₀.LeadsOn (get >>= g) :=
  fun s h => k h s h

theorem get : s₀.LeadsOn (MonadState.get : ExecM State) := fun _ h => h

theorem set {t : State} (h : s₀.LeadsTo t) : s₀.LeadsOn (MonadStateOf.set t : ExecM PUnit) := fun _ _ => h

theorem change {g : State → State} (k : ∀ {s}, s₀.LeadsTo s → s₀.LeadsTo (g s)) : s₀.LeadsOn (Machine.change g) := fun _ h => k h

theorem ite {p : Prop} [Decidable p] (k : s₀.LeadsOn m) (l : s₀.LeadsOn n) : s₀.LeadsOn (if p then m else n) := by
  split
  · exact k
  · exact l

/-- A step that is done only under a condition, and what follows it in either case. -/
theorem guard {p : Prop} [Decidable p] {m : ExecM PUnit} {f : PUnit → ExecM β} (k : s₀.LeadsOn m) (l : ∀ a, s₀.LeadsOn (f a)) :
    s₀.LeadsOn (if p then m >>= f else f PUnit.unit) := .ite (k.bind l) (l _)

/-- One of two steps, and what follows it in either case. -/
theorem iteBind {p : Prop} [Decidable p] (k : s₀.LeadsOn m) (l : s₀.LeadsOn n) (r : ∀ a, s₀.LeadsOn (f a)) :
    s₀.LeadsOn (if p then m >>= f else n >>= f) := .ite (k.bind r) (l.bind r)

theorem mapM {l : List α} (k : ∀ a, s₀.LeadsOn (f a)) : s₀.LeadsOn (l.mapM f) := by
  induction l with
  | nil => exact .pure
  | cons a l ih => rw [List.mapM_cons]; exact (k a).bind fun _ => ih.bind fun _ => .pure

end State.LeadsOn

/-- What a run of an instruction may answer: a state that may follow `s₀`, or, where the instruction is not well-formed, its refusal. -/
def State.Answers (s₀ : State) (wf : Bool) : Out → Prop
  | .next t => s₀.Follows t
  | .refused _ => wf = false
  | .fault _ => False

theorem State.Answers.of {wf : Bool} (h : s₀.LeadsTo s) : s₀.Answers wf (.next s) := h.toFollows

/-! ### The operations of the model, each after those it uses -/

theorem State.LeadsTo.draw (h : s₀.LeadsTo s) : s₀.LeadsTo s.draw.2 := h.of_vital rfl

theorem State.LeadsTo.pkgEvent {ev : Nat} (h : s₀.LeadsTo s) : s₀.LeadsTo (s.pkgEvent ev).2 := .ite_snd h.draw h

theorem State.LeadsTo.pkgPcWord {off : Nat} (h : s₀.LeadsTo s) : s₀.LeadsTo (s.pkgPcWord off).2 :=
  .ite_snd (.ite_snd h.pkgEvent h) h

theorem State.LeadsTo.clearStatus (h : s₀.LeadsTo s) : s₀.LeadsTo s.clearStatus := .ite h (h.of_vital rfl)

theorem State.LeadsTo.pkgWord {off : Nat} (h : s₀.LeadsTo s) : s₀.LeadsTo (s.pkgWord off).2 := by
  unfold State.pkgWord
  split
  · exact .ite h.clearStatus h
  · exact .ite (h.of_vital rfl) h
  · exact .ite (h.of_vital rfl) (.ite (h.of_vital rfl) h)
  · exact .ite (h.of_vital rfl) h
  · exact .ite (h.of_vital rfl) (.ite (h.of_vital rfl) h)
  · exact .ite (h.of_vital rfl) h
  · exact h.pkgPcWord
  · exact h

theorem State.LeadsTo.coreEvent {c : Fin 64} {ev : Nat} (h : s₀.LeadsTo s) : s₀.LeadsTo (s.coreEvent c ev).2 := .ite_snd h.draw h

theorem State.LeadsTo.sampleCore {c : Fin 64} {ev : Nat} (h : s₀.LeadsTo s) : s₀.LeadsTo (s.sampleCore c ev).2.2 := by
  have sampled : s₀.LeadsTo (s.coreEvent c ev).2 := h.coreEvent
  unfold State.sampleCore
  generalize s.coreEvent c ev = r at sampled
  obtain ⟨v, t⟩ := r
  dsimp only at sampled ⊢
  split
  · split
    · exact h
    · dsimp only
      exact sampled.updCore
  · dsimp only
    exact sampled.updCore

theorem State.LeadsTo.pcData {c : Fin 64} (h : s₀.LeadsTo s) : s₀.LeadsTo (s.pcData c).2 := .ite_snd h h.sampleCore

theorem State.LeadsTo.pcWord {c : Fin 64} {off : Nat} (h : s₀.LeadsTo s) : s₀.LeadsTo (s.pcWord c off).2 :=
  .ite_snd h (.ite_snd h.pcData (.ite_snd h h))

theorem State.LeadsTo.coreWord {c : Fin 64} {off : Nat} (h : s₀.LeadsTo s) : s₀.LeadsTo (s.coreWord c off).2 :=
  .ite_snd h (.ite_snd h h.pcWord)

theorem State.LeadsTo.regWord {region off : Nat} (h : s₀.LeadsTo s) : s₀.LeadsTo (s.regWord region off).2 := by
  unfold State.regWord
  split
  · exact h.coreWord
  · exact h
  · exact h.pkgWord
  · exact h

theorem State.LeadsTo.samplePair {region off : Nat} (h : s₀.LeadsTo s) : s₀.LeadsTo (s.samplePair region off).2 :=
  .ite_snd h.pcData (.ite_snd h.pkgEvent h)

theorem State.LeadsTo.regWords {region : Nat} : ∀ {n off : Nat} {s : State}, s₀.LeadsTo s → s₀.LeadsTo (s.regWords region off n).2
  | 0, _, _, h => h
  | 1, _, _, h => h.regWord
  | _ + 2, _, _, h => .ite_snd (State.LeadsTo.regWords h.samplePair) (State.LeadsTo.regWords h.regWord)

theorem State.LeadsOn.fail {α : Type} {code unit : Nat} {detail : Option Nat} : s₀.LeadsOn (fail code unit detail : ExecM α) := .throw

theorem State.LeadsOn.takeAnswer {q : SeqId} {unit n2 n : Nat} : s₀.LeadsOn (takeAnswer q unit n2 n) :=
  .getBind fun h1 => by
    split
    · exact .bind (.set (h1.of_vital rfl)) fun _ => .ite .pure .fail
    · exact .throw

theorem State.LeadsOn.fetch {q : SeqId} {unit n2 n : Nat} : s₀.LeadsOn (fetch q unit n2 n) :=
  .getBind fun h1 => .ite .takeAnswer (.ite (.bind (.set h1.regWords) fun _ => .pure) (.ite .fail (.ite (.bind (.set h1.draw) fun _ =>
    .pure) .pure)))

theorem State.LeadsTo.cacheRead {k : Fin 8} {g : Nat} (h : s₀.LeadsTo s) : s₀.LeadsTo (s.cacheRead k g).2 := by
  unfold State.cacheRead
  extract_lets n l
  split
  · dsimp only
    exact h.updCluster
  · dsimp only
    exact State.LeadsTo.updCluster h.draw

theorem State.LeadsTo.count {c : Fin 64} {ev n : Nat} (h : s₀.LeadsTo s) : s₀.LeadsTo (s.count c ev n) :=
  h.updCore fun wf => NatMap.update_wf _ _ ev (fun v => wrap48 (v + n)) wf

theorem State.LeadsOn.readCached {q : SeqId} {n1 : Nat} : s₀.LeadsOn (readCached q n1) :=
  .getBind fun h1 => by
    split
    · exact .ite (.set h1.cacheRead.count) .pure
    · exact .pure

theorem State.LeadsTo.countSeq {q : SeqId} {ev n : Nat} (h : s₀.LeadsTo s) : s₀.LeadsTo (s.countSeq q ev n) := by
  unfold State.countSeq
  split
  · exact h.count
  · exact h

theorem State.LeadsOn.countGranule {q : SeqId} {unit n2 : Nat} {write : Bool} : s₀.LeadsOn (countGranule q unit n2 write) :=
  .guard .readCached fun _ => .guard (.change fun h => h.countSeq) fun _ => by
    split
    · exact .change fun h => h.count
    · exact .pure

theorem State.LeadsOn.checkAccess {q : SeqId} {unit n2 : Nat} {write : Bool} : s₀.LeadsOn (checkAccess q unit n2 write) :=
  .getBind fun _ => by
    split
    · exact .fail
    · exact .countGranule

theorem State.LeadsOn.readParts {q : SeqId} {unit n2 n3 n4 : Nat} : s₀.LeadsOn (readParts q unit n2 n3 n4) := by
  induction n2 generalizing n3 n4 with
  | zero => exact .pure
  | succ _ ih => exact .ite .pure (.bind .checkAccess fun _ => .bind .fetch fun _ => .bind ih fun _ => .pure)

theorem State.LeadsOn.readMem {q : SeqId} {unit n2 n : Nat} : s₀.LeadsOn (readMem q unit n2 n) := .readParts

theorem State.LeadsOn.readCandidates {q : SeqId} {t : TD} {l : List Nat} : s₀.LeadsOn (readCandidates q t l) := by
  induction l with
  | nil => exact .pure
  | cons _ _ ih => exact .bind .readMem fun _ => .bind ih fun _ => .pure

theorem State.LeadsTo.updSeqr {q : SeqId} {f : Seqr → Seqr} (h : s₀.LeadsTo s) : s₀.LeadsTo (s.updSeqr q f) := by
  unfold State.updSeqr
  split
  · exact h.updCore
  · exact h.of_vital rfl

theorem State.LeadsTo.discard {q : SeqId} (h : s₀.LeadsTo s) : s₀.LeadsTo (s.discard q) := by
  unfold State.discard
  extract_lets gone moves s1 s2 port s3
  have left : s₀.LeadsTo s3 := .of_vital (s := s2) h.countSeq.updSeqr rfl
  cases q with
  | core c => exact .of_waits (.updCore (s := s3) left)
  | house => exact left

theorem State.LeadsTo.stopCore {c : Fin 64} (h : s₀.LeadsTo s) : s₀.LeadsTo (s.stopCore c) := by
  unfold State.stopCore
  exact .discard h.updCore

theorem State.LeadsTo.stopCores {j : Job} {except : List Nat} (h : s₀.LeadsTo s) : s₀.LeadsTo (s.stopCores j except) :=
  .foldl (fun h1 => .ite h1 h1.stopCore) h

theorem State.LeadsTo.updJob {slot : Nat} {f : Job → Job} (h : s₀.LeadsTo s) : s₀.LeadsTo (s.updJob slot f) :=
  h.of_vital rfl

theorem State.LeadsTo.strike {c : Fin 64} (h : s₀.LeadsTo s) : s₀.LeadsTo (s.strike c) := by
  unfold State.strike
  split
  · exact h
  · exact h.updJob.stopCores

theorem State.LeadsTo.updModel {m : Nat} {f : Model → Model} (h : s₀.LeadsTo s) : s₀.LeadsTo (s.updModel m f) :=
  h.of_vital rfl

theorem State.LeadsTo.finishReq {c : Completion} (h : s₀.LeadsTo s) : s₀.LeadsTo (s.finishReq c) :=
  h.of_vital rfl

theorem State.LeadsTo.countPkg {ev n : Nat} (h : s₀.LeadsTo s) : s₀.LeadsTo (s.countPkg ev n) :=
  h.of_pkgEvents (NatMap.update_wf 0 _ ev _)

theorem State.LeadsTo.cacheDrop {key n : Nat} (h : s₀.LeadsTo s) : s₀.LeadsTo (s.cacheDrop key n) :=
  h.of_clusters fun wf k m => by
    obtain ⟨u, mem, rfl⟩ := Vector.mem_map.mp m
    exact wf u mem

theorem State.LeadsTo.warehouseWrite {key n : Nat} (h : s₀.LeadsTo s) : s₀.LeadsTo (s.warehouseWrite key n) :=
  .ite (.foldl (fun h1 => h1.countPkg) h.cacheDrop) h

theorem foldl_put_wf {α : Type} [DecidableEq α] (d v : α) (l : List Nat) {m : NatMap α} (h : NatMap.wf d m = true) :
    NatMap.wf d (l.foldl (fun w i => NatMap.put d w i v) m) = true := by
  induction l generalizing m with
  | nil => exact h
  | cons i l ih => exact ih (NatMap.put_wf d m i v h)

theorem State.LeadsTo.markWritten {key n : Nat} (h : s₀.LeadsTo s) : s₀.LeadsTo (s.markWritten key n) :=
  .of_written (h.of_poison (NatMap.keep_wf false _ _)) (foldl_put_wf false true _)

theorem State.LeadsTo.poke {key : Nat} {bs : List Byte} (h : s₀.LeadsTo s) : s₀.LeadsTo (s.poke key bs) :=
  .of_poison (.markWritten (.warehouseWrite (h.of_mem (Memory.write_wf bs _ key)))) (NatMap.keep_wf false _ _)

theorem State.LeadsTo.putDir {q : Nat} {d : DirEntry} (h : s₀.LeadsTo s) : s₀.LeadsTo (s.putDir q d) := h.poke

theorem State.LeadsTo.dropDir {q : Nat} (h : s₀.LeadsTo s) : s₀.LeadsTo (s.dropDir q) := h.putDir

theorem State.LeadsTo.closeLoad {status d2 : Nat} (h : s₀.LeadsTo s) : s₀.LeadsTo (s.closeLoad status d2) := by
  unfold State.closeLoad
  split
  · exact h
  · exact .ite (.finishReq (.of_vital (.ite h (.foldl (fun h1 => h1.dropDir) h)) rfl))
      (.of_vital (.ite h (.foldl (fun h1 => h1.dropDir) h)) rfl)

theorem State.LeadsTo.updLoad {f : LoadReq → LoadReq} (h : s₀.LeadsTo s) : s₀.LeadsTo (s.updLoad f) :=
  h.of_vital rfl

theorem State.LeadsTo.enterModel {l : LoadReq} {m : Manifest} (h : s₀.LeadsTo s) : s₀.LeadsTo (s.enterModel l m) :=
  h.updModel

theorem State.LeadsTo.storeLocal {q : SeqId} {key : Nat} {bs : List Byte} (h : s₀.LeadsTo s) : s₀.LeadsTo (s.storeLocal q key bs) := by
  unfold State.storeLocal
  split
  · exact h.poke.updCluster
  · exact h.poke

theorem State.LeadsTo.updLink {n : Nat} {f : Link → Link} (h : s₀.LeadsTo s) : s₀.LeadsTo (s.updLink n f) :=
  h.of_vital rfl

theorem State.LeadsTo.sendOn {n : Nat} {f : StitchFrame} (h : s₀.LeadsTo s) : s₀.LeadsTo (s.sendOn n f) :=
  .ite h.updLink.countPkg h.updLink

theorem State.LeadsTo.sendFrame {dest addr : Nat} {f : StitchFrame} (h : s₀.LeadsTo s) : s₀.LeadsTo (s.sendFrame dest addr f) := by
  unfold State.sendFrame
  split
  · exact h.sendOn
  · exact h.of_vital rfl

theorem State.LeadsTo.request {q : SeqId} {kind addr len : Nat} {payload : List Byte} (h : s₀.LeadsTo s) :
    s₀.LeadsTo (s.request q kind addr len payload) :=
  .sendFrame (h.of_vital rfl)

theorem State.LeadsTo.scheduleFull {q : Nat} (h : s₀.LeadsTo s) : s₀.LeadsTo (s.scheduleFull q) := .ite h h.updCore

theorem State.LeadsTo.updAssay {q : Nat} {f : AssayPly → AssayPly} (h : s₀.LeadsTo s) : s₀.LeadsTo (s.updAssay q f) :=
  h.of_canon fun c => { c with assayPlies := NatMap.update_wf {} _ q f c.assayPlies }

theorem State.LeadsTo.startWake (h : s₀.LeadsTo s) : s₀.LeadsTo s.startWake := .ite h (h.of_vital rfl)

theorem State.LeadsTo.wakeEvent {strong : Bool} (h : s₀.LeadsTo s) : s₀.LeadsTo (s.wakeEvent strong) :=
  .ite (h.of_vital rfl) (.startWake (h.of_vital rfl))

theorem State.LeadsTo.trigger {q : Nat} {full : Bool} (h : s₀.LeadsTo s) : s₀.LeadsTo (s.trigger q full) :=
  .ite h (.ite (.ite h (h.of_vital rfl)) (.ite h.wakeEvent.updAssay.scheduleFull h.wakeEvent.updAssay))

theorem State.LeadsTo.asForce (h : s₀.LeadsTo s) : s₀.LeadsTo s.asForce := .foldl (fun h1 => h1.trigger) h

theorem State.LeadsTo.releaseHeld (h : s₀.LeadsTo s) : s₀.LeadsTo s.releaseHeld :=
  .ite h (.foldl (fun h1 => h1.trigger) (h.of_vital rfl))

theorem State.LeadsTo.asEnable {on : Bool} (h : s₀.LeadsTo s) : s₀.LeadsTo (s.asEnable on) := .releaseHeld (h.of_vital rfl)

theorem State.LeadsTo.startConversion {am1 : Bool} {entry reg : Nat} (h : s₀.LeadsTo s) :
    s₀.LeadsTo (s.startConversion am1 entry reg) :=
  .ite (.updCore (.ite (.of_vital (h.of_vital rfl) rfl) (.of_vital (h.of_vital rfl) rfl))) (.ite (.of_vital (h.of_vital rfl) rfl)
    (.of_vital (h.of_vital rfl) rfl))

theorem State.LeadsTo.dealDual {am1 : Bool} (h : s₀.LeadsTo s) : s₀.LeadsTo (s.dealDual am1) := by
  unfold State.dealDual
  dsimp only
  split
  · exact .startConversion (h.of_vital rfl)
  · exact .ite h (by
      split
      · exact .startConversion (h.of_vital rfl)
      · exact h)

theorem State.LeadsTo.dealIlv {am1 : Bool} (h : s₀.LeadsTo s) : s₀.LeadsTo (s.dealIlv am1) :=
  .ite h (.ite (.startConversion (h.of_vital rfl)) (.ite (.startConversion (h.of_vital rfl)) h))

theorem State.LeadsTo.deal {am1 : Bool} (h : s₀.LeadsTo s) : s₀.LeadsTo (s.deal am1) := .ite h (.ite h.dealIlv h.dealDual)

theorem State.LeadsTo.dealBoth (h : s₀.LeadsTo s) : s₀.LeadsTo s.dealBoth := .ite (h.deal.deal.of_vital rfl) h.deal.deal

theorem State.LeadsTo.writeEntry {n v : Nat} (h : s₀.LeadsTo s) : s₀.LeadsTo (s.writeEntry n v) :=
  .ite h (.dealBoth (h.of_vital rfl))

theorem State.LeadsTo.monRestart (h : s₀.LeadsTo s) : s₀.LeadsTo s.monRestart := .dealBoth (h.of_vital rfl)

theorem State.LeadsTo.monTrigger (h : s₀.LeadsTo s) : s₀.LeadsTo s.monTrigger := .ite h (.ite h.monRestart (h.of_vital rfl))

theorem State.LeadsTo.mctrlWrite {v : Nat} (h : s₀.LeadsTo s) : s₀.LeadsTo (s.mctrlWrite v) := .monTrigger (h.of_vital rfl)

theorem State.LeadsTo.asWrite {off v : Nat} (h : s₀.LeadsTo s) : s₀.LeadsTo (s.asWrite off v) :=
  .ite h.writeEntry (by
    split
    · exact .ite h.asEnable.asForce h.asEnable
    · exact h.of_vital rfl
    · exact h.of_vital rfl
    · exact h.of_vital rfl
    · exact h.mctrlWrite
    · exact h)

theorem State.LeadsTo.writeForce {en : Bool} {st : Nat} (h : s₀.LeadsTo s) : s₀.LeadsTo (s.writeForce en st) :=
  .ite (.startWake (h.of_vital rfl)) (h.of_vital rfl)

theorem State.LeadsTo.writeLimits {sustain short : Nat} (h : s₀.LeadsTo s) : s₀.LeadsTo (s.writeLimits sustain short) :=
  h.of_vital rfl

theorem State.LeadsTo.writeCeil {v : Nat} (h : s₀.LeadsTo s) : s₀.LeadsTo (s.writeCeil v) := .writeLimits (h.of_vital rfl)

theorem State.LeadsTo.writeTherm {v : Nat} (h : s₀.LeadsTo s) : s₀.LeadsTo (s.writeTherm v) := h.of_vital rfl

theorem State.LeadsTo.writeWhCeil {v : Nat} (h : s₀.LeadsTo s) : s₀.LeadsTo (s.writeWhCeil v) := h.of_vital rfl

theorem State.LeadsTo.writeVddc {v : Nat} (h : s₀.LeadsTo s) : s₀.LeadsTo (s.writeVddc v) := h.of_vital rfl

theorem State.LeadsTo.shapeChange {c : ShapeChange} (h : s₀.LeadsTo s) : s₀.LeadsTo (s.shapeChange c) :=
  h.of_vital rfl

theorem State.LeadsTo.writeCap {v : Nat} (h : s₀.LeadsTo s) : s₀.LeadsTo (s.writeCap v) :=
  .ite (.shapeChange (h.of_vital rfl)) (h.of_vital rfl)

theorem State.LeadsTo.writeProfile {g4En burstEn profileP : Bool} (h : s₀.LeadsTo s) :
    s₀.LeadsTo (s.writeProfile g4En burstEn profileP) :=
  .writeWhCeil (.writeCap (.ite (.writeLimits (h.of_vital rfl)) (.writeLimits (h.of_vital rfl))))

theorem State.LeadsTo.pwWrite {off v : Nat} (h : s₀.LeadsTo s) : s₀.LeadsTo (s.pwWrite off v) := by
  unfold State.pwWrite
  split
  · exact h.writeProfile
  · exact h.writeCeil
  · exact h.writeCap
  · exact h.writeWhCeil
  · exact h.writeVddc
  · exact h.writeForce
  · exact h.writeTherm
  · exact h

theorem State.LeadsTo.settlePin (h : s₀.LeadsTo s) : s₀.LeadsTo s.settlePin := .ite (h.of_vital rfl) (.ite h (h.of_vital rfl))

theorem State.LeadsTo.raiseIrq {b : Nat} (h : s₀.LeadsTo s) : s₀.LeadsTo (s.raiseIrq b) := .settlePin (h.of_vital rfl)

theorem State.LeadsTo.setDrop {addr : Option Nat} (h : s₀.LeadsTo s) : s₀.LeadsTo (s.setDrop addr) :=
  .ite h.countPkg (.raiseIrq (h.countPkg.of_vital rfl))

theorem State.LeadsTo.snoop {wh : Nat} {data : Burst} (h : s₀.LeadsTo s) : s₀.LeadsTo (s.snoop wh data) :=
  h.of_vital rfl

theorem State.LeadsTo.logEvent {code : Nat} (h : s₀.LeadsTo s) : s₀.LeadsTo (s.logEvent code) :=
  .ite (h.of_vital rfl) (h.of_vital rfl)

theorem State.LeadsTo.secEvent {code : Nat} (h : s₀.LeadsTo s) : s₀.LeadsTo (s.secEvent code) := .logEvent (h.of_vital rfl)

theorem State.LeadsTo.sealPage {ch : Chan} {page : Nat} (h : s₀.LeadsTo s) : s₀.LeadsTo (s.sealPage ch page).2 :=
  h.of_vital rfl

theorem State.LeadsTo.resealCopies {wh : Nat} (h : s₀.LeadsTo s) : s₀.LeadsTo (s.resealCopies wh) :=
  .foldl (fun {s g} h => .of_vital (s := (s.sealPage g.ch g.page).2) h.sealPage rfl) h

theorem State.LeadsTo.drainConf {f : Frame} (h : s₀.LeadsTo s) : s₀.LeadsTo (s.drainConf f) :=
  .ite h.setDrop.secEvent (.ite h.setDrop.secEvent (by
    split
    · exact h.setDrop.secEvent
    · exact .ite h.setDrop.secEvent (.resealCopies (.snoop (.poke (h.of_vital rfl))))))

theorem State.LeadsTo.pokeMasked {key : Nat} {bs : List (Option Byte)} (h : s₀.LeadsTo s) : s₀.LeadsTo (s.pokeMasked key bs) := by
  have written : s₀.LeadsTo { s with mem := s.mem.writeMasked key bs } := h.of_mem (Memory.writeMasked_wf bs _ key)
  unfold State.pokeMasked
  split
  · exact h
  · exact .of_poison (.ite written.warehouseWrite.markWritten written) (NatMap.keep_wf false _ _)

theorem State.LeadsTo.drainFrame {f : Frame} (h : s₀.LeadsTo s) : s₀.LeadsTo (s.drainFrame f) :=
  .ite h.drainConf h.pokeMasked.resealCopies

theorem State.LeadsTo.startDrain {f : Frame} (h : s₀.LeadsTo s) : s₀.LeadsTo (s.startDrain f) :=
  .of_vital (.ite h.drainFrame h) rfl

theorem State.LeadsTo.settleBases (h : s₀.LeadsTo s) : s₀.LeadsTo s.settleBases := h.of_vital rfl

theorem State.LeadsTo.orderPoint (h : s₀.LeadsTo s) : s₀.LeadsTo s.orderPoint := by
  unfold State.orderPoint
  extract_lets fs s1 s2
  have drained : s₀.LeadsTo s1 := .foldl (fun h => .ite (.setDrop (h.of_vital rfl)) h.startDrain) h
  exact .of_vital (s := s2) drained.settleBases rfl

theorem State.LeadsTo.stageBell {unstage : Bool} {v : Nat} (h : s₀.LeadsTo s) : s₀.LeadsTo (s.stageBell unstage v) := by
  unfold State.stageBell
  exact .wakeEvent (.ite (h.orderPoint.of_vital rfl) h.orderPoint.setDrop)

theorem State.LeadsTo.doorbell {v : Nat} (h : s₀.LeadsTo s) : s₀.LeadsTo (s.doorbell v) := by
  unfold State.doorbell
  exact .wakeEvent (.ite (h.orderPoint.of_vital rfl) (h.orderPoint.of_vital rfl))

theorem State.LeadsTo.zero {key n : Nat} (h : s₀.LeadsTo s) : s₀.LeadsTo (s.zero key n) :=
  .of_poison (h.of_mem (Memory.zero_wf _ key n)) (NatMap.keep_wf false _ _)

theorem State.LeadsTo.settleCq (h : s₀.LeadsTo s) : s₀.LeadsTo s.settleCq := .ite h.raiseIrq h.settlePin

theorem State.LeadsTo.ringCfg {v : Nat} (h : s₀.LeadsTo s) : s₀.LeadsTo (s.ringCfg v) :=
  .ite (.settleCq (.zero (h.of_vital rfl))) h

theorem State.LeadsTo.irqEnableSet {v : Nat} (h : s₀.LeadsTo s) : s₀.LeadsTo (s.irqEnableSet v) := .settlePin (h.of_vital rfl)

theorem State.LeadsTo.budgetSet {v : Nat} (h : s₀.LeadsTo s) : s₀.LeadsTo (s.budgetSet v) :=
  .ite (.wakeEvent (h.of_vital rfl)) (h.of_vital rfl)

theorem State.LeadsTo.splitSet {v : Nat} (h : s₀.LeadsTo s) : s₀.LeadsTo (s.splitSet v) := .ite h (h.of_vital rfl)

theorem State.LeadsTo.irqMod {v : Nat} (h : s₀.LeadsTo s) : s₀.LeadsTo (s.irqMod v) := .settleCq (h.of_vital rfl)

theorem State.LeadsTo.cqHeadSet {v : Nat} (h : s₀.LeadsTo s) : s₀.LeadsTo (s.cqHeadSet v) := .settleCq (h.of_vital rfl)

theorem State.LeadsTo.unstageAll {ch : Option Chan} (h : s₀.LeadsTo s) : s₀.LeadsTo (s.unstageAll ch) :=
  h.of_vital rfl

theorem State.LeadsTo.poolSet {v : Nat} (h : s₀.LeadsTo s) : s₀.LeadsTo (s.poolSet v) :=
  .settleBases (.of_vital (h.unstageAll (ch := none)) rfl)

theorem State.LeadsTo.baseSet {ch : Chan} {v : Nat} (h : s₀.LeadsTo s) : s₀.LeadsTo (s.baseSet ch v) := by
  have unstaged := h.unstageAll (ch := some ch)
  cases ch with
  | a => exact .settleBases (unstaged.of_vital rfl)
  | b => exact .settleBases (unstaged.of_vital rfl)

theorem State.LeadsTo.irqClear {v : Nat} (h : s₀.LeadsTo s) : s₀.LeadsTo (s.irqClear v) := .settleCq (h.of_vital rfl)

theorem State.LeadsTo.hpWrite {off v : Nat} (h : s₀.LeadsTo s) : s₀.LeadsTo (s.hpWrite off v) := by
  unfold State.hpWrite
  split
  · exact h.of_vital rfl
  · exact h.irqClear
  · exact h.irqEnableSet
  · exact h.irqMod
  · exact h.budgetSet
  · exact h.ringCfg
  · exact h.doorbell
  · exact h.cqHeadSet
  · exact h.baseSet
  · exact h.baseSet
  · exact h.splitSet
  · exact h.poolSet
  · exact h.stageBell
  · exact h

theorem State.LeadsTo.lgCtrlSet {v : Nat} (h : s₀.LeadsTo s) : s₀.LeadsTo (s.lgCtrlSet v) := h.of_vital rfl

theorem State.LeadsTo.pkgPcWrite {off v : Nat} (h : s₀.LeadsTo s) : s₀.LeadsTo (s.pkgPcWrite off v) := by
  unfold State.pkgPcWrite
  split
  · exact h.of_vital rfl
  · exact h.of_vital rfl
  · exact h.of_vital rfl
  · exact h.lgCtrlSet
  · exact h

theorem State.LeadsTo.pkgWrite {off v : Nat} (h : s₀.LeadsTo s) : s₀.LeadsTo (s.pkgWrite off v) := by
  unfold State.pkgWrite
  dsimp only
  split
  · exact h.hpWrite
  · exact h.asWrite
  · exact h.pwWrite
  · exact h.pkgPcWrite
  · exact h

theorem pcSelSet_events (v : Nat) (k : Core) : (pcSelSet v k).events = k.events := by unfold pcSelSet; rfl
theorem pcQualSet_events (n v : Nat) (k : Core) : (pcQualSet n v k).events = k.events := by unfold pcQualSet; rfl

theorem State.LeadsTo.coreWrite {q : SeqId} {c : Fin 64} {off v : Nat} (h : s₀.LeadsTo s) : s₀.LeadsTo (s.coreWrite q c off v) := by
  unfold State.coreWrite
  refine .ite ?_ (.ite ?_ (.ite h (.ite ?_ (.ite ?_ h))))
  · exact h.updCore
  · exact h.updCore
  · refine h.updCore fun wf => ?_
    rw [pcSelSet_events]
    exact wf
  · refine h.updCore fun wf => ?_
    rw [pcQualSet_events]
    exact wf

theorem tlWrite_map (t : Tally) (off v : Nat) : (tlWrite t off v).map = t.map := by
  unfold tlWrite
  split <;> rfl

theorem State.LeadsTo.regWrite {q : SeqId} {region off v : Nat} (h : s₀.LeadsTo s) : s₀.LeadsTo (s.regWrite q region off v) := by
  unfold State.regWrite
  split
  · exact h.coreWrite
  · exact h.updCluster (fun wf => ⟨wf.1, (congrArg _ (tlWrite_map ..)).trans wf.2⟩)
  · exact h.pkgWrite
  · exact h

theorem State.LeadsTo.regWriteWords {q : SeqId} {region : Nat} : ∀ {vs : List Nat} {off : Nat} {s : State}, s₀.LeadsTo s →
    s₀.LeadsTo (s.regWriteWords q region off vs)
  | [], _, _, h => h
  | [_], _, _, h => .ite h h.regWrite
  | _ :: _ :: _, _, _, h => .ite (State.LeadsTo.regWriteWords h.regWrite)
      (.ite (State.LeadsTo.regWriteWords h) (State.LeadsTo.regWriteWords h.regWrite))

theorem State.LeadsOn.store {q : SeqId} {n1 : Nat} {bs : List Byte} : s₀.LeadsOn (store q n1 bs) :=
  .change fun h => .ite h.request (.ite (.ite h.regWriteWords h) h.storeLocal)

theorem State.LeadsOn.writeParts {q : SeqId} {unit n2 n3 : Nat} {l : List Byte} : s₀.LeadsOn (writeParts q unit n2 n3 l) := by
  induction n2 generalizing n3 l with
  | zero => exact .pure
  | succ _ ih => exact .ite .pure (.bind .checkAccess fun _ => .bind .store fun _ => ih)

theorem State.LeadsOn.writeMem {q : SeqId} {unit n2 : Nat} {bs : List Byte} : s₀.LeadsOn (writeMem q unit n2 bs) :=
  .writeParts

theorem State.LeadsOn.putRecords {q : SeqId} {t : TD} {l : List RedRow} : s₀.LeadsOn (putRecords q t l) := by
  induction l with
  | nil => exact .pure
  | cons _ _ ih => exact .bind .writeMem fun _ => ih

theorem State.LeadsTo.setPending {p : Nat} {t : Trim} (h : s₀.LeadsTo s) : s₀.LeadsTo (s.setPending p t) :=
  .ite h.updCore h

theorem State.LeadsOn.demand {b : Bool} {code unit : Nat} {detail : Option Nat} : s₀.LeadsOn (demand b code unit detail) :=
  .ite .pure .fail

theorem State.LeadsOn.stall {α : Type} : s₀.LeadsOn (stall : ExecM α) := .throw

theorem State.LeadsOn.sampleSlot {q : SeqId} {slot : Nat} : s₀.LeadsOn (sampleSlot q slot) := by
  unfold Machine.sampleSlot
  exact .getBind fun _ => .guard .stall fun _ => .bind .demand fun _ => .ite (.bind .fail fun _ => .pure) .pure

theorem State.LeadsOn.operandAt {q : SeqId} {slot : Nat} {dest : Bool} {detail : Nat} : s₀.LeadsOn (operandAt q slot dest detail) := by
  refine .bind .sampleSlot fun b => .getBind fun {s} _ => ?_
  extract_lets t jp jp'
  have last (u : PUnit) : s₀.LeadsOn (jp' u) := by
    unfold jp'
    cases q with
    | core c => exact .guard .demand fun _ => .pure
    | house => exact .guard .fail fun _ => .pure
  split
  · exact .bind .fail last
  · exact last ()

theorem State.LeadsOn.operand {q : SeqId} {w : W128} {pos : Nat} {dest : Bool} : s₀.LeadsOn (operand q w pos dest) :=
  .operandAt

theorem State.LeadsTo.faultDetail {f : FaultInfo} (h : s₀.LeadsTo s) : s₀.LeadsTo (s.faultDetail f).2 := by
  unfold State.faultDetail
  split
  · exact h
  · exact h.draw

theorem State.LeadsTo.raiseFault {q : SeqId} {f : FaultInfo} {opcode pc : Nat} (h : s₀.LeadsTo s) :
    s₀.LeadsTo (s.raiseFault q f opcode pc) :=
  h.countSeq.faultDetail.updSeqr.discard

theorem State.LeadsOn.decodeSteps {q : SeqId} {w : W128} {body : ExecM Flow} (k : s₀.LeadsOn body) :
    s₀.LeadsOn (decodeSteps q w body) :=
  .getBind fun _ => .bind .demand fun _ => .bind .demand fun _ => .bind .demand fun _ => k

theorem State.LeadsTo.await {q : SeqId} {e : FaultInfo} (h : s₀.LeadsTo s) : s₀.LeadsTo (s.await q e) := by
  unfold State.await
  split
  · exact h
  · exact .ite h h.request

theorem State.LeadsTo.decode {q : SeqId} {w : W128} {body : ExecM Flow} (h : s₀.LeadsTo s) (k : s₀.LeadsOn body) :
    s₀.LeadsTo (s.decode q w body) := by
  have steps : s₀.LeadsOn (decodeSteps q w body) := .decodeSteps k
  unfold State.decode
  refine .ite h ?_
  dsimp only
  split
  case h_1 run => exact (steps.ok h run).updSeqr
  case h_2 run => exact .ite h.await (.ite (steps.error h run).raiseFault.updSeqr (steps.error h run).updSeqr.raiseFault)

theorem State.Answers.instr {i : Instr} {q : SeqId} {w : W128} {body : ExecM Flow} (k : s₀.LeadsOn body) (h : s₀.LeadsTo s) :
    s₀.Answers i.wf (s.instr i q w body) := by
  unfold State.instr
  split
  · exact .of (h.decode k)
  · rename_i bad
    simp [State.Answers, Instr.wf, bad]

theorem State.LeadsOn.scalar {q : SeqId} {n : Nat} : s₀.LeadsOn (scalar q n) := .getBind fun _ => .pure

theorem State.LeadsOn.calRA {q : SeqId} {w : W128} : s₀.LeadsOn (calRA q w) := .scalar

theorem State.LeadsTo.addTotals {c : Fin 64} {ts : List (Nat × QTotals)} (h : s₀.LeadsTo s) : s₀.LeadsTo (s.addTotals c ts) :=
  .foldl (fun h1 => .ite h1.updCore (.count h1.updCore)) h

theorem State.LeadsTo.ledgerRecord {c : Fin 64} {e : QEntry} {flags : Nat} (h : s₀.LeadsTo s) :
    s₀.LeadsTo (s.ledgerRecord c e flags).2 :=
  h.draw

theorem State.LeadsTo.ledger {c : Fin 64} {e : QEntry} {flags : Nat} (h : s₀.LeadsTo s) : s₀.LeadsTo (s.ledger c e flags) := by
  unfold State.ledger
  extract_lets n s1
  have counted : s₀.LeadsTo s1 := h.updCore
  refine .ite h (.ite (.ite ?_ counted.countPkg) counted)
  exact .of_vital (s := (s1.ledgerRecord c e flags).2) counted.ledgerRecord rfl

theorem State.LeadsTo.setFlag {q : SeqId} {b : Nat} (h : s₀.LeadsTo s) : s₀.LeadsTo (s.setFlag q b) := by
  unfold State.setFlag
  dsimp only
  split
  · exact h.updSeqr.countSeq
  · exact h.updSeqr

theorem State.LeadsTo.putCounter {idx : Nat} {v : Counter} (h : s₀.LeadsTo s) : s₀.LeadsTo (s.putCounter idx v) :=
  h.updCluster fun wf => ⟨NatMap.put_wf _ _ _ v wf.1, wf.2⟩

theorem State.LeadsTo.applyCounter {q : SeqId} {idx : Nat} {v : Int} {t : Nat} (h : s₀.LeadsTo s) :
    s₀.LeadsTo (s.applyCounter q idx v t) :=
  .ite h.putCounter.setFlag h.putCounter

theorem State.LeadsTo.retire {q : SeqId} {e : QEntry} {flags : Nat} (h : s₀.LeadsTo s) : s₀.LeadsTo (s.retire q e flags) := by
  unfold State.retire
  extract_lets s1 s2 s3 s4 s5 s6
  have retired : s₀.LeadsTo s1 := h.countSeq
  have classed : s₀.LeadsTo s2 := by
    unfold s2
    split
    · exact retired.countSeq
    · exact retired
  have left : s₀.LeadsTo s4 := .updSeqr (.ite classed.countSeq classed)
  have freed : s₀.LeadsTo s5 := by
    unfold s5
    cases q with
    | core c =>
      refine .addTotals (left.updCore fun wf => ?_)
      rw [foldl_events handSlot fun _ _ => rfl, foldl_events freeSlot fun _ _ => rfl]
      exact wf
    | house => exact left
  have done : s₀.LeadsTo s6 := by
    unfold s6
    split
    · exact freed.applyCounter
    · exact freed
  cases q with
  | core c => exact done.ledger
  | house => exact done

theorem State.LeadsTo.endWait {q : SeqId} (h : s₀.LeadsTo s) : s₀.LeadsTo (s.endWait q) := by
  unfold State.endWait
  split
  · exact h.updSeqr.retire
  · exact h

theorem State.LeadsTo.settleN {n0 : Nat} (h : s₀.LeadsTo s) : s₀.LeadsTo (s.settleN n0) := by
  induction n0 generalizing s with
  | zero => exact h
  | succ _ ih =>
    unfold State.settleN
    split
    · exact ih h.endWait
    · exact h

theorem State.LeadsTo.settle (h : s₀.LeadsTo s) : s₀.LeadsTo s.settle := h.settleN

theorem State.LeadsTo.complete {q : SeqId} {e : QEntry} {flags : Nat} (h : s₀.LeadsTo s) : s₀.LeadsTo (s.complete q e flags) :=
  h.retire.settle

theorem State.LeadsOn.newEntry {q : SeqId} {w : W128} : s₀.LeadsOn (newEntry q w) :=
  .getBind fun h1 => .bind (.set h1.updSeqr) fun _ => .pure

theorem State.LeadsOn.completeNow {q : SeqId} {w : W128} : s₀.LeadsOn (completeNow q w) :=
  .bind .newEntry fun _ => .change fun h => h.complete

theorem State.LeadsOn.now {q : SeqId} {w : W128} {body : ExecM Flow} (k : s₀.LeadsOn body) : s₀.LeadsOn (now q w body) :=
  k.bind fun _ => .bind .completeNow fun _ => .pure

theorem State.LeadsOn.calNow {q : SeqId} {w : W128} {body : ExecM Unit} (k : s₀.LeadsOn body) : s₀.LeadsOn (calNow q w body) :=
  .now (k.bind fun _ => .pure)

theorem State.LeadsOn.putMill {q : SeqId} {e : QEntry} : s₀.LeadsOn (putMill q e) :=
  .change fun h => h.updSeqr

theorem State.LeadsOn.roomMill {q : SeqId} : s₀.LeadsOn (roomMill q) := by
  unfold Machine.roomMill
  exact .getBind fun _ => .ite .stall .pure

theorem State.LeadsOn.runMill {q : SeqId} {w : W128} {srcs dsts : List TD} {noop producer : Bool} {work : QueueWork} :
    s₀.LeadsOn (runMill q w srcs dsts noop producer work) :=
  .bind .roomMill fun _ => .bind .newEntry fun _ => .bind .putMill fun _ => .pure

theorem State.LeadsOn.millRed {q : SeqId} {w : W128} : s₀.LeadsOn (millRed q w) :=
  .bind .demand fun _ => .ite (.bind .pure fun _ => .ite (.bind .pure fun _ => .bind .demand fun _ => .bind .demand fun _ => .bind
    .scalar fun _ => .runMill) (.bind .operand fun _ => .bind .pure fun _ => .bind .demand fun _ => .bind .demand fun _ => .bind
    .scalar fun _ => .runMill)) (.bind .operand fun _ => .bind .pure fun _ => .ite (.bind .pure fun _ => .bind .demand fun _ => .bind
    .demand fun _ => .bind .scalar fun _ => .runMill) (.bind .operand fun _ => .bind .pure fun _ => .bind .demand fun _ => .bind
    .demand fun _ => .bind .scalar fun _ => .runMill))

theorem State.LeadsTo.countDrain {c : Fin 64} {e : Nat} {r : DrainRead} (h : s₀.LeadsTo s) : s₀.LeadsTo (s.countDrain c e r) :=
  h.count.count.count.count

theorem State.LeadsTo.updEngine {c : Fin 64} {e : Nat} {f : Engine → Engine} (h : s₀.LeadsTo s) : s₀.LeadsTo (s.updEngine c e f) :=
  h.updCore

theorem State.LeadsTo.needRemaps {c : Fin 64} (h : s₀.LeadsTo s) : s₀.LeadsTo (s.needRemaps c) := h.of_vital rfl

theorem State.LeadsTo.tellLoad {dest status d2 : Nat} (h : s₀.LeadsTo s) : s₀.LeadsTo (s.tellLoad dest status d2) :=
  h.sendFrame

theorem State.LeadsTo.loadFailure {status d2 : Nat} (h : s₀.LeadsTo s) : s₀.LeadsTo (s.loadFailure status d2) := by
  unfold State.loadFailure
  split
  · exact h
  · exact .ite h (.ite (.of_vital (.foldl (fun h1 => h1.tellLoad) h) rfl) (.closeLoad (.foldl (fun h1 => h1.tellLoad) h)))

theorem State.LeadsTo.scramble {key n : Nat} (h : s₀.LeadsTo s) : s₀.LeadsTo (s.scramble key n) := h.draw.poke

theorem State.LeadsTo.scrambleTds {tds : List TD} (h : s₀.LeadsTo s) : s₀.LeadsTo (s.scrambleTds tds) :=
  .foldl (fun h1 => .ite h1.scramble h1) h

theorem State.LeadsTo.forget {q : SeqId} (h : s₀.LeadsTo s) : s₀.LeadsTo (s.forget q) := h.of_vital rfl

theorem State.LeadsTo.abandon {c : Fin 64} (h : s₀.LeadsTo s) : s₀.LeadsTo (s.abandon c) := by
  unfold State.abandon
  extract_lets k es s1 s2 gone s3
  have forgotten : s₀.LeadsTo s2 := .forget (.discard h.scrambleTds)
  exact .of_vital (s := s3) forgotten.updCore rfl

theorem State.LeadsTo.fenceEffects {c : Fin 64} (h : s₀.LeadsTo s) : s₀.LeadsTo (s.fenceEffects c) := by
  unfold State.fenceEffects
  extract_lets s1 s2 s3 s4 s5
  have cleared : s₀.LeadsTo s2 := State.LeadsTo.updCore (s := s1) h.abandon
  have struck : s₀.LeadsTo s4 := cleared.of_progWait.strike
  exact .needRemaps (.ite struck.loadFailure struck)

theorem State.LeadsTo.fenceCore {c : Fin 64} {cause : Nat} (h : s₀.LeadsTo s) : s₀.LeadsTo (s.fenceCore c cause) := by
  unfold State.fenceCore
  exact .ite h (.ite (.logEvent h.updCore) (.fenceEffects (.shapeChange (.logEvent h.updCore))))

theorem State.LeadsTo.checkMiss {c : Fin 64} {e : Nat} (h : s₀.LeadsTo s) : s₀.LeadsTo (s.checkMiss c e) :=
  .ite h.updEngine.fenceCore h.updEngine

theorem State.LeadsTo.foundChecks {c : Fin 64} {e : Nat} {r : DrainRead} (h : s₀.LeadsTo s) : s₀.LeadsTo (s.foundChecks c e r) :=
  .foldl (fun h1 => h1.setFlag.checkMiss) h.countDrain

theorem State.LeadsTo.monitorOff (h : s₀.LeadsTo s) : s₀.LeadsTo s.monitorOff := h.of_vital rfl

theorem State.LeadsTo.setTrim {q : Nat} {t : Trim} (h : s₀.LeadsTo s) : s₀.LeadsTo (s.setTrim q t) :=
  h.poke.updEngine.updAssay

theorem State.LeadsTo.neutralTrim {q : Nat} (h : s₀.LeadsTo s) : s₀.LeadsTo (s.neutralTrim q) := .updAssay h.setTrim.updCore

theorem State.LeadsTo.updPly {q : Nat} {f : PlyRec → PlyRec} (h : s₀.LeadsTo s) : s₀.LeadsTo (s.updPly q f) :=
  h.of_canon fun c => { c with plies := NatMap.update_wf {} _ q f c.plies }

theorem State.LeadsTo.startOpening {c : Fin 64} {e ply : Nat} {w8 : Bool} (h : s₀.LeadsTo s) :
    s₀.LeadsTo (s.startOpening c e ply w8) :=
  h.updEngine.updPly.neutralTrim

theorem State.LeadsTo.joinOpening {c : Fin 64} {e ply : Nat} {w8 : Bool} {rows : List Nat} (h : s₀.LeadsTo s) :
    s₀.LeadsTo (s.joinOpening c e ply w8 rows) := by
  unfold State.joinOpening
  split
  · exact .ite h h.startOpening
  · exact h.startOpening

theorem State.LeadsOn.attempt {α : Type} {m : ExecM α} (k : s₀.LeadsOn m) : s₀.LeadsOn (attempt m) := by
  intro s h
  unfold ExecM.after Machine.attempt
  simp only [EStateM.run]
  split
  case h_1 run =>
    split at run
    case h_1 ran => cases run; exact k.ok h ran
    case h_2 ran => split at run <;> cases run; exact k.error h ran
  case h_2 run =>
    split at run
    case h_1 ran => cases run
    case h_2 ran => split at run <;> cases run; exact k.error h ran

theorem State.LeadsOn.chainRow {q : SeqId} {unit : Nat} {esc : EscapeOps} : ∀ {ps : List Prep} {r : OutRow} {i : Bool},
    s₀.LeadsOn (chainRow q unit esc ps r i)
  | [], _, _ => .pure
  | p :: ps, r, i => by
    unfold Machine.chainRow
    generalize stepRow p esc r = x
    obtain ⟨r, j, record⟩ := x
    dsimp only
    split
    · exact .guard .writeMem fun _ => State.LeadsOn.chainRow
    · exact State.LeadsOn.chainRow

theorem State.LeadsOn.chainRows {q : SeqId} {unit : Nat} {esc : EscapeOps} {ps : List Prep} {l : List OutRow} {v5 : Bool} :
    s₀.LeadsOn (chainRows q unit esc ps l v5) := by
  induction l generalizing v5 with
  | nil => exact .pure
  | cons _ _ ih =>
    exact .ite .pure (.ite ih (.bind (.attempt .chainRow) fun _ => by
      split
      · exact .pure
      · exact .ite .pure (.bind ih fun _ => .pure)))

theorem State.LeadsOn.free64 : s₀.LeadsOn (free64) := .getBind fun h1 => .bind (.set h1.draw) fun _ => .pure

theorem State.LeadsOn.writeSides {q : SeqId} {unit : Nat} {sd : TD} : ∀ {l : List (Nat × List SideEntry)},
    s₀.LeadsOn (writeSides q unit sd l)
  | [] => .pure
  | _ :: _ => .guard .writeMem fun _ => State.LeadsOn.writeSides

theorem State.LeadsTo.countConv {q : SeqId} {clips invalids : Nat} (h : s₀.LeadsTo s) : s₀.LeadsTo (s.countConv q clips invalids) :=
  .ite (.ite h h.countSeq) (.setFlag (.countSeq (.ite h h.countSeq)))

theorem State.LeadsTo.endTotals {q : SeqId} {qst : Option Nat} {t : Totals} (h : s₀.LeadsTo s) : s₀.LeadsTo (s.endTotals q qst t) := by
  unfold State.endTotals
  dsimp only
  split
  · exact h.countConv.updCore
  · exact h.countConv

theorem State.LeadsOn.writeEach {row : OutRow → Convert → ExecM (Convert × Option FaultInfo)} (k : ∀ r v, s₀.LeadsOn (row r v)) :
    ∀ {rows : List OutRow} {v : Convert}, s₀.LeadsOn (writeEach row rows v)
  | [], _ => .pure
  | r :: _, v => (k r v).bind fun
    | (_, none) => State.LeadsOn.writeEach k
    | (_, some _) => .pure

theorem State.LeadsOn.oldBytes {q : SeqId} {unit n2 : Nat} {l : List Nat} : s₀.LeadsOn (oldBytes q unit n2 l) := by
  induction l with
  | nil => exact .pure
  | cons _ _ ih =>
    exact .bind (.attempt .readMem) fun _ => by
      split
      · exact .pure
      · exact .bind ih fun _ => .pure

theorem State.LeadsOn.writeRuns {q : SeqId} {unit a : Nat} : ∀ {l : List (Nat × List Byte)}, s₀.LeadsOn (writeRuns q unit a l)
  | [] => .pure
  | _ :: _ => .bind .writeMem fun _ => State.LeadsOn.writeRuns

theorem State.LeadsOn.writeCodes {q : SeqId} {unit : Nat} {t : TD} {r : OutRow} {codes : List (Option Nat)} :
    s₀.LeadsOn (writeCodes q unit t r codes) :=
  .iteBind .oldBytes .pure fun _ => by
    dsimp only
    split
    · exact .writeRuns
    · exact .bind .writeRuns fun _ => .throw

theorem State.LeadsOn.writeConverted {q : SeqId} {k : Sink} {r : OutRow} {conv : Nat → List (Option Nat) × Convert} :
    s₀.LeadsOn (writeConverted q k r conv) :=
  .bind (.attempt .writeCodes) fun _ => by
    split
    · exact .pure
    · exact .pure

theorem State.LeadsOn.writeBlockedRow {q : SeqId} {k : Sink} {free : Nat} {r : OutRow} {v : Convert} :
    s₀.LeadsOn (writeBlockedRow q k free r v) :=
  .bind .writeConverted fun _ => .ite .pure (.bind (.attempt .writeMem) fun _ => by
    split
    · exact .pure
    · exact .pure)

theorem State.LeadsOn.putRows {q : SeqId} {k : Sink} : ∀ {l : List (OutRow × Num × List (Option Nat))}, s₀.LeadsOn (putRows q k l)
  | [] => .pure
  | _ :: _ => .bind .writeCodes fun _ => State.LeadsOn.putRows

theorem State.LeadsOn.putScales {q : SeqId} {k : Sink} {a : Nat} : ∀ {l : List (OutRow × Num × List (Option Nat))},
    s₀.LeadsOn (putScales q k a l)
  | [] => .pure
  | _ :: _ => .bind .writeMem fun _ => State.LeadsOn.putScales

theorem State.LeadsOn.writeTagged {q : SeqId} {k : Sink} {seed free : Nat} {g : List OutRow} {v : Convert} :
    s₀.LeadsOn (writeTagged q k seed free g v) := by
  unfold Machine.writeTagged
  extract_lets r0 no tag jp jp'
  have written (u : PUnit) : s₀.LeadsOn (jp' u) := by
    unfold jp' jp
    exact .guard .fail fun _ => .bind .writeMem fun _ => .bind .putRows fun _ => .bind .putScales fun _ => .bind .writeMem fun _ => .pure
  split
  · exact .bind .throw written
  · exact written ()

theorem State.LeadsOn.writePlainRow {q : SeqId} {k : Sink} {free : Nat} {r : OutRow} {v : Convert} :
    s₀.LeadsOn (writePlainRow q k free r v) :=
  .writeConverted

theorem State.LeadsOn.writeBlocks {q : SeqId} {k : Sink} {seed free : Nat} : ∀ {gs : List (List OutRow)} {v : Convert},
    s₀.LeadsOn (writeBlocks q k seed free gs v)
  | [], _ => .pure
  | g :: gs, v => by
    unfold Machine.writeBlocks
    extract_lets jp
    have more (x : Convert × Option FaultInfo) : s₀.LeadsOn (jp x) := by
      unfold jp
      dsimp only
      split
      · exact .pure
      · exact State.LeadsOn.writeBlocks
    refine .ite (.bind (.attempt .writeTagged) fun r => ?_) (.ite ?_ ?_)
    · cases r with
      | ok w => exact .bind .pure more
      | error e => exact .bind .pure more
    · exact .bind (.ite .pure (.writeEach fun _ _ => .writeBlockedRow)) more
    · exact .bind (.writeEach fun _ _ => .writePlainRow) more

theorem State.LeadsOn.writeOut {q : SeqId} {k : Sink} {rows : List OutRow} : s₀.LeadsOn (writeOut q k rows) := by
  refine .iteBind .free64 .pure fun _ => .getBind fun _ => .bind .writeBlocks fun ⟨v, e⟩ => ?_
  dsimp -zeta only
  extract_lets jp
  have last (e : Option FaultInfo) : s₀.LeadsOn (jp e) := by
    refine .bind (.change fun h => ?_) fun _ => ?_
    · exact .ite (.ite h.endTotals h.endTotals.countSeq) (.countSeq (.ite h.endTotals h.endTotals.countSeq))
    · split
      · exact .throw
      · exact .pure
  split
  · refine .bind (.attempt .writeSides) fun r => ?_
    cases r with
    | ok _ => exact .bind .pure last
    | error _ => exact .bind .pure last
  · exact .bind .pure last

theorem State.LeadsOn.readSide {q : SeqId} {unit n2 n3 : Nat} : s₀.LeadsOn (readSide q unit n2 n3) := by
  induction n2 generalizing n3 with
  | zero => exact .pure
  | succ _ ih => exact .bind .readMem fun _ => .ite .pure (.bind ih fun _ => .pure)

theorem State.LeadsOn.walkFor {q : SeqId} {unit : Nat} {t : TD} {block : Nat} {k : ReadState} :
    s₀.LeadsOn (walkFor q unit t block k) := by
  unfold Machine.walkFor
  split
  · exact .pure
  · exact .bind .readSide fun _ => .pure

theorem State.LeadsOn.sideSkip {q : SeqId} {unit : Nat} {at' : Nat × Nat} {l : List SideEntry} {v4 : Option (Nat × Nat)} :
    s₀.LeadsOn (sideSkip q unit at' l v4) := by
  induction l generalizing v4 with
  | nil => exact .pure
  | cons _ _ ih => exact .ite ih (.ite (.bind (.change fun h => h.countSeq) fun _ => ih) (.ite .fail
    (.ite (.bind (.change fun h => h.countSeq) fun _ => ih) .pure)))

theorem State.LeadsOn.sideAfter {q : SeqId} {at' : Nat × Nat} {l : List SideEntry} : s₀.LeadsOn (sideAfter q at' l) := by
  induction l with
  | nil => exact .pure
  | cons _ _ ih => exact .ite (.bind (.change fun h => h.countSeq) fun _ => ih) .pure

theorem State.LeadsOn.bellElem {q : SeqId} {unit : Nat} {f : Fmt} {code : Nat} {at' : Nat × Nat} {k : SideWalk} :
    s₀.LeadsOn (bellElem q unit f code at' k) :=
  .bind .sideSkip fun _ => by
    dsimp only
    split
    · exact .ite (.bind .sideAfter fun _ => .ite .pure (.bind (.change fun h => h.countSeq) fun _ => .pure)) (.ite .fail .pure)
    · exact .ite .fail .pure

theorem State.LeadsOn.bellRow {q : SeqId} {unit : Nat} {t : TD} {r : Nat × Nat × Nat} {n4 : Nat} {l : List Nat} {v6 : ReadState} :
    s₀.LeadsOn (bellRow q unit t r n4 l v6) := by
  induction l generalizing n4 v6 with
  | nil => exact .pure
  | cons _ _ ih =>
    exact .bind (.attempt (.bind .walkFor fun _ => .bellElem)) fun _ => by
      split
      · exact .pure
      · exact .bind ih fun _ => .pure

theorem State.LeadsOn.skew {α : Type} {q : SeqId} {unit b scaleTag dataTag : Nat} :
    s₀.LeadsOn (skew q unit b scaleTag dataTag : ExecM α) := by
  cases q with
  | core c => exact .bind (.change fun h => h.updCore) fun _ => .fail
  | house => exact .fail

theorem State.LeadsOn.readBlock {q : SeqId} {unit : Nat} {t : TD} {tag0 : Option Nat} {i1 i2 i3 : Nat} :
    s₀.LeadsOn (readBlock q unit t tag0 i1 i2 i3) := by
  unfold Machine.readBlock
  exact .bind .readMem fun _ => .bind .readMem fun _ => .ite .skew .pure

theorem State.LeadsOn.blockFor {q : SeqId} {unit : Nat} {t : TD} {r : Nat × Nat × Nat} {k : ReadState} :
    s₀.LeadsOn (blockFor q unit t r k) := by
  unfold Machine.blockFor
  dsimp only
  split
  · exact .ite .pure (.bind .readBlock fun _ => .pure)
  · exact .bind .readBlock fun _ => .pure

theorem State.LeadsOn.blockScales {q : SeqId} {unit : Nat} {t : TD} {r : Nat × Nat × Nat} : s₀.LeadsOn (blockScales q unit t r) :=
  .bind .readMem fun _ => .pure

theorem State.LeadsOn.readLine {q : SeqId} {unit : Nat} {t : TD} {cols : List ColRec} {r : Nat × Nat × Nat} {k : ReadState} :
    s₀.LeadsOn (readLine q unit t cols r k) :=
  .ite (.bind .blockFor fun _ => .bind .pure fun _ => .ite .pure (.bind .readMem fun _ => .iteBind .blockScales .pure fun _ => .ite
    (.bind .bellRow fun _ => .pure) .pure)) (.bind .pure fun _ => .ite .pure (.bind .readMem fun _ => .iteBind .blockScales .pure
    fun _ => .ite (.bind .bellRow fun _ => .pure) .pure))

theorem State.LeadsOn.readLines {q : SeqId} {unit : Nat} {t : TD} {cols : List ColRec} {l : List (Nat × Nat × Nat)} {v5 : ReadState} :
    s₀.LeadsOn (readLines q unit t cols l v5) := by
  induction l generalizing v5 with
  | nil => exact .pure
  | cons _ _ ih =>
    exact .bind (.attempt .readLine) fun _ => by
      split
      · exact .pure
      · exact .ite .pure (.bind ih fun _ => .pure)

theorem State.LeadsOn.colRecs {q : SeqId} {unit : Nat} {t : TD} : s₀.LeadsOn (colRecs q unit t) :=
  .ite (.bind .readMem fun _ => .pure) .pure

theorem State.LeadsOn.readSource {q : SeqId} {unit : Nat} {t : TD} : s₀.LeadsOn (readSource q unit t) :=
  .bind (.attempt .colRecs) fun _ => by
    split
    · exact .pure
    · exact .readLines

theorem State.LeadsOn.sourceLines {q : SeqId} {unit : Nat} {t : TD} : s₀.LeadsOn (sourceLines q unit t) :=
  .bind .readSource fun _ => .pure

theorem State.LeadsOn.readVector {q : SeqId} {unit : Nat} {t : TD} : s₀.LeadsOn (readVector q unit t) :=
  .bind .sourceLines fun _ => by
    split
    · split
      · exact .throw
      · exact .pure
    · exact .pure

theorem State.LeadsOn.actEntries {q : SeqId} {unit : Nat} {t : TD} {l : List Nat} : s₀.LeadsOn (actEntries q unit t l) := by
  induction l with
  | nil => exact .pure
  | cons _ _ ih => exact .bind .readSide fun _ => .bind ih fun _ => .pure

theorem State.LeadsOn.prepStep {q : SeqId} {unit : Nat} {tdd : TD} {st : ChainStep} : s₀.LeadsOn (prepStep q unit tdd st) :=
  .getBind fun _ => by
    split
    · exact .bind .readVector fun _ => .bind .free64 fun _ => .pure
    · exact .bind .readVector fun _ => .bind .free64 fun _ => .pure
    · exact .bind .sourceLines fun _ => .bind .free64 fun _ => .pure
    · exact .ite (.bind .pure fun _ => .pure) (.bind .actEntries fun _ => .pure)
    · exact .pure
    · exact .pure

theorem State.LeadsOn.prepChain {q : SeqId} {unit : Nat} {tdd : TD} {l : List ChainStep} : s₀.LeadsOn (prepChain q unit tdd l) := by
  induction l with
  | nil => exact .pure
  | cons _ _ ih => exact .bind .prepStep fun _ => .bind ih fun _ => .pure

theorem State.LeadsOn.finish {q : SeqId} {o : FinishOps} {k : Sink} {esc : EscapeOps} {rows : List OutRow} :
    s₀.LeadsOn (finish q o k esc rows) :=
  .ite .writeOut (.bind (.change fun h => h.countSeq) fun _ => .bind .prepChain fun _ => .guard (.change fun h => h.countSeq) fun _ =>
    .bind .chainRows fun _ => .guard (.change fun h => h.setFlag) fun _ => by
    split
    · exact .writeOut
    · exact .writeOut)

theorem State.LeadsOn.flagInvalid {q : SeqId} {inv : Bool} : s₀.LeadsOn (flagInvalid q inv) :=
  .ite (.change fun h => h.setFlag) .pure

theorem State.LeadsOn.freeMany {n : Nat} : s₀.LeadsOn (freeMany n) :=
  .getBind fun h1 => .bind (.set (h1.of_vital rfl)) fun _ => .pure

theorem State.LeadsOn.updMill {c : Fin 64} {f : Mill → Mill} : s₀.LeadsOn (updMill c f) :=
  .change fun h => h.updCore

theorem State.LeadsOn.abandonMill {c : Fin 64} {keys : List Nat} : s₀.LeadsOn (abandonMill c keys) :=
  .bind .freeMany fun _ => .updMill

theorem State.LeadsOn.matFinish {q : SeqId} {c : Fin 64} {p : MatPlan} {o : FinishOps} {tdd : TD} {as bs ws : List MatLine}
    {err : Option FaultInfo} :
    s₀.LeadsOn (matFinish q c p o tdd as bs ws err) :=
  .getBind fun _ => .ite (.ite (.bind .abandonMill fun _ => .bind .fail fun _ => .bind (.change fun h => h.setFlag.countSeq) fun _ =>
    .bind .flagInvalid fun _ => .finish) (.bind (.change fun h => h.setFlag.countSeq) fun _ => .bind .flagInvalid fun _ => .finish))
    (.bind .flagInvalid fun _ => .finish)

theorem State.LeadsTo.post {c : Completion} (h : s₀.LeadsTo s) : s₀.LeadsTo (s.post c) :=
  .settleCq (.countPkg (.of_vital (h.poke.of_vital rfl) rfl))

theorem State.LeadsTo.drawMany {n : Nat} (h : s₀.LeadsTo s) : s₀.LeadsTo (s.drawMany n).2 := h.of_vital rfl

theorem State.LeadsTo.verifyAll {c : Fin 64} {e ply : Nat} {w8 : Bool} {img : List (List Int)} (h : s₀.LeadsTo s) :
    s₀.LeadsTo (s.verifyAll c e ply w8 img).2 :=
  h.drawMany.updPly.count.count

theorem State.LeadsTo.selectPlies {c : Fin 64} {es : List (Nat × Nat)} (h : s₀.LeadsTo s) : s₀.LeadsTo (s.selectPlies c es) :=
  .ite (.count (.foldl (fun h1 => h1.updEngine) h)) (.foldl (fun h1 => h1.updEngine) h)

theorem State.LeadsTo.markRows {c : Fin 64} {e ply : Nat} {rows : List Nat} (h : s₀.LeadsTo s) :
    s₀.LeadsTo (s.markRows c e ply rows) :=
  h.updEngine

theorem State.LeadsTo.pulseRows {c : Fin 64} {e ply : Nat} {v : PlyView} {cells : List (Nat × List Int)} {rows : List Nat}
    (h : s₀.LeadsTo s) : s₀.LeadsTo (s.pulseRows c e ply v cells rows) := by
  unfold State.pulseRows
  extract_lets q p p' s1 age s2 s3
  have pulsed : s₀.LeadsTo s1 := h.of_cells fun wf => NatMap.put_wf _ _ _ _ wf
  exact .markRows pulsed.updPly.updAssay

theorem State.LeadsTo.programRows {c : Fin 64} {e ply d : Nat} {w8 : Bool} {off : List Bool} {done : Nat} {img : List (Nat × List
    Int)} (h : s₀.LeadsTo s) :
    s₀.LeadsTo (s.programRows c e ply d w8 off done img).2 :=
  h.pulseRows

theorem State.LeadsTo.progRows {c : Fin 64} {e ply : Nat} {w8 : Bool} {img : List (List Int)} {rows : List Nat} (h : s₀.LeadsTo s) :
    s₀.LeadsTo (s.progRows c e ply w8 img rows) :=
  .count (.of_supply h.selectPlies.joinOpening.drawMany.draw.programRows)

theorem State.LeadsTo.progImage {q : Nat} {w8 : Bool} {img : List (List Int)} (h : s₀.LeadsTo s) :
    s₀.LeadsTo (s.progImage q w8 img).2 := by
  unfold State.progImage
  exact .ite_snd h.updPly (.ite_snd h.progRows.verifyAll (.ite_snd h.progRows.verifyAll.updPly
    h.progRows.verifyAll.progRows.verifyAll))

theorem State.LeadsTo.progSteps {q bundle : Nat} {w8 : Bool} (h : s₀.LeadsTo s) : s₀.LeadsTo (s.progSteps q bundle w8).2 :=
  h.count.progImage

theorem State.LeadsTo.initialTrim {q bundle : Nat} {w8 : Bool} (h : s₀.LeadsTo s) : s₀.LeadsTo (s.initialTrim q bundle w8) :=
  h.setTrim.updPly.updAssay

theorem State.LeadsTo.tapProbe {c : Fin 64} {e ply : Nat} (h : s₀.LeadsTo s) : s₀.LeadsTo (s.tapProbe c e ply) :=
  .ite h h.drawMany.updCore

theorem State.LeadsTo.tapProbes {c : Fin 64} {e ply n4 : Nat} (h : s₀.LeadsTo s) : s₀.LeadsTo (s.tapProbes c e ply n4) := by
  induction n4 generalizing s with
  | zero => exact h
  | succ _ ih => exact ih h.tapProbe

theorem State.LeadsTo.endOpenings {c : Fin 64} {es : List (Nat × Nat)} (h : s₀.LeadsTo s) : s₀.LeadsTo (s.endOpenings c es) :=
  .foldl (fun h1 => h1.updEngine) h

theorem State.LeadsTo.probeOwn {c : Fin 64} {e ply rep : Nat} (h : s₀.LeadsTo s) : s₀.LeadsTo (s.probeOwn c e ply rep).2 :=
  h.selectPlies.endOpenings.tapProbes.drawMany.count.count

theorem State.LeadsTo.putSums {bundle : Nat} {v : List Int} (h : s₀.LeadsTo s) : s₀.LeadsTo (s.putSums bundle v) := h.poke

theorem State.LeadsTo.writeSums {q bundle sideCount : Nat} {w8 : Bool} (h : s₀.LeadsTo s) :
    s₀.LeadsTo (s.writeSums q bundle sideCount w8) :=
  h.probeOwn.putSums

theorem State.LeadsTo.registerPly {q : Nat} {d : DirEntry} {w8 : Bool} (h : s₀.LeadsTo s) : s₀.LeadsTo (s.registerPly q d w8) :=
  h.writeSums.initialTrim.putDir

theorem State.LeadsTo.loadPly {q : Nat} {d : DirEntry} {w8 : Bool} (h : s₀.LeadsTo s) : s₀.LeadsTo (s.loadPly q d w8).2 :=
  .ite_snd h.progSteps.updLoad.registerPly h.progSteps.updLoad

theorem State.LeadsTo.swapEach {l : LoadReq} {m : Manifest} : ∀ {ds : List (Nat × DirEntry)} {s : State}, s₀.LeadsTo s →
    s₀.LeadsTo (s.swapEach l m ds).2
  | [], _, h => h
  | _ :: _, _, h =>
    have noted := h.ite h.updLoad
    .ite_snd (State.LeadsTo.swapEach noted.loadPly.updLoad) noted.loadPly

theorem State.LeadsTo.takeReports {ms : List Member} (h : s₀.LeadsTo s) : s₀.LeadsTo (s.takeReports ms) :=
  h.of_vital rfl

theorem State.LeadsTo.actRecorded (h : s₀.LeadsTo s) : s₀.LeadsTo s.actRecorded := by
  unfold State.actRecorded
  split
  · exact h.of_vital rfl
  · exact h

theorem State.LeadsTo.leaveUpdate (h : s₀.LeadsTo s) : s₀.LeadsTo s.leaveUpdate :=
  .ite h (.ite (.raiseIrq (h.of_vital rfl)) (.actRecorded (h.of_vital rfl)))

theorem State.LeadsTo.respond {ctr cmd result : Nat} {data : List Byte} (h : s₀.LeadsTo s) :
    s₀.LeadsTo (s.respond ctr cmd result data) :=
  h.of_vital rfl

theorem State.LeadsTo.random32 (h : s₀.LeadsTo s) : s₀.LeadsTo s.random32.2 := h.of_vital rfl

theorem State.LeadsTo.rekeyLink {n : Nat} (h : s₀.LeadsTo s) : s₀.LeadsTo (s.rekeyLink n) := .ite (h.random32.of_vital rfl) h

theorem State.LeadsTo.renewLink {n : Nat} (h : s₀.LeadsTo s) : s₀.LeadsTo (s.renewLink n) :=
  .ite h.rekeyLink (.ite (h.random32.of_vital rfl) h)

theorem State.LeadsTo.rekeyLinks (h : s₀.LeadsTo s) : s₀.LeadsTo s.rekeyLinks := .foldl (fun h1 => h1.renewLink) h

theorem State.LeadsTo.killStaged {p : Nat → Bool} (h : s₀.LeadsTo s) : s₀.LeadsTo (s.killStaged p) := h.of_vital rfl

theorem State.LeadsTo.setKey {n : Nat} {k : Option Key} (h : s₀.LeadsTo s) : s₀.LeadsTo (s.setKey n k) :=
  .ite h (h.of_vital rfl)

theorem State.LeadsTo.clearKeys {p : Nat → Bool} (h : s₀.LeadsTo s) : s₀.LeadsTo (s.clearKeys p) :=
  .foldl (fun h1 => .ite h1.setKey h1) h

theorem State.LeadsTo.endSession (h : s₀.LeadsTo s) : s₀.LeadsTo s.endSession := .of_chouse h.clearKeys.killStaged

theorem State.LeadsTo.newHouse (h : s₀.LeadsTo s) : s₀.LeadsTo s.newHouse := by
  unfold State.newHouse
  have closed : s₀.LeadsTo (s.endSession.rekeyLinks.forget .house) := h.endSession.rekeyLinks.forget
  generalize s.endSession.rekeyLinks.forget .house = t at closed
  exact closed.of_vital rfl

theorem foldl_or_keeps {α : Type} {n : Nat} (f : α → BitVec n) (l : List α) (b : BitVec n) :
    b &&& l.foldl (fun m x => m ||| f x) b = b := by
  induction l generalizing b with
  | nil => exact BitVec.and_self
  | cons x l ih =>
    calc b &&& l.foldl (fun m x => m ||| f x) (b ||| f x)
      _ = (b &&& (b ||| f x)) &&& l.foldl (fun m x => m ||| f x) (b ||| f x) := by rw [and_or_absorb]
      _ = b &&& (b ||| f x) := by rw [BitVec.and_assoc, ih]
      _ = b := and_or_absorb ..

theorem State.LeadsTo.swapBanks (h : s₀.LeadsTo s) : s₀.LeadsTo s.swapBanks := by
  unfold State.swapBanks
  extract_lets hs
  have revoked : s.fuses.revoke &&& hs.foldl (fun m h => m ||| BitVec.ofNat 4 h.revoke) s.fuses.revoke = s.fuses.revoke := by
    rw [← Vector.foldl_toList, foldl_or_keeps]
  have burned := h.of_fuses (f := { s.fuses.burnSvn (hs.foldl (fun m h => max m h.minSvn) s.fuses.svn) with
    revoke := hs.foldl (fun m h => m ||| BitVec.ofNat 4 h.revoke) s.fuses.revoke }) ⟨and_or_absorb .., revoked, id⟩ rfl
  exact burned.of_chouse

theorem State.LeadsTo.finishCommit {r : MgReq} (h : s₀.LeadsTo s) : s₀.LeadsTo (s.finishCommit r) := by
  unfold State.finishCommit
  exact .respond (.leaveUpdate (.ite h.swapBanks h.swapBanks.newHouse))

theorem State.LeadsTo.preempt {kind : Nat → Bool} (h : s₀.LeadsTo s) : s₀.LeadsTo (s.preempt kind) := h.of_vital rfl

theorem State.LeadsTo.completeJob {j : Job} {status : Nat} (h : s₀.LeadsTo s) : s₀.LeadsTo (s.completeJob j status) :=
  .ite (h.of_vital rfl) (.foldl (fun h1 => h1.finishReq) (.finishReq (h.of_vital rfl)))

theorem State.LeadsTo.endJob {slot status d0 d1 : Nat} (h : s₀.LeadsTo s) : s₀.LeadsTo (s.endJob slot status d0 d1) := by
  unfold State.endJob
  split
  · exact h
  · exact h.updJob.stopCores

theorem State.LeadsTo.scrubJob {j : Job} (h : s₀.LeadsTo s) : s₀.LeadsTo (s.scrubJob j) :=
  .ite h.completeJob (by
    dsimp only
    split
    · exact h.updJob.endJob
    · exact .ite h.updJob h.updJob.endJob)

theorem State.LeadsTo.abandonRemap {m : Nat} (h : s₀.LeadsTo s) : s₀.LeadsTo (s.abandonRemap m) := by
  unfold State.abandonRemap
  split
  · exact .updModel h.updCore
  · exact h

theorem State.LeadsTo.abortLoad (h : s₀.LeadsTo s) : s₀.LeadsTo s.abortLoad := h.loadFailure

theorem State.LeadsTo.abortUnloads {p : Nat → Bool} (h : s₀.LeadsTo s) : s₀.LeadsTo (s.abortUnloads p) :=
  .foldl (fun h1 => .ite (.foldl (fun h2 => h2.finishReq) h1.updModel) h1) h

theorem State.LeadsTo.startScrub {k : Scrub} (h : s₀.LeadsTo s) : s₀.LeadsTo (s.startScrub k) :=
  .settlePin (.of_vital (.foldl (fun h1 => h1.abandonRemap) (.abortUnloads (.abortLoad (.foldl (fun h1 => h1.scrubJob) (.ite h.preempt
    h))))) rfl)

theorem State.LeadsTo.beginScrub {r : MgReq} (h : s₀.LeadsTo s) : s₀.LeadsTo (s.beginScrub r) := by
  unfold State.beginScrub
  dsimp only
  split
  · exact h.startScrub
  · exact .ite h.respond (.ite h.respond h.startScrub)
  · exact .ite h.respond (.ite h.respond (.ite h.respond (.startScrub (h.of_vital rfl))))

theorem State.LeadsTo.runWaiting (h : s₀.LeadsTo s) : s₀.LeadsTo s.runWaiting := by
  unfold State.runWaiting
  split
  · exact h
  · split
    · exact .ite h h.respond
    · exact .ite h h.respond
    · exact .ite h.finishCommit h
    · exact .ite h.respond h
    · exact .ite h.beginScrub h

theorem State.LeadsTo.enrol {m : Manifest} (h : s₀.LeadsTo s) (e : s.enrol m = some t) : s₀.LeadsTo t := by
  unfold State.enrol at e
  split at e
  · split at e <;> cases e
    exact h.of_vital rfl
  · cases e

theorem State.LeadsTo.enrolled {m : Manifest} {restore : Bool} (h : s₀.LeadsTo s) : s₀.LeadsTo (s.enrolled m restore) := by
  refine .ite h ?_
  cases e : s.enrol m with
  | none => exact h
  | some t => exact h.enrol e

theorem State.LeadsOn.promoteEntries {c : Fin 64} {i : LoomInstr} {keys : List Nat} : s₀.LeadsOn (promoteEntries c i keys) :=
  .ite (.change fun h => h.updCore) .pure

theorem State.LeadsTo.updChan {ch : Chan} {f : ChanState → ChanState} (h : s₀.LeadsTo s) : s₀.LeadsTo (s.updChan ch f) := by
  unfold State.updChan
  split
  · exact h.of_vital rfl
  · exact h.of_vital rfl

theorem State.LeadsTo.train {ch : Chan} {i : Nat} (h : s₀.LeadsTo s) : s₀.LeadsTo (s.train ch i) := h.updChan

theorem State.LeadsTo.whenOn {f : State → State} (h : s₀.LeadsTo s) (k : ∀ {s}, s₀.LeadsTo s → s₀.LeadsTo (f s)) :
    s₀.LeadsTo (s.whenOn f) := .ite (k h) h

theorem State.LeadsOn.secNow {q : SeqId} {w : W128} {dests : List TD} {body : ExecM Unit} (k : s₀.LeadsOn body) :
    s₀.LeadsOn (secNow q w dests body) :=
  .now (.ite .pure (k.bind fun _ => .pure))

theorem State.LeadsOn.putRuns {q : SeqId} : ∀ {l : List (Nat × Nat)} {b : List Byte}, s₀.LeadsOn (putRuns q l b)
  | [], _ => .pure
  | _ :: _, _ => .bind .writeMem fun _ => State.LeadsOn.putRuns

theorem State.LeadsOn.putMessage {q : SeqId} {t : TD} {b : List Byte} : s₀.LeadsOn (putMessage q t b) :=
  .putRuns

theorem State.LeadsOn.messageOf {q : SeqId} {t : TD} : s₀.LeadsOn (messageOf q t) :=
  .bind (.mapM fun _ => .readMem) fun _ => .pure

theorem State.LeadsOn.needKey {n : Nat} {ty : KeyType} : s₀.LeadsOn (needKey n ty) :=
  .getBind fun _ => by
    split
    · exact .ite .pure .fail
    · exact .fail

theorem State.LeadsOn.secNonce {q : SeqId} {w : W128} : s₀.LeadsOn (secNonce q w) :=
  .bind .scalar fun _ => .bind .scalar fun _ => .pure

theorem State.LeadsTo.writeCmp {q : SeqId} {v : Bool} (h : s₀.LeadsTo s) : s₀.LeadsTo (s.writeCmp q v) := h.updSeqr

theorem State.LeadsOn.putCmp {q : SeqId} {b : Bool} : s₀.LeadsOn (putCmp q b) := .change fun h => h.writeCmp

theorem State.LeadsOn.roomLoom {c : Fin 64} : s₀.LeadsOn (roomLoom c) := by
  unfold Machine.roomLoom
  exact .getBind fun _ => .ite .stall .pure

theorem State.LeadsOn.holdSlots {q : SeqId} {ns : List Nat} : s₀.LeadsOn (holdSlots q ns) := by
  cases q with
  | core c => exact .change fun h => h.updCore fun wf => (congrArg (NatMap.wf 0) (foldl_events _ (by exact fun _ _ => rfl) _ _)).trans wf
  | house => exact .pure

theorem State.LeadsTo.updLoom {c : Fin 64} {uid : Nat} {f : LoomInstr → LoomInstr} (h : s₀.LeadsTo s) :
    s₀.LeadsTo (s.updLoom c uid f) :=
  h.updCore

theorem State.LeadsOn.setLoom {c : Fin 64} {uid : Nat} {f : LoomInstr → LoomInstr} : s₀.LeadsOn (setLoom c uid f) :=
  .change fun h => h.updLoom

theorem State.LeadsOn.takeSlot {c : Fin 64} {t : TD} : s₀.LeadsOn (takeSlot c t) := by
  unfold Machine.takeSlot
  exact .getBind fun _ => by
      split
      · exact .pure
      · exact .ite (.ite .pure (.ite .stall .pure)) (by
          split
          · exact .pure
          · exact .ite .pure .stall)

theorem State.LeadsOn.takeSlots {q : SeqId} : ∀ {ts : List TD}, s₀.LeadsOn (takeSlots q ts)
  | [] => .pure
  | t :: ts => by
    have rest : s₀.LeadsOn (Machine.takeSlots q ts) := .takeSlots
    have place (h : Option TD) : s₀.LeadsOn (match h with
        | none => Pure.pure none
        | some t => do
          match ← Machine.takeSlots q ts with
          | none => return none
          | some ts => return some (t :: ts) : ExecM (Option (List TD))) := by
      cases h with
      | none => exact .pure
      | some t => exact rest.bind fun | none => .pure | some _ => .pure
    unfold Machine.takeSlots
    cases q with
    | core c => exact .iteBind .takeSlot .pure place
    | house => exact .bind .pure place

theorem State.LeadsOn.takeLoom {c : Fin 64} {i : LoomInstr} : s₀.LeadsOn (takeLoom c i) :=
  .bind .takeSlots fun _ => by
    split
    · exact .setLoom
    · exact .bind .holdSlots fun _ => .setLoom

theorem State.LeadsTo.releaseProg {c : Fin 64} (h : s₀.LeadsTo s) : s₀.LeadsTo (s.releaseProg c) := h.of_vital rfl

theorem State.LeadsTo.releaseCap {c : Fin 64} (h : s₀.LeadsTo s) : s₀.LeadsTo (s.releaseCap c) := h.of_vital rfl

theorem State.LeadsTo.releaseLoom {c : Fin 64} {i : LoomInstr} (h : s₀.LeadsTo s) : s₀.LeadsTo (s.releaseLoom c i) :=
  .ite h.releaseProg h.releaseCap

theorem State.LeadsTo.flushTotals {q : SeqId} (h : s₀.LeadsTo s) : s₀.LeadsTo (s.flushTotals q) := by
  unfold State.flushTotals
  split
  · exact h.addTotals.updCore
  · exact h

theorem State.LeadsTo.setActive {c : Fin 64} {es : List Nat} {on : Bool} (h : s₀.LeadsTo s) : s₀.LeadsTo (s.setActive c es on) :=
  .foldl (fun h1 => h1.updEngine) h

theorem State.LeadsTo.failLoom {c : Fin 64} {i : LoomInstr} {e : FaultInfo} (h : s₀.LeadsTo s) : s₀.LeadsTo (s.failLoom c i e) := by
  unfold State.failLoom
  exact .raiseFault (.flushTotals (.updCore (.ite h.releaseLoom.setActive h)))

theorem State.LeadsTo.runLoom {c : Fin 64} {uid : Nat} {body : LoomInstr → ExecM Unit} (h : s₀.LeadsTo s)
    (k : ∀ i, s₀.LeadsOn (body i)) : s₀.LeadsTo (s.runLoom c uid body) := by
  unfold State.runLoom
  split
  · exact h
  · split
    case h_1 run => exact (k _).ok h run
    case h_2 run =>
      refine .ite h.await ?_
      split
      · exact ((k _).error h run).failLoom
      · exact (k _).error h run

theorem State.LeadsTo.checkEnded {c : Fin 64} {i : LoomInstr} (h : s₀.LeadsTo s) : s₀.LeadsTo (s.checkEnded c i) :=
  .foldl (fun h1 => .ite h1 (.foldl (fun h2 => .foundChecks (h2.of_vital rfl)) h1)) h

theorem State.LeadsTo.squash {c : Fin 64} {uid : Nat} (h : s₀.LeadsTo s) : s₀.LeadsTo (s.squash c uid) := by
  unfold State.squash
  extract_lets later hit begun s1 ids s2 s3 s4 s5
  have ended : s₀.LeadsTo s1 := .foldl (fun h => h.checkEnded) h
  exact .ite h (.setActive (.of_waits (.releaseProg (.releaseCap (.updCore (s := s2) ended.count.count)))))

theorem State.LeadsTo.reexecute {c : Fin 64} {i : LoomInstr} (h : s₀.LeadsTo s) : s₀.LeadsTo (s.reexecute c i) := by
  unfold State.reexecute
  exact .count (.updLoom h.squash.updCore)

theorem State.LeadsOn.bumpSeed {q : SeqId} : s₀.LeadsOn (bumpSeed q) := by
  unfold Machine.bumpSeed
  split
  · exact .change fun h => h.updCore
  · exact .pure

theorem State.LeadsOn.goldenRow {q : SeqId} {e : LoomEngine} {r : Nat} : s₀.LeadsOn (goldenRow q e r) :=
  .getBind fun _ => .ite .pure (.bind .readMem fun _ => .pure)

theorem State.LeadsOn.goldenRows {q : SeqId} {e : LoomEngine} {n2 n3 : Nat} : s₀.LeadsOn (goldenRows q e n2 n3) := by
  induction n3 generalizing n2 with
  | zero => exact .pure
  | succ _ ih => exact .bind .goldenRow fun _ => .bind ih fun _ => .pure

theorem State.LeadsOn.plySides {q : SeqId} {e : LoomEngine} : s₀.LeadsOn (plySides q e) :=
  .getBind fun _ => .ite .pure .readSide

theorem State.LeadsOn.plyColumnSums {q : SeqId} {e : LoomEngine} {n : Nat} : s₀.LeadsOn (plyColumnSums q e n) :=
  .getBind fun _ => .ite .pure (.ite (.bind .goldenRows fun _ => .bind .plySides fun _ => .pure) (.bind .readMem fun _ => .pure))

theorem State.LeadsOn.addZeroSums {c : Fin 64} {i : LoomInstr} : s₀.LeadsOn (addZeroSums c i) :=
  .ite .pure (.bind (.mapM fun _ => .plyColumnSums) fun _ => .bind .free64 fun _ => .change fun h => h.updCore)

theorem State.LeadsOn.inputBlocks {c : Fin 64} {t : TD} {tag0 : Option Nat} {l : List Nat} : s₀.LeadsOn (inputBlocks c t tag0 l) := by
  induction l generalizing tag0 with
  | nil => exact .pure
  | cons _ _ ih =>
    exact .bind (.attempt .readBlock) fun _ => by
      split
      · exact .ite .pure .throw
      · exact .bind ih fun _ => .pure

theorem State.LeadsOn.inputRows {c : Fin 64} {i : LoomInstr} : s₀.LeadsOn (inputRows c i) :=
  .ite .pure (.bind .inputBlocks fun _ => .pure)

theorem State.LeadsTo.takeTotals {q : SeqId} (h : s₀.LeadsTo s) : s₀.LeadsTo (s.takeTotals q).2 := by
  unfold State.takeTotals
  cases q with
  | core c => dsimp only; exact h.updCore
  | house => exact h

theorem State.LeadsOn.loomDone {c : Fin 64} {i : LoomInstr} {from_ : Nat} : s₀.LeadsOn (loomDone c i from_) :=
  .getBind fun h => .bind (.set (h.takeTotals (q := .core c))) fun _ => .setLoom

theorem State.LeadsOn.freePlane {c : Fin 64} {keys : List Nat} : s₀.LeadsOn (freePlane c keys) :=
  .bind .freeMany fun _ => .change fun h => h.updCore

theorem State.LeadsOn.escapeWeights {c : Fin 64} {i : LoomInstr} {sw : List Num} : s₀.LeadsOn (escapeWeights c i sw) :=
  .bind (.mapM fun _ => .goldenRows) fun _ => .pure

theorem State.LeadsOn.plyScales {q : SeqId} {e : LoomEngine} {n : Nat} : s₀.LeadsOn (plyScales q e n) :=
  .getBind fun _ => .ite .pure (.bind .readMem fun _ => .pure)

theorem State.LeadsOn.weightScales {c : Fin 64} {i : LoomInstr} : s₀.LeadsOn (weightScales c i) :=
  .ite .pure (.bind (.mapM fun _ => .plyScales) fun _ => .pure)

theorem State.LeadsOn.finishMv {c : Fin 64} {i : LoomInstr} {rows : List (Nat × Num × Nat)} {err : Option (FaultInfo × Nat)} :
    s₀.LeadsOn (finishMv c i rows err) :=
  .bind .promoteEntries fun _ => .bind .weightScales fun _ => .iteBind .escapeWeights .pure fun _ => .getBind fun _ => .finish

theorem State.LeadsOn.endMv {c : Fin 64} {i : LoomInstr} : s₀.LeadsOn (endMv c i) :=
  .getBind fun _ => .ite (.change fun h => h.reexecute) (.bind (.change fun h => h.count) fun _ => .ite (.ite (.bind .freePlane
    fun _ => .bind .fail fun _ => .bind (.change fun h => h.setFlag.count) fun _ => .bind .addZeroSums fun _ => .bind .inputRows
    fun _ => .ite (by
    split
    · exact .throw
    · exact .loomDone) (.bind .finishMv fun _ => .ite (.bind .bumpSeed fun _ => .loomDone) .loomDone)) (.bind (.change fun h =>
        h.setFlag.count) fun _ => .bind .addZeroSums fun _ => .bind .inputRows fun _ => .ite (by
    split
    · exact .throw
    · exact .loomDone) (.bind .finishMv fun _ => .ite (.bind .bumpSeed fun _ => .loomDone) .loomDone))) (.bind .addZeroSums fun _ =>
        .bind .inputRows fun _ => .ite (by
    split
    · exact .throw
    · exact .loomDone) (.bind .finishMv fun _ => .ite (.bind .bumpSeed fun _ => .loomDone) .loomDone)))

theorem State.LeadsOn.checkSy {o : FinishOps} {unit : Nat} : s₀.LeadsOn (checkSy o unit) := .demand

theorem State.LeadsOn.readCodes {c : Fin 64} {i : LoomInstr} {t : Nat} : s₀.LeadsOn (readCodes c i t) :=
  .bind .readMem fun _ => .pure

theorem State.LeadsOn.loadVectors {c : Fin 64} {uid : Nat} {i : LoomInstr} {n : Nat} : s₀.LeadsOn (loadVectors c uid i n) :=
  .bind (.mapM fun _ => .readCodes) fun _ => .setLoom

theorem State.LeadsOn.startMv {c : Fin 64} {i : LoomInstr} : s₀.LeadsOn (startMv c i) :=
  .bind .setLoom fun _ => .guard .checkSy fun _ => .bind .inputRows fun _ => .bind .setLoom fun _ => .ite (.bind .loadVectors fun _ =>
    .bind .setLoom fun _ => .ite (.bind .setLoom fun _ => .bind (.change fun h => .ite h h.releaseCap.setActive) fun _ => .endMv)
    .pure) (.bind .loadVectors fun _ => .ite (.bind .setLoom fun _ => .bind (.change fun h => .ite h h.releaseCap.setActive) fun _ =>
    .endMv) .pure)

theorem State.LeadsTo.tryMv {c : Fin 64} {i : LoomInstr} (h : s₀.LeadsTo s) : s₀.LeadsTo (s.tryMv c i) :=
  .ite (h.runLoom (fun _ => .startMv)) h

theorem State.LeadsTo.beginMv {c : Fin 64} {i : LoomInstr} (h : s₀.LeadsTo s) : s₀.LeadsTo (s.beginMv c i) :=
  .tryMv (.updLoom h.endOpenings.setActive.updCore)

theorem State.LeadsOn.startOther {c : Fin 64} {i : LoomInstr} : s₀.LeadsOn (startOther c i) := by
  unfold Machine.startOther
  dsimp only
  split
  · exact .getBind fun _ => .ite (.bind (.change fun h => .foldl (fun h3 => h3.updPly) h) fun _ => .bind .fail fun _ => .change
      fun h => .foldl (fun h3 => h3.joinOpening) h) (.change fun h => .foldl (fun h3 => h3.joinOpening) h)
  · exact .change fun h => h.endOpenings
  · exact .pure

theorem State.LeadsTo.beginOther {c : Fin 64} {i : LoomInstr} (h : s₀.LeadsTo s) : s₀.LeadsTo (s.beginOther c i) :=
  h.setActive.updLoom.runLoom (fun _ => .startOther)

theorem State.LeadsTo.beginLoom {c : Fin 64} {i : LoomInstr} (h : s₀.LeadsTo s) : s₀.LeadsTo (s.beginLoom c i) := by
  unfold State.beginLoom
  split
  · exact h.beginMv
  · exact h.beginMv
  · exact h.beginOther

theorem State.LeadsTo.granted {g : GrantReq} (h : s₀.LeadsTo s) : s₀.LeadsTo (s.granted g) := by
  unfold State.granted
  split
  · exact .beginLoom (.ite h h.count)
  · exact h

theorem State.LeadsTo.grantCap {g : GrantReq} (h : s₀.LeadsTo s) (e : s.grantCap = some (g, t)) : s₀.LeadsTo t := by
  unfold State.grantCap at e
  split at e
  · split at e <;> cases e
    exact h.of_vital rfl
  · cases e

theorem State.LeadsTo.grantProg {g : GrantReq} (h : s₀.LeadsTo s) (e : s.grantProg = some (g, t)) : s₀.LeadsTo t := by
  unfold State.grantProg at e
  split at e
  · split at e <;> cases e
    exact h.of_vital rfl
  · cases e

theorem State.LeadsTo.tryGrant {c : Fin 64} {i : LoomInstr} (h : s₀.LeadsTo s) : s₀.LeadsTo (s.tryGrant c i) := by
  refine .ite (.ite ?_ h) (.ite ?_ h)
  · split
    case h_1 e => exact (h.grantProg e).granted
    case h_2 => exact h
  · split
    case h_1 e => exact (h.grantCap e).granted
    case h_2 => exact h

theorem State.LeadsTo.runPly {c : Fin 64} {i : LoomInstr} (h : s₀.LeadsTo s) : s₀.LeadsTo (s.runPly c i) :=
  .foldl (fun h1 => h1.updEngine) h.endOpenings

theorem State.LeadsTo.runNoop {c : Fin 64} {i : LoomInstr} (h : s₀.LeadsTo s) : s₀.LeadsTo (s.runNoop c i) :=
  .ite h.updCore h

theorem State.LeadsTo.issueLoom {c : Fin 64} {i : LoomInstr} (h : s₀.LeadsTo s) : s₀.LeadsTo (s.issueLoom c i) :=
  .ite h.runNoop.updLoom (.ite h.runPly.updLoom (.ite h.beginMv (.tryGrant (.ite (h.updLoom.of_vital rfl) (h.updLoom.of_vital rfl)))))

theorem State.LeadsTo.advanceLoom {c : Fin 64} {i : LoomInstr} (h : s₀.LeadsTo s) : s₀.LeadsTo (s.advanceLoom c i) := by
  unfold State.advanceLoom
  split
  · exact .ite h.issueLoom (by
      dsimp only
      split
      · exact .ite ((h.runLoom (fun _ => .takeLoom)).issueLoom) (h.runLoom (fun _ => .takeLoom))
      · exact h.runLoom (fun _ => .takeLoom))
  · exact h.tryMv
  · exact h

theorem State.LeadsTo.pumpLoom {n0 : Nat} {v1 : Fin 64} (h : s₀.LeadsTo s) : s₀.LeadsTo (s.pumpLoom n0 v1) := by
  induction n0 generalizing s with
  | zero => exact h
  | succ _ ih =>
    unfold State.pumpLoom
    split
    · exact .ite h.advanceLoom (ih h.advanceLoom)
    · exact h

theorem State.LeadsTo.foldl_fst {α β : Type} {f : State × β → α → State × β} (l : List α) {x : State × β}
    (step : ∀ {x a}, s₀.LeadsTo x.1 → s₀.LeadsTo (f x a).1) (h : s₀.LeadsTo x.1) : s₀.LeadsTo (l.foldl f x).1 := by
  induction l generalizing x with
  | nil => exact h
  | cons a l ih => exact ih (step h)

theorem State.LeadsTo.changePlies {c : Fin 64} (h : s₀.LeadsTo s) : s₀.LeadsTo (s.changePlies c) := by
  refine .foldl_fst _ (fun h => ?_) h
  split
  · exact h
  · exact h.selectPlies

theorem State.LeadsTo.pump {c : Fin 64} (h : s₀.LeadsTo s) : s₀.LeadsTo (s.pump c) := h.pumpLoom.changePlies

theorem State.LeadsOn.putLoom {c : Fin 64} {i : LoomInstr} : s₀.LeadsOn (putLoom c i) :=
  .change fun h => .pump h.updCore

theorem State.LeadsOn.loomRows {c : Fin 64} {w : W128} {kind : LoomKind} {w8 : Bool} : s₀.LeadsOn (loomRows c w kind w8) :=
  .bind .operand fun _ => .getBind fun _ => .bind .demand fun _ => .bind .demand fun _ => .bind .roomLoom fun _ => .bind .newEntry
    fun _ => .bind .putLoom fun _ => .pure

theorem State.LeadsOn.loomOn {q : SeqId} {body : Fin 64 → ExecM Flow} (k0 : ∀ a0, s₀.LeadsOn (body a0)) :
    s₀.LeadsOn (loomOn q body) := by
  unfold Machine.loomOn
  split
  · exact (k0 _)
  · exact .fail

theorem State.LeadsTo.undoSession {u : SessionUndo} (h : s₀.LeadsTo s) : s₀.LeadsTo (s.undoSession u) :=
  .poke (.ite (h.setKey.of_vital rfl) h)

theorem State.LeadsTo.undoKeys (h : s₀.LeadsTo s) : s₀.LeadsTo s.undoKeys :=
  .of_vital (.foldl (fun h1 => h1.undoSession) h.preempt) rfl

theorem State.LeadsTo.sigFail (h : s₀.LeadsTo s) : s₀.LeadsTo s.sigFail := h.of_vital rfl

theorem State.LeadsTo.mgRotate {r : MgReq} (h : s₀.LeadsTo s) : s₀.LeadsTo (s.mgRotate r) :=
  .ite h.sigFail.respond (.respond (.of_chouse h.undoKeys.endSession.rekeyLinks))

theorem State.LeadsTo.mgLock {r : MgReq} (h : s₀.LeadsTo s) : s₀.LeadsTo (s.mgLock r) :=
  .respond (.of_chouse (h.of_fuses (f := { s.fuses with debugOff := true }) ⟨BitVec.and_self, BitVec.and_self, fun _ => rfl⟩ rfl))

theorem State.LeadsTo.mgUnfenceCore {c : Fin 64} (h : s₀.LeadsTo s) : s₀.LeadsTo (s.mgUnfenceCore c) := h.updCore

theorem State.LeadsTo.mgUnfence {r : MgReq} (h : s₀.LeadsTo s) : s₀.LeadsTo (s.mgUnfence r) :=
  .ite (.raiseIrq (.ite (.of_vital (.foldl (fun h1 => h1.mgUnfenceCore) h) rfl) (.shapeChange
    (.of_vital (.foldl (fun h1 => h1.mgUnfenceCore) h) rfl)))) (.ite (.of_vital (.foldl (fun h1 => h1.mgUnfenceCore) h) rfl)
    (.shapeChange (.of_vital (.foldl (fun h1 => h1.mgUnfenceCore) h) rfl)))

theorem State.LeadsTo.acceptCommit {r : MgReq} (h : s₀.LeadsTo s) : s₀.LeadsTo (s.acceptCommit r) :=
  .ite (.respond (h.swapBanks.of_vital rfl)) (h.of_vital rfl)

theorem State.LeadsTo.updSpare {f : Bank → Bank} (h : s₀.LeadsTo s) : s₀.LeadsTo (s.updSpare f) :=
  h.of_vital rfl

theorem State.LeadsTo.fillSpare {kinds : Nat} (h : s₀.LeadsTo s) : s₀.LeadsTo (s.fillSpare kinds) := h.updSpare

theorem State.LeadsTo.mgCommit {r : MgReq} (h : s₀.LeadsTo s) : s₀.LeadsTo (s.mgCommit r) := by
  have filled : s₀.LeadsTo (s.fillSpare (leAt r.args 0 1)) := h.fillSpare
  unfold State.mgCommit
  dsimp only
  split
  · exact filled.respond
  · exact .ite filled.acceptCommit (.ite (.acceptCommit filled.of_chouse) filled.respond)

theorem State.LeadsTo.mgStage {r : MgReq} (h : s₀.LeadsTo s) : s₀.LeadsTo (s.mgStage r) :=
  h.draw.updSpare.respond

theorem State.LeadsTo.mgProfile {r : MgReq} (h : s₀.LeadsTo s) : s₀.LeadsTo (s.mgProfile r) :=
  .respond (.ite (.of_vital (.ite (.ite h.writeProfile.writeLimits h.writeProfile.writeLimits.writeCap) (.writeWhCeil
    (.ite h.writeProfile.writeLimits h.writeProfile.writeLimits.writeCap))) rfl)
    (.raiseIrq (.of_vital (.ite (.ite h.writeProfile.writeLimits h.writeProfile.writeLimits.writeCap) (.writeWhCeil
    (.ite h.writeProfile.writeLimits h.writeProfile.writeLimits.writeCap))) rfl)))

theorem State.LeadsTo.mgStatus {r : MgReq} (h : s₀.LeadsTo s) : s₀.LeadsTo (s.mgStatus r) :=
  .respond (h.of_vital rfl)

theorem State.LeadsTo.mgEnrol {r : MgReq} (h : s₀.LeadsTo s) : s₀.LeadsTo (s.mgEnrol r) :=
  .ite h.respond (.respond (h.of_vital rfl))

theorem State.LeadsTo.mgFenceCore {c : Fin 64} (h : s₀.LeadsTo s) : s₀.LeadsTo (s.mgFenceCore c) :=
  .ite h.updCore (.fenceEffects h.updCore)

theorem State.LeadsTo.mgFence {r : MgReq} (h : s₀.LeadsTo s) : s₀.LeadsTo (s.mgFence r) :=
  .ite (.raiseIrq (.ite (.of_vital (.foldl (fun h1 => h1.mgFenceCore) (.ite h.abortUnloads.loadFailure h.abortUnloads)) rfl)
    (.shapeChange (.of_vital (.foldl (fun h1 => h1.mgFenceCore) (.ite h.abortUnloads.loadFailure h.abortUnloads)) rfl))))
    (.ite (.of_vital (.foldl (fun h1 => h1.mgFenceCore) (.ite h.abortUnloads.loadFailure h.abortUnloads)) rfl) (.shapeChange
    (.of_vital (.foldl (fun h1 => h1.mgFenceCore) (.ite h.abortUnloads.loadFailure h.abortUnloads)) rfl)))

theorem State.LeadsTo.mgForce {r : MgReq} (h : s₀.LeadsTo s) : s₀.LeadsTo (s.mgForce r) :=
  .raiseIrq (h.writeForce.of_vital rfl)

theorem State.LeadsTo.mgExecute {r : MgReq} (h : s₀.LeadsTo s) : s₀.LeadsTo (s.mgExecute r) := by
  unfold State.mgExecute
  exact .ite (h.of_vital rfl) (by
      split
      · exact h.mgStatus
      · exact h.respond
      · exact h.mgFence.runWaiting
      · exact h.mgUnfence.runWaiting
      · exact h.mgProfile
      · exact h.mgStage
      · exact h.mgCommit.runWaiting
      · exact h.mgRotate
      · exact h.mgEnrol
      · exact h.mgForce.runWaiting
      · exact .ite h.mgLock (.runWaiting (h.of_vital rfl))
      · exact .runWaiting (h.of_vital rfl))

theorem State.LeadsTo.mgChecked {r : MgReq} {f : List Byte} (h : s₀.LeadsTo s) : s₀.LeadsTo (s.mgChecked r f) := by
  have known {b : Bool} {m : Mgmt} : s₀.LeadsTo (if b then { s with mgmt := m } else s) := h.of_mgmt.ite h
  exact .ite h.respond (.ite h.sigFail.respond (.ite known.respond (.ite known.of_mgmt.respond known.of_mgmt.mgExecute)))

theorem State.LeadsTo.mgWrite {f : List Byte} (h : s₀.LeadsTo s) : s₀.LeadsTo (s.mgWrite f) :=
  .ite (h.of_vital rfl) (.ite (.respond (.wakeEvent (h.of_vital rfl))) (.mgChecked (.wakeEvent (h.of_vital rfl))))

theorem State.Answers.manage {i : Instr} {own : Bool} {f : List Byte} (h : s₀.LeadsTo s) (e : i.frameWf = own := by rfl) :
    s₀.Answers i.wf (s.manage own f) := by
  unfold State.manage
  split
  · exact .of h.mgWrite
  · rename_i bad
    simpa [State.Answers, Instr.wf, e] using fun _ _ => bad

theorem State.LeadsTo.enterStaging {q : SeqId} {m : Nat} {e : QEntry} (h : s₀.LeadsTo s) : s₀.LeadsTo (s.enterStaging q m e) :=
  .ite h (.updSeqr (h.of_vital rfl))

theorem State.LeadsOn.copyRows {q : SeqId} {unit : Nat} {a b : TD} {l : List (Nat × Nat × Nat)} :
    s₀.LeadsOn (copyRows q unit a b l) := by
  induction l with
  | nil => exact .pure
  | cons r rs ih =>
    unfold Machine.copyRows
    extract_lets jp
    have row (u : PUnit) : s₀.LeadsOn (jp u) := .bind .readMem fun _ => .bind .writeCodes fun _ => ih
    exact .ite (.bind .readMem fun _ => .bind .writeMem row) (row ())

theorem State.LeadsOn.moveBody {q : SeqId} {unit : Nat} {s d : TD} : s₀.LeadsOn (moveBody q unit s d) :=
  .copyRows

theorem State.LeadsOn.prefetchBody {q : SeqId} {s : TD} : s₀.LeadsOn (prefetchBody q s) :=
  .change fun h => .foldl (fun h2 => by
    dsimp only
    split
    · exact .ite h2.cacheRead h2
    · exact h2) h

theorem State.LeadsOn.moverWork {q : SeqId} {unit : Nat} {k : QueueWork} {ss ds : List TD} :
    s₀.LeadsOn (moverWork q unit k ss ds) := by
  unfold Machine.moverWork
  split
  · exact .moveBody
  · exact .prefetchBody
  · exact .pure

theorem State.LeadsTo.faultEntry {q : SeqId} {e : QEntry} {f : FaultInfo} (h : s₀.LeadsTo s) : s₀.LeadsTo (s.faultEntry q e f) :=
  h.flushTotals.updSeqr.raiseFault

theorem State.LeadsOn.withEnd {q : SeqId} {producer : Bool} {v2 : ExecM Unit} (k0 : s₀.LeadsOn v2) :
    s₀.LeadsOn (withEnd q producer v2) :=
  .bind (.attempt k0) fun _ => .guard .bumpSeed fun _ => by
    split
    · exact .pure
    · exact .throw

theorem State.LeadsOn.startEntry {q : SeqId} {e : QEntry} {run : List TD → List TD → ExecM Unit} (k : ∀ a b, s₀.LeadsOn (run a b)) :
    s₀.LeadsOn (startEntry q e run) := by
  refine .getBind fun _ => .iteBind .pure .takeSlots fun taken => ?_
  cases taken with
  | none => exact .guard .bumpSeed fun _ => .pure
  | some ts => exact .bind (.withEnd (k _ _)) fun _ => .bind .holdSlots fun _ => .getBind fun h => .bind (.set h.takeTotals) fun _ => .pure

theorem State.LeadsTo.pumpMover {q : SeqId} {m : Nat} (h : s₀.LeadsTo s) : s₀.LeadsTo (s.pumpMover q m) := by
  unfold State.pumpMover
  split
  case h_2 => exact h
  case h_1 e _ _ =>
    split
    · exact h
    · rename_i k _
      have start : s₀.LeadsOn (startEntry q e (moverWork q (4 + m) k)) := .startEntry fun _ _ => .moverWork
      refine .ite h.enterStaging ?_
      split
      case h_1 run => exact (start.ok h run).updSeqr
      case h_2 run => exact .ite h.await (start.error h run).faultEntry

theorem State.LeadsOn.mergeRows {q : SeqId} {out : Nat} {t : TD} {l : List (Nat × Nat × Nat)} : s₀.LeadsOn (mergeRows q out t l) := by
  induction l with
  | nil => exact .pure
  | cons _ _ ih => exact .bind .readMem fun _ => .bind ih fun _ => .pure

theorem State.LeadsOn.putScalar {q : SeqId} {n v : Nat} : s₀.LeadsOn (putScalar q n v) := .change fun h => h.updSeqr

theorem State.LeadsOn.putFloat {q : SeqId} {rd : Nat} {v2 : Num} : s₀.LeadsOn (putFloat q rd v2) :=
  .putScalar

theorem State.LeadsOn.redToReg {q : SeqId} {rd : Nat} {r : RedRow} : s₀.LeadsOn (redToReg q rd r) := by
  unfold Machine.redToReg
  split
  · exact .putScalar
  · exact .putFloat
  · exact .bind .free64 fun _ => .putScalar

theorem State.LeadsOn.redToRegs {q : SeqId} {rd : Nat} {l : List RedRow} : s₀.LeadsOn (redToRegs q rd l) := by
  induction l with
  | nil => exact .pure
  | cons _ _ ih => exact .bind .redToReg fun _ => ih

theorem State.LeadsOn.redSat {q : SeqId} {rows : List RedRow} : s₀.LeadsOn (redSat q rows) :=
  .getBind fun _ => .ite (.bind .demand fun _ => .change fun h => h.setFlag.countSeq) .pure

theorem State.LeadsOn.redWrite {q : SeqId} {w : W128} {dst : Option TD} {rows : List RedRow} : s₀.LeadsOn (redWrite q w dst rows) :=
  .bind .redSat fun _ => .bind .flagInvalid fun _ => by
    split
    · exact .redToRegs
    · exact .ite .putRecords .writeOut

theorem State.LeadsOn.redBody {q : SeqId} {w : W128} {one : Option Num} {ss ds : List TD} : s₀.LeadsOn (redBody q w one ss ds) := by
  unfold Machine.redBody
  dsimp only
  split
  · exact .bind (.change fun h => h.countSeq) fun _ => .redWrite
  · exact .ite (.bind .mergeRows fun _ => .redWrite) (.bind .sourceLines fun _ => .bind .free64 fun _ => .bind (.change fun h =>
      h.countSeq) fun _ => .bind .redWrite fun _ => by
      split
      · exact .throw
      · exact .pure)
  · exact .pure

theorem State.LeadsOn.vecRead {q : SeqId} {form : Nat} : ∀ {l : List VecArg}, s₀.LeadsOn (vecRead q form l)
  | [] => .pure
  | .unused :: _ => .bind .pure fun _ => .bind State.LeadsOn.vecRead fun _ => .pure
  | .scalar _ :: _ => .bind .pure fun _ => .bind State.LeadsOn.vecRead fun _ => .pure
  | .tensor _ :: _ => .bind .sourceLines fun _ => .bind .pure fun _ => .bind State.LeadsOn.vecRead fun _ => .pure

theorem State.LeadsOn.vecCount {q : SeqId} {rows : List (OutRow × List VecRes)} : s₀.LeadsOn (vecCount q rows) :=
  .bind (.change fun h => h.countSeq.countConv) fun _ => .bind .flagInvalid fun _ => .pure

theorem State.LeadsOn.vecToReg {q : SeqId} {w : W128} {o : FinishOps} {rows : List OutRow} : s₀.LeadsOn (vecToReg q w o rows) := by
  unfold Machine.vecToReg
  extract_lets rd jp
  have last (rows : List OutRow) : s₀.LeadsOn (jp rows) := by
    unfold jp
    split
    · split
      · exact .throw
      · exact .ite .putScalar .putFloat
      · exact .pure
    · exact .pure
  exact .ite (.bind .pure last) (.bind .prepChain fun _ => .bind .chainRows fun _ => .bind .flagInvalid fun _ => .bind .pure last)

theorem State.LeadsOn.vecBody {q : SeqId} {w : W128} {o : FinishOps} {args : List VecArg} {thr : Num} {ss ds : List TD} :
    s₀.LeadsOn (vecBody q w o args thr ss ds) :=
  .bind .vecRead fun _ => .bind .vecCount fun _ => by
    split
    · exact .vecToReg
    · exact .finish

theorem State.LeadsOn.writeRaw {q : SeqId} {t : TD} {vs : List Nat} : s₀.LeadsOn (writeRaw q t vs) :=
  .writeCodes

theorem State.LeadsOn.writeValues {q : SeqId} {t : TD} {vs : List Num} : s₀.LeadsOn (writeValues q t vs) :=
  .writeOut

theorem State.LeadsOn.topElems {t : TD} : ∀ {l : List ((Nat × Nat × Nat) × Line)}, s₀.LeadsOn (topElems t l)
  | [] => .pure
  | (r, l) :: ls => by
    unfold Machine.topElems
    extract_lets here jp
    have last (u : PUnit) : s₀.LeadsOn (jp u) := .bind State.LeadsOn.topElems fun _ => .pure
    split
    · exact .bind .throw last
    · exact last ()

theorem State.LeadsOn.topBody {q : SeqId} {small merge : Bool} {k nlist : Nat} {ss ds : List TD} :
    s₀.LeadsOn (topBody q small merge k nlist ss ds) :=
  .bind .sourceLines fun _ => .bind .topElems fun _ => .iteBind .readCandidates .pure fun _ => .bind (.change fun h => h.countSeq)
    fun _ => .bind .writeValues fun _ => .writeRaw

theorem State.LeadsOn.matCount {q : SeqId} {m : MatMode} {outs k n : Nat} : s₀.LeadsOn (matCount q m outs k n) :=
  .change fun h => h.countSeq.countSeq

theorem State.LeadsOn.matRead {q : SeqId} {int tb : Bool} {tda tdb : TD} : s₀.LeadsOn (matRead q int tb tda tdb) :=
  .bind .sourceLines fun _ => .bind .sourceLines fun _ => .bind .colRecs fun _ => .ite .pure (by
    split
    · exact .throw
    · exact .pure)

theorem State.LeadsOn.matBody {q : SeqId} {c : Fin 64} {p : MatPlan} {o : FinishOps} {tb : Bool} {ss ds : List TD} :
    s₀.LeadsOn (matBody q c p o tb ss ds) := by
  unfold Machine.matBody
  exact .guard .checkSy fun _ => .bind .matRead fun _ => .getBind fun _ => .bind .updMill fun _ => .bind .flagInvalid fun _ => .bind
    .matCount fun _ => .ite (by
      split
      · exact .throw
      · exact .pure) .matFinish

theorem State.LeadsOn.startMatmul {q : SeqId} {c : Fin 64} {mode : MatMode} {acc hold tb abandons : Bool} {tri : Option Nat}
    {o : FinishOps} {ss ds : List TD} :
    s₀.LeadsOn (startMatmul q c mode acc hold tb abandons tri o ss ds) :=
  .getBind fun _ => .ite (.bind .abandonMill fun _ => .matBody) .matBody

theorem State.LeadsOn.loadTable {q : SeqId} {n : Nat} {ss l : List TD} : s₀.LeadsOn (loadTable q n ss l) :=
  .bind .readMem fun _ => .bind .demand fun _ => by
    split
    · exact .change fun h => h.updCore
    · exact .pure

theorem State.LeadsOn.rngBody {q : SeqId} {uf : Bool} {key base : Nat} {l ds : List TD} : s₀.LeadsOn (rngBody q uf key base l ds) :=
  .bind (.change fun h => h.countSeq) fun _ => .writeOut

theorem State.LeadsOn.readKeys {q : SeqId} {t : TD} : s₀.LeadsOn (readKeys q t) :=
  .bind .sourceLines fun _ => by
    split
    · split
      · exact .throw
      · exact .pure
    · exact .pure

theorem State.LeadsOn.readRaw {q : SeqId} {t : TD} : s₀.LeadsOn (readRaw q t) :=
  .ite .pure (.bind .readMem fun _ => .pure)

theorem State.LeadsOn.sortBody {q : SeqId} {desc : Bool} {ss ds : List TD} : s₀.LeadsOn (sortBody q desc ss ds) :=
  .bind .readKeys fun _ => .bind .readRaw fun _ => .bind .free64 fun _ => .bind (.change fun h => h.countSeq) fun _ => .bind
    .flagInvalid fun _ => .bind .writeValues fun _ => .writeRaw

theorem State.LeadsOn.evalBody {q : SeqId} {w : W128} {ss ds : List TD} : s₀.LeadsOn (evalBody q w ss ds) :=
  .getBind fun _ => .bind .sourceLines fun _ => .bind .flagInvalid fun _ => .bind (.change fun h => h.countSeq) fun _ => .writeOut

theorem State.LeadsOn.trieNode {q : SeqId} {t : Trie} {i : Nat} : s₀.LeadsOn (trieNode q t i) :=
  .bind .demand fun _ => .bind .readMem fun _ => .pure

theorem State.LeadsOn.trieEdge {q : SeqId} {t : Trie} {label n3 n4 n5 : Nat} : s₀.LeadsOn (trieEdge q t label n3 n4 n5) := by
  induction n3 generalizing n4 n5 with
  | zero => exact .pure
  | succ _ ih => exact .ite .pure (.bind .readMem fun _ => .ite .pure (.ite ih ih))

theorem State.LeadsOn.trieChild {q : SeqId} {t : Trie} {node label : Nat} : s₀.LeadsOn (trieChild q t node label) :=
  .bind .demand fun _ => .trieEdge

theorem State.LeadsOn.walkFrom {q : SeqId} {t : Trie} {l : List Nat} {n3 n4 : Nat} {v5 : Option (Nat × Nat)} :
    s₀.LeadsOn (walkFrom q t l n3 n4 v5) := by
  induction l generalizing n3 n4 v5 with
  | nil => exact .pure
  | cons _ _ ih =>
    exact .bind .trieChild fun _ => by
      split
      · exact .pure
      · exact .bind .trieNode fun _ => ih

theorem State.LeadsOn.walkAll {q : SeqId} {t : Trie} {inp : List Nat} {byteBase bound n5 n6 : Nat} {l : List Nat} :
    s₀.LeadsOn (walkAll q t inp byteBase bound n5 n6 l) := by
  induction n5 generalizing n6 l with
  | zero => exact .pure
  | succ _ ih =>
    exact .ite .pure (.bind (.attempt (.bind .trieNode fun _ => .walkFrom)) fun _ => by
      split
      · exact .pure
      · exact ih
      · exact ih)

theorem State.LeadsOn.walkBody {q : SeqId} {w : W128} {byteBase : Nat} {ss ds : List TD} : s₀.LeadsOn (walkBody q w byteBase ss ds) :=
  .bind .readRaw fun _ => .bind .walkAll fun _ => .bind (.change fun h => h.countSeq) fun _ => .bind .writeValues fun _ => by
    split
    · exact .throw
    · exact .bind (.change fun h => h.updSeqr) fun _ => .putScalar

theorem State.LeadsOn.millWork {q : SeqId} {w : W128} {k : QueueWork} {ss ds : List TD} : s₀.LeadsOn (millWork q w k ss ds) := by
  unfold Machine.millWork
  split
  · split
    · exact .startMatmul
    · exact .pure
  · exact .vecBody
  · exact .redBody
  · exact .sortBody
  · exact .topBody
  · exact .loadTable
  · exact .evalBody
  · exact .rngBody
  · exact .walkBody
  · exact .pure
  · exact .pure
  · exact .pure

theorem State.LeadsTo.startMill {q : SeqId} {e : QEntry} {k : QueueWork} (h : s₀.LeadsTo s) : s₀.LeadsTo (s.startMill q e k).1 := by
  have start : s₀.LeadsOn (startEntry q e (millWork q e.word k)) := .startEntry fun _ _ => .millWork
  unfold State.startMill
  split
  case h_1 run => dsimp only; exact (start.ok h run).updSeqr
  case h_2 f t run =>
    split
    · exact h.await
    · exact (start.error h run).faultEntry

theorem State.LeadsTo.pumpMillN {n0 : Nat} {v1 : SeqId} (h : s₀.LeadsTo s) : s₀.LeadsTo (s.pumpMillN n0 v1) := by
  induction n0 generalizing s with
  | zero => exact h
  | succ _ ih =>
    unfold State.pumpMillN
    split
    · exact .ite (ih h.startMill) h.startMill
    · exact h

theorem State.LeadsTo.pumpMill {q : SeqId} (h : s₀.LeadsTo s) : s₀.LeadsTo (s.pumpMill q) := h.pumpMillN

theorem State.LeadsTo.pumpQueues {q : SeqId} (h : s₀.LeadsTo s) : s₀.LeadsTo (s.pumpQueues q) :=
  .foldl (fun h1 => h1.pumpMover) (.pumpMill (by
    split
    · exact h.pump
    · exact h))

theorem State.LeadsTo.answered {v1 : Asked} {code : Nat} {data : List Byte} (h : s₀.LeadsTo s) :
    s₀.LeadsTo (s.answered v1 code data) := by
  unfold State.answered
  exact .pumpQueues (h.of_vital rfl)

theorem State.LeadsTo.takeReply {op : Config.StitchOp} {data : List Byte} (h : s₀.LeadsTo s) : s₀.LeadsTo (s.takeReply op data) := by
  unfold State.takeReply
  split
  · exact h.answered
  · exact h

theorem State.LeadsOn.millTableLoad {q : SeqId} {w : W128} : s₀.LeadsOn (millTableLoad q w) :=
  .bind .operand fun _ => .getBind fun _ => .ite (.bind .stall fun _ => .runMill) .runMill

theorem coldAssay_wf {a : Assay} (h : NatMap.wf {} a.plies = true) : NatMap.wf {} (coldAssay a).plies = true := by
  have all (m : NatMap AssayPly) (b : Nat) (wf : NatMap.wfFrom {} b m = true) : NatMap.wfFrom {} b
      ((m.map (fun e => (e.1, coldAssayPly e.2))).filter (fun e => decide (e.2 ≠ {}))) = true := by
    induction m generalizing b with
    | nil => rfl
    | cons e m ih =>
      obtain ⟨i, a⟩ := e
      simp only [NatMap.wfFrom, Bool.and_eq_true, decide_eq_true_eq] at wf
      obtain ⟨⟨low, -⟩, wf⟩ := wf
      rw [List.map_cons, List.filter_cons]
      split
      · rename_i kept
        simp only [NatMap.wfFrom, Bool.and_eq_true, decide_eq_true_eq]
        exact ⟨⟨low, by simpa using kept⟩, ih _ wf⟩
      · exact NatMap.wfFrom_le _ (by omega) (ih _ wf)
  exact all a.plies 0 h

theorem State.Follows.cold {b : Boot} (h : s₀.LeadsTo s) : s₀.Follows (s.cold b) :=
  ⟨h.pending, h.burns, h.made, fun c₀ =>
    have c := h.canon c₀
    {
    mem := NatMap.keep_wf 0 (fun a => a / 2 ^ 44 = 0) _ c.mem
    poison := NatMap.keep_wf false (fun g => g / 2 ^ 38 = 0) _ c.poison
    written := c.written
    plies := c.plies
    cells := c.cells
    pkgEvents := rfl
    assayPlies := coldAssay_wf c.assayPlies
    stored := c.stored
    counters := fun k m => by rw [Vector.eq_of_mem_replicate m]; rfl
    tallies := fun k m => by rw [Vector.eq_of_mem_replicate m]; rfl
    events := fun k m => by rw [Vector.eq_of_mem_replicate m]; rfl }⟩

theorem State.LeadsTo.powerEngines (h : s₀.LeadsTo s) : s₀.LeadsTo s.powerEngines :=
  h.of_cores fun wf k m => by
    obtain ⟨i, lt, rfl⟩ := Vector.mem_iff_getElem.mp m
    rw [Vector.getElem_mapFinIdx]
    exact wf s.cores[i] (Vector.getElem_mem lt)

theorem State.LeadsTo.of_shape {p : Shape} (h : s₀.LeadsTo s) : s₀.LeadsTo { s with shape := p } := h.of_vital rfl

theorem State.LeadsTo.bootTest {c : Fin 64} (h : s₀.LeadsTo s) : s₀.LeadsTo (s.bootTest c) := by
  unfold State.bootTest
  extract_lets pass s1 s2 s3
  have drawn : s₀.LeadsTo s1 := h.of_vital rfl
  have fenced : s₀.LeadsTo s2 := drawn.updCore
  exact .ite drawn (.needRemaps (.logEvent fenced.of_shape))

theorem State.LeadsTo.bootTests (h : s₀.LeadsTo s) : s₀.LeadsTo s.bootTests :=
  .of_vital (.foldl (fun h1 => h1.bootTest) h) rfl

theorem State.LeadsTo.ageUnpowered (h : s₀.LeadsTo s) : s₀.LeadsTo s.ageUnpowered :=
  .of_vital (s := (s.drawMany 8).2) h.drawMany rfl

theorem State.Follows.hardwarePhase (h : s₀.LeadsTo s) : s₀.Follows s.hardwarePhase := by
  have cold : s₀.Follows (s.cold .selfTest) := .cold h
  have aged := (State.LeadsTo.refl (s.cold .selfTest)).ageUnpowered
  unfold State.hardwarePhase
  generalize (s.cold .selfTest).ageUnpowered = t at aged
  have powered := State.LeadsTo.powerEngines (s := { t with
    house := { running := true, codeLen := 4096 }, supply := { t.supply with holding := false } }) (aged.of_vital rfl)
  exact cold.leads (.ite powered.bootTests powered.raiseIrq)

theorem State.LeadsTo.reply {e : Entry} {slot status : Nat} (h : s₀.LeadsTo s) : s₀.LeadsTo (s.reply e slot status) :=
  h.finishReq

theorem State.LeadsTo.dumpAll {f : State → Nat → DumpEntry × State} (k : ∀ {s n}, s₀.LeadsTo s → s₀.LeadsTo (f s n).2)
    {l : List Nat} (h : s₀.LeadsTo s) : s₀.LeadsTo (dumpAll f l s).2 := by
  induction l generalizing s with
  | nil => exact h
  | cons n l ih => exact ih (k h)

theorem State.LeadsTo.dumpCore {c : Fin 64} {ev : Nat} (h : s₀.LeadsTo s) : s₀.LeadsTo (s.dumpCore c ev).2 := h.sampleCore

theorem State.LeadsTo.dumpCores {ops : Nat} {l : List (Fin 64)} (h : s₀.LeadsTo s) : s₀.LeadsTo (State.dumpCores ops l s).2 := by
  induction l generalizing s with
  | nil => exact h
  | cons c l ih => exact ih (.ite_snd (.dumpAll (fun h => h.dumpCore) h) h)

theorem State.LeadsTo.dumpPkg {ev : Nat} (h : s₀.LeadsTo s) : s₀.LeadsTo (s.dumpPkg ev).2 := h.pkgEvent

theorem State.LeadsTo.dump {r : DumpReq} (h : s₀.LeadsTo s) : s₀.LeadsTo (s.dump r).2 :=
  .dumpCores (.ite_snd (.dumpAll (fun h => h.dumpPkg) h) h)

theorem State.LeadsTo.ledgerConfig {r : DumpReq} (h : s₀.LeadsTo s) : s₀.LeadsTo (s.ledgerConfig r) :=
  .lgCtrlSet (h.countPkg.of_vital rfl)

theorem State.LeadsTo.runDump {e : Entry} {slot : Nat} {r : DumpReq} (h : s₀.LeadsTo s) : s₀.LeadsTo (s.runDump e slot r) :=
  .finishReq (.ite (.ledgerConfig (.poke (.of_vital (.ite h.dump h) rfl))) (.poke (.of_vital (.ite h.dump h) rfl)))

theorem State.LeadsTo.doDump {e : Entry} {slot : Nat} (h : s₀.LeadsTo s) : s₀.LeadsTo (s.doDump e slot) := by
  unfold State.doDump
  split
  · exact h.reply
  · exact .ite h.runDump h.reply

theorem State.LeadsTo.addJob {j : Job} (h : s₀.LeadsTo s) : s₀.LeadsTo (s.addJob j) := h.of_vital rfl

theorem State.LeadsTo.acceptDump {e : Entry} {slot : Nat} (h : s₀.LeadsTo s) : s₀.LeadsTo (s.acceptDump e slot) :=
  .ite h.addJob h.doDump

theorem State.LeadsTo.linkDown {n : Nat} (h : s₀.LeadsTo s) : s₀.LeadsTo (s.linkDown n) :=
  .ite (.shapeChange (h.of_vital rfl)) (h.of_vital rfl)

theorem State.LeadsTo.fenceLink {n : Nat} (h : s₀.LeadsTo s) : s₀.LeadsTo (s.fenceLink n) := h.logEvent.linkDown.updLink

theorem State.LeadsTo.discardFrame {n : Nat} (h : s₀.LeadsTo s) : s₀.LeadsTo (s.discardFrame n) :=
  .ite h.updLink.countPkg.fenceLink h.updLink.countPkg

theorem State.LeadsTo.hearLoad {op : Config.StitchOp} (h : s₀.LeadsTo s) : s₀.LeadsTo (s.hearLoad op) := by
  unfold State.hearLoad
  split
  · exact .ite h.loadFailure h
  · exact h

theorem State.LeadsTo.applyRequest {op : Config.StitchOp} {data : List Byte} (h : s₀.LeadsTo s) :
    s₀.LeadsTo (s.applyRequest op data) :=
  .ite h (.ite (.sendFrame (h.of_vital rfl)) (.ite (.sendFrame (.poke (h.of_vital rfl))) (.ite (.sendFrame (h.of_vital rfl))
    (.sendFrame (h.of_vital rfl)))))

theorem State.LeadsTo.acceptFrame {n : Nat} {header data : List Byte} (h : s₀.LeadsTo s) : s₀.LeadsTo (s.acceptFrame n header data) :=
  .ite h.updLink.sendFrame (.ite h.updLink.applyRequest (.ite h.updLink.hearLoad h.updLink.takeReply))

theorem State.LeadsTo.whenTaken {f : State → State} (h : s₀.LeadsTo s) (k : ∀ {s}, s₀.LeadsTo s → s₀.LeadsTo (f s)) :
    s₀.LeadsTo (s.whenTaken f) := .ite (k h) h

theorem State.LeadsTo.selfTest {c : Fin 64} (h : s₀.LeadsTo s) : s₀.LeadsTo (s.selfTest c).2 :=
  .ite (h.of_vital rfl) (.fenceCore (h.of_vital rfl))

theorem State.LeadsTo.returnCore {c : Fin 64} (h : s₀.LeadsTo s) : s₀.LeadsTo (s.returnCore c) :=
  .ite (.updCore (h.of_vital rfl)) (.ite (.updCore (h.of_vital rfl)) (.shapeChange (.updCore (h.of_vital rfl))))

theorem State.LeadsTo.acceptCancel {e : Entry} {slot : Nat} (h : s₀.LeadsTo s) : s₀.LeadsTo (s.acceptCancel e slot) := by
  unfold State.acceptCancel
  dsimp only
  split
  · exact h.reply
  · exact .ite h.completeJob h.updJob.endJob

theorem State.LeadsTo.takeHead (h : s₀.LeadsTo s) : s₀.LeadsTo s.takeHead := .countPkg (h.of_vital rfl)

theorem State.Answers.accept {want : Entry → Bool} {f : Entry → Nat → State → State} {wf : Bool}
    (k : ∀ {e n s}, s₀.LeadsTo s → s₀.LeadsTo (f e n s)) (h : s₀.LeadsTo s) : s₀.Answers wf (s.accept want f) := by
  unfold State.accept
  split
  · exact .of h
  · exact .of (.ite h (.ite h.takeHead.finishReq (k h.takeHead)))

theorem State.LeadsOn.setRD {q : SeqId} {w : W128} {f : Seqr → Nat} : s₀.LeadsOn (setRD q w f) :=
  .now (.getBind fun _ => .bind .putScalar fun _ => .pure)

theorem State.LeadsOn.readPart {q : SeqId} {unit : Nat} {t : TD} {r : Nat × Nat × Nat} {o n : Nat} :
    s₀.LeadsOn (readPart q unit t r o n) :=
  .bind .readMem fun _ => .pure

theorem State.LeadsOn.addV {q : SeqId} {w : W128} : s₀.LeadsOn (addV q w) :=
  .ite (.bind .scalar fun _ => .pure) .pure

theorem State.LeadsTo.alertAt {t : Int} (h : s₀.LeadsTo s) : s₀.LeadsTo (s.alertAt t) :=
  .ite (.logEvent (h.of_vital rfl)) (.ite (h.of_vital rfl) h)

theorem State.LeadsTo.throttleAt {t : Int} (h : s₀.LeadsTo s) : s₀.LeadsTo (s.throttleAt t) :=
  .ite (h.of_vital rfl) (.ite (h.of_vital rfl) h)

theorem State.LeadsTo.abandonLoom {c : Fin 64} (h : s₀.LeadsTo s) : s₀.LeadsTo (s.abandonLoom c) :=
  .ite h (.releaseProg (.releaseCap h.count.updCore))

theorem State.LeadsTo.abandonLooms (h : s₀.LeadsTo s) : s₀.LeadsTo s.abandonLooms := .foldl (fun h1 => h1.abandonLoom) h

theorem State.LeadsTo.markTrip (h : s₀.LeadsTo s) : s₀.LeadsTo s.markTrip := h.of_vital rfl

theorem State.LeadsTo.haltPort (h : s₀.LeadsTo s) : s₀.LeadsTo s.haltPort := .ite (.raiseIrq (h.of_vital rfl)) h

theorem State.LeadsTo.endRunning {status : Nat} (h : s₀.LeadsTo s) : s₀.LeadsTo (s.endRunning status) :=
  .foldl (fun h1 => h1.endJob) h

theorem State.LeadsTo.enterTrip (h : s₀.LeadsTo s) : s₀.LeadsTo s.enterTrip :=
  .ite h h.markTrip.endRunning.abandonLooms.logEvent.haltPort.wakeEvent

theorem State.LeadsTo.thermal (h : s₀.LeadsTo s) : s₀.LeadsTo s.thermal := by
  unfold State.thermal
  split
  · exact h
  · exact .ite h.alertAt.throttleAt.enterTrip h.alertAt.throttleAt

theorem State.LeadsTo.tempTriggers {k : Nat} {t : Int} (h : s₀.LeadsTo s) : s₀.LeadsTo (s.tempTriggers k t) :=
  .foldl (fun h1 => .ite (.trigger (.updAssay (.ite h1.updAssay h1))) (.updAssay (.ite h1.updAssay h1))) h

theorem State.LeadsTo.renewTemp {source code : Nat} (h : s₀.LeadsTo s) : s₀.LeadsTo (s.renewTemp source code) :=
  .thermal (.ite (by
    dsimp only
    split
    · exact .tempTriggers (.of_vital (h.of_vital rfl) rfl)
    · exact h.of_vital rfl) (h.of_vital rfl))

theorem State.LeadsTo.acceptSample {cv : Converting} {r : MonResult} (h : s₀.LeadsTo s) : s₀.LeadsTo (s.acceptSample cv r) :=
  .ite (.ite h.updAssay h) h

theorem State.LeadsTo.writeResult {cv : Converting} {raw : Int} (h : s₀.LeadsTo s) : s₀.LeadsTo (s.writeResult cv raw) :=
  .ite (.acceptSample (h.draw.of_vital rfl)) (.ite (.renewTemp (h.draw.of_vital rfl)) (h.draw.of_vital rfl))

theorem State.LeadsOn.addT {q : SeqId} {w : W128} : s₀.LeadsOn (addT q w) :=
  .ite (.bind .scalar fun _ => .pure) .pure

theorem State.LeadsOn.bufferOp {q : SeqId} {w : W128} {idx : Nat} {v : Int} {t : Nat} : s₀.LeadsOn (bufferOp q w idx v t) :=
  .getBind fun _ => .guard .stall fun _ => .bind .newEntry fun _ => .bind (.change fun h => h.updSeqr) fun _ => .pure

theorem State.LeadsOn.syncIndex {q : SeqId} {w : W128} {ireg : Bool} : s₀.LeadsOn (syncIndex q w ireg) :=
  .ite (.bind .scalar fun _ => .bind .pure fun _ => .getBind fun _ => .bind .demand fun _ => .pure) (.bind .pure fun _ => .getBind
    fun _ => .bind .demand fun _ => .pure)

theorem State.LeadsOn.sampleSteps {q : SeqId} {l : List (Nat × Nat × Nat)} {i : Nat} : s₀.LeadsOn (sampleSteps q i l) := by
  induction l generalizing i with
  | nil => exact .pure
  | cons x l ih =>
    obtain ⟨step, opnd, param⟩ := x
    unfold Machine.sampleSteps
    extract_lets reg jp
    have value (td : Option TD) : s₀.LeadsOn (jp td) := .iteBind .scalar .pure fun _ => ih.bind fun _ => .pure
    exact .ite (.bind .operandAt fun _ => .bind .pure value) (.bind .pure value)

theorem State.LeadsOn.chainOperand {q : SeqId} {chn : Nat} {tdd : Option TD} {span : Option Nat} :
    s₀.LeadsOn (chainOperand q chn tdd span) :=
  .ite .pure (.bind .sampleSlot fun _ => .bind .sampleSteps fun _ => .bind .demand fun _ => .ite (by
    split
    · exact .bind .demand fun _ => .pure
    · exact .bind .fail fun _ => .pure) .pure)

theorem State.LeadsOn.outRec {q : SeqId} {n : Nat} : s₀.LeadsOn (outRec q n) := .bind .scalar fun _ => .pure

theorem State.LeadsOn.finishOps {q : SeqId} {w : W128} {derived : Bool} {chain : List ChainStep} :
    s₀.LeadsOn (finishOps q w derived chain) :=
  .bind .outRec fun _ => .getBind fun _ => .pure

theorem State.LeadsOn.vecArg {q : SeqId} {w : W128} {i : Nat} : s₀.LeadsOn (vecArg q w i) :=
  .ite .pure (.ite (.bind .scalar fun _ => .pure) (.bind .operand fun _ => .pure))

theorem State.LeadsOn.millVec {q : SeqId} {w : W128} : s₀.LeadsOn (millVec q w) :=
  .ite (.bind .pure fun _ => .bind .vecArg fun _ => .bind .vecArg fun _ => .bind .vecArg fun _ => .bind .chainOperand fun _ => .bind
    .finishOps fun _ => .bind .scalar fun _ => .runMill) (.bind .operand fun _ => .bind .pure fun _ => .bind .vecArg fun _ => .bind
    .vecArg fun _ => .bind .vecArg fun _ => .bind .chainOperand fun _ => .bind .finishOps fun _ => .bind .scalar fun _ => .runMill)

theorem State.LeadsOn.millRow {q : SeqId} {body : ExecM Flow} (k0 : s₀.LeadsOn body) : s₀.LeadsOn (millRow q body) :=
  .bind k0 fun _ => .bind (.change fun h => h.pumpMill) fun _ => .pure

theorem State.LeadsTo.leaveScrub (h : s₀.LeadsTo s) : s₀.LeadsTo s.leaveScrub :=
  .ite (.raiseIrq (.of_vital (h.of_vital rfl) rfl)) (.actRecorded (.of_vital (h.of_vital rfl) rfl))

theorem State.LeadsTo.map_cores {f : Core → Core} (h : s₀.LeadsTo s)
    (events : ∀ k, NatMap.wf 0 k.events = true → NatMap.wf 0 (f k).events = true := by exact fun _ => id) :
    s₀.LeadsTo { s with cores := s.cores.map f } :=
  h.of_cores fun wf k m => by
    obtain ⟨u, mem, rfl⟩ := Vector.mem_map.mp m
    exact events u (wf u mem)

theorem State.LeadsOn.drainDigital {c : Fin 64} {i : LoomInstr} {n : Nat} {xs : List Nat} : s₀.LeadsOn (drainDigital c i n xs) :=
  .bind .goldenRows fun _ => .pure

theorem State.LeadsOn.drainBody {c : Fin 64} {n v : Nat} {i : LoomInstr} : s₀.LeadsOn (drainBody c n v i) :=
  .bind .freeMany fun _ => .getBind fun _ => .iteBind .drainDigital .pure fun _ => .bind (.change fun h => h.foundChecks) fun _ =>
    .guard (.change fun h => h.count) fun _ => .bind .plySides fun _ => .bind .setLoom fun _ => .bind (.change fun h => h.count)
    fun _ => .ite (.change fun h => h.setFlag) .pure

theorem State.LeadsOn.drawRandom : s₀.LeadsOn (drawRandom) := .getBind fun h1 => .bind (.set (h1.of_vital rfl)) fun _ => .pure

theorem State.LeadsTo.probeApplied {q : Nat} (h : s₀.LeadsTo s) : s₀.LeadsTo (s.probeApplied q) := .ite h h.writeSums

theorem State.LeadsTo.keepRecord {n : Nat} {b : List Byte} (h : s₀.LeadsTo s) : s₀.LeadsTo (s.keepRecord n b) :=
  h.of_stored (NatMap.put_wf ([], []) _ n _)

theorem State.LeadsTo.takeRecord {n : Nat} {b : List Byte} (h : s₀.LeadsTo s) : s₀.LeadsTo (s.takeRecord n b) := by
  unfold State.takeRecord
  split
  · exact h.of_vital rfl
  · exact h.of_vital rfl
  · exact .foldl (fun h1 => h1.updPly) h
  · exact .foldl (fun h1 => h1.updPly) h
  · exact .foldl (fun h1 => h1.updAssay) h
  · exact h

theorem State.LeadsTo.writeRecord {n : Nat} {b : List Byte} (h : s₀.LeadsTo s) : s₀.LeadsTo (s.writeRecord n b) :=
  .ite h (.ite (.keepRecord (h.of_vital rfl)) (.ite (.keepRecord (h.of_vital rfl)) (.keepRecord (.keepRecord (.takeRecord (h.of_vital
    rfl))))))

theorem State.LeadsTo.loseWarehouse (h : s₀.LeadsTo s) : s₀.LeadsTo s.loseWarehouse :=
  h.of_canon fun c => { c with
    mem := NatMap.keep_wf 0 (fun a => a / 2 ^ 44 ≠ 0) _ c.mem
    poison := NatMap.keep_wf false (fun g => g / 2 ^ 38 ≠ 0) _ c.poison
    written := rfl }

theorem State.LeadsTo.cutStore (h : s₀.LeadsTo s) : s₀.LeadsTo s.cutStore := .ite (h.draw.of_vital rfl) h.draw

theorem State.LeadsOn.roomMover {q : SeqId} {m : Nat} : s₀.LeadsOn (roomMover q m) := .getBind fun _ => .ite .stall .pure

theorem State.LeadsOn.putMover {q : SeqId} {m : Nat} {e : QEntry} : s₀.LeadsOn (putMover q m e) :=
  .change fun h => h.updSeqr

theorem State.LeadsOn.runMove {q : SeqId} {w : W128} {src : TD} {dst : Option TD} {noop regStore : Bool} {work : QueueWork} :
    s₀.LeadsOn (runMove q w src dst noop regStore work) :=
  .bind .roomMover fun _ => .bind .newEntry fun _ => .bind .putMover fun _ => .pure

theorem State.LeadsOn.moveStage {q : SeqId} {w : W128} : s₀.LeadsOn (moveStage q w) :=
  .bind .operand fun _ => .runMove

theorem State.LeadsTo.failSlots {p : Nat → Model → Bool} (h : s₀.LeadsTo s) : s₀.LeadsTo (s.failSlots p) :=
  h.of_vital rfl

theorem State.LeadsTo.powerTrigger (h : s₀.LeadsTo s) : s₀.LeadsTo s.powerTrigger := .foldl (fun h1 => h1.updAssay.trigger) h

theorem State.LeadsTo.headerLost (h : s₀.LeadsTo s) : s₀.LeadsTo s.headerLost := .powerTrigger (h.of_vital rfl)

theorem State.LeadsTo.storeTrigger {q : Nat} (h : s₀.LeadsTo s) : s₀.LeadsTo (s.storeTrigger q) := .ite h h.updAssay.trigger

theorem State.LeadsTo.residencyLost {qs : List Nat} (h : s₀.LeadsTo s) : s₀.LeadsTo (s.residencyLost qs) :=
  .foldl (fun h1 => h1.updPly) h.failSlots

theorem State.LeadsTo.rebuildRecord {n m : Nat} (h : s₀.LeadsTo s) : s₀.LeadsTo (s.rebuildRecord n m) :=
  .keepRecord (.keepRecord (.takeRecord (h.of_vital rfl)))

theorem State.LeadsTo.of_badRecords {b : List Nat} (h : s₀.LeadsTo s) :
    s₀.LeadsTo { s with assay := { s.assay with badRecords := b } } := h.of_vital rfl

theorem State.LeadsTo.recordLost {n : Nat} (h : s₀.LeadsTo s) : s₀.LeadsTo (s.recordLost n) := by
  unfold State.recordLost
  extract_lets a s1
  have bad : s₀.LeadsTo s1 := h.of_vital rfl
  split
  · refine .ite bad.rebuildRecord ?_
    dsimp only
    split
    · exact .headerLost bad.of_badRecords
    · exact .failSlots bad.of_badRecords
    · exact .residencyLost bad.of_badRecords
    · exact .foldl (fun h => h.updPly) bad.of_badRecords
    · exact bad.of_badRecords
  · split
    · exact .foldl (fun h => h.storeTrigger) bad.of_badRecords
    · exact bad.of_badRecords

theorem State.LeadsOn.matPair {tda tdb : TD} {tb : Bool} : s₀.LeadsOn (matPair tda tdb tb) := by
  unfold Machine.matPair
  dsimp only
  split
  · exact .fail
  · exact .bind .demand fun _ => .pure

theorem State.LeadsOn.millMatmul {q : SeqId} {c : Fin 64} {w : W128} : s₀.LeadsOn (millMatmul q c w) :=
  .bind .roomMill fun _ => .bind .operand fun _ => .bind .operand fun _ => .bind .operand fun _ => .bind .chainOperand fun _ => .bind
    .matPair fun _ => .getBind fun _ => .bind .demand fun _ => .bind .demand fun _ => .bind .demand fun _ => .bind .finishOps fun _ =>
    .ite (.bind .updMill fun _ => .runMill) .runMill

theorem State.LeadsTo.loseCores (h : s₀.LeadsTo s) : s₀.LeadsTo s.loseCores :=
  h.of_canon fun c => { c with
    mem := NatMap.keep_wf 0 (fun a => a / 2 ^ 44 ≠ 1) _ c.mem
    poison := NatMap.keep_wf false (fun g => g / 2 ^ 38 ≠ 1) _ c.poison
    counters := Vector.forall_mem_map.mpr fun _ _ => rfl
    tallies := Vector.forall_mem_map.mpr fun _ _ => rfl
    events := Vector.forall_mem_map.mpr c.events }

theorem State.LeadsTo.sleepIn {g : Nat} (h : s₀.LeadsTo s) : s₀.LeadsTo (s.sleepIn g) := by
  have reached : s₀.LeadsTo { s with power := { s.power with cur := g, entering := none } } := h.of_vital rfl
  unfold State.sleepIn
  dsimp only
  split
  · exact reached.map_cores
  · exact .monitorOff reached.map_cores
  · exact .loseCores (reached.of_vital rfl)
  · exact reached.loseWarehouse
  · exact reached

theorem State.LeadsTo.enterSleep (h : s₀.LeadsTo s) : s₀.LeadsTo s.enterSleep := by
  unfold State.enterSleep
  split
  · exact h.sleepIn
  · exact h

theorem State.LeadsTo.leaveSelfRefresh {ch : Chan} (h : s₀.LeadsTo s) : s₀.LeadsTo (s.leaveSelfRefresh ch) :=
  .ite h (.ite (.wakeEvent (.of_vital h.updChan rfl)) (.of_vital h.updChan rfl))

theorem State.LeadsTo.scrubCounters (h : s₀.LeadsTo s) : s₀.LeadsTo s.scrubCounters :=
  .of_vital (h.of_pkgEvents (events := []) fun _ => rfl) rfl

theorem State.LeadsTo.buildSeal {ephPub nonce : List Byte} (h : s₀.LeadsTo s) : s₀.LeadsTo (s.buildSeal ephPub nonce).2.2 :=
  h.of_vital rfl

theorem State.LeadsTo.answerChallenge {n : Nat} {nonce : List Byte} (h : s₀.LeadsTo s) : s₀.LeadsTo (s.answerChallenge n nonce) :=
  .of_latch (.updLink (.of_chouse (.setKey h.random32)))

theorem State.LeadsTo.postDeferred {n0 : Nat} (h : s₀.LeadsTo s) : s₀.LeadsTo (s.postDeferred n0) := by
  induction n0 generalizing s with
  | zero => exact h
  | succ _ ih =>
    unfold State.postDeferred
    split
    · exact h
    · exact .ite h (ih (.post (h.of_vital rfl)))

theorem State.LeadsTo.i3cGives {b : List Byte} (h : s₀.LeadsTo s) : s₀.LeadsTo (s.i3cGives b) := h.of_vital rfl

theorem State.LeadsTo.i3cNack (h : s₀.LeadsTo s) : s₀.LeadsTo s.i3cNack := h.of_vital rfl

theorem State.Answers.i3cRead {b : List Byte} {wf : Bool} (h : s₀.LeadsTo s) : s₀.Answers wf (s.i3cRead b) :=
  .of (.ite h.i3cGives h.i3cNack)

theorem State.LeadsOn.draw32 : s₀.LeadsOn (draw32) := .getBind fun h1 => .bind (.set h1.random32) fun _ => .pure

theorem State.LeadsTo.nuEstimate {q : Nat} {g t : W32} {temp : Int} (h : s₀.LeadsTo s) : s₀.LeadsTo (s.nuEstimate q g t temp) :=
  .updAssay (.ite h.updPly h)

theorem State.LeadsTo.placeAge {q : Nat} (h : s₀.LeadsTo s) : s₀.LeadsTo (s.placeAge q) := by
  unfold State.placeAge
  split
  · exact h
  · exact h.updAssay.updPly

theorem State.LeadsTo.settleAges {k : Nat} (h : s₀.LeadsTo s) : s₀.LeadsTo (s.settleAges k) :=
  .ite h (.foldl (fun h1 => h1.placeAge) (h.of_vital rfl))

theorem State.LeadsTo.estimateAge {q : Nat} {f : LightFit} (h : s₀.LeadsTo s) : s₀.LeadsTo (s.estimateAge q f) :=
  h.updAssay.settleAges

theorem State.LeadsTo.rf7Report {c : Fin 64} {e : Nat} {reported : Bool} (h : s₀.LeadsTo s) : s₀.LeadsTo (s.rf7Report c e reported) :=
  .ite h.updEngine.fenceCore h.updEngine

theorem State.LeadsTo.finishLight {q : Nat} (h : s₀.LeadsTo s) : s₀.LeadsTo (s.finishLight q) :=
  .rf7Report (.updAssay (.countPkg (.updAssay (.ite (.countPkg (.nuEstimate (.updCore (.ite h.estimateAge h))))
    (.updCore (.ite h.estimateAge h))))))

theorem State.LeadsTo.fullFit {q : Nat} {rows : List (List (ℚ × ℚ))} (h : s₀.LeadsTo s) : s₀.LeadsTo (s.fullFit q rows) :=
  h.updAssay

theorem State.LeadsTo.restorePly {q : Nat} {d : DirEntry} {w8 : Bool} (h : s₀.LeadsTo s) : s₀.LeadsTo (s.restorePly q d w8).2 := by
  unfold State.restorePly
  exact .ite_snd h.selectPlies.verifyAll.updLoad.loadPly h.selectPlies.verifyAll.updLoad.fullFit.registerPly.updAssay

theorem State.LeadsTo.openSession {prk : List Byte} (h : s₀.LeadsTo s) : s₀.LeadsTo (s.openSession prk) :=
  .of_chouse h.endSession.setKey.setKey.setKey

theorem State.LeadsTo.replyWith {e : Entry} {slot d0 d1 : Nat} (h : s₀.LeadsTo s) : s₀.LeadsTo (s.replyWith e slot d0 d1) :=
  h.finishReq

theorem State.LeadsTo.runSession {e : Entry} {slot : Nat} {b : List Byte} (h : s₀.LeadsTo s) : s₀.LeadsTo (s.runSession e slot b) := by
  unfold State.runSession
  dsimp only
  split
  · exact .ite h.reply (.ite h.reply (.replyWith (.poke (.openSession (h.of_vital rfl)))))
  · exact h.reply

theorem State.LeadsTo.scrubRings (h : s₀.LeadsTo s) : s₀.LeadsTo s.scrubRings := h.of_vital rfl

theorem State.LeadsOn.writeRecords {j : Job} {binds : List Nat} : s₀.LeadsOn (writeRecords j binds) :=
  .getBind fun _ => .bind (.mapM fun _ => .writeMem) fun _ => .pure

theorem State.LeadsOn.tensorRows {k : Sink} {l : List OutRow} {v2 : Convert} : s₀.LeadsOn (tensorRows k l v2) := by
  induction l generalizing v2 with
  | nil => exact .pure
  | cons _ _ ih =>
    exact .bind (.ite .writeBlockedRow .writePlainRow) fun _ => by
      split
      · exact ih
      · exact .throw

theorem State.LeadsOn.drawBytes {n0 : Nat} : s₀.LeadsOn (drawBytes n0) := by
  induction n0 with
  | zero => exact .pure
  | succ _ ih => exact .bind .draw32 fun _ => .bind ih fun _ => .pure

theorem State.LeadsOn.loomProbe {c : Fin 64} {w : W128} : s₀.LeadsOn (loomProbe c w) :=
  .bind .operand fun _ => .getBind fun _ => .bind .demand fun _ => .bind .roomLoom fun _ => .bind .newEntry fun _ => .bind .putLoom
    fun _ => .pure

theorem State.LeadsTo.acceptLoad {restore : Bool} {e : Entry} {slot : Nat} (h : s₀.LeadsTo s) :
    s₀.LeadsTo (s.acceptLoad restore e slot) :=
  .ite h.reply (.ite h.reply (by
    split
    · exact h.reply
    · exact .ite h.reply (by
        split
        · exact h.finishReq
        · exact .ite h.reply (by
            split
            · exact h.reply
            · exact h.of_vital rfl))))

theorem State.LeadsTo.takePlies {l : LoadReq} (h : s₀.LeadsTo s) : s₀.LeadsTo (s.takePlies l) :=
  .foldl (fun h1 => h1.updPly) h

theorem State.LeadsTo.freePly {q : Nat} (h : s₀.LeadsTo s) : s₀.LeadsTo (s.freePly q) := h.updPly.dropDir

theorem State.LeadsTo.freeOutside {m : Nat} {keep : List Nat} (h : s₀.LeadsTo s) : s₀.LeadsTo (s.freeOutside m keep) :=
  .foldl (fun h1 => h1.freePly) h

theorem State.LeadsTo.retrySearch (h : s₀.LeadsTo s) : s₀.LeadsTo s.retrySearch :=
  .foldl (fun h1 => .ite h1 (by
    split
    · exact h1.updModel
    · exact h1)) h

theorem State.LeadsTo.endSwap {l : LoadReq} {m : Manifest} (h : s₀.LeadsTo s) : s₀.LeadsTo (s.endSwap l m) :=
  h.freeOutside.takePlies.enterModel.updModel.closeLoad.retrySearch

theorem State.LeadsTo.readRing {key n : Nat} (h : s₀.LeadsTo s) : s₀.LeadsTo (s.readRing key n).2 := .ite_snd h.draw h

theorem State.LeadsTo.acceptPipe {e : Entry} {slot : Nat} (h : s₀.LeadsTo s) : s₀.LeadsTo (s.acceptPipe e slot) := by
  unfold State.acceptPipe
  dsimp only
  split
  · exact h.reply
  · exact .ite h.reply (.ite h.reply h.addJob)

theorem State.LeadsTo.startTraining {n : Nat} (h : s₀.LeadsTo s) : s₀.LeadsTo (s.startTraining n) := h.updLink.wakeEvent

theorem State.LeadsTo.writeWharf {a : Nat} {data : Burst} (h : s₀.LeadsTo s) : s₀.LeadsTo (s.writeWharf a data) := by
  unfold State.writeWharf
  dsimp only
  split
  · exact h.setDrop
  · refine .ite h.setDrop (.ite h.setDrop (.ite h ?_))
    have taken {l : LoadReq} {p : Port} : s₀.LeadsTo { s with load := some l, port := p } := h.of_vital rfl
    split
    · exact .ite taken.pokeMasked taken
    · exact taken

theorem State.LeadsTo.monitorOn (h : s₀.LeadsTo s) : s₀.LeadsTo s.monitorOn := .ite h (.monTrigger (h.of_vital rfl))

theorem State.LeadsTo.tapSample {c : Fin 64} {i : LoomInstr} {row : List Nat} (h : s₀.LeadsTo s) :
    s₀.LeadsTo (s.tapSample c i row) := by
  unfold State.tapSample
  dsimp only
  split
  · exact h
  · exact .ite h h.drawMany.updCore

theorem State.LeadsOn.windowBody {c : Fin 64} {i : LoomInstr} : s₀.LeadsOn (windowBody c i) :=
  .ite (.bind (.change fun h => h.tapSample) fun _ => .bind .setLoom fun _ => .ite (.bind .setLoom fun _ => .change fun h =>
    h.releaseCap) .loadVectors) .pure

theorem State.LeadsTo.retryJob {j : Job} (h : s₀.LeadsTo s) : s₀.LeadsTo (s.retryJob j) := h.of_vital rfl

theorem State.LeadsTo.goldenLost {mslot : Nat} (h : s₀.LeadsTo s) : s₀.LeadsTo (s.goldenLost mslot) := .logEvent (h.of_vital rfl)

theorem State.LeadsOn.checkWindow {q : SeqId} {w : W128} {pos : Nat} {t : TD} : s₀.LeadsOn (checkWindow q w pos t) :=
  .demand

theorem State.LeadsOn.moveCopy {q : SeqId} {w : W128} {load : Bool} : s₀.LeadsOn (moveCopy q w load) :=
  .bind .operand fun _ => .bind .operand fun _ => .bind .checkWindow fun _ => .bind .checkWindow fun _ => .bind .demand fun _ =>
    .runMove

theorem State.LeadsOn.moveRow {q : SeqId} {body : ExecM Flow} (k0 : s₀.LeadsOn body) : s₀.LeadsOn (moveRow q body) :=
  .bind k0 fun _ => .bind (.change fun h => h.pumpQueues) fun _ => .pure

theorem State.LeadsTo.recordDigest {img : List Byte} (h : s₀.LeadsTo s) : s₀.LeadsTo (s.recordDigest img) :=
  .ite h (.ite (h.of_vital rfl) (h.of_vital rfl))

theorem State.LeadsOn.checkMv {c : Fin 64} {w : W128} {t : Bool} {es : List LoomEngine} {tda tdd : TD} :
    s₀.LeadsOn (checkMv c w t es tda tdd) :=
  .getBind fun _ => .bind .demand fun _ => .bind .demand fun _ => .bind .demand fun _ => .bind .demand fun _ => .bind .demand fun _ =>
    .bind .demand fun _ => .demand

theorem State.LeadsTo.acceptJob {e : Entry} {slot : Nat} (h : s₀.LeadsTo s) : s₀.LeadsTo (s.acceptJob e slot) :=
  .ite h.addJob h.reply

theorem State.LeadsTo.manifestPassed {l : LoadReq} {m : Manifest} (h : s₀.LeadsTo s) : s₀.LeadsTo (s.manifestPassed l m) := by
  unfold State.manifestPassed
  split
  · exact h.loadFailure
  · exact .ite h.loadFailure (.ite h.loadFailure (h.of_vital rfl))

theorem State.LeadsTo.manifestDamaged {l : LoadReq} (h : s₀.LeadsTo s) : s₀.LeadsTo (s.manifestDamaged l) :=
  .ite (h.of_vital rfl) (.ite h.loadFailure (.finishReq (h.of_vital rfl)))

theorem State.LeadsTo.acceptSigner {m : Manifest} {mslot : Nat} {restore : Bool} (h : s₀.LeadsTo s)
    (e : s.acceptSigner m mslot restore = some t) : s₀.LeadsTo t := by
  unfold State.acceptSigner at e
  split at e
  · split at e <;> cases e
    exact h
  · split at e
    · cases e
    · exact h.enrol (Option.filter_eq_some_iff.mp e).1

theorem State.LeadsTo.checkManifest {l : LoadReq} {b : List Byte} (h : s₀.LeadsTo s) : s₀.LeadsTo (s.checkManifest l b) := by
  refine .ite h.loadFailure ?_
  dsimp only
  split
  case h_1 => exact h.enrolled.loadFailure
  case h_2 e => exact .ite (h.acceptSigner e).manifestPassed (h.acceptSigner e).manifestDamaged

theorem State.LeadsTo.stagePage {p : Chan × Nat} (h : s₀.LeadsTo s) : s₀.LeadsTo (s.stagePage p) :=
  .ite (.of_vital (.ite_snd h.sealPage h) rfl) (.of_vital (.ite_snd h.sealPage h) rfl)

theorem State.LeadsTo.movePly {m q : Nat} {q' : Nat} (h : s₀.LeadsTo s) : s₀.LeadsTo (s.movePly m q q') :=
  h.updPly.updPly.updModel.putDir.dropDir

theorem State.LeadsTo.queueRun {j : Job} (h : s₀.LeadsTo s) : s₀.LeadsTo (s.queueRun j) := h.of_vital rfl

theorem State.LeadsTo.startCore {j : Job} {img : List Byte} {r core : Nat} (h : s₀.LeadsTo s) :
    s₀.LeadsTo (s.startCore j img r core) :=
  .count h.updCore

theorem State.LeadsOn.millSort {q : SeqId} {w : W128} : s₀.LeadsOn (millSort q w) :=
  .bind .operand fun _ => .bind .operand fun _ => .bind .operand fun _ => .bind .operand fun _ => .bind .demand fun _ => .runMill

theorem State.LeadsOn.openChain {c : Fin 64} {w : W128} {t w8 : Bool} : s₀.LeadsOn (openChain c w t w8) :=
  .change fun h => h.updCore fun wf => by split <;> exact wf

theorem State.LeadsOn.loomMv {c : Fin 64} {w : W128} {t : Bool} : s₀.LeadsOn (loomMv c w t) :=
  .getBind fun _ => .guard .stall fun _ => .bind .operand fun _ => .bind .operand fun _ => .bind .chainOperand fun _ => .getBind
    fun _ => .guard .checkMv fun _ => .bind .finishOps fun _ => .bind .roomLoom fun _ => .bind .newEntry fun _ => .ite (.bind .putLoom
    fun _ => .pure) (.getBind fun _ => .bind .openChain fun _ => .bind .putLoom fun _ => .pure)

theorem State.LeadsOn.writeTensor {k : Sink} {rows : List OutRow} : s₀.LeadsOn (writeTensor k rows) :=
  .bind .tensorRows fun _ => by
    split
    · exact .writeSides
    · exact .pure

theorem State.LeadsTo.convertTensor {l : LoadReq} {m : Manifest} {layer place : Nat} (h : s₀.LeadsTo s) :
    s₀.LeadsTo (s.convertTensor l m layer place) := by
  unfold State.convertTensor
  extract_lets r own cs td int8 scales rows bell k s1 s2 s3
  have placed : s₀.LeadsTo s1 := .ite h.scramble h
  have tensor : s₀.LeadsOn (writeTensor k rows) := .writeTensor
  have written : s₀.LeadsTo s2 := by
    unfold s2
    split
    case h_1 run => exact tensor.ok placed run
    case h_2 run => exact tensor.error placed run
  have scaled : s₀.LeadsTo s3 := .ite written.poke written
  split
  · exact scaled.of_vital rfl
  · exact scaled

theorem State.LeadsTo.markConverted {chunk : Nat} (h : s₀.LeadsTo s) : s₀.LeadsTo (s.markConverted chunk) := by
  unfold State.markConverted
  split
  · exact h.of_vital rfl
  · exact h

theorem State.LeadsTo.writeBundle {l : LoadReq} {m : Manifest} {c : ChunkRec} {bundle : Nat} (h : s₀.LeadsTo s) :
    s₀.LeadsTo (s.writeBundle l m c bundle).2 :=
  h.poke.poke.poke

theorem State.LeadsTo.of_load {l : Option LoadReq} (h : s₀.LeadsTo s) : s₀.LeadsTo { s with load := l } := h.of_vital rfl

theorem State.LeadsTo.convertPly {m : Manifest} {c : ChunkRec} {q bundle : Nat} (h : s₀.LeadsTo s) :
    s₀.LeadsTo (s.convertPly m c q bundle) := by
  unfold State.convertPly
  split
  · exact h
  · exact .of_load h.writeBundle

theorem State.LeadsTo.convertPlies {m : Manifest} {c : ChunkRec} {n3 : Nat} {l : List Nat} (h : s₀.LeadsTo s) :
    s₀.LeadsTo (s.convertPlies m c n3 l) := by
  induction l generalizing s n3 with
  | nil => exact h
  | cons _ _ ih => exact ih h.convertPly

theorem State.LeadsTo.convertChunk {l : LoadReq} {m : Manifest} {chunk place : Nat} (h : s₀.LeadsTo s) :
    s₀.LeadsTo (s.convertChunk l m chunk place) :=
  .ite h.markConverted (.ite h.markConverted.convertPlies (by
    split
    · exact .ite h.markConverted.convertTensor h.markConverted
    · exact h.markConverted))

theorem State.Answers.i3cWrite {f : Mgmt → Mgmt} {wf : Bool} (h : s₀.LeadsTo s) : s₀.Answers wf (s.i3cWrite f) :=
  .of (.ite h.of_mgmt h)

theorem State.LeadsTo.trained {n : Nat} {half : Bool} (h : s₀.LeadsTo s) : s₀.LeadsTo (s.trained n half) :=
  .ite h.random32.updLink.fenceLink h.random32.updLink

theorem State.LeadsTo.pumpCores (h : s₀.LeadsTo s) : s₀.LeadsTo s.pumpCores := .foldl (fun h1 => h1.pump) h

theorem State.LeadsTo.chunkDamaged {l : LoadReq} {i : Nat} {c : ChunkRec} (h : s₀.LeadsTo s) : s₀.LeadsTo (s.chunkDamaged l i c) :=
  .ite h.loadFailure (.finishReq (h.of_vital rfl))

theorem State.LeadsTo.checkChunk {l : LoadReq} {m : Manifest} {i : Nat} (h : s₀.LeadsTo s) : s₀.LeadsTo (s.checkChunk l m i) :=
  .ite (h.of_vital rfl) h.chunkDamaged

theorem State.LeadsOn.setTally {k : Fin 8} {f : Tally → Tally} (wf : ∀ t, NatMap.wf false t.map = true → NatMap.wf false (f t).map = true) :
    s₀.LeadsOn (setTally k f) := .change fun h => h.updCluster fun w => ⟨w.1, wf _ w.2⟩

theorem State.LeadsTo.endUnit {l : LoadReq} {m : Manifest} {unit : Nat} (h : s₀.LeadsTo s) : s₀.LeadsTo (s.endUnit l m unit) :=
  .ite h.updLoad.updModel.endSwap h.updLoad.updModel

theorem State.LeadsTo.swapStep {l : LoadReq} {m : Manifest} (h : s₀.LeadsTo s) : s₀.LeadsTo (s.swapStep l m) := by
  have swapped : s₀.LeadsTo (s.swapEach l m (s.swapPlies l m)).2 := h.swapEach
  unfold State.swapStep
  generalize s.swapEach l m (s.swapPlies l m) = r at swapped
  obtain ⟨bad, t⟩ := r
  dsimp only at swapped ⊢
  split
  · exact swapped.loadFailure
  · split
    · exact swapped.endUnit
    · exact swapped.endSwap

theorem State.LeadsOn.calCoreBody {q : SeqId} {w : W128} {verify : Bool} : s₀.LeadsOn (calCoreBody q w verify) :=
  .bind .operand fun _ => .calNow (.bind .scalar fun _ => .getBind fun _ => .ite (.change fun h => h.updCore) .pure)

theorem State.LeadsOn.movePrefetch {q : SeqId} {w : W128} : s₀.LeadsOn (movePrefetch q w) :=
  .bind .operand fun _ => .runMove

theorem State.LeadsTo.applyRecord {e : Nat × Trim} (h : s₀.LeadsTo s) : s₀.LeadsTo (s.applyRecord e) :=
  h.setTrim

theorem State.LeadsTo.setProto (h : s₀.LeadsTo s) : s₀.LeadsTo s.setProto := .ite h (.raiseIrq (h.of_vital rfl))

theorem State.LeadsTo.failClaimed {j : Job} {status : Nat} (h : s₀.LeadsTo s) : s₀.LeadsTo (s.failClaimed j status) :=
  h.updJob

theorem State.LeadsTo.mapFinIdx_clusters {f : (i : Nat) → Cluster → i < 8 → Cluster} (h : s₀.LeadsTo s)
    (sparse : ∀ i k lt, NatMap.wf {} k.counters = true ∧ NatMap.wf false k.tally.map = true →
      NatMap.wf {} (f i k lt).counters = true ∧ NatMap.wf false (f i k lt).tally.map = true) :
    s₀.LeadsTo { s with clusters := s.clusters.mapFinIdx f } :=
  h.of_clusters fun wf k m => by
    obtain ⟨i, lt, rfl⟩ := Vector.mem_iff_getElem.mp m
    rw [Vector.getElem_mapFinIdx]
    exact sparse _ _ _ (wf _ (Vector.getElem_mem lt))

theorem State.LeadsTo.takeTallies {j : Job} (h : s₀.LeadsTo s) : s₀.LeadsTo (s.takeTallies j) :=
  .ite h (h.mapFinIdx_clusters fun _ _ _ wf => by split <;> exact wf)

theorem State.LeadsTo.claim {j : Job} (h : s₀.LeadsTo s) : s₀.LeadsTo (s.claim j) :=
  .foldl (fun h1 => h1.updCore) h.updJob.takeTallies

theorem State.LeadsTo.clearSlots {c : Nat} {hdr : ImgHdr} {img : List Byte} (h : s₀.LeadsTo s) :
    s₀.LeadsTo (s.clearSlots c hdr img) :=
  .foldl (fun h => h.poke) h.poke

theorem State.LeadsTo.placeImage {j : Job} {binds : List Nat} {img : List Byte} {r core : Nat} (h : s₀.LeadsTo s) :
    s₀.LeadsTo (s.placeImage j binds img r core) := .foldl (fun h => h.poke) h.poke.clearSlots

theorem State.LeadsTo.launch {j : Job} {img : List Byte} {binds : List Nat} (h : s₀.LeadsTo s) :
    s₀.LeadsTo (s.launch j img binds) := by
  have placed := State.LeadsTo.foldl (f := fun s x => s.placeImage j binds img x.1 x.2) (l := j.ranks) (fun h => h.placeImage)
    (h.claim (j := j))
  have records : s₀.LeadsOn (writeRecords j binds) := .writeRecords
  unfold State.launch
  dsimp only
  split
  case h_1 run => exact (records.error placed run).failClaimed
  case h_2 run => exact .foldl (fun h => h.startCore) (records.ok placed run).recordDigest

theorem State.LeadsOn.moveStream {q : SeqId} {c : Fin 64} {w : W128} : s₀.LeadsOn (moveStream q c w) :=
  .bind .operand fun _ => .bind .operand fun _ => .bind .demand fun _ => .bind .roomMover fun _ => .getBind fun _ => by
    split
    · exact .ite (.bind .stall fun _ => .bind .newEntry fun _ => .bind (.change fun h => h.updCore) fun _ => .bind .putMover fun _ =>
        .pure) (.bind .newEntry fun _ => .bind (.change fun h => h.updCore) fun _ => .bind .putMover fun _ => .pure)
    · exact .bind .newEntry fun _ => .bind (.change fun h => h.updCore) fun _ => .bind .putMover fun _ => .pure

theorem State.LeadsOn.moveStreamOn {q : SeqId} {w : W128} : s₀.LeadsOn (moveStreamOn q w) := by
  unfold Machine.moveStreamOn
  split
  · exact .moveStream
  · exact .fail

theorem State.LeadsTo.remapPly {q : Nat} {q' : Nat} (h : s₀.LeadsTo s) : s₀.LeadsTo (s.remapPly q q').2 :=
  .ite_snd h.progSteps.writeSums.initialTrim h.progSteps

theorem State.LeadsTo.remapPlies {m : Nat} {d : Fin 64} {l : List Nat} (h : s₀.LeadsTo s) : s₀.LeadsTo (s.remapPlies m d l).2 := by
  induction l generalizing s with
  | nil => exact h
  | cons _ _ ih => exact .ite_snd (ih h.remapPly) h.remapPly

theorem State.LeadsTo.remapLost {m : Nat} (h : s₀.LeadsTo s) : s₀.LeadsTo (s.remapLost m) :=
  .goldenLost (.updModel (by
    split
    · exact h.updCore
    · exact h))

theorem State.LeadsTo.standIn {m c d : Nat} (h : s₀.LeadsTo s) : s₀.LeadsTo (s.standIn m c d) := h.updModel

theorem State.LeadsTo.endRemap {m : Nat} {c d : Fin 64} (h : s₀.LeadsTo s) : s₀.LeadsTo (s.endRemap m c d) :=
  .retrySearch (.logEvent (.updCore (.standIn (.foldl (fun h1 => h1.movePly) h))))

theorem State.LeadsTo.programRemap {m : Nat} {c d : Fin 64} (h : s₀.LeadsTo s) : s₀.LeadsTo (s.programRemap m c d) :=
  .ite h.selfTest (.ite h.selfTest.remapLost (.ite h.selfTest.remapPlies.endRemap h.selfTest.remapPlies.fenceCore))

theorem State.LeadsOn.noWindow {q : SeqId} {unit n2 : Nat} {write : Bool} : s₀.LeadsOn (noWindow q unit n2 write) :=
  .getBind fun _ => .ite (by
    split
    · exact .fail
    · exact .pure) .pure

theorem State.LeadsTo.doneMover {q : SeqId} {uid : Nat} (h : s₀.LeadsTo s) : s₀.LeadsTo (s.doneMover q uid) := h.updSeqr

theorem State.LeadsTo.endStage {result seqNo : Nat} (h : s₀.LeadsTo s) : s₀.LeadsTo (s.endStage result seqNo) :=
  .raiseIrq (h.of_vital rfl)

theorem State.LeadsTo.pumpStaging (h : s₀.LeadsTo s) : s₀.LeadsTo s.pumpStaging :=
  .foldl (fun h1 => .foldl (fun h2 => h2.pumpMover) h1) h

theorem State.LeadsTo.endUpdate (h : s₀.LeadsTo s) : s₀.LeadsTo s.endUpdate := .ite (.raiseIrq (h.of_vital rfl)) h

theorem State.LeadsTo.flushLink {n : Nat} (h : s₀.LeadsTo s) : s₀.LeadsTo (s.flushLink n) :=
  .foldl (fun h1 => h1.sendOn) h.updLink

theorem State.LeadsTo.linkKeyed {n : Nat} {ks : List Byte × List Byte} {peer : W64} {peerLink : Nat} (h : s₀.LeadsTo s) :
    s₀.LeadsTo (s.linkKeyed n ks peer peerLink) := by
  unfold State.linkKeyed
  extract_lets fresh s1 s2 s3 s4 s5
  have keyed : s₀.LeadsTo s4 := .updLink (.setKey (.setKey h.setKey))
  exact .flushLink (.ite keyed (keyed.of_vital rfl))

theorem State.Answers.execActCapGrant {wf : Bool} (h : s₀.LeadsTo s) : s₀.Answers wf (execActCapGrant s) := by
  unfold Machine.execActCapGrant
  split
  case h_1 e => exact (State.Answers.of (h.grantCap e).granted.pump)
  case h_2 => exact .of h

theorem State.Follows.loadRoutes (h : s₀.LeadsTo s) : s₀.Follows s.loadRoutes := h.toFollows.of_fabric

theorem State.LeadsOn.loomPly {c : Fin 64} {w : W128} : s₀.LeadsOn (loomPly c w) :=
  .bind .roomLoom fun _ => .bind .newEntry fun _ => .bind .putLoom fun _ => .pure

theorem State.LeadsTo.reproject {q : Nat} (h : s₀.LeadsTo s) : s₀.LeadsTo (s.reproject q) :=
  .ite h (.ite h.setTrim h.setTrim.putSums)

theorem State.Answers.execProgrammingBudgetGrant {wf : Bool} (h : s₀.LeadsTo s) : s₀.Answers wf (execProgrammingBudgetGrant s) := by
  unfold Machine.execProgrammingBudgetGrant
  split
  case h_1 e => exact (State.Answers.of (h.grantProg e).granted.pump)
  case h_2 => exact .of h

theorem State.LeadsTo.retireLoom {c : Fin 64} {i : LoomInstr} (h : s₀.LeadsTo s) : s₀.LeadsTo (s.retireLoom c i) :=
  .ite (.pumpQueues (.complete h.updCore)) h

theorem State.LeadsOn.readImage {c : Fin 64} {i : LoomInstr} {w8 : Bool} {n : Nat} : s₀.LeadsOn (readImage c i w8 n) :=
  .bind (.mapM fun _ => .readMem) fun _ => .pure

theorem State.LeadsOn.verifyBody {c : Fin 64} {i : LoomInstr} : s₀.LeadsOn (verifyBody c i) :=
  .getBind fun _ => .bind (.mapM fun _ => .readImage) fun _ => .bind .freeMany fun _ => .bind (.change fun h => .foldl
    (fun h3 => .count (.count (.ite h3.updPly h3))) h) fun _ => .bind (.change fun h => h.count) fun _ => .bind .putScalar fun _ =>
    .putScalar

theorem State.LeadsOn.probeBody {c : Fin 64} {i : LoomInstr} : s₀.LeadsOn (probeBody c i) :=
  .bind .freeMany fun _ => .getBind fun _ => .bind (.mapM fun _ => .bind (.change fun h => h.count.count) fun _ => .writeMem) fun _ =>
    .pure

theorem State.LeadsTo.foldl_snd {α β : Type} {f : β × State → α → β × State} (l : List α) {x : β × State}
    (step : ∀ {x a}, s₀.LeadsTo x.2 → s₀.LeadsTo (f x a).2) (h : s₀.LeadsTo x.2) : s₀.LeadsTo (l.foldl f x).2 := by
  induction l generalizing x with
  | nil => exact h
  | cons a l ih => exact ih (step h)

theorem State.LeadsOn.progBody {c : Fin 64} {i : LoomInstr} : s₀.LeadsOn (progBody c i) :=
  .bind (.mapM fun _ => .readImage) fun _ => .bind .freeMany fun _ => .bind .free64 fun _ => .getBind fun h =>
    .bind (.set (.count (.foldl_snd _ (fun h => h.programRows.count) h))) fun _ => .putScalar

theorem State.LeadsOn.otherBody {c : Fin 64} {i : LoomInstr} : s₀.LeadsOn (otherBody c i) := by
  unfold Machine.otherBody
  split
  · exact .progBody
  · exact .verifyBody
  · exact .probeBody
  · exact .pure

theorem State.LeadsOn.finishOther {c : Fin 64} {i : LoomInstr} : s₀.LeadsOn (finishOther c i) :=
  .getBind fun _ => .bind .otherBody fun _ => .bind (.change fun h => h.releaseLoom.setActive) fun _ => .loomDone

theorem State.LeadsTo.endOther {c : Fin 64} {i : LoomInstr} (h : s₀.LeadsTo s) : s₀.LeadsTo (s.endOther c i) := by
  unfold State.endOther
  dsimp only
  split
  · exact .ite ((h.runLoom (fun _ => .finishOther)).retireLoom) (h.runLoom (fun _ => .finishOther))
  · exact (h.runLoom (fun _ => .finishOther)).pumpQueues

theorem State.LeadsTo.completeLoom {c : Fin 64} (h : s₀.LeadsTo s) : s₀.LeadsTo (s.completeLoom c) := by
  unfold State.completeLoom
  split
  · exact .ite h.retireLoom (.ite h.endOther h)
  · exact h

theorem State.LeadsTo.burn {n : Nat} (h : s₀.LeadsTo s) : s₀.LeadsTo (s.burn n) := by
  unfold State.burn
  refine .ite ?_ (.ite ?_ ?_)
  · exact h.of_fuses ⟨and_or_absorb .., BitVec.and_self, id⟩ rfl
  · exact h.of_fuses ⟨BitVec.and_self, and_or_absorb .., id⟩ rfl
  · have off : s₀.LeadsTo { s with fuses := { s.fuses with debugOff := true } } :=
      h.of_fuses ⟨BitVec.and_self, BitVec.and_self, fun _ => rfl⟩ rfl
    exact off.of_chouse

theorem State.LeadsTo.flushLinks (h : s₀.LeadsTo s) : s₀.LeadsTo s.flushLinks := .foldl (fun h1 => h1.flushLink) h

theorem State.LeadsOn.loopCount {q : SeqId} {w : W128} : s₀.LeadsOn (loopCount q w) :=
  .ite (.bind .scalar fun _ => .pure) .pure

theorem State.LeadsTo.freeTallies {slot : Nat} (h : s₀.LeadsTo s) : s₀.LeadsTo (s.freeTallies slot) :=
  h.of_clusters fun wf k m => by
    obtain ⟨u, mem, rfl⟩ := Vector.mem_map.mp m
    split
    · exact ⟨(wf u mem).1, rfl⟩
    · exact wf u mem

theorem State.LeadsTo.boundaryClusters {j : Job} (h : s₀.LeadsTo s) : s₀.LeadsTo (s.boundaryClusters j) :=
  .freeTallies (h.mapFinIdx_clusters fun _ _ _ wf => by
    split
    · exact ⟨rfl, wf.2⟩
    · exact wf)

theorem State.LeadsTo.applyWindow {e : Nat × Trim} (h : s₀.LeadsTo s) : s₀.LeadsTo (s.applyWindow e) := h.updPly

theorem State.LeadsTo.applyCore {c : Fin 64} {marked : Bool} (h : s₀.LeadsTo s) : s₀.LeadsTo (s.applyCore c marked) :=
  .ite (.count (.foldl (fun h1 => h1.applyWindow) (.foldl (fun h1 => h1.probeApplied) (.foldl (fun h1 => h1.reproject)
    (.ite (.updCore (.foldl (fun h1 => h1.applyRecord) h)) (.foldl (fun h1 => h1.applyRecord) h))))))
    (.foldl (fun h1 => h1.applyWindow) (.foldl (fun h1 => h1.probeApplied) (.foldl (fun h1 => h1.reproject)
    (.ite (.updCore (.foldl (fun h1 => h1.applyRecord) h)) (.foldl (fun h1 => h1.applyRecord) h)))))

theorem State.LeadsTo.boundaryCal {c : Fin 64} (h : s₀.LeadsTo s) : s₀.LeadsTo (s.boundaryCal c) := .ite h h.applyCore

theorem State.LeadsTo.boundaryCore {c : Fin 64} (h : s₀.LeadsTo s) : s₀.LeadsTo (s.boundaryCore c) :=
  .count (.zero (.forget h.updCore))

theorem State.LeadsTo.boundary {j : Job} (h : s₀.LeadsTo s) : s₀.LeadsTo (s.boundary j) :=
  .foldl (fun h1 => h1.boundaryCal) (.foldl (fun h1 => h1.boundaryCore) h.boundaryClusters.settle)

theorem State.LeadsTo.nextRun {j : Job} {p : Pipe} (h : s₀.LeadsTo s) : s₀.LeadsTo (s.nextRun j p) :=
  .ite h.queueRun (.ite h.queueRun h.completeJob)

theorem State.LeadsTo.afterBoundary {j : Job} (h : s₀.LeadsTo s) : s₀.LeadsTo (s.afterBoundary j) := by
  unfold State.afterBoundary
  dsimp only
  split
  · exact .ite h.completeJob (.ite h.completeJob h.retryJob)
  · split
    · exact h.completeJob
    · split
      · exact h.nextRun
      · exact h.completeJob

theorem State.LeadsTo.passBoundary {j : Job} (h : s₀.LeadsTo s) : s₀.LeadsTo (s.passBoundary j) :=
  h.boundary.afterBoundary

theorem State.LeadsTo.jobBoundary {slot : Nat} (h : s₀.LeadsTo s) : s₀.LeadsTo (s.jobBoundary slot) := by
  unfold State.jobBoundary
  split
  · exact .ite h.passBoundary h
  · exact h

theorem State.LeadsTo.dropMover {q : SeqId} {uid : Nat} (h : s₀.LeadsTo s) : s₀.LeadsTo (s.dropMover q uid) := h.updSeqr

theorem State.LeadsTo.acceptBlock {form : State → List Byte → Bool} {f : State → Entry → Nat → List Byte → State} {e : Entry}
    {slot : Nat} (h : s₀.LeadsTo s) (k : ∀ {s e n b}, s₀.LeadsTo s → s₀.LeadsTo (f s e n b)) :
    s₀.LeadsTo (State.acceptBlock form f e slot s) := by
  unfold State.acceptBlock
  split
  · exact .ite (k h) h.reply
  · exact h.reply

theorem State.LeadsTo.runSeal {e : Entry} {slot : Nat} {b : List Byte} (h : s₀.LeadsTo s) : s₀.LeadsTo (s.runSeal e slot b) :=
  .replyWith (.poke (.of_chouse (.of_chouse (.setKey h.random32))))

theorem State.LeadsOn.updHash {n : Nat} {f : List Byte → List Byte} : s₀.LeadsOn (updHash n f) :=
  .change fun h => h.of_vital rfl

theorem State.Answers.refusedBurst {i : Instr} {a : HostAddr} {n : Nat} (h : s₀.LeadsTo t) (e : i.burstWf = burstOk a n := by rfl) :
    s₀.Answers i.wf (if !burstOk a n then .refused .illFormed else .next t) := by
  split
  · rename_i bad
    simp only [Bool.not_eq_true'] at bad
    simp [State.Answers, Instr.wf, e, bad]
  · exact .of h

theorem State.Answers.hostWrite {i : Instr} {a : HostAddr} {data : Burst} {f : Nat → State → State} (h : s₀.LeadsTo s)
    (k : ∀ {off s}, s₀.LeadsTo s → s₀.LeadsTo (f off s)) (e : i.burstWf = burstOk a data.length := by rfl) :
    s₀.Answers i.wf (s.hostWrite a data f) := by
  refine .refusedBurst (h.whenTaken fun h => ?_) e
  split
  · exact h.setProto
  · exact k h

theorem State.LeadsTo.scrubWarehouse {heap : Option Nat} (h : s₀.LeadsTo s) : s₀.LeadsTo (s.scrubWarehouse heap) := by
  unfold State.scrubWarehouse
  dsimp only
  split
  · exact h.zero.zero.zero
  · exact h.zero.zero

theorem State.LeadsOn.sumVector {c : Fin 64} {i : LoomInstr} {v t : Nat} : s₀.LeadsOn (sumVector c i v t) :=
  .getBind fun _ => .bind (.change fun h => h.updCore) fun _ => .bind .setLoom fun _ => .change fun h => h.count

theorem State.LeadsOn.waitOn {q : SeqId} {w : W128} {c : SeqWait} : s₀.LeadsOn (waitOn q w c) :=
  .getBind fun _ => .ite (.bind .completeNow fun _ => .pure) (.bind .newEntry fun _ => .bind (.change fun h => h.updSeqr) fun _ =>
    .pure)

theorem State.LeadsOn.millTableEval {q : SeqId} {w : W128} : s₀.LeadsOn (millTableEval q w) :=
  .bind .operand fun _ => .bind .operand fun _ => .runMill

theorem State.LeadsTo.emptySlot {m : Nat} (h : s₀.LeadsTo s) : s₀.LeadsTo (s.emptySlot m) := h.freeOutside.updModel

theorem State.LeadsTo.coresBack {old : W64} (h : s₀.LeadsTo s) : s₀.LeadsTo (s.coresBack old) :=
  .foldl (fun h1 => .ite h1.trigger h1) h

theorem State.LeadsTo.scrubKeys (h : s₀.LeadsTo s) : s₀.LeadsTo s.scrubKeys := .of_chouse h.endSession.clearKeys

theorem State.LeadsTo.scrubMode {k : Scrub} (h : s₀.LeadsTo s) : s₀.LeadsTo (s.scrubMode k) := h.of_vital rfl

theorem State.LeadsTo.scrubSrams (h : s₀.LeadsTo s) : s₀.LeadsTo s.scrubSrams :=
  h.of_canon fun c => { c with
    mem := NatMap.keep_wf 0 (fun a => a / 2 ^ 44 = 0) _ c.mem
    poison := NatMap.keep_wf false (fun g => g / 2 ^ 38 = 0) _ c.poison
    counters := Vector.forall_mem_map.mpr fun _ _ => rfl
    tallies := Vector.forall_mem_map.mpr fun _ _ => rfl
    events := Vector.forall_mem_map.mpr fun _ _ => rfl }

theorem State.LeadsTo.blankPly {q : Nat} (h : s₀.LeadsTo s) : s₀.LeadsTo (s.blankPly q) := .ite h.progImage h

theorem State.LeadsTo.scrubSlot {m : Nat} (h : s₀.LeadsTo s) : s₀.LeadsTo (s.scrubSlot m) :=
  .foldl (fun h1 => h1.blankPly) h.emptySlot

theorem State.LeadsTo.endScrub {k : Scrub} (h : s₀.LeadsTo s) : s₀.LeadsTo (s.endScrub k) := by
  unfold State.endScrub
  exact .respond (.raiseIrq (.countPkg (.flushLinks (.leaveScrub (.rekeyLinks (.scrubMode (.scrubRings
    (.foldl (fun h1 => h1.scrubSlot) h.scrubSrams.scrubWarehouse.scrubCounters.scrubKeys))))))))

theorem State.LeadsTo.retireEpoch {ep : Nat} (h : s₀.LeadsTo s) : s₀.LeadsTo (s.retireEpoch ep) :=
  .of_chouse h.setKey.killStaged

theorem State.LeadsTo.runRetire {e : Entry} {slot : Nat} {b : List Byte} (h : s₀.LeadsTo s) : s₀.LeadsTo (s.runRetire e slot b) :=
  .ite h.reply (.ite h.reply (.ite h.retireEpoch.replyWith h.replyWith))

theorem State.LeadsOn.tileRows {q : SeqId} {unit : Nat} {out : Bool} {mem slot : TD} {org : Nat × Nat × Nat × Nat} {n : Nat}
    {l : List (Nat × Nat × Nat)} : s₀.LeadsOn (tileRows q unit out mem slot org n l) := by
  induction l with
  | nil => exact .pure
  | cons r rs ih =>
    unfold Machine.tileRows
    extract_lets m am as rest row a b
    have copied (u : PUnit) : s₀.LeadsOn (row u) :=
      .ite (.bind .readPart fun _ => .bind .writeCodes fun _ => ih) (.bind .readPart fun _ => .bind .writeCodes fun _ => ih)
    exact .bind .noWindow fun _ => .bind .noWindow fun _ => .ite (.bind .readMem fun _ => .bind .writeMem copied) (copied ())

theorem State.LeadsOn.moveTile {c : Fin 64} {m : Stream} {n : Nat} : s₀.LeadsOn (moveTile c m n) := .tileRows

theorem State.LeadsTo.recordBad {n : Nat} (h : s₀.LeadsTo s) : s₀.LeadsTo (s.recordBad n) :=
  .ite h h.draw.raiseFault.updSeqr.recordLost

theorem State.LeadsOn.millRng {q : SeqId} {w : W128} : s₀.LeadsOn (millRng q w) :=
  .bind .demand fun _ => .bind .operand fun _ => .ite (.bind .drawRandom fun _ => .bind .putScalar fun _ => .bind .putScalar fun _ =>
    .bind .scalar fun _ => .bind .scalar fun _ => .bind .scalar fun _ => .bind .scalar fun _ => .runMill) (.bind .scalar fun _ =>
    .bind .scalar fun _ => .bind .scalar fun _ => .bind .scalar fun _ => .runMill)

theorem State.LeadsTo.runRekey {e : Entry} {slot : Nat} {b : List Byte} (h : s₀.LeadsTo s) : s₀.LeadsTo (s.runRekey e slot b) :=
  .ite h.reply (.ite h.reply (.ite h.reply (.replyWith (h.setKey.of_vital rfl))))

theorem State.LeadsTo.rejectHeld {m : Nat} (h : s₀.LeadsTo s) : s₀.LeadsTo (s.rejectHeld m) := .foldl (fun h1 => h1.completeJob) h

theorem State.LeadsOn.millTopk {q : SeqId} {w : W128} : s₀.LeadsOn (millTopk q w) :=
  .bind .operand fun _ => .bind .operand fun _ => .ite (.bind .operand fun _ => .bind .pure fun _ => .bind .operand fun _ => .bind
    .demand fun _ => .bind .demand fun _ => .runMill) (.bind .pure fun _ => .bind .operand fun _ => .bind .demand fun _ => .bind
    .demand fun _ => .runMill)

theorem State.LeadsOn.branchTaken {q : SeqId} {w : W128} : s₀.LeadsOn (branchTaken q w) :=
  .getBind fun _ => .guard .stall fun _ => .ite (.bind (.change fun h => h.updSeqr) fun _ => .pure) .pure

theorem State.LeadsTo.pullCopy {l : LoadReq} {c : ChunkRec} {i : Nat} {data : List Byte} (h : s₀.LeadsTo s) :
    s₀.LeadsTo (s.pullCopy l c i data) :=
  .ite (h.of_vital rfl) (.ite h.loadFailure (h.of_vital rfl))

theorem State.LeadsTo.transfer {c : Fin 64} {n : Nat} {m : Stream} {tile : Nat} {after : Stream} (h : s₀.LeadsTo s) :
    s₀.LeadsTo (s.transfer c n m tile after) := by
  have move : s₀.LeadsOn (moveTile c m tile) := .moveTile
  unfold State.transfer
  dsimp only
  split
  case h_1 run => exact (move.ok h run).updCore.settle.pumpQueues
  case h_2 run => exact .ite h.await (move.error h run).updCore.raiseFault.pumpQueues

theorem State.LeadsOn.placedType {n : Nat} : s₀.LeadsOn (placedType n) := by
  unfold Machine.placedType
  split
  · exact .pure
  · exact .getBind fun h1 => .bind (.set h1.draw) fun _ => .pure

theorem State.LeadsOn.placeKey {n : Nat} {ty : KeyType} {b : List Byte} : s₀.LeadsOn (placeKey n ty b) :=
  .change fun h => h.setKey

theorem State.LeadsTo.verifyFor {c : Fin 64} {e ply : Nat} (h : s₀.LeadsTo s) : s₀.LeadsTo (s.verifyFor c e ply) :=
  .ite h.selectPlies.verifyAll.fullFit h.selectPlies.verifyAll

theorem State.LeadsOn.loopBody {q : SeqId} {last count : Nat} : s₀.LeadsOn (loopBody q last count) := by
  refine .getBind fun {s} _ => ?_
  extract_lets r jp
  have last (u : PUnit) : s₀.LeadsOn (jp u) := .bind .demand fun _ => .ite .pure (.bind (.change fun h => h.updSeqr) fun _ => .pure)
  refine .bind .demand fun _ => ?_
  split
  · exact .bind .demand last
  · exact last ()

theorem State.LeadsTo.fallBack {m : Nat} {c : Fin 64} (h : s₀.LeadsTo s) : s₀.LeadsTo (s.fallBack m c) :=
  .ite h.remapLost (by
    dsimp only
    split
    · exact h.updModel
    · exact h.updModel.updModel.logEvent)

theorem State.LeadsTo.startRemap {m : Nat} {c : Fin 64} (h : s₀.LeadsTo s) : s₀.LeadsTo (s.startRemap m c) := by
  unfold State.startRemap
  split
  · exact h.updModel.updCore
  · exact .ite h.updModel h.fallBack

theorem State.LeadsTo.coreEcc {c : Fin 64} (h : s₀.LeadsTo s) : s₀.LeadsTo (s.coreEcc c) := h.fenceCore

theorem State.LeadsTo.breakGranule {g : Nat} (h : s₀.LeadsTo s) :
    s₀.LeadsTo { s with poison := NatMap.put false s.poison g true } := h.of_poison (NatMap.put_wf false _ _ _)

theorem State.LeadsTo.storeBroken {region off : Nat} (h : s₀.LeadsTo s) : s₀.LeadsTo (s.storeBroken region off) :=
  .ite h.breakGranule.coreEcc h.breakGranule

theorem State.LeadsOn.needSecure {w : W128} {t : TD} {pos : Nat} : s₀.LeadsOn (needSecure w t pos) :=
  .getBind fun _ => .demand

theorem State.LeadsTo.rollEach : ∀ {l : List (Nat × DirEntry × Bool)} {s : State}, s₀.LeadsTo s → s₀.LeadsTo (s.rollEach l).2
  | [], _, h => h
  | _ :: _, _, h => .ite_snd (State.LeadsTo.rollEach h.putDir) (.ite_snd h (.ite_snd (State.LeadsTo.rollEach h.loadPly) h.loadPly))

theorem State.LeadsTo.rollbackFailed {l : LoadReq} (h : s₀.LeadsTo s) : s₀.LeadsTo (s.rollbackFailed l) :=
  .closeLoad (.rejectHeld (.updModel (.foldl (fun h1 => h1.dropDir) h)))

theorem State.LeadsTo.runJoined {n0 : Nat} (h : s₀.LeadsTo s) : s₀.LeadsTo (s.runJoined n0) := by
  induction n0 generalizing s with
  | zero => exact h
  | succ _ ih =>
    unfold State.runJoined
    split
    · exact h
    · exact .ite h (ih (.ite (.respond (h.of_vital rfl)) (.runWaiting (.of_vital (h.of_vital rfl) rfl))))

theorem State.LeadsOn.planeSumBody {c : Fin 64} {i : LoomInstr} : s₀.LeadsOn (planeSumBody c i) :=
  .ite (.getBind fun _ => .bind .freePlane fun _ => .bind .sumVector fun _ => .getBind fun _ => by
    split
    · exact .ite .endMv .pure
    · exact .pure) (.bind .sumVector fun _ => .getBind fun _ => by
    split
    · exact .ite .endMv .pure
    · exact .pure)

theorem State.LeadsTo.idleEngine {c : Fin 64} {e : Nat} (h : s₀.LeadsTo s) : s₀.LeadsTo (s.idleEngine c e) := .ite h h.setActive

theorem State.LeadsTo.unstagePages {ps : List (Chan × Nat)} (h : s₀.LeadsTo s) : s₀.LeadsTo (s.unstagePages ps) :=
  h.of_vital rfl

theorem State.LeadsTo.startHostStage {unstage : Bool} {ps : List (Chan × Nat)} {seqNo : Nat} (h : s₀.LeadsTo s) :
    s₀.LeadsTo (s.startHostStage unstage ps seqNo) := by
  unfold State.startHostStage
  split
  · exact h.endStage
  · exact .ite h.unstagePages.endStage (.ite h.endStage (.of_vital (.foldl (fun h1 => h1.stagePage) h) rfl))

theorem State.LeadsTo.startMoveStage {q : SeqId} {uid : Nat} {t : TD} {mover : Nat} (h : s₀.LeadsTo s) :
    s₀.LeadsTo (s.startMoveStage q uid t mover) := by
  have ordered : s₀.LeadsTo s.orderPoint := h.orderPoint
  unfold State.startMoveStage
  dsimp only
  split
  · exact .of_port (.foldl (fun h => h.stagePage) ordered)
  · split
    · exact ordered.of_port
    · exact .raiseFault (.dropMover ordered.of_port)

theorem State.LeadsTo.dispatchJob {j : Job} (h : s₀.LeadsTo s) : s₀.LeadsTo (s.dispatchJob j) := by
  unfold State.dispatchJob
  dsimp only
  split
  · exact h.completeJob
  · split
    · exact .ite h.claim.failClaimed (by
        split
        · exact h.launch
        · exact h.claim.failClaimed)
    · exact h.claim.failClaimed

theorem State.LeadsOn.millWalk {q : SeqId} {w : W128} : s₀.LeadsOn (millWalk q w) :=
  .bind .operand fun _ => .bind .operand fun _ => .bind .operand fun _ => .bind .scalar fun _ => .runMill

theorem State.LeadsTo.feedback (h : s₀.LeadsTo s) : s₀.LeadsTo s.feedback := h.draw.of_vital rfl

theorem State.Answers.execDebugAccess {a n : Nat} {b : Option (List Byte)} {wf : Bool} (h : s₀.LeadsTo s) :
    s₀.Answers wf (execDebugAccess a n b s) := by
  have write {b : List Byte} : s₀.LeadsOn (writeMem .house 0 a b) := .writeMem
  have read : s₀.LeadsOn (readMem .house 0 a n) := .readMem
  refine .of (State.LeadsTo.ite h ?_)
  split
  · refine State.LeadsTo.ite h ?_
    split
    case h_1 run => exact write.ok h run
    case h_2 run => exact write.error h run
  · refine State.LeadsTo.ite h ?_
    split
    case h_1 run => exact (read.ok h run).of_vital rfl
    case h_2 run => exact read.error h run

theorem State.LeadsTo.writeControl {off : Nat} {data : Burst} (h : s₀.LeadsTo s) : s₀.LeadsTo (s.writeControl off data) :=
  .foldl (fun h1 => .ite h1 (.ite h1.hpWrite h1.setProto)) h

theorem State.LeadsTo.anneal {q : Nat} (h : s₀.LeadsTo s) : s₀.LeadsTo (s.anneal q) :=
  .ite h.goldenLost (.ite h.progSteps.fenceCore h.progSteps.writeSums.initialTrim.updAssay.countPkg)

theorem State.LeadsOn.probeFor {c : Fin 64} {k : CalCore} {n e : Nat} : s₀.LeadsOn (probeFor c k n e) :=
  .getBind fun h1 => .bind (.set h1.probeOwn) fun _ => .ite .writeMem .pure

theorem State.LeadsOn.calCoreWork {c : Fin 64} {k : CalCore} : s₀.LeadsOn (calCoreWork c k) :=
  .ite (.bind (.change fun h => .foldl (fun h2 => h2.verifyFor) h) fun _ => .ite (.change fun h => h.scrambleTds) .pure)
    (.bind (.mapM fun _ => .probeFor) fun _ => .pure)

theorem State.Answers.execCalCoreExecute {c : Fin 64} {wf : Bool} (h : s₀.LeadsTo s) : s₀.Answers wf (execCalCoreExecute c s) := by
  unfold Machine.execCalCoreExecute
  split
  · exact .of h
  · rename_i k rest _
    have work : s₀.LeadsOn (calCoreWork c k) := .calCoreWork
    have taken : s₀.LeadsTo (s.updCore c fun x => { x with calCore := rest }) := h.updCore
    refine .of (State.LeadsTo.ite ?_ h)
    dsimp only
    split
    case h_1 run => exact work.ok taken run
    case h_2 run => exact (work.error taken run).raiseFault

theorem State.LeadsTo.refuseLink {n : Nat} (h : s₀.LeadsTo s) : s₀.LeadsTo (s.refuseLink n) := h.linkDown.updLink

theorem State.LeadsTo.acceptUnload {e : Entry} {slot : Nat} (h : s₀.LeadsTo s) : s₀.LeadsTo (s.acceptUnload e slot) :=
  .ite h.reply (.ite h.reply (.ite h.reply (h.of_vital rfl)))

theorem State.LeadsTo.joinEnd {c : Fin 64} (h : s₀.LeadsTo s) : s₀.LeadsTo (s.joinEnd c) := by
  unfold State.joinEnd
  dsimp only
  split
  · exact h.updCore
  · exact .ite (.updJob (.ite (.updJob h.updCore) h.updCore)) (.ite (.updJob h.updCore) h.updCore)

theorem State.LeadsTo.calApply {m : Nat} (h : s₀.LeadsTo s) : s₀.LeadsTo (s.calApply m) :=
  .ite (.foldl (fun h1 => h1.updCore) h) (.ite (.of_vital (.foldl (fun h1 => h1.updCore) h) rfl)
    (.of_vital (.of_vital (.foldl (fun h1 => h1.updCore) h) rfl) rfl))

theorem State.LeadsTo.drainDue (h : s₀.LeadsTo s) : s₀.LeadsTo s.drainDue :=
  .settleBases (.of_vital (.foldl (fun h1 => h1.drainFrame) h) rfl)

theorem State.LeadsTo.leaveSleep (h : s₀.LeadsTo s) : s₀.LeadsTo s.leaveSleep :=
  .ite h (.ite (.powerTrigger (.drainDue (.monitorOn (.powerEngines (h.of_vital rfl))))) (.drainDue (.monitorOn (.powerEngines
    (h.of_vital rfl)))))

theorem State.LeadsTo.loadClocks (h : s₀.LeadsTo s) : s₀.LeadsTo s.loadClocks := h.of_vital rfl

theorem State.LeadsTo.frameWrite {ch : Chan} {page : Nat} {header : Bool} {o : Nat} {data : Burst} {addr : Nat} (h : s₀.LeadsTo s) :
    s₀.LeadsTo (s.frameWrite ch page header o data addr) := by
  have opened {b : Bool} {p : Port} : s₀.LeadsTo (if b then s else ({ s with port := p } : State).wakeEvent false) :=
    .ite h (.wakeEvent h.of_port)
  unfold State.frameWrite
  refine .ite h.setDrop ?_
  extract_lets p s1 p' s2
  have merged : s₀.LeadsTo s2 := State.LeadsTo.of_port opened
  split
  · exact .ite merged.startDrain merged
  · exact merged

theorem State.LeadsTo.writeAperture {ch : Chan} {off : Nat} {data : Burst} (h : s₀.LeadsTo s) :
    s₀.LeadsTo (s.writeAperture ch off data) :=
  .ite (.ite h.countPkg (.ite h.countPkg.setDrop h.countPkg.frameWrite)) (.ite h.countPkg.setDrop (.frameWrite (.ite h.countPkg
    h.countPkg.snoop)))

theorem State.LeadsTo.failWrite {v1 : Asked} (h : s₀.LeadsTo s) : s₀.LeadsTo (s.failWrite v1) := by
  unfold State.failWrite
  dsimp only
  split
  · exact h.faultEntry
  · split
    · split
      · exact h.failLoom
      · exact h
    · exact h

theorem State.LeadsTo.failAsked {id : Nat} (h : s₀.LeadsTo s) : s₀.LeadsTo (s.failAsked id) := by
  unfold State.failAsked
  exact .foldl (fun h1 => .answered (.ite h1.failWrite h1)) h

theorem State.LeadsTo.endPeerJobs {serial : W64} (h : s₀.LeadsTo s) : s₀.LeadsTo (s.endPeerJobs serial) :=
  .foldl (fun h1 => h1.endJob) h

theorem State.LeadsTo.peerLost {id : Nat} {serial : W64} (h : s₀.LeadsTo s) : s₀.LeadsTo (match ((s.endPeerJobs serial).failAsked id).load with
    | some l => if l.involves id then ((s.endPeerJobs serial).failAsked id).loadFailure WL_ABORTED 0 else (s.endPeerJobs serial).failAsked id
    | none => (s.endPeerJobs serial).failAsked id) := by
  split
  · exact .ite (.loadFailure (.failAsked (.endPeerJobs h))) (.failAsked (.endPeerJobs h))
  · exact .failAsked (.endPeerJobs h)

theorem State.Follows.loseMember {id : Nat} {serial : W64} (h : s₀.LeadsTo s) : s₀.Follows (s.loseMember id serial) := by
  have entered : s₀.Follows { s with
      fabric := { s.fabric with
        members := updN s.fabric.members id (fun e => e.map (fun (e : W64 × Bool) => (e.1, true)))
        routes := updN s.fabric.routes id (fun r => { r with lost := true }) }
      models := s.models.map (fun (m : Model) =>
        if m.holders.contains serial && m.awaits.all (fun e => e.1 != serial) then { m with awaits := m.awaits ++ [(serial, false)] }
        else m) } := ⟨h.pending, h.burns, h.made, fun c => { h.canon c with }⟩
  exact entered.leads (State.LeadsTo.refl _).peerLost

theorem State.LeadsTo.setMiss {addr : Nat} (h : s₀.LeadsTo s) : s₀.LeadsTo (s.setMiss addr) :=
  .ite h.countPkg (.raiseIrq (h.countPkg.of_vital rfl))

theorem State.LeadsTo.deadRead {addr : Nat} (h : s₀.LeadsTo s) : s₀.LeadsTo (s.deadRead addr) := h.setMiss.secEvent

theorem State.LeadsTo.readHeader {ch : Chan} {off n : Nat} (h : s₀.LeadsTo s) : s₀.LeadsTo (s.readHeader ch off n).2 :=
  .ite_snd h (by
    split
    · exact h.setMiss
    · exact .ite_snd h.deadRead h)

theorem State.LeadsTo.readAperture {ch : Chan} {off n : Nat} (h : s₀.LeadsTo s) : s₀.LeadsTo (s.readAperture ch off n).2 :=
  .ite_snd h.readHeader (by
    split
    · exact h.setMiss
    · exact .ite_snd h.deadRead h)

theorem State.LeadsTo.hostRead {ch : Chan} {off n : Nat} (h : s₀.LeadsTo s) : s₀.LeadsTo (s.hostRead ch off n).2 := by
  unfold State.hostRead
  split
  · exact h.regWords
  · exact .ite_snd h h.readRing
  · exact .ite_snd h h.readRing
  · exact .ite_snd h h.setMiss
  · exact h
  · exact .ite_snd h h.readAperture

theorem State.LeadsTo.of_monitor {m : Monitor} (h : s₀.LeadsTo s) : s₀.LeadsTo { s with monitor := m } := h.of_vital rfl

theorem State.LeadsTo.pointTap {c : Fin 64} {engine col : Nat} (h : s₀.LeadsTo s) : s₀.LeadsTo (s.pointTap c engine col) :=
  .of_monitor h.updCore

theorem State.LeadsTo.coreCorrected {c : Fin 64} {ev : Nat} (h : s₀.LeadsTo s) : s₀.LeadsTo (s.coreCorrected c ev) :=
  .ite (.fenceCore h.count.updCore) h.count.updCore

theorem State.LeadsTo.disableCacheLine {k : Fin 8} {set way : Nat} (h : s₀.LeadsTo s) : s₀.LeadsTo (s.disableCacheLine k set way) := by
  unfold State.disableCacheLine
  refine .ite h ?_
  extract_lets s1 s2
  have broken : s₀.LeadsTo s1 := by
    unfold s1
    split
    · exact h.breakGranule
    · exact h
  have off : s₀.LeadsTo s2 := broken.updCluster
  exact .ite (.foldl (fun h => h.fenceCore) off) off

theorem State.LeadsTo.storeCorrected {region off : Nat} (h : s₀.LeadsTo s) : s₀.LeadsTo (s.storeCorrected region off) := by
  unfold State.storeCorrected
  split
  · exact h.countPkg
  · exact h.coreCorrected
  · exact h.countPkg
  · exact h.countPkg

theorem State.LeadsTo.idleTick (h : s₀.LeadsTo s) : s₀.LeadsTo (idleTick s) := h.of_vital rfl

/-! ### The rows -/

theorem State.Answers.execShapeUpdateBegin {wf : Bool} (h : s₀.LeadsTo s) : s₀.Answers wf (execShapeUpdateBegin s) := by
  unfold Machine.execShapeUpdateBegin
  split
  · exact .of (.coresBack (h.of_vital rfl))
  · exact .of h

theorem State.Answers.execRefclkStop {wf : Bool} (h : s₀.LeadsTo s) : s₀.Answers wf (execRefclkStop s) := by
  unfold Machine.execRefclkStop
  exact .of (.ite h (.ite (.raiseIrq (.pumpCores (.abandonLooms (h.of_vital rfl)))) (h.of_vital rfl)))

theorem State.Answers.execRefclkLost {wf : Bool} (h : s₀.LeadsTo s) : s₀.Answers wf (execRefclkLost s) := by
  unfold Machine.execRefclkLost
  exact .of (.ite h (.foldl (fun h1 => h1.linkDown) (.logEvent (.endRunning (h.of_vital rfl)))))

theorem State.Answers.execRefclkReturn {wf : Bool} (h : s₀.LeadsTo s) : s₀.Answers wf (execRefclkReturn s) := by
  unfold Machine.execRefclkReturn
  exact .of (.ite (.bootTests (.of_vital (h.of_vital rfl) rfl)) (.flushLinks (h.of_vital rfl)))

theorem State.Answers.execIntegrationWindowEnd {c : Fin 64} {wf : Bool} (h : s₀.LeadsTo s) :
    s₀.Answers wf (execIntegrationWindowEnd c s) := by
  unfold Machine.execIntegrationWindowEnd
  split
  · exact .of h
  · exact .of ((h.runLoom (fun _ => .windowBody)).pump)

theorem State.Answers.execDrain {c : Fin 64} {e : Fin 16} {wf : Bool} (h : s₀.LeadsTo s) : s₀.Answers wf (execDrain c e s) := by
  unfold Machine.execDrain
  split
  · exact .of ((h.runLoom (fun _ => .drainBody)).idleEngine)
  · exact .of h

theorem State.Answers.execPlaneSum {c : Fin 64} {wf : Bool} (h : s₀.LeadsTo s) : s₀.Answers wf (execPlaneSum c s) := by
  unfold Machine.execPlaneSum
  split
  · exact .of ((h.runLoom (fun _ => .planeSumBody)).pump)
  · exact .of h

theorem State.Answers.execMillMatmul {q : SeqId} {w : W128} (h : s₀.LeadsTo s) :
    s₀.Answers (Instr.millMatmul q w).wf (execMillMatmul q w s) := by
  unfold Machine.execMillMatmul
  exact .instr (.millRow (by
    split
    · exact .millMatmul
    · exact .fail)) h

theorem State.Answers.execSeqBrJump {q : SeqId} {w : W128} (h : s₀.LeadsTo s) :
    s₀.Answers (Instr.seqBrJump q w).wf (execSeqBrJump q w s) := by
  unfold Machine.execSeqBrJump
  exact .instr (.now (.getBind fun _ => .bind .demand fun _ => by
      split
      · exact .bind .demand fun _ => .bind .branchTaken fun _ => .pure
      · exact .bind .branchTaken fun _ => .pure)) h

theorem State.Answers.execSeqBrBreak {q : SeqId} {w : W128} (h : s₀.LeadsTo s) :
    s₀.Answers (Instr.seqBrBreak q w).wf (execSeqBrBreak q w s) := by
  unfold Machine.execSeqBrBreak
  exact .instr (.now (.getBind fun _ => .bind .demand fun _ => by
      split
      · exact .bind .demand fun _ => .bind .branchTaken fun _ => .ite (.bind (.change fun h => h.updSeqr) fun _ => .pure) .pure
      · exact .bind .fail fun _ => .bind .branchTaken fun _ => .ite (.bind (.change fun h => h.updSeqr) fun _ => .pure) .pure)) h

theorem State.Answers.execSeqTallyOpen {q : SeqId} {w : W128} (h : s₀.LeadsTo s) :
    s₀.Answers (Instr.seqTallyOpen q w).wf (execSeqTallyOpen q w s) := by
  unfold Machine.execSeqTallyOpen
  exact .instr (.now (.getBind fun _ => by
      split
      · exact .bind (.change fun h => h.setFlag) fun _ => .pure
      · exact .bind .demand fun _ => .ite (.bind .demand fun _ => .pure) (.bind (.setTally fun _ _ => rfl) fun _ => .pure))) h

theorem State.Answers.execSeqTallyFetch {q : SeqId} {w : W128} (h : s₀.LeadsTo s) :
    s₀.Answers (Instr.seqTallyFetch q w).wf (execSeqTallyFetch q w s) := by
  unfold Machine.execSeqTallyFetch
  exact .instr (.now (.getBind fun _ => .bind (.change fun h => h.countSeq) fun _ => by
      split
      · exact .ite (.bind .putScalar fun _ => .bind (.setTally fun _ => id) fun _ => .pure) (.bind (.change fun h =>
          h.countSeq.setFlag) fun _ => .pure)
      · exact .bind (.change fun h => h.countSeq.setFlag) fun _ => .pure)) h

theorem State.Answers.execSeqTallyDone {q : SeqId} {w : W128} (h : s₀.LeadsTo s) :
    s₀.Answers (Instr.seqTallyDone q w).wf (execSeqTallyDone q w s) := by
  unfold Machine.execSeqTallyDone
  exact .instr (.now (.getBind fun _ => by
      split
      · exact .pure
      · exact .bind .demand fun _ => .ite (.bind (.setTally fun _ => id) fun _ => .bind .fail fun _ => .pure)
          (.bind (.setTally fun t => NatMap.put_wf false t.map _ true) fun _ => .pure))) h

theorem State.Answers.execSeqTallyReset {q : SeqId} {w : W128} (h : s₀.LeadsTo s) :
    s₀.Answers (Instr.seqTallyReset q w).wf (execSeqTallyReset q w s) := by
  unfold Machine.execSeqTallyReset
  exact .instr (.now (.getBind fun _ => by
    split
    · exact .pure
    · exact .bind (.setTally fun _ => id) fun _ => .pure)) h

theorem State.Answers.execSeqJoin {q : SeqId} {w : W128} (h : s₀.LeadsTo s) :
    s₀.Answers (Instr.seqJoin q w).wf (execSeqJoin q w s) := by
  unfold Machine.execSeqJoin
  exact .instr (.getBind fun _ => .guard .stall fun _ => .now (.ite (by
      split
      · exact .bind (.change fun h => h.joinEnd) fun _ => .pure
      · exact .pure) .pure)) h

theorem State.Answers.execSyncOpApply {q : SeqId} {wf : Bool} (h : s₀.LeadsTo s) : s₀.Answers wf (execSyncOpApply q s) := by
  unfold Machine.execSyncOpApply
  split
  · exact .of (.ite h.updSeqr.countSeq.applyCounter.complete h)
  · exact .of h

theorem State.Answers.execSyncWaitTimeout {q : SeqId} {wf : Bool} (h : s₀.LeadsTo s) : s₀.Answers wf (execSyncWaitTimeout q s) := by
  unfold Machine.execSyncWaitTimeout
  split
  · exact .of (.ite h.endWait.settle (.ite h.updSeqr.countSeq.setFlag.complete h))
  · exact .of h

theorem State.Answers.execStreamSlotFilled {c : Fin 64} {n : Fin 8} {wf : Bool} (h : s₀.LeadsTo s) :
    s₀.Answers wf (execStreamSlotFilled c n s) := by
  unfold Machine.execStreamSlotFilled
  split
  · exact .of (.ite h.transfer h)
  · exact .of h

theorem State.Answers.execStreamSlotDrain {c : Fin 64} {n : Fin 8} {wf : Bool} (h : s₀.LeadsTo s) :
    s₀.Answers wf (execStreamSlotDrain c n s) := by
  unfold Machine.execStreamSlotDrain
  split
  · split
    · exact .of (.ite h.transfer h)
    · exact .of h
  · exact .of h

theorem State.Answers.execCoreFaultReport {c : Fin 64} {wf : Bool} (h : s₀.LeadsTo s) : s₀.Answers wf (execCoreFaultReport c s) := by
  unfold Machine.execCoreFaultReport
  exact .of (.ite h (by
      dsimp only
      split
      · split
        · exact .ite h.updCore (.endJob h.updCore)
        · exact h.updCore
      · exact h.updCore))

theorem State.Answers.execCalRecRead {q : SeqId} {w : W128} (h : s₀.LeadsTo s) :
    s₀.Answers (Instr.calRecRead q w).wf (execCalRecRead q w s) := by
  unfold Machine.execCalRecRead
  exact .instr (.bind .operand fun _ => .calNow (.bind .calRA fun _ => .ite .pure (.getBind fun _ => by
      split
      · exact .writeMem
      · exact .bind (.change fun h => h.recordLost) fun _ => .fail))) h

theorem State.Answers.execAsStatusRead {wf : Bool} (h : s₀.LeadsTo s) : s₀.Answers wf (execAsStatusRead s) := by
  unfold Machine.execAsStatusRead
  exact .of (.of_latch (h.pkgWord (off := 0x20004)))

theorem State.Answers.execMonitorConversionEnd {am1 : Bool} {raw : Int} {wf : Bool} (h : s₀.LeadsTo s) :
    s₀.Answers wf (execMonitorConversionEnd am1 raw s) := by
  unfold Machine.execMonitorConversionEnd
  split
  · exact .of h
  · exact .of (.dealBoth (.ite (.ite (h.of_vital rfl) (h.of_vital rfl)) (.writeResult (.ite (h.of_vital rfl) (h.of_vital rfl)))))

theorem State.Answers.execTripExit {wf : Bool} (h : s₀.LeadsTo s) : s₀.Answers wf (execTripExit s) := by
  unfold Machine.execTripExit
  split
  · exact .of (.ite (.ite (.ite (.of_vital (h.of_vital rfl) rfl) (.actRecorded (.of_vital (h.of_vital rfl) rfl))) (h.of_vital rfl)) h)
  · exact .of h

theorem State.Answers.execAsMstatRead {wf : Bool} (h : s₀.LeadsTo s) : s₀.Answers wf (execAsMstatRead s) := by
  unfold Machine.execAsMstatRead
  exact .of (.of_latch (h.pkgWord (off := 0x28004)))

theorem State.Answers.execLpddrRef {ch : Chan} {wf : Bool} (h : s₀.LeadsTo s) : s₀.Answers wf (execLpddrRef ch s) := by
  unfold Machine.execLpddrRef
  exact .of (h.whenOn (fun h1 => .ite (h1.of_vital rfl) (.ite (.wakeEvent (.of_vital (h1.of_vital rfl) rfl)) (.of_vital (h1.of_vital
    rfl) rfl))))

theorem State.Answers.execSelfRefreshEntry {ch : Chan} {wf : Bool} (h : s₀.LeadsTo s) : s₀.Answers wf (execSelfRefreshEntry ch s) := by
  unfold Machine.execSelfRefreshEntry
  exact .of (h.whenOn (fun h1 => .of_vital (.ite h1.updChan (.orderPoint h1.updChan)) rfl))

theorem State.Answers.execApertureRead {a : HostAddr} {len : Fin 65} (h : s₀.LeadsTo s) :
    s₀.Answers (Instr.apertureRead a len).wf (execApertureRead a len s) := by
  refine .refusedBurst (h.whenOn fun h => ?_)
  dsimp only
  split
  · exact .of_latch (.ite h.countPkg h.countPkg.setProto)
  · exact .of_latch h.countPkg.hostRead

theorem State.Answers.execStageRequestStart {wf : Bool} (h : s₀.LeadsTo s) : s₀.Answers wf (execStageRequestStart s) := by
  unfold Machine.execStageRequestStart
  exact .of (.ite h (by
      split
      · exact h.startHostStage.pumpStaging
      · exact h.startMoveStage.pumpStaging
      · exact h))

theorem State.Answers.execStageCopyDone {wf : Bool} (h : s₀.LeadsTo s) : s₀.Answers wf (execStageCopyDone s) := by
  unfold Machine.execStageCopyDone
  exact .of (.ite h (by
      dsimp only
      split
      · exact .pumpStaging (.endStage (h.countPkg.of_vital rfl))
      · exact .pumpStaging (.doneMover (.of_vital (h.countPkg.of_vital rfl) rfl))
      · exact .of_vital (h.countPkg.of_vital rfl) rfl))

theorem State.Answers.execFrameDrainTimeout {ch : Chan} {page : Nat} {wf : Bool} (h : s₀.LeadsTo s) :
    s₀.Answers wf (execFrameDrainTimeout ch page s) := by
  unfold Machine.execFrameDrainTimeout
  split
  · exact .of (.ite h h.startDrain)
  · exact .of h

theorem State.Answers.execFrameDrainDone {ch : Chan} {page : Nat} {wf : Bool} (h : s₀.LeadsTo s) :
    s₀.Answers wf (execFrameDrainDone ch page s) := by
  unfold Machine.execFrameDrainDone
  split
  · exact .of (.settleBases (h.of_vital rfl))
  · exact .of h

theorem State.Answers.execCqPost {wf : Bool} (h : s₀.LeadsTo s) : s₀.Answers wf (execCqPost s) := by
  unfold Machine.execCqPost
  exact .of (.ite h (by
      split
      · exact .ite h h.postDeferred
      · exact .ite (h.of_vital rfl) (.ite h.postDeferred (.ite h (.post (h.of_vital rfl))))))

theorem State.Answers.execHostLost {wf : Bool} (h : s₀.LeadsTo s) : s₀.Answers wf (execHostLost s) := by
  unfold Machine.execHostLost
  exact .of (h.whenOn (fun h1 => .ite h1 (.logEvent (.raiseIrq (h1.of_vital rfl)))))

theorem State.Answers.execJobDispatch {wf : Bool} (h : s₀.LeadsTo s) : s₀.Answers wf (execJobDispatch s) := by
  unfold Machine.execJobDispatch
  exact .of (.ite h (by
    split
    · exact .ite (.doDump (h.of_vital rfl)) h.dispatchJob
    · exact h))

theorem State.Answers.execChunkDigestCheck {wf : Bool} (h : s₀.LeadsTo s) : s₀.Answers wf (execChunkDigestCheck s) := by
  unfold Machine.execChunkDigestCheck
  split
  · exact .of h
  · split
    · exact .of h
    · dsimp only
      split
      · exact .of h.checkManifest
      · exact .of h.checkChunk
      · exact .of h

theorem State.Answers.execChunkOverdueExpiry {chunk : Nat} {wf : Bool} (h : s₀.LeadsTo s) :
    s₀.Answers wf (execChunkOverdueExpiry chunk s) := by
  unfold Machine.execChunkOverdueExpiry
  split
  · exact .of h
  · exact .of (.ite h.loadFailure h)

theorem State.Answers.execLoadAnnounce {peer : Fin 8} {mslot : Fin 16} {pkgLen : Nat} {manifest : List Byte} {map : List W64}
    {wf : Bool} (h : s₀.LeadsTo s) :
    s₀.Answers wf (execLoadAnnounce peer mslot pkgLen manifest map s) := by
  unfold Machine.execLoadAnnounce
  exact .of (.ite h (by
      split
      · exact h.tellLoad
      · exact .ite h.tellLoad (by
          split
          · exact h.tellLoad
          · exact .checkManifest (h.of_vital rfl))))

theorem State.Answers.execChunkPull {chunk : Nat} {data : List Byte} {wf : Bool} (h : s₀.LeadsTo s) :
    s₀.Answers wf (execChunkPull chunk data s) := by
  unfold Machine.execChunkPull
  split
  · exact .of h
  · split
    · exact .of h
    · exact .of (.ite h h.pullCopy)

theorem State.Answers.execPullTimeout {chunk : Nat} {wf : Bool} (h : s₀.LeadsTo s) : s₀.Answers wf (execPullTimeout chunk s) := by
  unfold Machine.execPullTimeout
  split
  · exact .of h
  · split
    · exact .of h
    · exact .of (.ite h.loadFailure h)

theorem State.Answers.execChunkConvert {chunk place : Nat} {wf : Bool} (h : s₀.LeadsTo s) :
    s₀.Answers wf (execChunkConvert chunk place s) := by
  unfold Machine.execChunkConvert
  split
  · exact .of h
  · split
    · exact .of h
    · exact .of (.ite h (.ite h.loadFailure h.convertChunk))

theorem State.Answers.execLoaderPlyProgram {ply : Fin 8192} {wf : Bool} (h : s₀.LeadsTo s) :
    s₀.Answers wf (execLoaderPlyProgram ply s) := by
  unfold Machine.execLoaderPlyProgram
  dsimp only
  split
  · exact .of h
  · split
    · exact .of (.ite h (.ite (.updLoad (.ite_snd h.restorePly h.loadPly)) (.loadFailure (.ite_snd h.restorePly h.loadPly))))
    · exact .of h

theorem State.Answers.execModelAdmission {peersDone : Bool} {wf : Bool} (h : s₀.LeadsTo s) :
    s₀.Answers wf (execModelAdmission peersDone s) := by
  unfold Machine.execModelAdmission
  split
  · exact .of h
  · split
    · exact .of h
    · exact .of (.ite h (.ite h.enterModel.updLoad.closeLoad h.updLoad.updModel))

theorem State.Answers.execSwapProgram {wf : Bool} (h : s₀.LeadsTo s) : s₀.Answers wf (execSwapProgram s) := by
  unfold Machine.execSwapProgram
  split
  · exact .of h
  · split
    · exact .of h
    · exact .of (.ite h (.ite h.updModel (.ite h h.swapStep)))

theorem State.Answers.execLoadRollback {wf : Bool} (h : s₀.LeadsTo s) : s₀.Answers wf (execLoadRollback s) := by
  unfold Machine.execLoadRollback
  split
  · exact .of h
  · exact .of (.ite h (.ite (.rollbackFailed (.rollEach (.foldl (fun h1 => h1.dropDir) h)))
      (.closeLoad (.updModel (.rollEach (.foldl (fun h1 => h1.dropDir) h))))))

theorem State.Answers.execUnloadFree {mslot : Fin 16} {wf : Bool} (h : s₀.LeadsTo s) : s₀.Answers wf (execUnloadFree mslot s) := by
  unfold Machine.execUnloadFree
  exact .of (.ite h (.retrySearch (.foldl (fun h1 => h1.finishReq) h.emptySlot.rejectHeld)))

theorem State.Answers.execBootRomPhase {wf : Bool} (h : s₀.LeadsTo s) : s₀.Answers wf (execBootRomPhase s) := by
  unfold Machine.execBootRomPhase
  exact .of (.ite h (.ite (h.of_vital rfl) (.ite (h.of_vital rfl) (.raiseIrq (h.of_vital rfl)))))

theorem State.Answers.execHouseFirmwarePhase {wf : Bool} (h : s₀.LeadsTo s) : s₀.Answers wf (execHouseFirmwarePhase s) := by
  unfold Machine.execHouseFirmwarePhase
  have routed : s₀.Follows s.loadClocks.loadRoutes := .loadRoutes h.loadClocks
  have after (u : State) : u.LeadsTo (State.powerTrigger (u.assay.badRecords.foldl State.recordBad { u with boot := .house })) :=
    .powerTrigger (.foldl (fun h1 => h1.recordBad) ((State.LeadsTo.refl u).of_vital rfl))
  exact State.Follows.ite h.toFollows (routed.leads (after _))

theorem State.Answers.execServiceFirmwarePhase {wf : Bool} (h : s₀.LeadsTo s) : s₀.Answers wf (execServiceFirmwarePhase s) := by
  have served : s₀.LeadsTo { s with boot := .service } := h.of_vital rfl
  have clocked := State.LeadsTo.runWaiting (State.LeadsTo.ite (p := s.refclk.present) served (served.raiseIrq (b := IRQ_CLK)))
  exact .of (.ite h (.ite clocked (.ite (.raiseIrq clocked.of_port) (.actRecorded clocked.of_port))))

theorem State.Answers.execRailExcursion {rail : Rail} {wf : Bool} (h : s₀.LeadsTo s) : s₀.Answers wf (execRailExcursion rail s) := by
  unfold Machine.execRailExcursion
  exact State.Follows.ite h.toFollows
    (.cold (.of_vital (.ite (.cutStore (.ite h.loseWarehouse h)) (.ite h.loseWarehouse h)) rfl))

theorem State.Answers.execScrubEnd {wf : Bool} (h : s₀.LeadsTo s) : s₀.Answers wf (execScrubEnd s) := by
  unfold Machine.execScrubEnd
  split
  · exact .of (.ite h.endScrub.runJoined h)
  · exact .of h

theorem State.Answers.execSecAeadOpen {q : SeqId} {w : W128} (h : s₀.LeadsTo s) :
    s₀.Answers (Instr.secAeadOpen q w).wf (execSecAeadOpen q w s) := by
  unfold Machine.execSecAeadOpen
  exact .instr (.bind .operand fun _ => .bind .operand fun _ => .bind .operand fun _ => .bind .operand fun _ => .secNow
    (.bind .needKey fun _ => .bind .secNonce fun _ => .bind .messageOf fun _ => .bind .messageOf fun _ => .bind .readMem fun _ => by
      split
      · exact .bind .putMessage fun _ => .putCmp
      · exact .putCmp)) h

theorem State.Answers.execChSecerrRead {wf : Bool} (h : s₀.LeadsTo s) : s₀.Answers wf (execChSecerrRead s) := by
  unfold Machine.execChSecerrRead
  exact .of (.of_latch (h.pkgWord (off := 0x10008)))

theorem State.Answers.execMgResponseRead {wf : Bool} (h : s₀.LeadsTo s) : s₀.Answers wf (execMgResponseRead s) := by
  unfold Machine.execMgResponseRead
  split
  · exact .of h.i3cGives
  · exact .of h.i3cNack

theorem State.Answers.execMgSigfailRead {wf : Bool} (h : s₀.LeadsTo s) : s₀.Answers wf (execMgSigfailRead s) := by
  unfold Machine.execMgSigfailRead
  exact .of (.of_latch (h.pkgWord (off := 0x50010)))

theorem State.Answers.execLinkTrainingDone {n : Fin 4} {lanes : LaneResult} {wf : Bool} (h : s₀.LeadsTo s) :
    s₀.Answers wf (execLinkTrainingDone n lanes s) := by
  unfold Machine.execLinkTrainingDone
  exact .of (.ite h (by
    split
    · exact h.trained
    · exact h.trained
    · exact h.linkDown.updLink))

theorem State.Answers.execMemberListStable {wf : Bool} (h : s₀.LeadsTo s) : s₀.Answers wf (execMemberListStable s) := by
  unfold Machine.execMemberListStable
  exact State.Follows.ite h.toFollows (.ite (h.toFollows.of_fabric.leads (State.LeadsTo.refl _).takeReports)
    (h.toFollows.of_fabric.leads (.shapeChange (State.LeadsTo.refl _).takeReports)))

theorem State.Answers.execRouteRewrite {dist : List (Fin 8 × Fin 8 × Nat)} {wf : Bool} (h : s₀.LeadsTo s) :
    s₀.Answers wf (execRouteRewrite dist s) := by
  unfold Machine.execRouteRewrite
  exact State.Follows.ite h.toFollows (h.toFollows.of_fabric.leads (.foldl (fun h1 => h1.sendFrame) (.refl _)))

theorem State.Answers.execStitchFrameReceive {n : Fin 4} {header payload tag : List Byte} {wf : Bool} (h : s₀.LeadsTo s) :
    s₀.Answers wf (execStitchFrameReceive n header payload tag s) := by
  unfold Machine.execStitchFrameReceive
  exact .of (.ite h (by
      dsimp only
      split
      · split
        · exact h.acceptFrame
        · exact h.discardFrame
      · exact h.discardFrame))

theorem State.Answers.execMemberLost {id : Fin 8} {wf : Bool} (h : s₀.LeadsTo s) : s₀.Answers wf (execMemberLost id s) := by
  unfold Machine.execMemberLost
  split
  · exact State.Follows.ite h.toFollows (.loseMember h)
  · exact .of h

theorem State.Answers.execFbStatusRead {wf : Bool} (h : s₀.LeadsTo s) : s₀.Answers wf (execFbStatusRead s) := by
  unfold Machine.execFbStatusRead
  exact .of (.of_latch (h.pkgWord (off := 0x40000)))

theorem State.Answers.execFbLinkRead {n : Fin 4} {wf : Bool} (h : s₀.LeadsTo s) : s₀.Answers wf (execFbLinkRead n s) := by
  have read (off : Nat) {s : State} (h : s₀.LeadsTo s) : s₀.LeadsTo (s.pkgWord off).2 := h.pkgWord
  unfold Machine.execFbLinkRead
  generalize 0x40010 + 8 * n.val = lo, 0x40014 + 8 * n.val = hi
  exact .of (.of_latch (read hi (read lo h)))

theorem State.Answers.execPatrolRead {site : PatrolSite} {found : EccResult} {wf : Bool} (h : s₀.LeadsTo s) :
    s₀.Answers wf (execPatrolRead site found s) := by
  unfold Machine.execPatrolRead
  split
  · exact .of h
  · exact .of (.ite h.storeCorrected h)
  · exact .of (.ite h.storeBroken h)
  · exact .of h.coreCorrected
  · exact .of h.coreEcc
  · exact .of h.countPkg
  · exact .of (.ite h.disableCacheLine h)

theorem State.Answers.execRemapProgram {c : Fin 64} {mslot : Fin 16} {wf : Bool} (h : s₀.LeadsTo s) :
    s₀.Answers wf (execRemapProgram c mslot s) := by
  unfold Machine.execRemapProgram
  split
  · exact .of (.ite h.programRemap h)
  · exact .of h

theorem State.Answers.execLedgerRecordWrite {wf : Bool} (h : s₀.LeadsTo s) : s₀.Answers wf (execLedgerRecordWrite s) := by
  unfold Machine.execLedgerRecordWrite
  split
  · exact .of h
  · exact .of (.ite h (.countPkg (h.poke.of_vital rfl)))

theorem State.Answers.execPwThermRead {wf : Bool} (h : s₀.LeadsTo s) : s₀.Answers wf (execPwThermRead s) := by
  unfold Machine.execPwThermRead
  exact .of (.of_latch (h.pkgWord (off := 0x30024)))

theorem State.Answers.execInstructionCompletion {q : SeqId} {queue : QueueId} {index : Nat} {wf : Bool} (h : s₀.LeadsTo s) :
    s₀.Answers wf (execInstructionCompletion q queue index s) := by
  unfold Machine.execInstructionCompletion
  split
  · dsimp only
    split
    · exact .of (.ite h.updSeqr.complete.pumpQueues h)
    · exact .of h
  · split
    · exact .of (.ite h h.updSeqr.complete.pumpQueues)
    · exact .of h
  · split
    · exact .of h.completeLoom
    · exact .of h

/-- A run of a command, from a state that `s₀` leads to, answers one that it leads to, or refuses a command that is not well-formed. -/
theorem exec_answers (h : s₀.LeadsTo s) (i : Instr) : s₀.Answers i.wf (exec i s) := by
  cases i with
  | shapeUpdateBegin => exact .execShapeUpdateBegin h
  | shapeUpdateComplete => exact .of h.endUpdate.runWaiting
  | refclkStop => exact .execRefclkStop h
  | refclkLost => exact .execRefclkLost h
  | refclkReturn => exact .execRefclkReturn h
  | delayLineRelock => exact .of (.ite (.pumpCores (h.of_vital rfl)) h)
  | actCapGrant => exact .execActCapGrant h
  | programmingBudgetGrant => exact .execProgrammingBudgetGrant h
  | loomMvm _ _ => exact .instr (.loomOn (fun _ => .loomMv)) h
  | loomMvmt _ _ => exact .instr (.loomOn (fun _ => .loomMv)) h
  | loomPly _ _ => exact .instr (.loomOn (fun _ => .loomPly)) h
  | loomProg _ _ => exact .instr (.loomOn (fun _ => .loomRows)) h
  | loomVerify _ _ => exact .instr (.loomOn (fun _ => .loomRows)) h
  | loomProbe _ _ => exact .instr (.loomOn (fun _ => .loomProbe)) h
  | integrationWindowEnd _ => exact .execIntegrationWindowEnd h
  | drain _ _ => exact .execDrain h
  | planeSum _ => exact .execPlaneSum h
  | millMatmul _ _ => exact .execMillMatmul h
  | millVecAdd _ _ => exact .instr (.millRow .millVec) h
  | millVecSub _ _ => exact .instr (.millRow .millVec) h
  | millVecMul _ _ => exact .instr (.millRow .millVec) h
  | millVecFma _ _ => exact .instr (.millRow .millVec) h
  | millVecDiv _ _ => exact .instr (.millRow .millVec) h
  | millVecSqrt _ _ => exact .instr (.millRow .millVec) h
  | millVecMax _ _ => exact .instr (.millRow .millVec) h
  | millVecMin _ _ => exact .instr (.millRow .millVec) h
  | millVecAbs _ _ => exact .instr (.millRow .millVec) h
  | millVecNeg _ _ => exact .instr (.millRow .millVec) h
  | millVecCmp _ _ => exact .instr (.millRow .millVec) h
  | millVecSel _ _ => exact .instr (.millRow .millVec) h
  | millVecCvt _ _ => exact .instr (.millRow .millVec) h
  | millVecIadd _ _ => exact .instr (.millRow .millVec) h
  | millVecIsub _ _ => exact .instr (.millRow .millVec) h
  | millVecImul _ _ => exact .instr (.millRow .millVec) h
  | millVecShl _ _ => exact .instr (.millRow .millVec) h
  | millVecShr _ _ => exact .instr (.millRow .millVec) h
  | millVecAnd _ _ => exact .instr (.millRow .millVec) h
  | millVecOr _ _ => exact .instr (.millRow .millVec) h
  | millVecXor _ _ => exact .instr (.millRow .millVec) h
  | millRedSum _ _ => exact .instr (.millRow .millRed) h
  | millRedSumsq _ _ => exact .instr (.millRow .millRed) h
  | millRedMeanvar _ _ => exact .instr (.millRow .millRed) h
  | millRedMax _ _ => exact .instr (.millRow .millRed) h
  | millRedMin _ _ => exact .instr (.millRow .millRed) h
  | millRedAbsmax _ _ => exact .instr (.millRow .millRed) h
  | millRedMerge _ _ => exact .instr (.millRow .millRed) h
  | millSort _ _ => exact .instr (.millRow .millSort) h
  | millTopk _ _ => exact .instr (.millRow .millTopk) h
  | millWalk _ _ => exact .instr (.millRow .millWalk) h
  | millRng _ _ => exact .instr (.millRow .millRng) h
  | millTableLoad _ _ => exact .instr (.millRow .millTableLoad) h
  | millTableEval _ _ => exact .instr (.millRow .millTableEval) h
  | seqNop _ _ => exact .instr (.now .pure) h
  | seqLoop _ _ => exact .instr (.now (.bind .loopCount fun _ => .loopBody)) h
  | seqBrJump _ _ => exact .execSeqBrJump h
  | seqBrBreak _ _ => exact .execSeqBrBreak h
  | seqSetMovi _ _ => exact .instr .setRD h
  | seqSetAdd _ _ => exact .instr .setRD h
  | seqSetAddi _ _ => exact .instr .setRD h
  | seqSetSub _ _ => exact .instr .setRD h
  | seqSetMin _ _ => exact .instr .setRD h
  | seqSetMax _ _ => exact .instr .setRD h
  | seqSetCmp _ _ => exact .instr (.now (.bind (.change fun h => h.writeCmp) fun _ => .pure)) h
  | seqSetCmpi _ _ => exact .instr (.now (.bind (.change fun h => h.writeCmp) fun _ => .pure)) h
  | seqSetGetal _ _ => exact .instr .setRD h
  | seqSetSetal _ _ => exact .instr (.now (.bind (.change fun h => h.updSeqr) fun _ => .pure)) h
  | seqTallyOpen _ _ => exact .execSeqTallyOpen h
  | seqTallyFetch _ _ => exact .execSeqTallyFetch h
  | seqTallyDone _ _ => exact .execSeqTallyDone h
  | seqTallyReset _ _ => exact .execSeqTallyReset h
  | seqJoin _ _ => exact .execSeqJoin h
  | syncSignal _ _ => exact .instr (.bind .syncIndex fun _ => .bufferOp) h
  | syncAdd _ _ => exact .instr (.bind .syncIndex fun _ => .bind .addV fun _ => .bind .addT fun _ => .bufferOp) h
  | syncWaitGe _ _ => exact .instr (.bind .syncIndex fun _ => .ite (.bind .scalar fun _ => .waitOn) (.bind .pure fun _ => .waitOn)) h
  | syncWaitEpoch _ _ => exact .instr (.bind .syncIndex fun _ => .bind .scalar fun _ => .waitOn) h
  | syncRead _ _ =>
    exact .instr (.bind .syncIndex fun _ => .getBind fun _ => .bind .putScalar fun _ => .bind .completeNow fun _ => .pure) h
  | syncOpApply _ => exact .execSyncOpApply h
  | syncWaitTimeout _ => exact .execSyncWaitTimeout h
  | moveLoad _ _ => exact .instr (.moveRow .moveCopy) h
  | moveStore _ _ => exact .instr (.moveRow .moveCopy) h
  | moveStream _ _ => exact .instr (.moveRow .moveStreamOn) h
  | movePrefetch _ _ => exact .instr (.moveRow .movePrefetch) h
  | moveStage _ _ => exact .instr (.moveRow .moveStage) h
  | streamSlotFilled _ _ => exact .execStreamSlotFilled h
  | streamSlotDrain _ _ => exact .execStreamSlotDrain h
  | coreFaultReport _ => exact .execCoreFaultReport h
  | calSeq _ _ => exact .instr (.calNow (.bind .calRA fun _ => .change fun h => h.writeEntry)) h
  | calRead _ _ => exact .instr (.calNow (.getBind fun _ => .putScalar)) h
  | calTap _ _ => exact .instr (.calNow (.change fun h => h.pointTap)) h
  | calTrim _ _ =>
    exact .instr (.bind .operand fun _ => .calNow (.bind .calRA fun _ => .ite .pure (.bind .readMem fun _ => .change fun h =>
      h.setPending))) h
  | calApply _ _ => exact .instr (.calNow (.bind .calRA fun _ => .change fun h => h.calApply)) h
  | calRecRead _ _ => exact .execCalRecRead h
  | calRecWrite _ _ =>
    exact .instr (.bind .operand fun _ => .calNow (.bind .calRA fun _ => .ite .pure (.bind .readMem fun _ => .change fun h =>
      h.writeRecord))) h
  | calCoreProbe _ _ => exact .instr .calCoreBody h
  | calCoreVerify _ _ => exact .instr .calCoreBody h
  | calCoreExecute _ => exact .execCalCoreExecute h
  | calApplication _ => exact .of (.ite h.applyCore h)
  | lightMeasurementComplete _ => exact .of (.ite h.finishLight h)
  | sampleWaitExpiry _ => exact .of (.ite h.wakeEvent.updCore h)
  | ageTrigger _ _ => exact .of (.ite h h.updAssay.trigger)
  | reAnneal _ => exact .of (.ite h.anneal h)
  | annealWaitExpiry _ => exact .of (.ite h.updAssay h)
  | calHeaderRewrite => exact .of (.ite h (h.of_vital rfl))
  | asCtrlForce => exact .of h.asForce
  | asCtrlEn _ => exact .of h.asEnable
  | asStatusRead => exact .execAsStatusRead h
  | monitorConversionEnd _ _ => exact .execMonitorConversionEnd h
  | tripExit => exact .execTripExit h
  | sleepComparatorTrip => exact .of (.ite (.enterTrip (.ite h (.logEvent (h.of_vital rfl)))) h)
  | asMctrlTrig => exact .of h.monTrigger
  | asMctrlIlv _ => exact .of (.monTrigger (h.of_vital rfl))
  | asMctrlLast _ => exact .of (.monTrigger (h.of_vital rfl))
  | asMctrlCont _ => exact .of (h.of_vital rfl)
  | monitorRestart => exact .of (.ite h.monRestart h)
  | monitorPowerOff => exact .of h.monitorOff
  | monitorPowerReturn => exact .of h.monitorOn
  | asMstatRead => exact .execAsMstatRead h
  | lpddrActivate _ _ _ => exact .of (h.whenOn (fun h1 => h1.updChan))
  | lpddrRef ch => exact .execLpddrRef (ch := ch) h
  | lpddrRfm _ => exact .of h
  | selfRefreshEntry _ => exact .execSelfRefreshEntry h
  | selfRefreshExit _ => exact .of (h.whenOn (fun h1 => h1.leaveSelfRefresh))
  | powerDownEntry _ => exact .of (h.whenOn (fun h1 => h1.updChan))
  | powerDownExit _ => exact .of (h.whenOn (fun h1 => h1.updChan))
  | modeRegisterWrite _ _ _ => exact .of (h.whenOn (fun h1 => .ite h1 h1.updChan))
  | modeRegisterRead _ _ => exact .of (h.whenOn (fun h1 => h1.of_vital rfl))
  | commandBusTraining _ => exact .of (h.whenOn (fun h1 => h1.train.feedback))
  | wck2ckLeveling _ => exact .of (h.whenOn (fun h1 => h1.train.feedback))
  | readDqCalibration _ => exact .of (h.whenOn (fun h1 => h1.train.of_vital rfl))
  | writeDqTraining _ _ => exact .of (h.whenOn (fun h1 => .of_vital (.train h1.updChan) rfl))
  | zqCalibration _ => exact .of (h.whenOn (fun h1 => .ite h1 h1.train))
  | hpResetN _ => exact .of (h.whenOn (fun h1 => h1.leaveSelfRefresh.updChan))
  | sqRingWrite _ _ => exact .hostWrite h (fun h1 => .ite h1.pokeMasked h1)
  | apertureWrite _ _ => exact .hostWrite h (fun h1 => .ite h1.writeAperture h1)
  | wharfWrite _ _ => exact .hostWrite h (fun h1 => .ite h1.writeWharf h1)
  | ctrlRegWrite _ _ => exact .hostWrite h (fun h1 => .ite h1.writeControl h1)
  | unmappedWrite _ _ => exact .hostWrite h (fun h1 => .ite h1.setProto h1)
  | apertureRead _ _ => exact .execApertureRead h
  | hpStatusRead => exact .of (h.whenOn (fun h1 => h1.clearStatus.of_vital rfl))
  | hpDbSqWrite _ => exact .of (h.whenTaken (fun h1 => h1.doorbell))
  | stageRequest _ => exact .of (h.whenTaken (fun h1 => h1.stageBell))
  | unstageRequest _ => exact .of (h.whenTaken (fun h1 => h1.stageBell))
  | stageRequestStart => exact .execStageRequestStart h
  | stageCopyDone => exact .execStageCopyDone h
  | hpRingCfgWrite _ => exact .of (h.whenTaken (fun h1 => h1.ringCfg))
  | hpIrqStatusClear _ => exact .of (h.whenTaken (fun h1 => h1.irqClear))
  | hpIrqEnableWrite _ => exact .of (h.whenTaken (fun h1 => h1.irqEnableSet))
  | hpCqHeadWrite _ => exact .of (h.whenTaken (fun h1 => h1.cqHeadSet))
  | hpApaBaseWrite _ => exact .of (h.whenTaken (fun h1 => h1.baseSet))
  | hpApbBaseWrite _ => exact .of (h.whenTaken (fun h1 => h1.baseSet))
  | hpPoolWrite _ => exact .of (h.whenTaken (fun h1 => h1.poolSet))
  | hpWhSplitWrite _ => exact .of (h.whenTaken (fun h1 => h1.splitSet))
  | hpLatencyBudgetWrite _ => exact .of (h.whenTaken (fun h1 => h1.budgetSet))
  | frameDrainTimeout _ _ => exact .execFrameDrainTimeout h
  | frameDrainDone _ _ => exact .execFrameDrainDone h
  | cqPost => exact .execCqPost h
  | cqIrqTimeout => exact .of (.ite (.settleCq (h.of_vital rfl)) h)
  | hostLost => exact .execHostLost h
  | submitJob => exact .accept (fun h1 => h1.acceptJob) h
  | submitPipeline => exact .accept (fun h1 => h1.acceptPipe) h
  | counterRequest => exact .accept (fun h1 => h1.acceptDump) h
  | submitLoad => exact .accept (fun h1 => h1.acceptLoad) h
  | submitRestore => exact .accept (fun h1 => h1.acceptLoad) h
  | submitUnload => exact .accept (fun h1 => h1.acceptUnload) h
  | submitCancel => exact .accept (fun h1 => h1.acceptCancel) h
  | submitSeal => exact .accept (fun h1 => h1.acceptBlock (fun h1 => h1.runSeal)) h
  | submitSession => exact .accept (fun h1 => h1.acceptBlock (fun h1 => h1.runSession)) h
  | submitRekey => exact .accept (fun h1 => h1.acceptBlock (fun h1 => h1.runRekey)) h
  | submitRetire => exact .accept (fun h1 => h1.acceptBlock (fun h1 => h1.runRetire)) h
  | jobDispatch => exact .execJobDispatch h
  | jobBoundary _ => exact .of h.jobBoundary.runWaiting
  | companionJob _ _ _ _ _ => exact .of (.ite h h.addJob)
  | chunkDigestCheck => exact .execChunkDigestCheck h
  | chunkOverdueExpiry _ => exact .execChunkOverdueExpiry h
  | intakeIdleTimeout => exact .of (.ite h h.updLoad)
  | loadAnnounce _ _ _ _ _ => exact .execLoadAnnounce h
  | chunkPull _ _ => exact .execChunkPull h
  | pullTimeout _ => exact .execPullTimeout h
  | chunkConvert _ _ => exact .execChunkConvert h
  | loaderPlyProgram _ => exact .execLoaderPlyProgram h
  | modelAdmission _ => exact .execModelAdmission h
  | swapProgram => exact .execSwapProgram h
  | loadRollback => exact .execLoadRollback h
  | unloadFree _ => exact .execUnloadFree h
  | porstDeassert => exact State.Follows.ite h.toFollows (.ite (.cold h) (.hardwarePhase h))
  | bootRomPhase => exact .execBootRomPhase h
  | houseFirmwarePhase => exact .execHouseFirmwarePhase h
  | serviceFirmwarePhase => exact .execServiceFirmwarePhase h
  | porstAssert => exact State.Follows.cold h
  | railExcursion _ => exact .execRailExcursion h
  | internalResetRelease => exact State.Follows.ite (.hardwarePhase (h.of_vital rfl)) (State.LeadsTo.toFollows (h.of_vital rfl))
  | vprogLowDuringProg => exact .of (.ite h.map_cores (h.of_vital rfl))
  | vddIoLoss => exact .of (.settlePin (h.of_vital rfl))
  | powerDownHold => exact .of (.ite (h.of_vital rfl) h)
  | consentPress => exact .of (.ite (h.of_vital rfl) h)
  | consentExpiry => exact .of (h.of_vital rfl)
  | scrubEnd => exact .execScrubEnd h
  | secHashInit _ _ => exact .instr (.secNow .updHash) h
  | secHashUpdate _ _ => exact .instr (.bind .operand fun _ => .secNow (.bind .messageOf fun _ => .updHash)) h
  | secHashFinal _ _ => exact .instr (.bind .operand fun _ => .secNow (.getBind fun _ => .writeMem)) h
  | secSign _ _ =>
    exact .instr (.bind .operand fun _ => .bind .operand fun _ => .secNow (.bind .needKey fun _ => .bind .messageOf fun _ =>
      .writeMem)) h
  | secVerify _ _ =>
    exact .instr (.bind .operand fun _ => .bind .operand fun _ => .bind .operand fun _ => .secNow (.bind .readMem fun _ => .bind
      .messageOf fun _ => .bind .readMem fun _ => .putCmp)) h
  | secDh _ _ => exact .instr (.bind .operand fun _ => .secNow (.bind .needKey fun _ => .bind .readMem fun _ => .placeKey)) h
  | secKdf _ _ =>
    exact .instr (.iteBind .operand .pure fun _ => .bind .operand fun _ => .bind .operand fun _ => .guard .needSecure fun _ => .secNow
      (.bind .needKey fun _ => .bind .messageOf fun _ => .bind .messageOf fun _ => .ite .putMessage (.bind .placedType fun _ =>
      .placeKey))) h
  | secAeadSeal _ _ =>
    exact .instr (.bind .operand fun _ => .bind .operand fun _ => .bind .operand fun _ => .bind .operand fun _ => .secNow
      (.bind .needKey fun _ => .bind .secNonce fun _ => .bind .messageOf fun _ => .bind .messageOf fun _ => .bind .putMessage fun _ =>
      .writeMem)) h
  | secAeadOpen _ _ => exact .execSecAeadOpen h
  | secKeyZero _ _ => exact .instr (.secNow (.change fun h => h.setKey)) h
  | secKeyGen _ _ =>
    exact .instr (.secNow (.bind .draw32 fun _ => .ite (.bind .placedType fun _ => .placeKey) (.bind .pure fun _ => .placeKey))) h
  | secKeyPub _ _ => exact .instr (.bind .operand fun _ => .secNow (.getBind fun _ => .bind .freeMany fun _ => .writeMem)) h
  | secKeyImport _ _ =>
    exact .instr (.bind .operand fun _ => .bind .needSecure fun _ => .secNow (.bind .messageOf fun _ => .bind .placedType fun _ =>
      .placeKey)) h
  | secRand _ _ => exact .instr (.bind .operand fun _ => .secNow (.bind .drawBytes fun _ => .putMessage)) h
  | secFuseRead _ _ => exact .instr (.secNow (.getBind fun _ => .putScalar)) h
  | secFuseBurn _ _ => exact .instr (.secNow (.bind .scalar fun _ => .bind .demand fun _ => .change fun h => h.burn)) h
  | chSecerrRead => exact .execChSecerrRead h
  | debugHalt _ => exact .of (.ite h.updSeqr h)
  | debugStep _ => exact .of (.ite h.updSeqr h)
  | debugResume _ => exact .of (.ite h.updSeqr h)
  | debugAccess _ _ _ => exact .execDebugAccess h
  | i3cEntdaa _ => exact .of (.ite h.of_mgmt h)
  | i3cSetdasa _ => exact .of (.ite h.of_mgmt h)
  | i3cRstdaa => exact .of (.ite h.of_mgmt h)
  | i3cGetpid => exact .i3cRead h
  | i3cGetbcr => exact .i3cRead h
  | i3cGetdcr => exact .i3cRead h
  | i3cGetstatus => exact .i3cRead h
  | i3cEnec => exact .of (.ite h.of_mgmt h)
  | i3cDisec => exact .of (.ite h.of_mgmt h)
  | i3cGetmwl => exact .i3cRead h
  | i3cGetmrl => exact .i3cRead h
  | i3cHdrEntry => exact .of h
  | mgResponseRead => exact .execMgResponseRead h
  | mgGetStatus _ => exact .manage h
  | mgTelemetry _ => exact .manage h
  | mgFence _ => exact .manage h
  | mgUnfence _ => exact .manage h
  | mgScrub _ => exact .manage h
  | mgSetMode _ => exact .manage h
  | mgSetProfile _ => exact .manage h
  | mgFwStage _ => exact .manage h
  | mgFwCommit _ => exact .manage h
  | mgRotateKeys _ => exact .manage h
  | mgDebugUnlock _ => exact .manage h
  | mgDebugPermanentLock _ => exact .manage h
  | mgProvision _ => exact .manage h
  | mgForceState _ => exact .manage h
  | mgLockoutExpiry => exact .of (h.of_vital rfl)
  | mgSigfailRead => exact .execMgSigfailRead h
  | linkTrainingStart _ => exact .of (.ite h.startTraining h)
  | linkTrainingDone _ _ => exact .execLinkTrainingDone h
  | linkRetry _ => exact .of (.ite h.startTraining h)
  | linkAlignmentLoss _ => exact .of (.ite h h.linkDown)
  | linkChallenge _ _ => exact .of (.ite h.rekeyLink.answerChallenge h)
  | linkSealReceived _ _ _ _ _ => exact .of (.ite h (.ite h.refuseLink (.ite h.refuseLink h.linkKeyed)))
  | linkRejectRetrain _ => exact .of (.ite h.startTraining h)
  | memberList _ _ _ => exact .of (.ite h (.takeReports (h.of_vital rfl)))
  | memberListStable => exact .execMemberListStable h
  | routeRewrite _ => exact .execRouteRewrite h
  | stitchFrameReceive _ _ _ _ => unfold exec; exact .execStitchFrameReceive h
  | stitchResendRequest _ _ => exact .of (.ite h (.foldl (fun h1 => h1.sendOn) h.updLink))
  | linkRekey _ => exact .of (.ite h.rekeyLink h)
  | memberLost _ => exact .execMemberLost h
  | linkFenceRetrain _ => exact .of (.ite h.updLink.startTraining h)
  | fbStatusRead => exact .execFbStatusRead h
  | fbLinkRead _ => exact .execFbLinkRead h
  | converterSelfTest _ => exact .of (.ite h (.ite h.returnCore (.ite h.selfTest h)))
  | patrolRead _ _ => exact .execPatrolRead h
  | remapStart _ _ => exact .of (.ite h (.ite h.updModel h.startRemap))
  | remapProgram _ _ => exact .execRemapProgram h
  | pcSelWrite _ _ => exact .of h.coreWrite
  | pcQualWrite _ _ _ => exact .of h.coreWrite
  | ledgerRecordWrite => exact .execLedgerRecordWrite h
  | powerEstimate _ _ => exact .of (h.of_vital rfl)
  | pwProfileWrite _ => exact .of h.writeProfile
  | pwCapWrite _ => exact .of h.writeCap
  | pwForceWrite _ => exact .of h.writeForce
  | pwThermRead => exact .execPwThermRead h
  | sleepHoldExpiry _ => exact .of (.ite (h.of_vital rfl) h)
  | sleepEntryDone => exact .of h.enterSleep.runWaiting
  | sleepExitDone => exact .of h.leaveSleep.runWaiting
  | instructionCompletion _ _ _ => exact .execInstructionCompletion h
  | confTimerTick => exact .of (.ite h (h.postDeferred.of_vital rfl))
  | vddIoReturn => exact .of (.settlePin (h.of_vital rfl))

/-! ### Steps -/

theorem idleTick_leads (s : State) : s.LeadsTo (idleTick s) := (State.LeadsTo.refl s).of_vital rfl

/-- A well-formed command answers a state, which follows the one it ran on. -/
theorem exec_next (s : State) {i : Instr} (wf : i.wf = true) : ∃ t, exec i s = .next t ∧ s.Follows t := by
  have answers := exec_answers (.refl s) i
  match e : exec i s with
  | .next t => rw [e] at answers; exact ⟨t, rfl, answers⟩
  | .refused _ => rw [e] at answers; exact absurd (answers.symm.trans wf) Bool.false_ne_true
  | .fault _ => rw [e] at answers; exact answers.elim

theorem step_follows {s t : State} (e : step s = .next t) : ({ s with pending := s.pending.tail } : State).Follows t := by
  unfold step at e
  split at e
  case h_1 nothing =>
    cases e
    have rest : ({ s with pending := s.pending.tail } : State) = s := by rw [nothing, List.tail_nil, ← nothing]
    rw [rest]
    exact (idleTick_leads s).toFollows
  case h_2 i rest queue =>
    have answers := exec_answers (.refl { s with pending := rest }) i
    rw [e] at answers
    rw [queue, List.tail_cons]
    exact answers

/-- Settles O3: a well-formed command is never refused and never faults the machine, and no command touches the queue. -/
theorem stepGoesOn : Obligations.StepGoesOn := by
  intro s ok
  have answered : ∃ t, step s = .next t := by
    unfold step
    split
    · exact ⟨_, rfl⟩
    · rename_i i rest queue
      have wf : i.wf = true := List.all_eq_true.mp ok i (by simp [queue])
      obtain ⟨t, e, -⟩ := exec_next { s with pending := rest } wf
      exact ⟨t, e⟩
  obtain ⟨t, e⟩ := answered
  have queue : t.pending = s.pending.tail := (step_follows e).pending
  refine ⟨t, e, queue, List.all_eq_true.mpr fun i m => ?_⟩
  exact List.all_eq_true.mp ok i (List.mem_of_mem_tail (queue ▸ m))

/-- Settles O4: each step leads only to states that keep every burned bit and what manufacture fused. -/
theorem burnsStay : Obligations.BurnsStay := fun _ _ e => ⟨(step_follows e).burns, (step_follows e).made⟩

/-- Settles O6: each step leads from a canonical state to canonical states only. -/
theorem stepKeepsCanonical : Obligations.StepKeepsCanonical := by
  intro s t canonical e
  have queued : ({ s with pending := s.pending.tail } : State).Canon := { s.canonical_iff.mp canonical with }
  exact t.canonical_iff.mpr ((step_follows e).canon queued)

end

end Sys2Proof.Machine
end

section
/-!
PROOF. The operations of the model that write no byte of any store: `s₀.SameMem s` says that `s` holds the bytes of `s₀`.
-/

namespace Sys2Proof.Machine

set_option Elab.async false

/-- The stores hold the same bytes. -/
def State.SameMem (s t : State) : Prop := t.mem = s.mem

section

variable {s₀ s t : State}

theorem State.SameMem.refl (s : State) : s.SameMem s := rfl

theorem State.SameMem.sameBytes (h : s.SameMem t) : s.sameBytes t := fun a => by rw [show t.mem = s.mem from h]

theorem State.SameMem.of_same (h : s₀.SameMem s) (same : t.mem = s.mem) : s₀.SameMem t := same.trans h

theorem State.SameMem.of_chouse {c : House} (h : s₀.SameMem s) : s₀.SameMem { s with chouse := c } := h.of_same rfl

theorem State.SameMem.of_latch {l : Latch} (h : s₀.SameMem s) : s₀.SameMem { s with latch := l } := h.of_same rfl

theorem State.SameMem.ite {p : Prop} [Decidable p] (h : s₀.SameMem s) (k : s₀.SameMem t) : s₀.SameMem (if p then s else t) := by
  split
  · exact h
  · exact k

theorem State.SameMem.ite_snd {α : Type} {p : Prop} [Decidable p] {x y : α × State} (h : s₀.SameMem x.2) (k : s₀.SameMem y.2) :
    s₀.SameMem (if p then x else y).2 := by
  split
  · exact h
  · exact k

theorem State.SameMem.foldl {α : Type} {f : State → α → State} {l : List α} (step : ∀ {s a}, s₀.SameMem s → s₀.SameMem (f s a))
    (h : s₀.SameMem s) : s₀.SameMem (l.foldl f s) := by
  induction l generalizing s with
  | nil => exact h
  | cons a l ih => exact ih (step h)

theorem State.SameMem.updCore {c : Fin 64} {f : Core → Core} (h : s₀.SameMem s) : s₀.SameMem (s.updCore c f) :=
  h.of_same rfl

theorem State.SameMem.count {c : Fin 64} {ev n : Nat} (h : s₀.SameMem s) : s₀.SameMem (s.count c ev n) := h.updCore

theorem State.SameMem.countSeq {q : SeqId} {ev n : Nat} (h : s₀.SameMem s) : s₀.SameMem (s.countSeq q ev n) := by
  unfold State.countSeq
  split
  · exact h.count
  · exact h

theorem State.SameMem.updSeqr {q : SeqId} {f : Seqr → Seqr} (h : s₀.SameMem s) : s₀.SameMem (s.updSeqr q f) := by
  unfold State.updSeqr
  split
  · exact h.updCore
  · exact h.of_same rfl

theorem State.SameMem.discard {q : SeqId} (h : s₀.SameMem s) : s₀.SameMem (s.discard q) := by
  unfold State.discard
  extract_lets gone moves s1 s2 port s3
  have left : s₀.SameMem s3 := .of_same (s := s2) h.countSeq.updSeqr rfl
  cases q with
  | core c => exact .of_same (s := s3) left rfl
  | house => exact left

theorem State.SameMem.stopCore {c : Fin 64} (h : s₀.SameMem s) : s₀.SameMem (s.stopCore c) := h.updCore.discard

theorem State.SameMem.stopCores {j : Job} {except : List Nat} (h : s₀.SameMem s) : s₀.SameMem (s.stopCores j except) :=
  .foldl (fun h1 => .ite h1 h1.stopCore) h

theorem State.SameMem.updJob {slot : Nat} {f : Job → Job} (h : s₀.SameMem s) : s₀.SameMem (s.updJob slot f) :=
  h.of_same rfl

theorem State.SameMem.countPkg {ev n : Nat} (h : s₀.SameMem s) : s₀.SameMem (s.countPkg ev n) := h.of_same rfl

theorem State.SameMem.updLink {n : Nat} {f : Link → Link} (h : s₀.SameMem s) : s₀.SameMem (s.updLink n f) :=
  h.of_same rfl

theorem State.SameMem.sendOn {n : Nat} {f : StitchFrame} (h : s₀.SameMem s) : s₀.SameMem (s.sendOn n f) :=
  .ite h.updLink.countPkg h.updLink

theorem State.SameMem.scheduleFull {q : Nat} (h : s₀.SameMem s) : s₀.SameMem (s.scheduleFull q) := .ite h h.updCore

theorem State.SameMem.updAssay {q : Nat} {f : AssayPly → AssayPly} (h : s₀.SameMem s) : s₀.SameMem (s.updAssay q f) :=
  h.of_same rfl

theorem State.SameMem.startWake (h : s₀.SameMem s) : s₀.SameMem s.startWake := .ite h (h.of_same rfl)

theorem State.SameMem.wakeEvent {strong : Bool} (h : s₀.SameMem s) : s₀.SameMem (s.wakeEvent strong) :=
  .ite (h.of_same rfl) (.startWake (h.of_same rfl))

theorem State.SameMem.trigger {q : Nat} {full : Bool} (h : s₀.SameMem s) : s₀.SameMem (s.trigger q full) :=
  .ite h (.ite (.ite h (h.of_same rfl)) (.ite h.wakeEvent.updAssay.scheduleFull h.wakeEvent.updAssay))

theorem State.SameMem.asForce (h : s₀.SameMem s) : s₀.SameMem s.asForce := .foldl (fun h1 => h1.trigger) h

theorem State.SameMem.startConversion {am1 : Bool} {entry reg : Nat} (h : s₀.SameMem s) :
    s₀.SameMem (s.startConversion am1 entry reg) :=
  .ite (.updCore (.ite (.of_same (h.of_same rfl) rfl) (.of_same (h.of_same rfl) rfl))) (.ite (.of_same (h.of_same rfl) rfl)
    (.of_same (h.of_same rfl) rfl))

theorem State.SameMem.dealDual {am1 : Bool} (h : s₀.SameMem s) : s₀.SameMem (s.dealDual am1) := by
  unfold State.dealDual
  dsimp only
  split
  · exact .startConversion (h.of_same rfl)
  · exact .ite h (by
      split
      · exact .startConversion (h.of_same rfl)
      · exact h)

theorem State.SameMem.dealIlv {am1 : Bool} (h : s₀.SameMem s) : s₀.SameMem (s.dealIlv am1) :=
  .ite h (.ite (.startConversion (h.of_same rfl)) (.ite (.startConversion (h.of_same rfl)) h))

theorem State.SameMem.deal {am1 : Bool} (h : s₀.SameMem s) : s₀.SameMem (s.deal am1) := .ite h (.ite h.dealIlv h.dealDual)

theorem State.SameMem.dealBoth (h : s₀.SameMem s) : s₀.SameMem s.dealBoth := .ite (h.deal.deal.of_same rfl) h.deal.deal

theorem State.SameMem.monRestart (h : s₀.SameMem s) : s₀.SameMem s.monRestart := .dealBoth (h.of_same rfl)

theorem State.SameMem.monTrigger (h : s₀.SameMem s) : s₀.SameMem s.monTrigger := .ite h (.ite h.monRestart (h.of_same rfl))

theorem State.SameMem.writeForce {en : Bool} {st : Nat} (h : s₀.SameMem s) : s₀.SameMem (s.writeForce en st) :=
  .ite (.startWake (h.of_same rfl)) (h.of_same rfl)

theorem State.SameMem.writeLimits {sustain short : Nat} (h : s₀.SameMem s) : s₀.SameMem (s.writeLimits sustain short) :=
  h.of_same rfl

theorem State.SameMem.writeWhCeil {v : Nat} (h : s₀.SameMem s) : s₀.SameMem (s.writeWhCeil v) := h.of_same rfl

theorem State.SameMem.shapeChange {c : ShapeChange} (h : s₀.SameMem s) : s₀.SameMem (s.shapeChange c) :=
  h.of_same rfl

theorem State.SameMem.writeCap {v : Nat} (h : s₀.SameMem s) : s₀.SameMem (s.writeCap v) :=
  .ite (.shapeChange (h.of_same rfl)) (h.of_same rfl)

theorem State.SameMem.writeProfile {g4En burstEn profileP : Bool} (h : s₀.SameMem s) :
    s₀.SameMem (s.writeProfile g4En burstEn profileP) :=
  .writeWhCeil (.writeCap (.ite (.writeLimits (h.of_same rfl)) (.writeLimits (h.of_same rfl))))

theorem State.SameMem.settlePin (h : s₀.SameMem s) : s₀.SameMem s.settlePin := .ite (h.of_same rfl) (.ite h (h.of_same rfl))

theorem State.SameMem.raiseIrq {b : Nat} (h : s₀.SameMem s) : s₀.SameMem (s.raiseIrq b) := .settlePin (h.of_same rfl)

theorem State.SameMem.logEvent {code : Nat} (h : s₀.SameMem s) : s₀.SameMem (s.logEvent code) :=
  .ite (h.of_same rfl) (h.of_same rfl)

theorem State.SameMem.settleBases (h : s₀.SameMem s) : s₀.SameMem s.settleBases := h.of_same rfl

theorem State.SameMem.settleCq (h : s₀.SameMem s) : s₀.SameMem s.settleCq := .ite h.raiseIrq h.settlePin

theorem State.SameMem.budgetSet {v : Nat} (h : s₀.SameMem s) : s₀.SameMem (s.budgetSet v) :=
  .ite (.wakeEvent (h.of_same rfl)) (h.of_same rfl)

theorem State.SameMem.cqHeadSet {v : Nat} (h : s₀.SameMem s) : s₀.SameMem (s.cqHeadSet v) := .settleCq (h.of_same rfl)

theorem State.SameMem.actRecorded (h : s₀.SameMem s) : s₀.SameMem s.actRecorded := by
  unfold State.actRecorded
  split
  · exact h.of_same rfl
  · exact h

theorem State.SameMem.random32 (h : s₀.SameMem s) : s₀.SameMem s.random32.2 := h.of_same rfl

theorem State.SameMem.killStaged {p : Nat → Bool} (h : s₀.SameMem s) : s₀.SameMem (s.killStaged p) := h.of_same rfl

theorem State.SameMem.setKey {n : Nat} {k : Option Key} (h : s₀.SameMem s) : s₀.SameMem (s.setKey n k) :=
  .ite h (h.of_same rfl)

theorem State.SameMem.clearKeys {p : Nat → Bool} (h : s₀.SameMem s) : s₀.SameMem (s.clearKeys p) :=
  .foldl (fun h1 => .ite h1.setKey h1) h

theorem State.SameMem.endSession (h : s₀.SameMem s) : s₀.SameMem s.endSession := by
  have cleared : s₀.SameMem (s.clearKeys (fun n => 2 ≤ n && n ≤ 6)) := h.clearKeys
  unfold State.endSession
  generalize s.clearKeys (fun n => 2 ≤ n && n ≤ 6) = u at cleared
  exact .of_same (s := u.killStaged (fun _ => true)) cleared.killStaged rfl

theorem State.SameMem.endJob {slot status d0 d1 : Nat} (h : s₀.SameMem s) : s₀.SameMem (s.endJob slot status d0 d1) := by
  unfold State.endJob
  split
  · exact h
  · exact h.updJob.stopCores

theorem State.SameMem.updChan {ch : Chan} {f : ChanState → ChanState} (h : s₀.SameMem s) : s₀.SameMem (s.updChan ch f) := by
  unfold State.updChan
  split
  · exact h.of_same rfl
  · exact h.of_same rfl

theorem State.SameMem.releaseProg {c : Fin 64} (h : s₀.SameMem s) : s₀.SameMem (s.releaseProg c) := h.of_same rfl

theorem State.SameMem.releaseCap {c : Fin 64} (h : s₀.SameMem s) : s₀.SameMem (s.releaseCap c) := h.of_same rfl

theorem State.SameMem.linkDown {n : Nat} (h : s₀.SameMem s) : s₀.SameMem (s.linkDown n) :=
  .ite (.shapeChange (h.of_same rfl)) (h.of_same rfl)

theorem State.SameMem.fenceLink {n : Nat} (h : s₀.SameMem s) : s₀.SameMem (s.fenceLink n) := h.logEvent.linkDown.updLink

theorem State.SameMem.discardFrame {n : Nat} (h : s₀.SameMem s) : s₀.SameMem (s.discardFrame n) :=
  .ite h.updLink.countPkg.fenceLink h.updLink.countPkg

theorem State.SameMem.abandonLoom {c : Fin 64} (h : s₀.SameMem s) : s₀.SameMem (s.abandonLoom c) :=
  .ite h h.count.updCore.releaseCap.releaseProg

theorem State.SameMem.abandonLooms (h : s₀.SameMem s) : s₀.SameMem s.abandonLooms := .foldl (fun h1 => h1.abandonLoom) h

theorem State.SameMem.markTrip (h : s₀.SameMem s) : s₀.SameMem s.markTrip := h.of_same rfl

theorem State.SameMem.haltPort (h : s₀.SameMem s) : s₀.SameMem s.haltPort := .ite (.raiseIrq (h.of_same rfl)) h

theorem State.SameMem.endRunning {status : Nat} (h : s₀.SameMem s) : s₀.SameMem (s.endRunning status) :=
  .foldl (fun h1 => h1.endJob) h

theorem State.SameMem.enterTrip (h : s₀.SameMem s) : s₀.SameMem s.enterTrip :=
  .ite h h.markTrip.endRunning.abandonLooms.logEvent.haltPort.wakeEvent

theorem State.SameMem.powerTrigger (h : s₀.SameMem s) : s₀.SameMem s.powerTrigger := .foldl (fun h1 => h1.updAssay.trigger) h

theorem State.SameMem.leaveSelfRefresh {ch : Chan} (h : s₀.SameMem s) : s₀.SameMem (s.leaveSelfRefresh ch) :=
  .ite h (.ite (.wakeEvent (h.updChan.of_same rfl)) (h.updChan.of_same rfl))

theorem State.SameMem.answerChallenge {n : Nat} {nonce : List Byte} (h : s₀.SameMem s) : s₀.SameMem (s.answerChallenge n nonce) :=
  .of_latch (.updLink (.of_chouse (.setKey h.random32)))

theorem State.SameMem.startTraining {n : Nat} (h : s₀.SameMem s) : s₀.SameMem (s.startTraining n) := h.updLink.wakeEvent

theorem State.SameMem.monitorOn (h : s₀.SameMem s) : s₀.SameMem s.monitorOn := .ite h (.monTrigger (h.of_same rfl))

theorem State.SameMem.endUpdate (h : s₀.SameMem s) : s₀.SameMem s.endUpdate := .ite (.raiseIrq (h.of_same rfl)) h

theorem State.SameMem.flushLink {n : Nat} (h : s₀.SameMem s) : s₀.SameMem (s.flushLink n) :=
  .foldl (fun h1 => h1.sendOn) h.updLink

theorem State.SameMem.linkKeyed {n : Nat} {ks : List Byte × List Byte} {peer : W64} {peerLink : Nat} (h : s₀.SameMem s) :
    s₀.SameMem (s.linkKeyed n ks peer peerLink) := by
  unfold State.linkKeyed
  extract_lets fresh s1 s2 s3 s4 s5
  have keyed : s₀.SameMem s4 := .updLink (.setKey (.setKey h.setKey))
  exact .flushLink (.ite keyed (keyed.of_same rfl))

end

end Sys2Proof.Machine
end

section
/-!
PROOF. The machine's step (O1, O2, O5), the shape table, REFCLK and the grants of chapter 1.
-/

namespace Sys2Proof.Machine

set_option Elab.async false

/-! ### Steps and the reset state -/

/-- Settles O1. -/
theorem stepRunsFront : Obligations.StepRunsFront := by
  intro c rest s queue
  unfold step
  rw [queue]

theorem step_of_empty {s : State} (empty : s.pending = []) : step s = .next (idleTick s) := by
  unfold step
  rw [empty]

/-- Settles O2: an idle step is `idleTick`, whose clocks are given cluster by cluster. -/
theorem idleStep : Obligations.IdleStep := by
  intro s empty
  refine ⟨idleTick s, step_of_empty empty, rfl, rfl, fun k => ?_, fun k => ?_, rfl⟩
  · simp [idleTick]
  · simp [idleTick]

/-- Settles O5: the reset state lists nothing. -/
theorem resetMeetsInvariants : Obligations.ResetMeetsInvariants := by
  refine ⟨rfl, ⟨_, step_of_empty rfl⟩, ?_, fun _ => rfl, fun _ _ => rfl, rfl, rfl, rfl, rfl, rfl⟩
  simp only [State.canonical, Bool.and_eq_true, List.all_eq_true, Vector.mem_toList_iff]
  refine ⟨⟨by decide, fun k m => ?_⟩, fun k m => ?_⟩
  · rw [Vector.eq_of_mem_replicate m]
    exact ⟨rfl, rfl⟩
  · rw [Vector.eq_of_mem_replicate m]
    rfl

/-! ### Folds of a relation -/

/-- A relation that every step of a fold keeps to, and that is reflexive and transitive, holds of the fold. -/
theorem foldl_related {α : Type} {r : State → State → Prop} (refl : ∀ s, r s s) (trans : ∀ {s t u}, r s t → r t u → r s u)
    {f : State → α → State} (step : ∀ s a, r s (f s a)) (l : List α) (s : State) : r s (l.foldl f s) := by
  induction l generalizing s with
  | nil => exact refl s
  | cons a l ih => exact trans (step s a) (ih (f s a))

theorem foldl_keeps {α β : Type} (p : State → β) {f : State → α → State} (step : ∀ s a, p (f s a) = p s) (l : List α) (s : State) :
    p (l.foldl f s) = p s :=
  foldl_related (r := fun s t => p t = p s) (fun _ => rfl) (fun h k => k.trans h) step l s

/-! ### The shape table (01.R21, R23) -/

/-- A trigger of Assay leaves the shape table, the stores, the plies and the host port as they are. -/
structure State.AssayMoves (s t : State) : Prop where
  shape : t.shape = s.shape
  mem : t.mem = s.mem
  plies : t.plies = s.plies
  port : t.port = s.port

theorem State.AssayMoves.refl (s : State) : s.AssayMoves s := ⟨rfl, rfl, rfl, rfl⟩

theorem State.AssayMoves.trans {s t u : State} (h : s.AssayMoves t) (k : t.AssayMoves u) : s.AssayMoves u :=
  ⟨k.shape.trans h.shape, k.mem.trans h.mem, k.plies.trans h.plies, k.port.trans h.port⟩

theorem State.wakeEvent_moves (s : State) (strong : Bool) : s.AssayMoves (s.wakeEvent strong) := by
  unfold State.wakeEvent State.startWake
  dsimp only
  split
  · exact ⟨rfl, rfl, rfl, rfl⟩
  · split <;> exact ⟨rfl, rfl, rfl, rfl⟩

theorem State.scheduleFull_moves (s : State) (q : Nat) : s.AssayMoves (s.scheduleFull q) := by
  unfold State.scheduleFull
  dsimp only
  split <;> exact ⟨rfl, rfl, rfl, rfl⟩

theorem State.trigger_moves (s : State) (q : Nat) (full : Bool) : s.AssayMoves (s.trigger q full) := by
  unfold State.trigger
  split
  · exact .refl s
  · split
    · split <;> exact ⟨rfl, rfl, rfl, rfl⟩
    · dsimp only
      have woken : s.AssayMoves ((s.wakeEvent false).updAssay q (fun a =>
        { a with meas := if a.meas.active then a.meas else { active := true, t0 := s.plyTemp q }, fullRun := a.fullRun || full })) :=
        (s.wakeEvent_moves false).trans ⟨rfl, rfl, rfl, rfl⟩
      split
      · exact woken.trans (State.scheduleFull_moves ..)
      · exact woken

theorem State.coresBack_moves (s : State) (old : W64) : s.AssayMoves (s.coresBack old) :=
  foldl_related State.AssayMoves.refl State.AssayMoves.trans (fun s q => by
    split
    · exact s.trigger_moves q false
    · exact .refl s) _ s

theorem lsb_add_one (x : W32) : (x + 1).getLsbD 0 = !x.getLsbD 0 := by
  have bits : (x.toNat + 1) % 2 ^ 32 % 2 = (x.toNat + 1) % 2 := by omega
  rw [BitVec.getLsbD, BitVec.getLsbD, Nat.testBit_zero, Nat.testBit_zero, BitVec.toNat_add, show (1 : W32).toNat = 1 from rfl, bits]
  rcases Nat.mod_two_eq_zero_or_one x.toNat with even | odd
  · simp [Nat.add_mod, even]
  · simp [Nat.add_mod, odd]

/-- What a begun update leaves: the changed fields are those of the oldest change, and Assay's triggers touch nothing else. -/
theorem shapeUpdateBegin_eq {s : State} {c : ShapeChange} {rest : List ShapeChange} (idle : s.updating = false)
    (waiting : s.shape.changes = c :: rest) : ∃ t, exec .shapeUpdateBegin s = .next t ∧
      t.shape = { applyChange s.shape c with gen := s.shape.gen + 1, changes := rest } ∧
      t.mem = s.mem ∧ t.plies = s.plies ∧ t.port = s.port := by
  refine ⟨_, congrArg Host.Outcome.next (by rw [idle, waiting]), ?_⟩
  have moves := State.coresBack_moves
    { s with shape := { applyChange s.shape c with gen := s.shape.gen + 1, changes := rest } } s.shape.coreMap
  exact ⟨moves.shape, moves.mem, moves.plies, moves.port⟩

/-- Settles O7. -/
theorem shapeUpdates : Obligations.ShapeUpdates := by
  refine ⟨fun s c rest idle waiting => ?_, fun s busy => ⟨?_, fun unasked => ?_⟩⟩
  · obtain ⟨t, run, shape, mem, plies, port⟩ := shapeUpdateBegin_eq idle waiting
    refine ⟨t, run, ?_, by rw [shape], by rw [shape], ?_, State.SameMem.sameBytes mem, plies, port⟩
    · rw [State.updating, shape, lsb_add_one]
      simpa [State.updating] using idle
    · cases c <;> exact ⟨by rw [shape]; rfl, by rw [shape]; rfl, by rw [shape]; rfl, by rw [shape]; rfl⟩
  · refine congrArg Host.Outcome.next ?_
    rw [busy]
  · have ended : s.endUpdate = ({ s with shape := { s.shape with gen := s.shape.gen + 1 } } : State).raiseIrq IRQ_SHAPE :=
      if_pos busy
    have unwaited : s.endUpdate.runWaiting = s.endUpdate := by
      unfold State.runWaiting
      rw [show s.endUpdate.mgmt.waiting = none by rw [ended]; simpa using unasked]
    refine ⟨s.endUpdate, congrArg Host.Outcome.next unwaited, ?_, ?_, ?_, ?_, ?_⟩
    · rw [State.updating, ended, State.raiseIrq_shape, lsb_add_one]
      simpa [State.updating] using busy
    · rw [ended, State.raiseIrq_shape]
    · rw [ended, State.raiseIrq_irqStatus]
    · rw [ended, State.raiseIrq_cores]
    · exact (State.SameMem.refl s).endUpdate.sameBytes

/-! ### REFCLK (01.R32) -/

theorem getElem_updN {α : Type} {n : Nat} (v : Vector α n) (i : Nat) (f : α → α) {j : Nat} (h : j < n) :
    (updN v i f)[j] = if i = j then f v[j] else v[j] := by
  unfold updN
  split
  · rw [Vector.getElem_set]
    split
    · rename_i e
      subst e
      rfl
    · rfl
  · rw [if_neg (by omega)]

/-- A core whose Loom integrates nothing. -/
def Core.atRest (k : Core) : Prop := ∀ i ∈ k.loomQ, i.phase ≠ .integrating

theorem State.abandonLoom_other (s : State) {c d : Fin 64} (ne : d ≠ c) : (s.abandonLoom c).cores[d].loomQ = s.cores[d].loomQ := by
  have apart : c.val ≠ d.val := fun e => ne (Fin.ext e.symm)
  unfold State.abandonLoom
  dsimp only
  split
  · rfl
  · simp [State.releaseProg, State.releaseCap, State.updCore, State.count, Vector.getElem_set_ne, apart]

theorem State.abandonLoom_same (s : State) (c : Fin 64) : (s.abandonLoom c).cores[c].atRest := by
  unfold State.abandonLoom Core.atRest
  dsimp only
  split
  · rename_i idle
    intro i mem run
    have : i.q.uid ∈ ((s.cores[c].loomQ.filter fun i => i.phase == .integrating).map fun i => i.q.uid) :=
      List.mem_map_of_mem (List.mem_filter.mpr ⟨mem, by simp [run]⟩)
    rw [idle] at this
    exact List.not_mem_nil this
  · intro i mem run
    simp [State.releaseProg, State.releaseCap, State.updCore, State.count, run] at mem

theorem State.abandonLoom_keepsRest (s : State) (c d : Fin 64) (rest : s.cores[d].atRest) : (s.abandonLoom c).cores[d].atRest := by
  by_cases e : d = c
  · exact e ▸ s.abandonLoom_same c
  · unfold Core.atRest
    rw [s.abandonLoom_other e]
    exact rest

theorem State.abandonLooms_atRest (s : State) (c : Fin 64) : s.abandonLooms.cores[c].atRest := by
  have all (l : List (Fin 64)) : ∀ s : State, (c ∈ l ∨ s.cores[c].atRest) →
      (l.foldl (fun s c => s.abandonLoom c) s).cores[c].atRest := by
    induction l with
    | nil => exact fun s h => h.elim (fun m => absurd m List.not_mem_nil) id
    | cons d l ih =>
      intro s h
      refine ih _ ?_
      rcases h with m | rest
      · rcases List.mem_cons.mp m with e | m
        · exact .inr (e ▸ s.abandonLoom_same c)
        · exact .inl m
      · exact .inr (s.abandonLoom_keepsRest d c rest)
  exact all _ s (.inl (List.mem_finRange c))

theorem State.linkDown_st (s : State) (n : Nat) (m : Fin 4) :
    (s.linkDown n).fabric.links[m].st = if n = m.val then .down else s.fabric.links[m].st := by
  unfold State.linkDown
  dsimp only
  split
  · simp only [State.shapeChange, Fin.getElem_fin, getElem_updN]
    split <;> rfl
  · simp only [Fin.getElem_fin, getElem_updN]
    split <;> rfl

theorem linksDown_st (s : State) (m : Fin 4) : ((List.range 4).foldl (fun s n => s.linkDown n) s).fabric.links[m].st = .down := by
  simp only [show List.range 4 = [0, 1, 2, 3] from rfl, List.foldl_cons, List.foldl_nil, State.linkDown_st]
  have : m.val = 0 ∨ m.val = 1 ∨ m.val = 2 ∨ m.val = 3 := by omega
  rcases this with e | e | e | e <;> simp [e]

@[simp] theorem State.countSeq_refclk (s : State) (q : SeqId) (ev n : Nat) : (s.countSeq q ev n).refclk = s.refclk := by
  cases q <;> rfl

theorem State.discard_refclk (s : State) (q : SeqId) : (s.discard q).refclk = s.refclk := by
  unfold State.discard
  cases q <;> simp

theorem State.endJob_refclk (s : State) (slot status d0 d1 : Nat) : (s.endJob slot status d0 d1).refclk = s.refclk := by
  unfold State.endJob
  split
  · rfl
  · refine foldl_keeps State.refclk (fun s e => ?_) _ _
    split
    · rfl
    · exact State.discard_refclk ..

theorem State.endRunning_refclk (s : State) (status : Nat) : (s.endRunning status).refclk = s.refclk :=
  foldl_keeps State.refclk (fun s (j : Job) => s.endJob_refclk j.slot status 0 0) _ s

theorem State.logEvent_refclk (s : State) (code : Nat) : (s.logEvent code).refclk = s.refclk := by
  unfold State.logEvent
  split <;> rfl

theorem State.linkDown_refclk (s : State) (n : Nat) : (s.linkDown n).refclk = s.refclk := by
  unfold State.linkDown
  dsimp only
  split <;> rfl

/-- Settles O8. -/
theorem refclkEvents : Obligations.RefclkEvents := by
  intro s
  refine ⟨fun present => ⟨fun off => ?_, fun served => ⟨?_, ?_, ?_⟩⟩, fun absent => ?_, fun absent kept served => ?_, fun tested => ?_,
    fun present => ?_⟩
  · refine congrArg Host.Outcome.next ?_
    simp [present, off]
  · refine congrArg Host.Outcome.next ?_
    simp [present, served]
  · exact State.SameMem.sameBytes (.abandonLooms (.of_same (.refl s) rfl))
  · exact State.abandonLooms_atRest _
  · refine congrArg Host.Outcome.next ?_
    simp [absent]
  · refine ⟨_, congrArg Host.Outcome.next (by rw [if_neg (by simp [absent, kept, served])]), ?_, linksDown_st _, ?_⟩
    · rw [foldl_keeps State.refclk State.linkDown_refclk, State.logEvent_refclk, State.endRunning_refclk]
    · exact State.SameMem.sameBytes (.foldl (fun h => h.linkDown) (.logEvent (.endRunning (.of_same (.refl s) rfl))))
  · refine congrArg Host.Outcome.next ?_
    simp [tested]
  · refine congrArg Host.Outcome.next ?_
    simp [present]

/-! ### Grants (01.R27) -/

/-- Settles O9: a grant takes the head of the queue where it may, and nothing else is granted. -/
theorem grantsWhole : Obligations.GrantsWhole := by
  intro s g rest
  refine ⟨fun ready waits fits => ?_, fun ready waits fits => ?_, fun waits barred => ?_⟩
  · refine congrArg Host.Outcome.next ?_
    simp only [State.grantCap, waits, ready, fits, Bool.and_true, if_true]
  · refine congrArg Host.Outcome.next ?_
    simp only [State.grantProg, waits, ready, fits, Bool.and_true, if_true]
  · have held : (s.engineReady && s.capFits g) = false := by
      unfold State.engineReady
      rcases barred with full | absent | unlocked | trip | asleep
      · simp [full]
      · simp [absent]
      · simp [unlocked]
      · simp [trip]
      · simp [asleep]
    refine congrArg Host.Outcome.next ?_
    simp [State.grantCap, waits, held]

end Sys2Proof.Machine
end

section
/-!
PROOF. The rows of SEQ (08.R225, R226, R228) and the sync buffer and WAITs (08.R229, R230, 07.R210 to R215), on the rule for a
row that completes at its decode.
-/

namespace Sys2Proof.Machine

set_option Elab.async false

/-! ### A row that goes on, and one that faults -/

section

variable {s t mid : State} {q : SeqId} {w : W128} {body : ExecM Flow} {f : Flow}

/-- A word that the sequencer takes changes the state as its body does, and goes on by the body's flow. -/
theorem State.Takes.decode_ok (h : s.Takes q w) (run : body.run s = .ok f t) :
    s.decode q w body = t.updSeqr q (fun r => r.advance (s.seqr q).pc f) := by
  have steps : (decodeSteps q w body).run s = .ok f t := by
    simp [decodeSteps, demand, h.inCode, h.listed, h.allowed, run]
  simp [State.decode, h.decodes, steps]

/-- A body that faults at decode, without a unit, stops decode with its code recorded. -/
theorem State.Takes.decode_fault {e : FaultInfo} (h : s.Takes q w) (run : body.run s = .error e t) (code : e.code ≠ 0)
    (unit : e.unit = 0) : s.decode q w body =
      (t.raiseFault q e (wOpcode w) (s.seqr q).pc).updSeqr q (fun r => { r with stepOne := false }) := by
  have steps : (decodeSteps q w body).run s = .error e t := by
    simp [decodeSteps, demand, h.inCode, h.listed, h.allowed, run]
  simp [State.decode, h.decodes, steps, code, unit]

/-- A body that stalls leaves the state. -/
theorem State.Takes.decode_stall {e : FaultInfo} (h : s.Takes q w) (run : body.run s = .error e t) (code : e.code = 0)
    (ask : e.ask = none) : s.decode q w body = s := by
  have steps : (decodeSteps q w body).run s = .error e t := by
    simp [decodeSteps, demand, h.inCode, h.listed, h.allowed, run]
  simp [State.decode, h.decodes, steps, code, State.await, ask]

/-! ### The Tallies through a completion -/

/-- Every Tally is as it was. -/
structure State.SameTally (s t : State) : Prop where
  tally : ∀ k : Fin 8, t.clusters[k].tally = s.clusters[k].tally

theorem State.SameTally.refl (s : State) : s.SameTally s := ⟨fun _ => rfl⟩

theorem State.SameTally.trans {u : State} (h : s.SameTally t) (k : t.SameTally u) : s.SameTally u :=
  ⟨fun i => (k.tally i).trans (h.tally i)⟩

theorem State.SameProgram.tally (h : s.SameProgram t) : s.SameTally t := ⟨fun k => by rw [h.clusters]⟩

theorem State.sameTally_updSeqr (s : State) (q : SeqId) (f : Seqr → Seqr) : s.SameTally (s.updSeqr q f) := ⟨fun k => by simp⟩

theorem State.sameTally_putCounter (s : State) (idx : Nat) (v : Counter) : s.SameTally (s.putCounter idx v) := by
  refine ⟨fun k => ?_⟩
  simp only [State.putCounter, State.updCluster, Fin.getElem_fin, Vector.getElem_set]
  split
  · next e => simp [e]
  · rfl

theorem State.sameTally_applyCounter (s : State) (q : SeqId) (idx : Nat) (v : Int) (n : Nat) :
    s.SameTally (s.applyCounter q idx v n) := by
  unfold State.applyCounter
  dsimp only
  split
  · exact ((s.sameTally_putCounter ..).trans (State.sameTally_updSeqr ..)).trans (State.setFlag_sat _ q).tally
  · exact s.sameTally_putCounter ..

theorem State.sameTally_retire (s : State) (q : SeqId) (e : QEntry) (flags : Nat) : s.SameTally (s.retire q e flags) := by
  have done (u : State) : u.SameTally (u.retireDone q e) := by
    unfold State.retireDone
    cases e.done with
    | none => exact .refl u
    | some idx => exact u.sameTally_applyCounter q idx 1 0
  exact (((s.sameTally_updSeqr q _).trans (s.sameProgram_retireBooks q e).tally).trans (done _)).trans
    (s.sameProgram_retire q e flags).tally

theorem State.sameTally_endWait (s : State) (q : SeqId) : s.SameTally (s.endWait q) := by
  unfold State.endWait
  split
  · exact (s.sameTally_updSeqr q _).trans (State.sameTally_retire ..)
  · exact .refl s

theorem State.sameTally_settleN (n : Nat) (s : State) : s.SameTally (State.settleN n s) := by
  induction n generalizing s with
  | zero => exact .refl s
  | succ n ih =>
    unfold State.settleN
    split
    · exact (s.sameTally_endWait _).trans (ih _)
    · exact .refl s

theorem State.sameTally_completedNow (s : State) (q : SeqId) (w : W128) : s.SameTally (s.completedNow q w) :=
  ((s.sameTally_updSeqr q _).trans (State.sameTally_retire ..)).trans (State.sameTally_settleN ..)

/-! ### Completion at decode -/

/-- What an instruction leaves that takes the state `s` to `mid`, completes at its decode and goes on by the flow `f`. -/
structure State.Ends (s mid t : State) (q : SeqId) (w : W128) (f : Flow) : Prop where
  pc : (t.seqr q).pc = ((mid.seqr q).advance (s.seqr q).pc f).pc
  loops : (t.seqr q).loops = ((mid.seqr q).advance (s.seqr q).pc f).loops
  scalars : (t.seqr q).s = (mid.seqr q).s
  special : Seqr.sameSpecial (mid.seqr q) (t.seqr q)
  ended : (t.seqr q).ended = (mid.seqr q).ended
  flag : ∀ f, f ≠ FLAG_SAT → (t.seqr q).flags.getLsbD f = (mid.seqr q).flags.getLsbD f
  flags : wDoneEn w = false → (mid.seqr q).wait = none → (t.seqr q).flags = (mid.seqr q).flags
  others : mid.othersKeep t q
  mem : t.mem = mid.mem
  tally : mid.SameTally t

theorem Seqr.advance_eq (r : Seqr) (pc : Nat) (f : Flow) :
    r.advance pc f = { r with pc := (r.advance pc f).pc, loops := (r.advance pc f).loops, stepOne := false } := by
  cases f <;> rfl

theorem Seqr.advance_congr {r t : Seqr} (loops : t.loops = r.loops) (pc : Nat) (f : Flow) :
    (t.advance pc f).pc = (r.advance pc f).pc ∧ (t.advance pc f).loops = (r.advance pc f).loops := by
  cases f <;> simp [Seqr.advance, loops]

/-- The rule of the instructions that complete at their decode (07.R208). -/
theorem State.Takes.ends (h : s.Takes q w) (run : body.run s = .ok f (mid.completedNow q w)) :
    s.Ends mid (s.decode q w body) q w f := by
  rw [h.decode_ok run]
  have kept := mid.kept_completedNow q w
  obtain ⟨buf, x, fl, own, flag⟩ := kept.seqr q
  rw [State.numbered_seqr] at own flag
  have moved := Seqr.advance_congr (r := mid.seqr q) (t := (mid.completedNow q w).seqr q) (by rw [own]) (s.seqr q).pc f
  constructor
  case pc | loops => simp [moved]
  case scalars | ended =>
    rw [State.seqr_updSeqr, Seqr.advance_eq, own]
  case special =>
    rw [State.seqr_updSeqr, Seqr.advance_eq, own]
    exact ⟨rfl, rfl, rfl, rfl, rfl⟩
  case flag =>
    rw [State.seqr_updSeqr, Seqr.advance_eq, own]
    exact flag
  case flags =>
    intro done idle
    rw [State.seqr_updSeqr, Seqr.advance_eq]
    exact mid.completedNow_flags q w done idle
  case others =>
    intro p ne
    obtain ⟨_, _, _, other, _⟩ := kept.seqr p
    rw [State.numbered_seqr_other _ _ ne] at other
    simp [ne, other, Seqr.sameSpecial]
  case mem => simp [kept.mem, State.numbered]
  case tally => exact (mid.sameTally_completedNow q w).trans (State.sameTally_updSeqr ..)

/-- A row whose body, before it completes, takes the state to `mid`. -/
theorem State.Takes.exec_ends (h : s.Takes q w) {i : Instr} {inner : ExecM Flow} (ok : i.wordOk = true)
    (means : exec i s = s.instr i q w (now q w inner)) (run : inner.run s = .ok f mid) :
    ∃ t, exec i s = .next t ∧ s.Ends mid t q w f :=
  ⟨_, means.trans ((State.instr_eq ..).1 ok), h.ends (now_run run)⟩

theorem State.othersKeep.of_same {u : State} (h : mid.othersKeep t q) (same : ∀ p, p ≠ q → mid.seqr p = u.seqr p) : u.othersKeep t q :=
  fun p ne => same p ne ▸ h p ne

end

/-! ### SEQ.NOP and SEQ.JOIN (07.R197, R199) -/

theorem stall_run {α : Type} {s : State} : (stall : ExecM α).run s = .error { code := 0 } s := rfl

/-- The end of a core's part of its job is noted in its sequencer. -/
theorem State.joinEnd_seqr (s : State) (c : Fin 64) (p : SeqId) :
    (s.joinEnd c).seqr p = (s.updSeqr (.core c) (fun r => { r with ended := true })).seqr p := by
  unfold State.joinEnd
  dsimp only
  split
  · rfl
  · split <;> cases p <;> split <;> rfl

theorem State.joinEnd_mem (s : State) (c : Fin 64) : (s.joinEnd c).mem = s.mem := by
  unfold State.joinEnd
  dsimp only
  split
  · rfl
  · split <;> split <;> rfl

/-- What JOIN notes before it completes. -/
def State.joined (s : State) (q : SeqId) (w : W128) : State :=
  if wFlag w 0 then
    match q with
    | .core c => s.joinEnd c
    | .house => s
  else s

theorem State.joined_seqr (s : State) (q : SeqId) (w : W128) (p : SeqId) : (s.joined q w).seqr p =
    if wFlag w 0 = true ∧ p = q ∧ q ≠ .house then { s.seqr p with ended := true } else s.seqr p := by
  unfold State.joined
  by_cases e : wFlag w 0 = true
  case neg => simp [e]
  cases q with
  | house => simp
  | core c =>
    by_cases same : p = .core c
    · subst same
      simp [e, State.joinEnd_seqr]
    · simp [e, State.joinEnd_seqr, same]

theorem State.joined_mem (s : State) (q : SeqId) (w : W128) : (s.joined q w).mem = s.mem := by
  unfold State.joined
  split
  · cases q with
    | core c => exact s.joinEnd_mem c
    | house => rfl
  · rfl

/-- What JOIN does once the queues are empty. -/
def joinSteps (q : SeqId) (w : W128) : ExecM Flow := do
  if wFlag w 0 then
    match q with
    | .core c => change (fun s => s.joinEnd c)
    | .house => pure ()
  return .next

/-- The body of SEQ.JOIN. -/
def joinBody (q : SeqId) (w : W128) : ExecM Flow := do
  let s ← get
  if !s.drained q then stall
  now q w (joinSteps q w)

theorem joinSteps_run (q : SeqId) (w : W128) (s : State) : (joinSteps q w).run s = .ok .next (s.joined q w) := by
  unfold joinSteps State.joined
  cases wFlag w 0 <;> cases q <;> rfl

theorem joinBody_run_drained {q : SeqId} {w : W128} {s : State} (h : s.drained q = true) :
    (joinBody q w).run s = (now q w (joinSteps q w)).run s := by
  simp [joinBody, h]

/-- Settles O21: both rows complete at their decode, once JOIN's queues are empty. -/
theorem seqNopAndJoin : Obligations.SeqNopAndJoin := by
  intro q w s h
  refine ⟨fun ok => ?_, fun ok drained => ?_, fun ok waits => ?_⟩
  · obtain ⟨t, exec_eq, ends⟩ := h.exec_ends (i := .seqNop q w) (mid := s) (f := .next) ok rfl rfl
    exact ⟨t, exec_eq, ⟨ends.pc, ends.loops⟩, ends.scalars, ends.special, ends.others, fun a => by rw [ends.mem]⟩
  · have run : (joinBody q w).run s = .ok .next ((s.joined q w).completedNow q w) := by
      rw [joinBody_run_drained drained]
      exact now_run (joinSteps_run q w s)
    have ends := h.ends run
    have own := s.joined_seqr q w q
    have moved := Seqr.advance_congr (r := s.seqr q) (t := (s.joined q w).seqr q) (by rw [own]; split <;> rfl) (s.seqr q).pc .next
    refine ⟨_, (State.instr_eq s (.seqJoin q w) q w (joinBody q w)).1 ok, ⟨ends.pc.trans moved.1, ends.loops.trans moved.2⟩, ?_, ?_, ?_, ?_⟩
    · rw [ends.scalars, own]
      split <;> rfl
    · exact ends.others.of_same fun p ne => by simp [State.joined_seqr, ne]
    · intro a
      rw [ends.mem, State.joined_mem]
    · rw [ends.ended, own]
      by_cases e : wFlag w 0 = true ∧ q ≠ .house
      · simp [e]
      · simp only [true_and, if_neg e]
        cases ended : (s.seqr q).ended
        · simpa using e
        · rfl
  · have run : (joinBody q w).run s = .error { code := 0 } s := by simp [joinBody, waits, stall_run]
    exact ((State.instr_eq s (.seqJoin q w) q w (joinBody q w)).1 ok).trans (congrArg Host.Outcome.next (h.decode_stall run rfl rfl))

/-! ### SEQ.LOOP (08.R225) -/

theorem loopCount_run (q : SeqId) (w : W128) (s : State) : (loopCount q w).run s = .ok
    (if wFlag w 0 then ((s.seqr q).scalar (wordBits w 0 5)).toNat % 2 ^ 32 else wordBits w 0 32) s := by
  unfold loopCount
  cases wFlag w 0 <;> rfl

/-- The checks of a LOOP (07.R196, 08.R225). -/
structure Seqr.OpensLoop (r : Seqr) (last : Nat) : Prop where
  after : r.pc < last
  inside : last < r.codeLen
  nests : ∀ e ∈ r.loops.head?, last ≤ e.last
  room : r.loops.length < 4

/-- The entry that a LOOP pushes. -/
def Seqr.pushLoop (r : Seqr) (last n : Nat) : Seqr :=
  { r with loops := { first := (r.pc + 1) % 4096, last := last, remaining := n } :: r.loops }

section

variable {s : State} {q : SeqId} {last n : Nat}

theorem loopBody_run_opens (h : (s.seqr q).OpensLoop last) (n : Nat) : (loopBody q last n).run s =
    if n = 0 then .ok (.leave last) s else .ok .next (s.updSeqr q (fun r => r.pushLoop last n)) := by
  obtain ⟨after, inside, nests, room⟩ := h
  cases loops : (s.seqr q).loops with
  | nil => by_cases e : n = 0 <;> simp [loopBody, demand, after, inside, loops, e, change, Seqr.pushLoop]
  | cons entry entries =>
    have nested : last ≤ entry.last := nests entry (by simp [loops])
    have depth : entries.length + 1 < 4 := by simpa [loops] using room
    by_cases e : n = 0 <;> simp [loopBody, demand, after, inside, loops, nested, depth, e, change, Seqr.pushLoop]

theorem loopBody_run_range (h : last ≤ (s.seqr q).pc ∨ (s.seqr q).codeLen ≤ last) (n : Nat) :
    (loopBody q last n).run s = .error { code := SEQ_PC_RANGE } s := by
  have out : ¬ ((s.seqr q).pc < last ∧ last < (s.seqr q).codeLen) := by omega
  simp [loopBody, demand, fail, out]

theorem loopBody_run_nest (after : (s.seqr q).pc < last) (inside : last < (s.seqr q).codeLen)
    (h : ∃ e ∈ (s.seqr q).loops.head?, e.last < last) (n : Nat) :
    (loopBody q last n).run s = .error { code := SEQ_LOOP_NEST } s := by
  obtain ⟨e, head, beyond⟩ := h
  obtain ⟨es, loops⟩ := List.head?_eq_some_iff.mp head
  simp [loopBody, demand, fail, after, inside, loops, Nat.not_le.mpr beyond]

theorem loopBody_run_depth (after : (s.seqr q).pc < last) (inside : last < (s.seqr q).codeLen)
    (nests : ∀ e ∈ (s.seqr q).loops.head?, last ≤ e.last) (full : 4 ≤ (s.seqr q).loops.length) (n : Nat) :
    (loopBody q last n).run s = .error { code := SEQ_LOOP_DEPTH } s := by
  cases loops : (s.seqr q).loops with
  | nil => simp [loops] at full
  | cons entry entries =>
    have nested : last ≤ entry.last := nests entry (by simp [loops])
    have depth : ¬ entries.length + 1 < 4 := by simpa [loops] using full
    simp [loopBody, demand, fail, after, inside, loops, nested, depth]

end

/-! ### A fault at decode (07.R217, R218) -/

theorem State.discard_own (s : State) (q : SeqId) :
    ∃ buf mill movers, (s.discard q).seqr q = { s.seqr q with syncBuf := buf, millQ := mill, moverQ := movers } := by
  cases q with
  | house => exact ⟨_, _, _, rfl⟩
  | core c =>
    refine ⟨(unwait (s.unstarted (.core c)) (s.seqr (.core c))).syncBuf,
      (s.seqr (.core c)).millQ.filter (fun e => !(s.unstartedMoves (.core c)).contains e.uid),
      (s.seqr (.core c)).moverQ.map (fun l => l.filter (fun e => !(s.unstartedMoves (.core c)).contains e.uid)), ?_⟩
    simp [State.discard, State.seqr, State.updCore, State.updSeqr, State.countSeq, State.count, unwait]

/-- The first fault of a sequencer is recorded, and stops its decode. -/
theorem State.raiseFault_own {s : State} {q : SeqId} (h : (s.seqr q).faulted = false) (e : FaultInfo) (opcode pc : Nat) :
    ∃ buf mill movers d, (s.raiseFault q e opcode pc).seqr q = { s.seqr q with
      syncBuf := buf, millQ := mill, moverQ := movers, faulted := true, fault0 := fault0Word e opcode pc, fault1 := d } := by
  unfold State.raiseFault
  have counted := (s.sameProgram_countSeq q EV_FAULTS 1).seqr q
  have drawn : ((s.countSeq q EV_FAULTS 1).faultDetail e).2.seqr q = s.seqr q := by
    rw [← counted]
    unfold State.faultDetail
    cases e.detail <;> cases q <;> rfl
  obtain ⟨buf, mill, movers, own⟩ := State.discard_own (((s.countSeq q EV_FAULTS 1).faultDetail e).2.updSeqr q (fun r =>
    if r.faulted then { r with fault0 := bumpMore r.fault0 }
    else { r with
      faulted := true
      fault0 := fault0Word e opcode pc
      fault1 := ((s.countSeq q EV_FAULTS 1).faultDetail e).1 })) q
  refine ⟨buf, mill, movers, ((s.countSeq q EV_FAULTS 1).faultDetail e).1, own.trans ?_⟩
  rw [State.seqr_updSeqr, drawn, if_neg (by simp [h])]

theorem State.Takes.not_faulted {s : State} {q : SeqId} {w : W128} (h : s.Takes q w) : (s.seqr q).faulted = false := by
  have decodes := h.decodes
  simp only [State.decodes, Seqr.decodes, Bool.and_eq_true, Bool.not_eq_true'] at decodes
  obtain ⟨⟨⟨⟨⟨_, clear⟩, _⟩, _⟩, _⟩, _⟩ := decodes
  exact clear

/-- What a fault at decode leaves: the code and the place of its instruction in SQ_FAULT0, and a sequencer that decodes no more. -/
theorem State.Takes.faults {s : State} {q : SeqId} {w : W128} {body : ExecM Flow} {code : Nat} (h : s.Takes q w)
    (run : body.run s = .error { code := code } s) (ne : code ≠ 0) :
    let t := s.decode q w body
    (t.seqr q).faulted = true ∧ (t.seqr q).pc = (s.seqr q).pc ∧ (t.seqr q).fault0 = fault0Word { code := code } (wOpcode w) (s.seqr q).pc ∧
      t.decodes q = false ∧ (t.seqr q).s = (s.seqr q).s := by
  intro t
  obtain ⟨buf, mill, movers, d, own⟩ := State.raiseFault_own h.not_faulted { code := code } (wOpcode w) (s.seqr q).pc
  have same := congrArg (State.seqr · q) (h.decode_fault run ne rfl)
  simp only [State.seqr_updSeqr, own] at same
  simp [t, State.decodes, Seqr.decodes, same]

/-- Settles O19. -/
theorem seqLoopRules : Obligations.SeqLoopRules := by
  constructor
  · intro q w s h ok r last n after inside room nests
    have run : (do
        let n ← loopCount q w
        loopBody q (wordBits w 32 12) n : ExecM Flow).run s = (loopBody q last n).run s := by
      rw [EStateM.run_bind, loopCount_run]
    rw [loopBody_run_opens ⟨after, inside, nests, room⟩] at run
    by_cases e : n = 0
    · rw [if_pos e] at run
      obtain ⟨t, exec_eq, ends⟩ := h.exec_ends (i := .seqLoop q w) ok rfl run
      exact ⟨t, exec_eq, fun ne => absurd e ne, fun _ => ⟨ends.pc, ends.loops⟩, ends.scalars, ends.special, ends.others,
        fun a => by rw [ends.mem]⟩
    · rw [if_neg e] at run
      obtain ⟨t, exec_eq, ends⟩ := h.exec_ends (i := .seqLoop q w) ok rfl run
      have ahead : last ≠ (s.seqr q).pc := Nat.ne_of_gt after
      refine ⟨t, exec_eq, fun _ => ⟨?_, ?_⟩, fun z => absurd z e, ?_, ?_, ?_, ?_⟩
      · simpa [Seqr.advance, Seqr.pushLoop, loopEnd, ahead] using ends.pc
      · simpa [Seqr.advance, Seqr.pushLoop, loopEnd, ahead] using ends.loops
      · simpa [Seqr.pushLoop] using ends.scalars
      · simpa [Seqr.pushLoop, Seqr.sameSpecial] using ends.special
      · exact ends.others.of_same fun p ne => by simp [ne]
      · intro a
        simp [ends.mem]
  · intro q w s h ok r last code cases
    have run : (loopBody q last (if wFlag w 0 then (r.scalar (wordBits w 0 5)).toNat % 2 ^ 32 else wordBits w 0 32)).run s =
        .error { code := code } s ∧ code ≠ 0 ∧ code < 65536 := by
      rcases cases with ⟨out, rfl⟩ | ⟨⟨after, inside, beyond⟩, rfl⟩ | ⟨⟨after, inside, nests, full⟩, rfl⟩
      · exact ⟨loopBody_run_range out _, by decide, by decide⟩
      · exact ⟨loopBody_run_nest after inside beyond _, by decide, by decide⟩
      · exact ⟨loopBody_run_depth after inside nests full _, by decide, by decide⟩
    obtain ⟨run, ne, small⟩ := run
    have body : (now q w (do
        let n ← loopCount q w
        loopBody q (wordBits w 32 12) n)).run s = .error { code := code } s := by
      rw [now, EStateM.run_bind, EStateM.run_bind, loopCount_run]
      dsimp only
      rw [run]
    obtain ⟨faulted, pc, fault0, stops, scalars⟩ := h.faults body ne
    refine ⟨_, (State.instr_eq s (.seqLoop q w) q w _).1 ok, faulted, pc, fault0.trans ?_, stops, scalars⟩
    simp [fault0Word, Nat.mod_eq_of_lt small, r]

/-! ### SEQ.BR (08.R226) -/

section

variable (s : State) (q : SeqId) (w : W128)

/-- A branch is taken without a test, or as the tested flags say. -/
def Seqr.branches (r : Seqr) (w : W128) : Bool :=
  BitVec.ofNat 6 (wFlags w) == 0 || ((r.flags &&& BitVec.ofNat 6 (wFlags w)) != 0) != wFlag w 6

theorem Seqr.branches_iff (r : Seqr) (w : W128) : r.branches w = true ↔ BitVec.ofNat 6 (wFlags w) = 0 ∨
    (if wFlag w 6 then r.flags &&& BitVec.ofNat 6 (wFlags w) = 0 else r.flags &&& BitVec.ofNat 6 (wFlags w) ≠ 0) := by
  unfold Seqr.branches
  cases wFlag w 6 <;> simp

/-- The sequencer whose tested flags CLR has cleared. -/
def Seqr.tested (r : Seqr) (w : W128) : Seqr :=
  if wFlag w 7 then { r with flags := r.flags &&& ~~~BitVec.ofNat 6 (wFlags w) } else r

theorem Seqr.tested_eq (r : Seqr) (w : W128) : r.tested w =
    { r with flags := if wFlag w 7 then r.flags &&& ~~~BitVec.ofNat 6 (wFlags w) else r.flags } := by
  unfold Seqr.tested
  cases wFlag w 7 <;> rfl

theorem State.updSeqr_id : s.updSeqr q id = s := by
  cases q with
  | house => rfl
  | core c =>
    have same : s.cores.set c.val s.cores[c] = s.cores := by simp
    exact congrArg (fun v => { s with cores := v }) same

theorem branchTaken_run (empty : s.inQueues q (wFlags w / 2 ^ 8 % 64) = []) :
    (branchTaken q w).run s = .ok ((s.seqr q).branches w) (s.updSeqr q (fun r => r.tested w)) := by
  have queues : ¬ s.inQueues q (wFlags w / 2 ^ 8 % 64) ≠ [] := not_not.mpr empty
  cases e : wFlag w 7 with
  | true => simp only [branchTaken, EStateM.run_bind, EStateM.run_get, if_neg queues, e, Seqr.tested]; rfl
  | false =>
    have same : (fun r : Seqr => r.tested w) = id := by funext r; simp [Seqr.tested, e]
    simp only [branchTaken, EStateM.run_bind, EStateM.run_get, if_neg queues, e, same, s.updSeqr_id]; rfl

end

/-- The steps of JUMP before it completes. -/
def brJumpSteps (q : SeqId) (w : W128) : ExecM Flow := do
  let s ← get
  let t := wordBits w 0 12
  demand (decide (t < (s.seqr q).codeLen)) SEQ_PC_RANGE
  match (s.seqr q).loops with
  | e :: _ => demand (decide (e.first ≤ t ∧ t ≤ e.last)) SEQ_PC_RANGE
  | [] => pure ()
  let taken ← branchTaken q w
  return if taken then .jump t else .next

/-- The steps of BREAK before it completes. -/
def brBreakSteps (q : SeqId) (w : W128) : ExecM Flow := do
  let s ← get
  let t := wordBits w 0 12
  demand (decide (t < (s.seqr q).codeLen)) SEQ_PC_RANGE
  match (s.seqr q).loops with
  | e :: _ => demand (decide (e.last < t)) SEQ_PC_RANGE
  | [] => fail SEQ_PC_RANGE
  let taken ← branchTaken q w
  if taken then
    change (fun s => s.updSeqr q (fun r => { r with loops := r.loops.drop 1 }))
    return .jump t
  else return .next

/-- The sequencer after a branch's test, with the loops `es` where it branches. -/
def Seqr.branched (r : Seqr) (w : W128) (es : List LoopEntry) : Seqr :=
  { r.tested w with loops := if r.branches w then es else r.loops }

section

variable {s : State} {q : SeqId} {w : W128}

theorem brJumpSteps_run (empty : s.inQueues q (wFlags w / 2 ^ 8 % 64) = []) (inside : wordBits w 0 12 < (s.seqr q).codeLen)
    (nested : ∀ e ∈ (s.seqr q).loops.head?, e.first ≤ wordBits w 0 12 ∧ wordBits w 0 12 ≤ e.last) :
    (brJumpSteps q w).run s = .ok (if (s.seqr q).branches w then .jump (wordBits w 0 12) else .next)
      (s.updSeqr q (fun r => r.branched w r.loops)) := by
  have same : (fun r : Seqr => r.branched w r.loops) = (fun r => r.tested w) := by
    funext r
    simp [Seqr.branched, Seqr.tested_eq]
  rw [same]
  cases loops : (s.seqr q).loops with
  | nil => simp [brJumpSteps, demand, inside, loops, branchTaken_run _ _ _ empty]
  | cons e es => simp [brJumpSteps, demand, inside, loops, nested e (by simp [loops]), branchTaken_run _ _ _ empty]

theorem brBreakSteps_run {e : LoopEntry} {es : List LoopEntry} (empty : s.inQueues q (wFlags w / 2 ^ 8 % 64) = [])
    (inside : wordBits w 0 12 < (s.seqr q).codeLen) (loops : (s.seqr q).loops = e :: es) (beyond : e.last < wordBits w 0 12) :
    ∃ mid, (brBreakSteps q w).run s = .ok (if (s.seqr q).branches w then .jump (wordBits w 0 12) else .next) mid ∧
      mid.seqr q = (s.seqr q).branched w es ∧ (∀ p, p ≠ q → mid.seqr p = s.seqr p) ∧ mid.mem = s.mem := by
  cases b : (s.seqr q).branches w with
  | false =>
    refine ⟨_, by simp [brBreakSteps, demand, inside, loops, beyond, branchTaken_run _ _ _ empty, b]; rfl, ?_, fun p ne => ?_, ?_⟩
    · simp [Seqr.branched, Seqr.tested_eq, b]
    · simp [ne]
    · simp
  | true =>
    refine ⟨_, by simp [brBreakSteps, demand, inside, loops, beyond, branchTaken_run _ _ _ empty, b, change]; rfl, ?_, fun p ne => ?_, ?_⟩
    · simp [Seqr.branched, Seqr.tested_eq, b, loops]
    · simp [ne]
    · simp

/-- What a branch leaves. -/
theorem State.Ends.branch {mid t : State} {target : Nat} {es : List LoopEntry}
    (ends : s.Ends mid t q w (if (s.seqr q).branches w then .jump target else .next)) (idle : (s.seqr q).wait = none)
    (own : mid.seqr q = (s.seqr q).branched w es) (others : ∀ p, p ≠ q → mid.seqr p = s.seqr p) (mem : mid.mem = s.mem) :
    ((s.seqr q).branches w = true → (t.seqr q).pc = target ∧ (t.seqr q).loops = es) ∧
      (¬ (s.seqr q).branches w = true → Seqr.wentOn (s.seqr q) (t.seqr q)) ∧ (t.seqr q).s = (s.seqr q).s ∧ s.othersKeep t q ∧
      s.sameBytes t ∧ (wDoneEn w = false → (t.seqr q).flags =
        if wFlag w 7 then (s.seqr q).flags &&& ~~~BitVec.ofNat 6 (wFlags w) else (s.seqr q).flags) := by
  have pc := ends.pc
  have loops := ends.loops
  simp only [own, Seqr.branched, Seqr.tested_eq] at pc loops
  refine ⟨fun yes => ?_, fun no => ?_, ?_, ends.others.of_same others, fun a => by rw [ends.mem, mem], fun done => ?_⟩
  · simpa [yes, Seqr.advance] using And.intro pc loops
  · simpa [no, Seqr.advance, Seqr.wentOn] using And.intro pc loops
  · simp [ends.scalars, own, Seqr.branched, Seqr.tested_eq]
  · rw [ends.flags done (by simp [own, Seqr.branched, Seqr.tested_eq, idle]), own]
    simp [Seqr.branched, Seqr.tested_eq]

end

/-- Settles O20: both forms test the flags the same way, and differ in the loops they leave. -/
theorem seqBranches : Obligations.SeqBranches := by
  intro q w s h empty r target test taken inside
  have decided : r.branches w = true ↔ taken := r.branches_iff w
  rw [← decided]
  refine ⟨fun ok nested => ?_, fun e es ok loops beyond => ?_⟩
  · obtain ⟨t, exec_eq, ends⟩ := h.exec_ends (i := .seqBrJump q w) ok rfl (brJumpSteps_run empty inside nested)
    exact ⟨t, exec_eq, ends.branch h.wait_none (State.seqr_updSeqr ..) (fun p ne => State.seqr_updSeqr_other _ _ _ ne) (by simp)⟩
  · obtain ⟨mid, run, own, others, mem⟩ := brBreakSteps_run empty inside loops beyond
    obtain ⟨t, exec_eq, ends⟩ := h.exec_ends (i := .seqBrBreak q w) ok rfl run
    exact ⟨t, exec_eq, ends.branch h.wait_none own others mem⟩

theorem demand_pass {b : Bool} {code unit : Nat} {detail : Option Nat} {s : State} (h : b = true) :
    (demand b code unit detail).run s = .ok () s := by
  simp [demand, h]

/-! ### SEQ.TALLY (08.R228, 09.R255, R256, R260) -/

section

variable {s : State} {k : Fin 8} {f : Tally → Tally}

theorem setTally_run : (setTally k f).run s = .ok () (s.updCluster k (fun u => { u with tally := f u.tally })) := rfl

theorem updTally_tally : (s.updCluster k (fun u => { u with tally := f u.tally })).clusters[k].tally = f s.clusters[k].tally := by
  simp [State.updCluster]

end

section

variable {s : State} {c : Fin 64} {w : W128} (h : s.Takes (.core c) w)
include h

/-- A row that changes the job's own Tally by `f`, and nothing else before it completes. -/
theorem State.Takes.exec_setTally {i : Instr} {inner : ExecM Flow} (f : Tally → Tally) (ok : i.wordOk = true)
    (means : exec i s = s.instr i (.core c) w (now (.core c) w inner))
    (run : inner.run s = .ok .next (s.updCluster (clusterOf c) (fun u => { u with tally := f u.tally }))) :
    ∃ t, exec i s = .next t ∧ t.clusters[clusterOf c].tally = f s.clusters[clusterOf c].tally ∧ s.sameBytes t := by
  obtain ⟨t, exec_eq, ends⟩ := h.exec_ends ok means run
  exact ⟨t, exec_eq, (ends.tally.tally _).trans updTally_tally, fun a => by simp [ends.mem]⟩

end

/-- The steps of FETCH before it completes. -/
def fetchSteps (q : SeqId) (w : W128) : ExecM Flow := do
  let s ← get
  change (fun s => s.countSeq q EV_TL_FETCH 1)
  let empty : ExecM Unit := do
    change (fun s => (s.countSeq q EV_TL_EMPTY 1).setFlag q FLAG_EMPTY)
  match s.ownTally q, q with
  | some k, .core c =>
    let t := s.clusters[k].tally
    if t.open_ ∧ t.next < t.count ∧ s.coreBit c.val then
      putScalar q (seqRD w) t.next
      setTally k (fun t => { t with next := t.next + 1 })
    else empty
  | _, _ => empty
  return .next

/-- The state of a core that found no tile. -/
def State.emptied (s : State) (q : SeqId) : State := ((s.countSeq q EV_TL_FETCH 1).countSeq q EV_TL_EMPTY 1).setFlag q FLAG_EMPTY

theorem State.emptied_seqr (s : State) (q : SeqId) :
    (s.emptied q).seqr q = { s.seqr q with flags := flagPut (s.seqr q).flags FLAG_EMPTY true } := by
  have counted := ((s.sameProgram_countSeq q EV_TL_FETCH 1).trans (State.sameProgram_countSeq _ q EV_TL_EMPTY 1)).seqr q
  calc (s.emptied q).seqr q
    _ = { ((s.countSeq q EV_TL_FETCH 1).countSeq q EV_TL_EMPTY 1).seqr q with
          flags := flagPut (((s.countSeq q EV_TL_FETCH 1).countSeq q EV_TL_EMPTY 1).seqr q).flags FLAG_EMPTY true } :=
        State.seqr_updSeqr ..
    _ = _ := by rw [counted]

theorem fetchSteps_run_empty {c : Fin 64} {w : W128} {s : State}
    (none : s.ownTally (.core c) = none ∨ s.clusters[clusterOf c].tally.open_ = false ∨
      s.clusters[clusterOf c].tally.count ≤ s.clusters[clusterOf c].tally.next ∨ s.coreBit c.val = false) :
    (fetchSteps (.core c) w).run s = .ok .next (s.emptied (.core c)) := by
  have owned (k : Fin 8) (e : s.ownTally (.core c) = some k) : k = clusterOf c := by
    simp only [State.ownTally] at e
    split at e
    · exact (Option.some.inj e).symm
    · cases e
  cases e : s.ownTally (.core c) with
  | none => simp only [fetchSteps, EStateM.run_bind, EStateM.run_get, e]; rfl
  | some k =>
    obtain rfl := owned k e
    have no : ¬ (s.clusters[clusterOf c].tally.open_ = true ∧
        s.clusters[clusterOf c].tally.next < s.clusters[clusterOf c].tally.count ∧ s.coreBit c.val = true) := by
      rintro ⟨opened, left, named⟩
      rcases none with none | closed | used | unnamed
      · simp [none] at e
      · exact Bool.noConfusion (closed.symm.trans opened)
      · omega
      · exact Bool.noConfusion (unnamed.symm.trans named)
    simp only [fetchSteps, EStateM.run_bind, EStateM.run_get, e, if_neg no]; rfl

/-- Settles O22. -/
theorem tallyRules : Obligations.TallyRules := by
  constructor
  · intro c w s h own r y n o
    refine ⟨fun ok le fresh => ?_, fun ok le opened opnum count => ?_, fun ok opened left named => ?_, fun ok opened lt clear => ?_,
      fun ok => ?_⟩
    · have le : ((s.seqr (.core c)).scalar (seqRA w)).toNat % 2 ^ 32 ≤ 65536 := le
      have fresh : ¬ (s.clusters[clusterOf c].tally.open_ = true ∧
          s.clusters[clusterOf c].tally.opnum = ((s.seqr (.core c)).scalar (seqRB w)).toNat % 2 ^ 16) := by
        rintro ⟨opened, same⟩
        exact fresh.elim (fun e => Bool.noConfusion (opened.symm.trans e)) (fun ne => ne same)
      exact h.exec_setTally (fun t => { t with open_ := true, opnum := o, count := n, next := 0, ndone := 0, map := [] }) ok rfl
        (by simp only [EStateM.run_bind, EStateM.run_get, own, demand_pass (decide_eq_true le), if_neg fresh]; rfl)
    · have le : ((s.seqr (.core c)).scalar (seqRA w)).toNat % 2 ^ 32 ≤ 65536 := le
      have again : s.clusters[clusterOf c].tally.open_ = true ∧
          s.clusters[clusterOf c].tally.opnum = ((s.seqr (.core c)).scalar (seqRB w)).toNat % 2 ^ 16 := ⟨opened, opnum⟩
      have count : s.clusters[clusterOf c].tally.count = ((s.seqr (.core c)).scalar (seqRA w)).toNat % 2 ^ 32 := count
      obtain ⟨t, exec_eq, ends⟩ := h.exec_ends (i := .seqTallyOpen (.core c) w) (mid := s) (f := .next) ok rfl
        (by simp only [EStateM.run_bind, EStateM.run_get, own, demand_pass (decide_eq_true le), if_pos again, demand_run (decide_eq_true count)]; rfl)
      exact ⟨t, exec_eq, ends.tally.tally _⟩
    · have finds : s.clusters[clusterOf c].tally.open_ = true ∧
          s.clusters[clusterOf c].tally.next < s.clusters[clusterOf c].tally.count ∧ s.coreBit c.val = true := ⟨opened, left, named⟩
      obtain ⟨t, exec_eq, ends⟩ := h.exec_ends (i := .seqTallyFetch (.core c) w) (f := .next) ok rfl
        (by simp only [EStateM.run_bind, EStateM.run_get, own, if_pos finds]; rfl)
      refine ⟨t, exec_eq, (ends.tally.tally _).trans ?_, ends.scalars.trans ?_, fun a => ?_⟩
      · simp [State.updCluster, State.countSeq, State.count, y]
      · simp [State.updSeqr, State.countSeq, State.count, State.seqr, State.updCore, r, y, seqRD]
      · rw [ends.mem]
        rfl
    · have inside : (s.clusters[clusterOf c].tally.open_ &&
          decide (((s.seqr (.core c)).scalar (seqRA w)).toNat % 2 ^ 32 < s.clusters[clusterOf c].tally.count)) = true := by
        rw [Bool.and_eq_true]
        exact ⟨opened, decide_eq_true lt⟩
      have clear : ¬ NatMap.get false s.clusters[clusterOf c].tally.map (((s.seqr (.core c)).scalar (seqRA w)).toNat % 2 ^ 32) = true :=
        Bool.not_eq_true _ ▸ clear
      obtain ⟨t, exec_eq, tally, bytes⟩ := h.exec_setTally (i := .seqTallyDone (.core c) w)
        (fun t => { t with map := NatMap.put false t.map n true, ndone := t.ndone + 1 }) ok rfl
        (by simp only [EStateM.run_bind, EStateM.run_get, own, demand_run inside, if_neg clear]; rfl)
      exact ⟨t, exec_eq, bytes, tally⟩
    · obtain ⟨t, exec_eq, tally, bytes⟩ := h.exec_setTally (i := .seqTallyReset (.core c) w)
        (fun t => { t with next := 0, resets := if t.open_ then min (t.resets + 1) 0xFFFF else t.resets }) ok rfl
        (by simp only [EStateM.run_bind, EStateM.run_get, own]; rfl)
      exact ⟨t, exec_eq, bytes, tally⟩
  · intro c w s h ok y none
    obtain ⟨t, exec_eq, ends⟩ := h.exec_ends (i := .seqTallyFetch (.core c) w) (f := .next) ok rfl (fetchSteps_run_empty none)
    have own := State.emptied_seqr s (.core c)
    refine ⟨t, exec_eq, (ends.flag FLAG_EMPTY (by decide)).trans ?_, ends.scalars.trans ?_, (ends.tally.tally _).trans rfl, fun a => ?_⟩
    · rw [own, flagPut_getLsbD, if_pos ⟨by decide, rfl⟩]
    · rw [own]; rfl
    · rw [ends.mem]
      rfl

/-! ### The sync buffer (07.R210, R214, R215) -/

section

variable {s : State} {q : SeqId} {w : W128}

/-- The operation that a SYNC word puts into the buffer. -/
def State.syncOp (s : State) (q : SeqId) (w : W128) (idx : Nat) (v : Int) (n : Nat) : SyncOp :=
  { index := idx, v := v, t := n, waits := s.inQueues q (wFlags w % 64), entry := s.ownEntry q w }

/-- The state in which it stands there. -/
def State.buffered (s : State) (q : SeqId) (w : W128) (idx : Nat) (v : Int) (n : Nat) : State :=
  (s.numbered q).updSeqr q (fun r => { r with syncBuf := r.syncBuf ++ [s.syncOp q w idx v n] })

theorem bufferOp_run (room : (s.seqr q).syncBuf.length < 8) (idx : Nat) (v : Int) (n : Nat) :
    (bufferOp q w idx v n).run s = .ok .next (s.buffered q w idx v n) := by
  simp only [bufferOp, EStateM.run_bind, EStateM.run_get, if_neg (Nat.not_le.mpr room)]
  rfl

theorem State.buffered_seqr (s : State) (q : SeqId) (w : W128) (idx : Nat) (v : Int) (n : Nat) : (s.buffered q w idx v n).seqr q =
    { s.seqr q with nextUid := (s.seqr q).nextUid + 1, syncBuf := (s.seqr q).syncBuf ++ [s.syncOp q w idx v n] } := by
  simp [State.buffered, State.numbered]

/-- A row that puts its operation into the sync buffer. -/
theorem State.Takes.exec_buffers (h : s.Takes q w) {i : Instr} {body : ExecM Flow} {idx n : Nat} {v : Int}
    (means : exec i s = s.instr i q w body) (run : body.run s = .ok .next (s.buffered q w idx v n)) (ok : i.wordOk = true) :
    ∃ t o, exec i s = .next t ∧ (t.seqr q).syncBuf = (s.seqr q).syncBuf ++ [o] ∧ o.index = idx ∧ o.v = v ∧ o.t = n ∧
      o.waits = s.inQueues q (wFlags w % 64) ∧ o.entry.pc = (s.seqr q).pc ∧ o.entry.opcode = wOpcode w ∧
      Seqr.wentOn (s.seqr q) (t.seqr q) ∧ (t.seqr q).s = (s.seqr q).s ∧ (t.seqr q).flags = (s.seqr q).flags ∧
      t.clusters = s.clusters ∧ s.sameBytes t := by
  have own : ((s.decode q w body).seqr q) = (Seqr.advance · (s.seqr q).pc .next) ((s.buffered q w idx v n).seqr q) := by
    rw [h.decode_ok run, State.seqr_updSeqr]
  rw [State.buffered_seqr] at own
  refine ⟨_, s.syncOp q w idx v n, means.trans ((State.instr_eq ..).1 ok), ?_, rfl, rfl, rfl, rfl, rfl, rfl, ?_, ?_, ?_, ?_, fun a => ?_⟩
  · rw [own]; rfl
  · rw [own]; exact ⟨rfl, rfl⟩
  · rw [own]; rfl
  · rw [own]; rfl
  · simp [h.decode_ok run, State.buffered, State.numbered]
  · simp [h.decode_ok run, State.buffered, State.numbered]

theorem addV_run : (addV q w).run s = .ok (if wFlag w 9 then signed 32 ((s.seqr q).scalar (wordBits w 16 5)).toNat
    else signed 16 (wordBits w 16 16)) s := by
  unfold addV
  cases wFlag w 9 <;> rfl

theorem addT_run : (addT q w).run s = .ok (if wFlag w 10 then ((s.seqr q).scalar (wordBits w 0 5)).toNat % 2 ^ 32
    else wordBits w 0 16) s := by
  unfold addT
  cases wFlag w 10 <;> rfl

end

/-- Settles O23. -/
theorem syncEntersBuffer : Obligations.SyncEntersBuffer := by
  intro q w s h room r idx v t0 named
  have index : (syncIndex q w (wFlag w 8)).run s = .ok idx s := syncIndex_run rfl named
  simp only [List.forall_mem_cons]
  refine ⟨h.exec_buffers (i := .syncSignal q w) rfl ?_, h.exec_buffers (i := .syncAdd q w) rfl ?_, by simp⟩
  · simp only [EStateM.run_bind, index]
    exact bufferOp_run room ..
  · simp only [EStateM.run_bind, index, addV_run, addT_run]
    exact bufferOp_run room ..

/-! ### Applying a sync operation -/

theorem counterAdd_value (k : Counter) (v : Int) (t : Nat) :
    let sum : Int := k.value + v
    let c : Int := max 0 (min (2 ^ 32 - 1) sum)
    ((t = 0 ∨ c < t) → ((counterAdd k v t).1.value : Int) = c ∧ (counterAdd k v t).1.epoch = k.epoch) ∧
    (t ≠ 0 → (t : Int) ≤ c → ((counterAdd k v t).1.value : Int) = c - t ∧ (counterAdd k v t).1.epoch = (k.epoch + 1) % 2 ^ 16) ∧
    ((counterAdd k v t).2 = true ↔ sum < 0 ∨ 2 ^ 32 - 1 < sum) := by
  intro sum c
  have clamped : ((if sum < 0 then 0 else if 2 ^ 32 - 1 < sum then 2 ^ 32 - 1 else sum.toNat : Nat) : Int) = c := by
    simp only [c]
    split
    · omega
    · split <;> omega
  simp only [counterAdd]
  generalize (if sum < 0 then 0 else if 2 ^ 32 - 1 < sum then 2 ^ 32 - 1 else sum.toNat : Nat) = m at clamped
  refine ⟨fun low => ?_, fun ne le => ?_, by split <;> simp [sum]⟩
  · rw [if_neg (by omega)]
    exact ⟨clamped, rfl⟩
  · rw [if_pos ⟨ne, by omega⟩]
    exact ⟨by push_cast; omega, rfl⟩

section

variable {s t : State} {q : SeqId}

theorem State.counters_wf (h : s.canonical = true) (k : Fin 8) : NatMap.wf {} s.clusters[k].counters = true := by
  simp only [State.canonical, Bool.and_eq_true, List.all_eq_true, Vector.mem_toList_iff] at h
  obtain ⟨⟨_, clusters⟩, _⟩ := h
  exact (clusters _ (Vector.getElem_mem k.isLt)).1

theorem State.SameProgram.counterAt (h : s.SameProgram t) (j : Nat) : t.counterAt j = s.counterAt j := by
  simp [State.counterAt, h.clusters]

/-- The sync counters are listed in their canonical form. -/
def State.countersWf (s : State) : Prop := ∀ k : Fin 8, NatMap.wf {} s.clusters[k].counters = true

theorem State.counterAt_putCounter (h : s.countersWf) {i j : Nat} (hi : i < 65536) (hj : j < 65536) (v : Counter) :
    (s.putCounter i v).counterAt j = if j = i then v else s.counterAt j := by
  simp only [State.putCounter, State.counterAt, State.updCluster, Fin.getElem_fin, Vector.getElem_set]
  by_cases e : i / 8192 % 8 = j / 8192 % 8
  · have wf := h ⟨j / 8192 % 8, by omega⟩
    have same : j % 8192 = i % 8192 ↔ j = i := by omega
    simp only [Fin.getElem_fin] at wf
    simp only [e, if_true, NatMap.get_put _ _ _ _ _ wf, same]
  · have ne : j ≠ i := by rintro rfl; exact e rfl
    simp only [if_neg e, if_neg ne]

theorem State.counterAt_applyCounter (h : s.countersWf) {i j : Nat} (hi : i < 65536) (hj : j < 65536) (v : Int) (n : Nat) :
    (s.applyCounter q i v n).counterAt j = if j = i then (counterAdd (s.counterAt i) v n).1 else s.counterAt j := by
  rw [← State.counterAt_putCounter h hi hj]
  unfold State.applyCounter
  dsimp only
  split
  · rw [(State.setFlag_sat _ q).counterAt]
    simp [State.counterAt]
  · rfl

/-- Without a DONE counter and without WAITs, a completion ends waits on it, and changes no other part of a sequencer and no
counter. -/
theorem State.complete_of_done_none {e : QEntry} (done : e.done = none) (idle : ∀ p, (s.seqr p).wait = none) (flags : Nat) :
    (s.updSeqr q (unwait [e.uid])).SameProgram (s.complete q e flags) := by
  have retired := s.retire_of_done_none q e flags done
  have waits (p : SeqId) : ((s.retire q e flags).seqr p).wait = none := by
    rw [retired.seqr]
    by_cases same : p = q
    · rw [same, State.seqr_updSeqr]; exact idle q
    · rw [State.seqr_updSeqr_other _ _ _ same]; exact idle p
  rw [State.complete, State.settle_of_no_wait _ waits]
  exact retired

theorem State.applyCounter_seqr (idx : Nat) (v : Int) (n : Nat) : (s.applyCounter q idx v n).seqr q =
    if (counterAdd (s.counterAt idx) v n).2 = true then { s.seqr q with flags := flagPut (s.seqr q).flags FLAG_SAT true }
    else s.seqr q := by
  unfold State.applyCounter
  dsimp only
  split
  · rw [(State.setFlag_sat _ q).seqr, State.seqr_updSeqr, State.putCounter_seqr]
  · rw [State.putCounter_seqr]

end

/-- Settles O24: the buffer's head is applied by `applyCounter`, and completes without a DONE counter. -/
theorem syncCounterRules : Obligations.SyncCounterRules := by
  refine ⟨counterAdd_value, fun q s o rest buffer => ⟨fun waits => ?_, fun canon ready small done idle => ?_⟩⟩
  · refine congrArg Host.Outcome.next ?_
    simp [buffer, waits]
  · let t := (s.updSeqr q (fun r => { r with syncBuf := rest })).countSeq q EV_SY_OPS 1
    have books : (s.updSeqr q (fun r => { r with syncBuf := rest })).SameProgram t := State.sameProgram_countSeq ..
    have wf : t.countersWf := fun k => by
      rw [books.clusters, State.updSeqr_clusters]
      exact s.counters_wf canon k
    have counters (j : Nat) : t.counterAt j = s.counterAt j := by
      rw [books.counterAt]
      simp [State.counterAt]
    let u := t.applyCounter q o.index o.v o.t
    have own : u.seqr q = _ := t.applyCounter_seqr ..
    rw [books.seqr, State.seqr_updSeqr, counters] at own
    have others (p : SeqId) (ne : p ≠ q) : u.seqr p = s.seqr p := by
      rw [State.applyCounter_seqr_other _ _ _ _ _ ne, books.seqr, State.seqr_updSeqr_other _ _ _ ne]
    have applied : (u.seqr q).syncBuf = rest ∧ (u.seqr q).wait = (s.seqr q).wait ∧ (u.seqr q).s = (s.seqr q).s ∧
        ((counterAdd (s.counterAt o.index) o.v o.t).2 = true → (u.seqr q).flags.getLsbD FLAG_SAT = true) := by
      rw [own]
      split
      · exact ⟨rfl, rfl, rfl, fun _ => by rw [flagPut_getLsbD, if_pos ⟨by decide, rfl⟩]⟩
      · next no => exact ⟨rfl, rfl, rfl, fun yes => absurd yes no⟩
    obtain ⟨buf, wait, scalars, sat⟩ := applied
    have waits (p : SeqId) : (u.seqr p).wait = none := by
      by_cases same : p = q
      · rw [same, wait]; exact idle q
      · rw [others p same]; exact idle p
    have ended := State.complete_of_done_none (q := q) done waits 0
    have run : exec (.syncOpApply q) s = .next (u.complete q o.entry 0) := by
      refine congrArg Host.Outcome.next ?_
      simp [buffer, ready, u, t]
    have counted (j : Nat) : (u.complete q o.entry 0).counterAt j = u.counterAt j := by
      rw [ended.counterAt]
      simp [State.counterAt]
    refine ⟨_, run, ?_, ?_, fun j hj ne => ?_, fun clip => ?_, ?_, fun a => ?_⟩
    · rw [ended.seqr, State.seqr_updSeqr, ← buf]
      simp [unwait, Function.comp_def]
    · rw [counted, State.counterAt_applyCounter wf small small, if_pos rfl, counters]
    · rw [counted, State.counterAt_applyCounter wf small hj, if_neg ne, counters]
    · rw [ended.seqr, State.seqr_updSeqr]
      exact sat clip
    · rw [ended.seqr, State.seqr_updSeqr]
      exact scalars
    · rw [ended.mem, State.updSeqr_mem, (State.kept_applyCounter t q ..).mem, books.mem, State.updSeqr_mem]

/-! ### SYNC.WAIT (07.R211, 08.R229, R230) -/

section

variable {s t : State} {q : SeqId} {w : W128}

theorem State.applyCounter_wait (s : State) (q : SeqId) (idx : Nat) (v : Int) (n : Nat) (p : SeqId) :
    ((s.applyCounter q idx v n).seqr p).wait = (s.seqr p).wait := by
  by_cases same : p = q
  · rw [same, State.applyCounter_seqr]
    split <;> rfl
  · rw [State.applyCounter_seqr_other _ _ _ _ _ same]

/-- A completion begins and ends no WAIT by itself. -/
theorem State.retire_wait (s : State) (q : SeqId) (e : QEntry) (flags : Nat) (p : SeqId) :
    ((s.retire q e flags).seqr p).wait = (s.seqr p).wait := by
  have done (u : State) : ((u.retireDone q e).seqr p).wait = (u.seqr p).wait := by
    unfold State.retireDone
    cases e.done with
    | none => rfl
    | some idx => exact u.applyCounter_wait q idx 1 0 p
  rw [(s.sameProgram_retire q e flags).seqr, done, (s.sameProgram_retireBooks q e).seqr]
  by_cases same : p = q
  · rw [same, State.seqr_updSeqr]; rfl
  · rw [State.seqr_updSeqr_other _ _ _ same]

/-- A completion leaves a sequencer in no WAIT that was in none. -/
theorem State.complete_wait_none {p : SeqId} (idle : (s.seqr p).wait = none) (e : QEntry) (flags : Nat) :
    ((s.complete q e flags).seqr p).wait = none := by
  have retired := (s.retire_wait q e flags p).trans idle
  rw [State.complete, State.settle_seqr_of_wait_none _ retired, retired]

/-- The state in which a WAIT blocks decode. -/
def State.waiting (s : State) (q : SeqId) (w : W128) (c : SeqWait) : State :=
  (s.numbered q).updSeqr q (fun r => { r with wait := some { cond := c, limited := wFlags w != 0, entry := s.ownEntry q w } })

theorem State.waiting_seqr (s : State) (q : SeqId) (w : W128) (c : SeqWait) : (s.waiting q w c).seqr q = { s.seqr q with
    nextUid := (s.seqr q).nextUid + 1, wait := some { cond := c, limited := wFlags w != 0, entry := s.ownEntry q w } } := by
  simp [State.waiting, State.numbered]

theorem waitOn_run (c : SeqWait) : (waitOn q w c).run s =
    .ok .next (if s.waitHolds c then s.completedNow q w else s.waiting q w c) := by
  simp only [waitOn, EStateM.run_bind, EStateM.run_get]
  cases s.waitHolds c <;> rfl

/-- A WAIT goes on where its condition holds, and blocks decode where it does not. -/
theorem State.Takes.exec_waits (h : s.Takes q w) {i : Instr} {body : ExecM Flow} {c : SeqWait}
    (means : exec i s = s.instr i q w body) (run : body.run s = (waitOn q w c).run s) (ok : i.wordOk = true) :
    ∃ t, exec i s = .next t ∧ (t.seqr q).s = (s.seqr q).s ∧ Seqr.wentOn (s.seqr q) (t.seqr q) ∧ s.sameBytes t ∧
      (s.waitHolds c = true → (t.seqr q).wait = none) ∧
      (s.waitHolds c = false → t.decodes q = false ∧ t.clusters = s.clusters ∧
        ∃ x, (t.seqr q).wait = some x ∧ x.cond = c ∧ x.limited = (wFlags w != 0) ∧ x.entry.pc = (s.seqr q).pc) := by
  rw [waitOn_run] at run
  refine ⟨_, means.trans ((State.instr_eq ..).1 ok), ?_⟩
  cases holds : s.waitHolds c with
  | true =>
    rw [if_pos holds] at run
    have ends := h.ends run
    refine ⟨ends.scalars, ⟨ends.pc, ends.loops⟩, fun a => by rw [ends.mem], fun _ => ?_, nofun⟩
    rw [h.decode_ok run, State.seqr_updSeqr]
    refine State.complete_wait_none (s := s.numbered q) ?_ ..
    rw [State.numbered_seqr]
    exact h.wait_none
  | false =>
    rw [if_neg (by simp [holds])] at run
    have own : (s.decode q w body).seqr q = (Seqr.advance · (s.seqr q).pc .next) ((s.waiting q w c).seqr q) := by
      rw [h.decode_ok run, State.seqr_updSeqr]
    rw [State.waiting_seqr] at own
    refine ⟨?_, ?_, fun a => ?_, nofun, fun _ => ⟨?_, ?_, ?_⟩⟩
    · rw [own]; rfl
    · rw [own]; exact ⟨rfl, rfl⟩
    · simp [h.decode_ok run, State.waiting, State.numbered]
    · simp [State.decodes, Seqr.decodes, own, Seqr.advance]
    · simp [h.decode_ok run, State.waiting, State.numbered]
    · exact ⟨_, by rw [own]; rfl, rfl, rfl, rfl⟩

end

/-- Settles O25. -/
theorem syncWaits : Obligations.SyncWaits := by
  constructor
  · intro q w s h r idx n e p m ok named
    have index : (syncIndex q w (wForm w / 2 % 2 == 1)).run s = .ok idx s := syncIndex_run rfl named
    revert p
    simp only [List.forall_mem_cons]
    refine ⟨h.exec_waits (i := .syncWaitGe q w) rfl ?_, h.exec_waits (i := .syncWaitEpoch q w) rfl ?_, by simp⟩
    · by_cases reg : wForm w / 4 % 2 = 1
      · simp only [EStateM.run_bind, index, if_pos reg, n]; rfl
      · simp only [EStateM.run_bind, index, if_neg reg, n]; rfl
    · simp only [EStateM.run_bind, index]; rfl
  · intro q s x waits
    refine ⟨fun unlimited => congrArg Host.Outcome.next (by simp [waits, unlimited]), fun limited => ?_⟩
    cases holds : s.waitHolds x.cond with
    | true =>
      have run : exec (.syncWaitTimeout q) s = .next ((s.updSeqr q (fun r => { r with wait := none })).complete q x.entry 0) :=
        congrArg Host.Outcome.next (by simp [waits, limited, holds, State.endWait, State.complete])
      obtain ⟨_, _, _, own, flag⟩ := (State.kept_complete (s.updSeqr q (fun r => { r with wait := none })) q x.entry 0).seqr q
      rw [State.seqr_updSeqr] at own flag
      refine ⟨_, run, State.complete_wait_none (by rw [State.seqr_updSeqr]) .., ?_, ?_, ?_, fun a => ?_⟩
      · rw [own]; exact flag FLAG_WTO (by decide)
      · rw [own]
      · rw [own]
      · rw [(State.kept_complete ..).mem, State.updSeqr_mem]
    | false =>
      let u := (((s.updSeqr q (fun r => { r with wait := none })).countSeq q EV_SY_WAIT_TIMEOUT 1).setFlag q FLAG_WTO)
      have run : exec (.syncWaitTimeout q) s = .next (u.complete q x.entry 0) :=
        congrArg Host.Outcome.next (by simp [waits, limited, holds, u])
      have before : u.seqr q = { s.seqr q with wait := none, flags := flagPut (s.seqr q).flags FLAG_WTO true } :=
        (State.seqr_updSeqr ..).trans (by rw [(State.sameProgram_countSeq ..).seqr, State.seqr_updSeqr])
      have mem : u.mem = s.mem := (State.updSeqr_mem ..).trans (by rw [(State.sameProgram_countSeq ..).mem, State.updSeqr_mem])
      obtain ⟨_, _, _, own, flag⟩ := (State.kept_complete u q x.entry 0).seqr q
      rw [before] at own flag
      refine ⟨_, run, State.complete_wait_none (by rw [before]) .., ?_, ?_, ?_, fun a => ?_⟩
      · rw [own]
        exact (flag FLAG_WTO (by decide)).trans (by rw [flagPut_getLsbD, if_pos ⟨by decide, rfl⟩]; rfl)
      · rw [own]
      · rw [own]
      · rw [(State.kept_complete ..).mem, mem]

end Sys2Proof.Machine
end

section
/-!
PROOF. Small groups: the performance counters (21.R506), the debug port (17.R452), the I3C target (18.R455), the LPDDR channels
and the host's presence (14.R364 to R391).
-/

namespace Sys2Proof.Machine

set_option Elab.async false

/-! ### Counters (21.R506, R507, R517) -/

section

variable (s : State) (c : Fin 64)

theorem State.coreWrite_refused {off : Nat} (high : 0x2000 ≤ off) (closed : s.cores[c].pcAccess = false) (v : Nat) :
    s.coreWrite (.core c) c off v = s := by
  have first : ¬ off < 0x1000 := by omega
  have second : ¬ off < 0x2000 := by omega
  rw [State.coreWrite, if_neg first, if_neg second, if_pos (by simpa using closed)]

theorem State.coreWrite_pcSel (opened : s.cores[c].pcAccess = true) (v : Nat) :
    s.coreWrite (.core c) c 0x2000 v = s.updCore c (pcSelSet v) := by
  simp only [Fin.getElem_fin] at opened
  simp [State.coreWrite, opened]

theorem State.coreWrite_pcQual (opened : s.cores[c].pcAccess = true) (n : Fin 10) (v : Nat) :
    s.coreWrite (.core c) c (0x2040 + 4 * n.val) v = s.updCore c (pcQualSet n.val v) := by
  have low : ¬ 0x2040 + 4 * n.val < 0x1000 := by omega
  have mid : ¬ 0x2040 + 4 * n.val < 0x2000 := by omega
  have ne : ¬ 0x2040 + 4 * n.val = 0x2000 := by omega
  have inside : 0x2040 ≤ 0x2040 + 4 * n.val ∧ 0x2040 + 4 * n.val < 0x2068 := by omega
  have index : (0x2040 + 4 * n.val - 0x2040) / 4 = n.val := by omega
  rw [State.coreWrite, if_neg low, if_neg mid, if_neg (by simpa using opened), if_neg ne, if_pos inside, index]

end

/-- Settles O60. -/
theorem counterRows : Obligations.CounterRows := by
  intro s c v n
  refine ⟨fun opened => ⟨?_, ?_⟩, fun closed => ⟨?_, ?_, ?_⟩, fun undefined => ?_⟩
  · refine ⟨_, congrArg Host.Outcome.next (s.coreWrite_pcSel c opened v.toNat), ?_, fun d ne => ?_, fun a => rfl⟩
    · simp [pcSelSet, bits]
    · exact State.updCore_other s c _ ne
  · refine ⟨_, congrArg Host.Outcome.next (s.coreWrite_pcQual c opened n v.toNat), ?_, fun m ne => ?_, fun a => rfl⟩
    · simp [pcQualSet, getElem_updN, bits]
    · have other : n.val ≠ m.val := fun e => ne (Fin.ext e.symm)
      simp [pcQualSet, getElem_updN, other]
  · exact congrArg Host.Outcome.next (s.coreWrite_refused c (by decide) closed _)
  · exact congrArg Host.Outcome.next (s.coreWrite_refused c (by omega) closed _)
  · rw [State.pcData, if_pos (by rw [closed]; rfl)]
  · rw [State.pcData, if_pos (by rw [undefined, Bool.not_false, Bool.or_true])]

/-! ### The LPDDR target (14.R364 to R369) -/

section

variable {s : State} {ch : Chan}

theorem State.whenOn_on (on : s.portOn = true) (f : State → State) : s.whenOn f = f s := if_pos on

@[simp] theorem State.portOn_updChan (f : ChanState → ChanState) : (s.updChan ch f).portOn = s.portOn := by
  simp [State.portOn]

/-- A mode register without a fixed value reads as its channel holds it. -/
theorem State.mrValue_held {ma : Nat} (h : mrReadOnly ma = false) : s.mrValue ch ma = mrHeld (s.chan ch) (mrKey (s.chan ch) ma) ma := by
  have out : ¬ (4 ≤ ma ∧ ma ≤ 8) := by simpa [mrReadOnly] using h
  unfold State.mrValue
  split <;> first | omega | rfl

/-- Training keeps the mode registers and the stores. -/
theorem State.feedback_latch (s : State) : s.feedback.latch.bytes.length = 2 ∧ s.feedback.chan = s.chan ∧ s.feedback.mem = s.mem :=
  ⟨rfl, rfl, rfl⟩

/-- A write of a register other than MA 0x10 leaves the frequency set point selected. -/
theorem mrKey_insert (k : ChanState) {ma : Nat} (small : ma < 128) (ne : ma ≠ 0x10) (v : Byte) (n : BitVec 5) :
    mrKey { k with mr := NatMap.insert k.mr (mrKey k ma) v, trained := n } ma = mrKey k ma := by
  have point : 0x10 ≠ mrKey k ma := by
    unfold mrKey
    split <;> omega
  have held : mrHeld { k with mr := NatMap.insert k.mr (mrKey k ma) v, trained := n } 0x10 0x10 = mrHeld k 0x10 0x10 := by
    simp only [mrHeld]
    rw [NatMap.get_insert, if_neg point]
  calc mrKey { k with mr := NatMap.insert k.mr (mrKey k ma) v, trained := n } ma
    _ = if Config.mrPerPoint ma then
          128 * ((mrHeld { k with mr := NatMap.insert k.mr (mrKey k ma) v, trained := n } 0x10 0x10).toNat % 4) + ma
        else ma := rfl
    _ = mrKey k ma := by rw [held]; rfl

theorem mrHeld_insert (k : ChanState) (ma key : Nat) (v : Byte) (n : BitVec 5) :
    mrHeld { k with mr := NatMap.insert k.mr key v, trained := n } key ma =
      (v &&& mrWrites ma) ||| (Config.mrReset ma &&& ~~~mrWrites ma) := by
  simp only [mrHeld]
  rw [NatMap.get_insert, if_pos rfl]

end

/-- Settles O37. -/
theorem lpddrCommands : Obligations.LpddrCommands := by
  constructor
  · intro s ch bank row ma v fifo on trains
    have turned {f : State → State} : Host.Outcome.next (s.whenOn f) = (.next (f s) : Out) := congrArg _ (State.whenOn_on on f)
    refine ⟨turned, fun writable => turned.trans ?_, fun fixed => turned.trans ?_, turned, rfl, turned, turned, ?_, ?_, ?_, ?_,
      fun runs => ?_, fun stopped => turned.trans ?_⟩
    · rw [if_neg (ne_true_of_eq_false writable)]
    · rw [if_pos fixed]
    · exact ⟨_, turned, by cases ch <;> exact ⟨rfl, rfl, rfl, fun _ => rfl⟩⟩
    · exact ⟨_, turned, by cases ch <;> exact ⟨rfl, rfl, rfl, fun _ => rfl⟩⟩
    · exact ⟨_, turned, by cases ch <;> exact ⟨rfl, rfl, rfl, fun _ => rfl⟩⟩
    · exact ⟨_, turned, by cases ch <;> exact ⟨rfl, rfl, rfl, fun _ => rfl⟩⟩
    · exact ⟨_, turned.trans (congrArg _ (if_neg (ne_true_of_eq_false runs))), by cases ch <;> exact ⟨rfl, rfl, rfl, fun _ => rfl⟩⟩
    · rw [if_pos stopped]
  · intro s ch ma v on ne
    have turned {u : State} (on : u.portOn = true) {f : State → State} :
        Host.Outcome.next (u.whenOn f) = (.next (f u) : Out) := congrArg _ (State.whenOn_on on f)
    cases fixed : mrReadOnly ma.val with
    | true =>
      have range : 4 ≤ ma.val ∧ ma.val ≤ 8 := by simpa [mrReadOnly] using fixed
      refine ⟨s, _, (turned on).trans (by rw [if_pos fixed]), turned on, fun out => by omega, ?_, ?_, ?_⟩
      · intro e; simp [e, State.mrValue]
      · intro e; simp [e, State.mrValue]
      · intro e; simp [e, State.mrValue]
    | false =>
      have out : ¬ (4 ≤ ma.val ∧ ma.val ≤ 8) := by simpa [mrReadOnly] using fixed
      refine ⟨_, _, (turned on).trans (by rw [if_neg (ne_true_of_eq_false fixed)]), turned (by rw [State.portOn_updChan, on]), fun _ => ?_,
        fun e => by omega, fun e => by omega, fun e => by omega⟩
      exact (State.mrValue_held fixed).trans (by rw [State.chan_updChan, mrKey_insert _ ma.isLt ne, mrHeld_insert])

/-! ### The host's presence (14.R389 to R391, 22.R531) -/

section

variable (s : State)

theorem State.settlePin_eq : ∃ pin, s.settlePin = { s with port := { s.port with irqPin := pin } } := by
  unfold State.settlePin
  split
  · exact ⟨_, rfl⟩
  · split
    · exact ⟨s.port.irqPin, rfl⟩
    · exact ⟨_, rfl⟩

theorem State.raiseIrq_eq (b : Nat) : ∃ pin, s.raiseIrq b =
    { s with port := { s.port with irqStatus := s.port.irqStatus ||| BitVec.ofNat 8 (2 ^ b), irqPin := pin } } := by
  obtain ⟨pin, h⟩ := State.settlePin_eq { s with port := { s.port with irqStatus := s.port.irqStatus ||| BitVec.ofNat 8 (2 ^ b) } }
  exact ⟨pin, h⟩

theorem State.logEvent_eq (code : Nat) : ∃ m l, s.logEvent code = { s with mgmt := m, latch := l } := by
  unfold State.logEvent
  split
  · exact ⟨_, _, rfl⟩
  · exact ⟨_, s.latch, rfl⟩

end

/-- The channels, the frames and the power state are as they were. -/
structure State.FramesKept (s t : State) : Prop where
  chanA : t.port.chanA = s.port.chanA
  chanB : t.port.chanB = s.port.chanB
  frames : t.port.frames = s.port.frames
  power : t.power = s.power

section

variable {s t : State}

theorem State.FramesKept.refl (s : State) : s.FramesKept s := ⟨rfl, rfl, rfl, rfl⟩

theorem State.FramesKept.trans {u : State} (h : s.FramesKept t) (k : t.FramesKept u) : s.FramesKept u :=
  ⟨k.chanA.trans h.chanA, k.chanB.trans h.chanB, k.frames.trans h.frames, k.power.trans h.power⟩

theorem State.framesKept_setDrop (s : State) (addr : Option Nat) : s.FramesKept (s.setDrop addr) := by
  unfold State.setDrop
  dsimp only
  split
  · exact ⟨rfl, rfl, rfl, rfl⟩
  · obtain ⟨pin, h⟩ := State.raiseIrq_eq { s.countPkg PE_HP_DROP 1 with
      port := { (s.countPkg PE_HP_DROP 1).port with drop := true, dropAddr := addr.getD (s.countPkg PE_HP_DROP 1).port.dropAddr } } IRQ_ERR
    rw [h]
    exact ⟨rfl, rfl, rfl, rfl⟩

theorem State.framesKept_secEvent (s : State) (code : Nat) : s.FramesKept (s.secEvent code) := by
  obtain ⟨m, l, h⟩ := State.logEvent_eq
    { s with chouse := { s.chouse with secCode := code, secCount := min (s.chouse.secCount + 1) 0xFFFF } } code
  rw [State.secEvent, h]
  exact ⟨rfl, rfl, rfl, rfl⟩

theorem State.framesKept_resealCopies (s : State) (wh : Nat) : s.FramesKept (s.resealCopies wh) :=
  foldl_related State.FramesKept.refl State.FramesKept.trans (fun _ _ => by exact ⟨rfl, rfl, rfl, rfl⟩) _ s

theorem State.framesKept_poke (s : State) (key : Nat) (bs : List Byte) : s.FramesKept (s.poke key bs) := by
  obtain ⟨_, _, _, _, h⟩ := s.poke_eq key bs
  rw [h]
  exact ⟨rfl, rfl, rfl, rfl⟩

theorem State.framesKept_snoop (s : State) (wh : Nat) (data : Burst) : s.FramesKept (s.snoop wh data) := ⟨rfl, rfl, rfl, rfl⟩

theorem State.framesKept_pokeMasked (s : State) (key : Nat) (bs : List (Option Byte)) : s.FramesKept (s.pokeMasked key bs) := by
  cases bs with
  | nil => exact .refl s
  | cons b bs =>
    obtain ⟨cl, pe, h⟩ := State.warehouseWrite_eq { s with mem := s.mem.writeMasked key (b :: bs) } key (b :: bs).length
    unfold State.pokeMasked
    dsimp only
    split
    · rw [h]
      exact ⟨rfl, rfl, rfl, rfl⟩
    · exact ⟨rfl, rfl, rfl, rfl⟩

theorem State.framesKept_drainConf (s : State) (f : Frame) : s.FramesKept (s.drainConf f) := by
  have refused (code : Nat) : s.FramesKept ((s.setDrop (some (hostAddrWord f.ch f.page))).secEvent code) :=
    (s.framesKept_setDrop _).trans (State.framesKept_secEvent _ code)
  unfold State.drainConf
  extract_lets hdr ctrEp e ctr data refuse
  split
  · exact refused _
  · split
    · exact refused _
    · split
      · exact refused _
      · split
        · exact refused _
        · refine .trans (.trans (.trans ?_ (State.framesKept_poke ..)) (State.framesKept_snoop ..)) (State.framesKept_resealCopies ..)
          exact ⟨rfl, rfl, rfl, rfl⟩

theorem State.framesKept_drainFrame (s : State) (f : Frame) : s.FramesKept (s.drainFrame f) := by
  unfold State.drainFrame
  split
  · exact s.framesKept_drainConf f
  · exact (s.framesKept_pokeMasked ..).trans (State.framesKept_resealCopies _ _)

/-- The channels and the power state are as they were, and no frame waits for its drain. -/
structure State.Drains (s t : State) : Prop where
  chanA : t.port.chanA = s.port.chanA
  chanB : t.port.chanB = s.port.chanB
  power : t.power = s.power
  due : ∀ f ∈ t.port.frames, f.due = false

theorem State.FramesKept.drains (h : s.FramesKept t) (due : ∀ f ∈ s.port.frames, f.due = false) : s.Drains t :=
  ⟨h.chanA, h.chanB, h.power, h.frames ▸ due⟩

theorem State.Drains.trans {u : State} (h : s.Drains t) (k : t.Drains u) : s.Drains u :=
  ⟨k.chanA.trans h.chanA, k.chanB.trans h.chanB, k.power.trans h.power, k.due⟩

/-- In state A a frame that starts to drain does not wait. -/
theorem State.Drains.startDrain (h : s.Drains t) (awake : t.power.cur = 0) (f : Frame) : s.Drains (t.startDrain f) := by
  have drained := (t.framesKept_drainFrame f).drains h.due
  unfold State.startDrain
  simp only [if_pos awake]
  refine h.trans ⟨drained.chanA, drained.chanB, drained.power, fun g m => ?_⟩
  obtain ⟨x, mx, rfl⟩ := List.mem_map.mp m
  have waits : (t.drainFrame f).power.cur = 0 := by rw [drained.power]; exact awake
  split
  · simp [waits]
  · exact drained.due x mx

theorem State.framesKept_settleBases (s : State) : s.FramesKept s.settleBases := by
  unfold State.settleBases
  dsimp only
  repeat' split
  all_goals exact ⟨rfl, rfl, rfl, rfl⟩

/-- A frame that an order point finds open. -/
theorem State.Drains.order (h : s.Drains t) (awake : t.power.cur = 0) (f : Frame) :
    s.Drains (if t.confPage f.ch f.page && !t.frameFull f then
        ({ t with port := { t.port with frames := t.port.frames.filter (fun g => !isFrame f.ch f.page g) } } : State).setDrop
          (some (hostAddrWord f.ch f.page))
      else t.startDrain f) := by
  split
  · refine h.trans (.trans (t := { t with port := { t.port with frames := t.port.frames.filter (fun g => !isFrame f.ch f.page g) } })
      ⟨rfl, rfl, rfl, fun g m => h.due g (List.mem_of_mem_filter m)⟩ ((State.framesKept_setDrop ..).drains ?_))
    exact fun g m => h.due g (List.mem_of_mem_filter m)
  · exact h.startDrain awake f

/-- In state A no drain waits after an order point before which none did. -/
theorem State.drains_orderPoint (s : State) (awake : s.power.cur = 0) (due : ∀ f ∈ s.port.frames, f.due = false) :
    s.Drains s.orderPoint ∧ s.orderPoint.port.pointWaits = false := by
  have drained : s.Drains ((s.port.frames.filter (fun f => !f.draining && !f.due)).foldl (fun s f =>
      if s.confPage f.ch f.page && !s.frameFull f then
        let s := { s with port := { s.port with frames := s.port.frames.filter (fun g => !isFrame f.ch f.page g) } }
        s.setDrop (some (hostAddrWord f.ch f.page))
      else s.startDrain f) s) :=
    List.foldlRecOn _ _ ((State.FramesKept.refl s).drains due) fun t h f _ => h.order (by rw [h.power]; exact awake) f
  unfold State.orderPoint
  extract_lets fs u v
  have drained : s.Drains u := drained
  have settled : s.Drains v := drained.trans (u.framesKept_settleBases.drains drained.due)
  exact ⟨⟨settled.chanA, settled.chanB, settled.power, settled.due⟩, by simpa using settled.due⟩

theorem State.Drains.chan (h : s.Drains t) (ch : Chan) : t.chan ch = s.chan ch := by
  cases ch
  · exact h.chanA
  · exact h.chanB

end

theorem State.wakeEvent_chan (s : State) (strong : Bool) (ch : Chan) : (s.wakeEvent strong).chan ch = s.chan ch := by
  obtain ⟨p, h⟩ := s.wakeEvent_eq strong
  rw [h]
  rfl

/-- The exit from self-refresh (14.R390, R391). -/
theorem State.leaveSelfRefresh_chan (s : State) (ch : Chan) :
    (s.leaveSelfRefresh ch).chan ch = { s.chan ch with selfRefresh := false } := by
  unfold State.leaveSelfRefresh
  dsimp only
  split
  · next off =>
    have off : (s.chan ch).selfRefresh = false := by simpa using off
    rw [← off]
  · split
    · rw [State.wakeEvent_chan]
      cases ch <;> rfl
    · cases ch <;> rfl

/-- Settles O38. -/
theorem hostPresence : Obligations.HostPresence := by
  intro s ch on
  have turned {f : State → State} : Host.Outcome.next (s.whenOn f) = (.next (f s) : Out) := congrArg _ (State.whenOn_on on f)
  refine ⟨fun clean awake due => ?_, fun shallow refreshing => ?_, ?_, ?_, fun here live => ?_⟩
  · let t := s.updChan ch (fun k => { k with selfRefresh := true, rows := Vector.replicate 16 none })
    have scrub : ¬ t.chouse.scrub.isSome = true := by simp [t, clean]
    have awake : t.power.cur = 0 := by simp [t, awake]
    have due : ∀ f ∈ t.port.frames, f.due = false := by cases ch <;> exact due
    obtain ⟨drained, waits⟩ := t.drains_orderPoint awake due
    have run : exec (.selfRefreshEntry ch) s = .next { t.orderPoint with port := { t.orderPoint.port with
        idle := t.orderPoint.port.idle || !t.orderPoint.port.pointWaits, idleNext := t.orderPoint.port.pointWaits } } :=
      turned.trans (by simp only [if_neg scrub, t])
    have chan : t.orderPoint.chan ch = { s.chan ch with selfRefresh := true, rows := Vector.replicate 16 none } :=
      (drained.chan ch).trans (by simp [t])
    refine ⟨_, run, ?_, ?_, ?_⟩
    · exact (congrArg ChanState.selfRefresh chan : _)
    · exact (congrArg ChanState.rows chan : _)
    · simp [waits]
  · refine ⟨_, turned, ?_, ?_, State.SameMem.sameBytes (.leaveSelfRefresh (.refl s))⟩
    · rw [State.leaveSelfRefresh_chan]
    · have awake : ¬ 3 ≤ s.power.depth := by omega
      simp [State.leaveSelfRefresh, refreshing, awake]
  · refine ⟨_, turned, ?_, State.SameMem.sameBytes ?_⟩
    · dsimp only
      split
      · rfl
      · split
        · obtain ⟨p, h⟩ := State.wakeEvent_eq { s with port := { s.port with refCnt := s.port.refCnt + 1, idle := false } } false
          exact congrArg (fun t : State => t.port.refCnt) h
        · rfl
    · refine .ite (.of_same (.refl s) rfl) (.ite (.wakeEvent ?_) ?_)
      · exact .of_same (.refl s) rfl
      · exact .of_same (.refl s) rfl
  · refine ⟨_, turned, ?_, ?_, State.SameMem.sameBytes (.updChan (.leaveSelfRefresh (.refl s)))⟩
    · rw [State.chan_updChan]
    · rw [State.chan_updChan]
  · have lost : ¬ (s.port.selfRefresh || (s.port.hostLost && s.port.idle)) = true := by
      rw [here, Bool.false_or, Bool.and_eq_true]
      rintro ⟨lost, idle⟩
      exact live.elim (fun e => Bool.noConfusion (lost.symm.trans e)) (fun e => Bool.noConfusion (idle.symm.trans e))
    obtain ⟨pin, raised⟩ := State.raiseIrq_eq { s with port := { s.port with hostLost := true, idle := true } } IRQ_LIVE
    obtain ⟨m, l, logged⟩ := State.logEvent_eq (({ s with port := { s.port with hostLost := true, idle := true } } : State).raiseIrq IRQ_LIVE)
      MG_HOST_LOST
    rw [raised] at logged
    refine ⟨_, turned.trans (congrArg _ (if_neg lost)), ?_⟩
    dsimp only
    rw [raised, logged]
    exact ⟨rfl, rfl, rfl, fun a => rfl⟩

end Sys2Proof.Machine
end

section
/-!
PROOF. The byte memory: reads after masked writes, after zeroing and of whole runs. Then the host's rings, registers, staging and
completions (chapter 14).
-/

namespace Sys2Proof.Machine

set_option Elab.async false

/-! ### Bytes -/

theorem NatMap.get_keep {α : Type} (d : α) (p : Nat → Bool) (k : Nat) : ∀ m : NatMap α,
    NatMap.get d (NatMap.keep p m) k = if p k then NatMap.get d m k else d
  | [] => by simp [NatMap.keep, NatMap.get]
  | (j, v) :: m => by
    have ih := NatMap.get_keep d p k m
    unfold NatMap.keep at ih ⊢
    by_cases e : k = j
    · subst e
      cases h : p k <;> simp [NatMap.get, h, ih]
    · cases h : p j <;> simp [NatMap.get, h, ih, e]

theorem Memory.byte_zero (m : Memory) (a n j : Nat) : (m.zero a n).byte j = if j < a ∨ a + n ≤ j then m.byte j else 0 := by
  unfold Memory.byte Memory.zero
  rw [NatMap.get_keep]
  simp

@[simp] theorem Memory.length_bytes (m : Memory) : ∀ (n a : Nat), (m.bytes a n).length = n
  | 0, _ => rfl
  | n + 1, a => congrArg (· + 1) (Memory.length_bytes m n (a + 1))

theorem Memory.getElem_bytes (m : Memory) : ∀ (n a i : Nat) (h : i < (m.bytes a n).length), (m.bytes a n)[i] = m.byte (a + i)
  | 0, _, _, h => absurd h (Nat.not_lt_zero _)
  | _ + 1, _, 0, _ => rfl
  | n + 1, a, i + 1, h => by
    have h : i < (m.bytes (a + 1) n).length := by simpa using h
    have := Memory.getElem_bytes m n (a + 1) i h
    simpa [Memory.bytes, Nat.add_assoc, Nat.add_comm 1] using this

/-- Runs of bytes agree where their bytes do. -/
theorem Memory.bytes_congr {m m' : Memory} {a n : Nat} (h : ∀ i, i < n → m.byte (a + i) = m'.byte (a + i)) : m.bytes a n = m'.bytes a n := by
  refine List.ext_getElem (by simp) fun i hi _ => ?_
  rw [Memory.getElem_bytes, Memory.getElem_bytes]
  exact h i (by simpa using hi)

/-- The bytes written read as written. -/
theorem Memory.bytes_write {m : Memory} (h : m.wf = true) (a : Nat) (bs : List Byte) : (m.write a bs).bytes a bs.length = bs := by
  refine List.ext_getElem (by simp) fun i _ hi => ?_
  rw [Memory.getElem_bytes, Memory.byte_write_inside bs m a i hi h]

/-- A run outside a write reads as before. -/
theorem Memory.bytes_write_outside {m : Memory} (h : m.wf = true) {a b n : Nat} (bs : List Byte)
    (apart : b + n ≤ a ∨ a + bs.length ≤ b) : (m.write a bs).bytes b n = m.bytes b n :=
  Memory.bytes_congr fun i hi => Memory.byte_write_outside bs m a (b + i) h (by omega)

/-- A masked write changes the bytes that are enabled. -/
theorem Memory.byte_writeMasked : ∀ (bs : List (Option Byte)) (m : Memory) (a j : Nat), m.wf = true →
    (m.writeMasked a bs).byte j = if a ≤ j then ((bs[j - a]?).bind id).getD (m.byte j) else m.byte j
  | [], _, _, _, _ => by simp [Memory.writeMasked]
  | none :: bs, m, a, j, h => by
    rw [Memory.writeMasked, Memory.byte_writeMasked bs m (a + 1) j h]
    obtain low | rfl | high := Nat.lt_trichotomy j a
    · rw [if_neg (by omega), if_neg (by omega)]
    · simp
    · have index : j - a = (j - (a + 1)) + 1 := by omega
      rw [if_pos (by omega), if_pos (by omega), index, List.getElem?_cons_succ]
  | some b :: bs, m, a, j, h => by
    rw [Memory.writeMasked, Memory.byte_writeMasked bs (m.set a b) (a + 1) j (Memory.set_wf m a b h), Memory.byte_set m a j b h]
    obtain low | rfl | high := Nat.lt_trichotomy j a
    · rw [if_neg (by omega), if_neg (by omega), if_neg (by omega)]
    · simp
    · have index : j - a = (j - (a + 1)) + 1 := by omega
      have ne : j ≠ a := Nat.ne_of_gt high
      rw [if_pos (Nat.succ_le_of_lt high), if_pos (Nat.le_of_lt high), if_neg ne, index, List.getElem?_cons_succ]

theorem State.mem_wf {s : State} (h : s.canonical = true) : s.mem.wf = true := by
  simp only [State.canonical, Bool.and_eq_true] at h
  obtain ⟨⟨⟨⟨⟨⟨⟨⟨⟨mem, _⟩, _⟩, _⟩, _⟩, _⟩, _⟩, _⟩, _⟩, _⟩ := h
  exact mem

/-! ### The submission ring (14.R373) -/

/-- What a masked write of bytes changes beside them. -/
theorem State.pokeMasked_eq (s : State) (key : Nat) (bs : List (Option Byte)) : ∃ cl pe wr po, s.pokeMasked key bs =
    { s with mem := s.mem.writeMasked key bs, clusters := cl, pkgEvents := pe, written := wr, poison := po } := by
  cases bs with
  | nil => exact ⟨_, _, _, _, rfl⟩
  | cons b bs =>
    obtain ⟨cl, pe, h⟩ := State.warehouseWrite_eq { s with mem := s.mem.writeMasked key (b :: bs) } key (b :: bs).length
    unfold State.pokeMasked State.markWritten
    dsimp only
    rw [h]
    split
    · exact ⟨cl, pe, _, _, rfl⟩
    · exact ⟨s.clusters, s.pkgEvents, s.written, _, rfl⟩

theorem State.whenTaken_taken {s : State} (on : s.portOn = true) (clean : s.chouse.scrub = none) (f : State → State) :
    s.whenTaken f = f s := by
  rw [State.whenTaken, if_pos (by rw [on, clean]; rfl)]

/-- Settles O39. -/
theorem ringWriteStores : Obligations.RingWriteStores := by
  intro s a data off canon on clean ok hit ring
  have run : exec (.sqRingWrite a data) s = .next (s.pokeMasked (portKey (off - 0x10000)) data) := by
    show s.hostWrite a data _ = _
    rw [State.hostWrite, if_neg (by simp [ok]), State.whenTaken_taken on clean, hit]
    simp only [if_pos ring]
  obtain ⟨cl, pe, wr, po, eq⟩ := s.pokeMasked_eq (portKey (off - 0x10000)) data
  have shift (i : Nat) : portKey (off - 0x10000 + i) = portKey (off - 0x10000) + i := by simp [portKey, storeKey, Nat.add_assoc]
  have wf := State.mem_wf canon
  rw [eq] at run
  refine ⟨_, run, fun i b enabled => ?_, fun k apart => ?_, rfl, rfl⟩
  · rw [shift, Memory.byte_writeMasked _ _ _ _ wf, if_pos (Nat.le_add_right ..), Nat.add_sub_cancel_left, enabled]
    rfl
  · simp only [shift] at apart
    rw [Memory.byte_writeMasked _ _ _ _ wf]
    split
    · next le =>
      cases e : (data[k - portKey (off - 0x10000)]?).bind id with
      | none => rfl
      | some b =>
        obtain ⟨x, found, rfl⟩ := Option.bind_eq_some_iff.mp e
        exact absurd (by omega) (apart _ b found)
    · rfl

/-! ### Registers and doorbells (14.R371 to R394) -/

section

variable (s : State)

theorem State.settleCq_eq : ∃ st pin, s.settleCq = { s with port := { s.port with irqStatus := st, irqPin := pin } } := by
  unfold State.settleCq
  split
  · obtain ⟨pin, h⟩ := s.raiseIrq_eq IRQ_CQ
    exact ⟨_, pin, h⟩
  · obtain ⟨pin, h⟩ := s.settlePin_eq
    exact ⟨s.port.irqStatus, pin, h⟩

@[simp] theorem State.wakeEvent_port (strong : Bool) : (s.wakeEvent strong).port = s.port := by
  obtain ⟨p, h⟩ := s.wakeEvent_eq strong
  rw [h]

@[simp] theorem State.wakeEvent_mem (strong : Bool) : (s.wakeEvent strong).mem = s.mem := by
  obtain ⟨p, h⟩ := s.wakeEvent_eq strong
  rw [h]

theorem State.setDrop_eq (addr : Option Nat) : ∃ pe a st pin, s.setDrop addr =
    { s with pkgEvents := pe, port := { s.port with drop := true, dropAddr := a, irqStatus := st, irqPin := pin } } := by
  unfold State.setDrop
  dsimp only
  split
  · next dropped =>
    have dropped : s.port.drop = true := dropped
    exact ⟨_, s.port.dropAddr, s.port.irqStatus, s.port.irqPin, by rw [← dropped]; rfl⟩
  · obtain ⟨pin, h⟩ := State.raiseIrq_eq { s.countPkg PE_HP_DROP 1 with
      port := { (s.countPkg PE_HP_DROP 1).port with drop := true, dropAddr := addr.getD (s.countPkg PE_HP_DROP 1).port.dropAddr } } IRQ_ERR
    exact ⟨_, _, _, pin, h⟩

/-- Without an open frame what waits for the frames takes effect. -/
theorem State.settleBases_of_no_frames (closed : s.port.frames = []) : s.settleBases = { s with port := { s.port with
    apaBase := s.port.apaNext.getD s.port.apaBase, apaNext := none
    apbBase := s.port.apbNext.getD s.port.apbBase, apbNext := none
    pool := s.port.poolNext.getD s.port.pool, poolNext := none } } := by
  simp [State.settleBases, closed]

theorem State.orderPoint_of_no_frames (closed : s.port.frames = []) : s.orderPoint = { s with port := { s.port with
    apaBase := s.port.apaNext.getD s.port.apaBase, apaNext := none
    apbBase := s.port.apbNext.getD s.port.apbBase, apbNext := none
    pool := s.port.poolNext.getD s.port.pool, poolNext := none, pointWaits := false } } := by
  simp [State.orderPoint, closed, State.settleBases_of_no_frames]

end

/-- Settles O41. -/
theorem hostRegisters : Obligations.HostRegisters := by
  constructor
  · intro s v x on clean
    have taken {f : State → State} : Host.Outcome.next (s.whenTaken f) = (.next (f s) : Out) :=
      congrArg _ (State.whenTaken_taken on clean f)
    have low : BitVec.ofNat 8 v.toNat = v.setWidth 8 := by simp
    refine ⟨?_, fun calm => ?_, ?_, ?_, fun frames => ?_, fun frames => ?_, fun frames => ?_, fun empty closed => ?_,
      fun drained free read => ?_⟩
    · obtain ⟨pin, h⟩ := State.settlePin_eq { s with port := { s.port with irqEnable := BitVec.ofNat 8 v.toNat } }
      exact ⟨_, taken.trans (congrArg _ h), low, rfl, fun a => rfl⟩
    · obtain ⟨pin, h⟩ := State.settlePin_eq { s with port := { s.port with irqStatus := s.port.irqStatus &&& ~~~BitVec.ofNat 8 v.toNat } }
      refine ⟨_, taken.trans (congrArg _ ((if_neg (ne_true_of_eq_false calm)).trans h)), ?_, fun a => rfl⟩
      rw [← low]
    · refine ⟨_, taken, ?_, State.SameMem.sameBytes (.budgetSet (.refl s))⟩
      unfold State.budgetSet
      dsimp only
      split
      · rw [State.wakeEvent_port]
      · rfl
    · refine ⟨_, taken, ?_, State.SameMem.sameBytes (.cqHeadSet (.refl s))⟩
      unfold State.cqHeadSet
      extract_lets h left counts same
      obtain ⟨st, pin, e⟩ := State.settleCq_eq { s with port := { s.port with cqHead := h, unread := left, aged := s.port.aged && same } }
      rw [e]
    · exact ⟨_, taken.trans (congrArg _ (State.settleBases_of_no_frames _ frames)), by simp [clampNat, bits],
        List.filter_eq_nil_iff.mpr (by simp), fun a => rfl⟩
    · exact ⟨_, taken.trans (congrArg _ (State.settleBases_of_no_frames _ frames)), rfl, rfl, fun a => rfl⟩
    · exact ⟨_, taken.trans (congrArg _ (State.settleBases_of_no_frames _ frames)), rfl, rfl, fun a => rfl⟩
    · have open_ : ¬ (s.models.toList.any (fun m => m.st != .empty) || s.intakeOpen) = true := by
        rw [closed, Bool.or_false, List.any_eq_true]
        rintro ⟨m, mem, ne⟩
        obtain ⟨i, hi, rfl⟩ := Vector.getElem_of_mem (Vector.mem_toList_iff.mp mem)
        have st : s.models[i].st = .empty := empty ⟨i, hi⟩
        simp [st] at ne
      exact ⟨_, taken.trans (congrArg _ (if_neg open_)), by simp [bits], fun a => rfl⟩
    · have settled : s.port.sqHead = s.port.recorded.getD s.port.sqTail ∧ s.port.inUse = [] ∧ s.port.cqHead = s.port.cqTail :=
        ⟨drained, free, read⟩
      refine ⟨_, taken.trans (congrArg _ (if_pos settled)), ?_⟩
      generalize eq : ({ s with port := { s.port with
        sqLog := clampNat 6 12 (bits v.toNat 0 4), cqLog := clampNat 6 12 (bits v.toNat 8 4), recorded := none
        sqHead := 0, sqTail := 0, cqHead := 0, cqTail := 0, cqPhase := true, unread := [], aged := false } } : State) = t
      obtain ⟨st, pin, e⟩ := (t.zero (portKey 0) 0x80000).settleCq_eq
      rw [e]
      subst eq
      refine ⟨by simp [clampNat, bits], by simp [clampNat, bits], rfl, rfl, rfl, fun a low high => ?_, fun a out => ?_⟩
      · exact (Memory.byte_zero _ (portKey 0) 0x80000 a).trans (if_neg fun out => out.elim (Nat.not_lt.mpr low) (Nat.not_le.mpr high))
      · exact (Memory.byte_zero ..).trans (if_pos out)
  · intro s v x on clean frames
    have taken {f : State → State} : Host.Outcome.next (s.whenTaken f) = (.next (f s) : Out) :=
      congrArg _ (State.whenTaken_taken on clean f)
    have point := s.orderPoint_of_no_frames frames
    have bell (un : Bool) (room : s.port.stageQ.length < 16) : s.sameBytes (s.stageBell un x.toNat) ∧
        (s.stageBell un x.toNat).port.stageQ = s.port.stageQ ++
          [.host un (bits x.toNat 52 11) (if bit x.toNat 51 then .b else .a) (bits x.toNat 12 19 * 4096) (bits x.toNat 0 12)] := by
      simp only [State.stageBell, point, if_pos room]
      exact ⟨fun a => by simp, by simp⟩
    refine ⟨fun ready => ⟨_, taken, ?_⟩, fun unready => ⟨_, taken, ?_⟩, fun room p mem => ?_, fun full => ⟨_, taken, ?_⟩⟩
    · simp only [State.doorbell, point, if_pos ready]
      exact ⟨by simp, fun a => by simp⟩
    · simp only [State.doorbell, point, if_neg unready]
      exact ⟨by simp, by simp, fun a => by simp⟩
    · rcases List.mem_pair.mp mem with rfl | rfl
      · exact ⟨_, taken, bell false room⟩
      · exact ⟨_, taken, bell true room⟩
    · simp only [State.stageBell, point, if_neg (Nat.not_lt.mpr full), State.wakeEvent_port]
      obtain ⟨_, _, _, _, h⟩ := s.orderPoint.setDrop_eq none
      rw [point] at h
      rw [h]
      exact ⟨rfl, rfl⟩

/-! ### Completions (14.R385, R387, 17.R449) -/

@[simp] theorem length_leBytes (n : Nat) : ∀ v : Nat, (leBytes n v).length = n := by
  induction n with
  | zero => exact fun _ => rfl
  | succ n ih => exact fun v => congrArg (· + 1) (ih (v / 256))

@[simp] theorem length_completionBytes (c : Completion) (phase : Bool) : (completionBytes c phase).length = 64 := by
  simp [completionBytes]

@[simp] theorem State.settleCq_mem (s : State) : s.settleCq.mem = s.mem := by
  obtain ⟨_, _, h⟩ := s.settleCq_eq
  rw [h]

theorem State.settleCq_port (s : State) : ∃ st pin, s.settleCq.port = { s.port with irqStatus := st, irqPin := pin } := by
  obtain ⟨st, pin, h⟩ := s.settleCq_eq
  exact ⟨st, pin, congrArg State.port h⟩

theorem State.post_mem (s : State) (c : Completion) :
    (s.post c).mem = s.mem.write (portKey (0x40000 + 64 * s.port.cqTail)) (completionBytes c s.port.cqPhase) := by
  simp [State.post]

theorem State.post_port (s : State) (c : Completion) : ∃ st pin, (s.post c).port = { s.port with
    cqTail := (s.port.cqTail + 1) % 2 ^ s.port.cqLog
    cqPhase := if (s.port.cqTail + 1) % 2 ^ s.port.cqLog = 0 then !s.port.cqPhase else s.port.cqPhase
    unread := s.port.unread ++ [(s.port.cqTail, c.irq && c.frees, !c.frees)]
    inUse := if c.frees then s.port.inUse.filter (fun n => n != c.slot) else s.port.inUse
    irqStatus := st, irqPin := pin } := by
  obtain ⟨st, pin, h⟩ := State.settleCq_port _
  exact ⟨st, pin, h.trans (by simp)⟩

/-- Settles O43. -/
theorem completionsPost : Obligations.CompletionsPost := by
  intro s c rest canon clean finished
  have clear : ¬ s.chouse.scrub.isSome = true := by simp [clean]
  refine ⟨fun plain none room low frees => ?_, fun plain none full => ?_, fun conf => ?_, fun timed waiting => ?_, fun conf none => ?_⟩
  · have run : exec .cqPost s = .next (({ s with port := { s.port with finished := rest } } : State).post c) := by
      refine congrArg Host.Outcome.next ?_
      simp [clean, finished, plain, none, room]
    have mem := State.post_mem { s with port := { s.port with finished := rest } } c
    obtain ⟨st, pin, port⟩ := State.post_port { s with port := { s.port with finished := rest } } c
    have length := length_completionBytes c s.port.cqPhase
    refine ⟨_, run, ?_, ?_, ?_, fun a out => ?_, ?_⟩
    · rw [port]
    · rw [port]
    · rw [mem]
      exact (congrArg _ length.symm).trans (Memory.bytes_write (State.mem_wf canon) _ _)
    · rw [mem]
      exact Memory.byte_write_outside _ _ _ _ (State.mem_wf canon) (by rw [length]; exact out)
    · rw [port]
      exact if_pos frees
  · exact congrArg Host.Outcome.next (by simp [clean, finished, plain, none, full])
  · exact congrArg Host.Outcome.next (by simp [clean, finished, conf])
  · have due : ({ s.port with aged := true } : Port).cqDue = true := by simp [Port.cqDue, timed]
    obtain ⟨pin, h⟩ := State.raiseIrq_eq { s with port := { s.port with aged := true } } IRQ_CQ
    exact ⟨_, congrArg Host.Outcome.next ((if_pos ⟨timed, waiting⟩).trans ((if_pos due).trans h)), rfl, rfl⟩
  · refine ⟨_, congrArg Host.Outcome.next (if_neg (by simp [conf, clean])), ?_⟩
    rw [none]
    exact ⟨rfl, rfl, fun a => rfl⟩

/-! ### Staging and the drain of frames (14.R374 to R380) -/

/-- Staging may begin its head. -/
theorem execStageRequestStart_ready {s : State} (idle : s.port.stageBusy = false) (clean : s.chouse.scrub = none)
    (awake : s.power.cur = 0) (calm : s.power.inTrip = false) (live : s.port.state ≠ .halted) :
    exec .stageRequestStart s = .next (match s.port.stageQ with
      | .host un n ch addr k :: _ => (s.startHostStage un (requestPages n ch addr) k).pumpStaging
      | .move q uid td m :: _ => (s.startMoveStage q uid td m).pumpStaging
      | [] => s) := by
  have ready : ¬ (s.port.stageBusy || s.chouse.scrub.isSome || s.power.cur != 0 || s.power.inTrip || s.port.state == .halted) = true := by
    simp [idle, clean, awake, calm, live]
  exact congrArg Host.Outcome.next (if_neg ready)

theorem execStageRequestStart_held {s : State} (held : s.port.stageBusy = true ∨ s.power.inTrip = true ∨ s.port.state = .halted) :
    exec .stageRequestStart s = .next s := by
  refine congrArg Host.Outcome.next (if_pos ?_)
  rcases held with busy | trip | halted
  · simp [busy]
  · simp [trip]
  · simp [halted]

/-- The state in which the copies of a staging request are done. -/
def State.copied (s : State) : State :=
  let s := s.countPkg PE_HP_STAGE_PAGES (s.port.staged.filter (fun g => !g.copied)).length
  { s with port := { s.port with staged := s.port.staged.map (fun g => { g with copied := true }) } }

theorem State.copied_staged (s : State) : ∀ g ∈ s.copied.port.staged, g.copied = true := by
  intro g mem
  obtain ⟨x, _, rfl⟩ := List.mem_map.mp mem
  rfl

/-- Settles O42. -/
theorem stagingAndFrames : Obligations.StagingAndFrames := by
  refine ⟨fun s => ⟨fun idle clean awake calm live => ⟨?_, ?_⟩, execStageRequestStart_held, ?_, ?_⟩, fun s ch page f => ⟨?_, ?_, ?_⟩⟩
  · intro un n ch addr k rest queue
    rw [execStageRequestStart_ready idle clean awake calm live, queue]
  · intro q uid td m rest queue
    rw [execStageRequestStart_ready idle clean awake calm live, queue]
  · intro q uid td m rest busy queue
    have run : exec .stageCopyDone s = .next (({ s.copied with port := { s.copied.port with
        stageQ := rest, stageBusy := false } } : State).doneMover q uid).pumpStaging := by
      refine congrArg Host.Outcome.next ((if_neg (by simp [busy])).trans ?_)
      simp [queue, State.copied]
    refine ⟨_, run, ?_, ?_, ?_, fun a => ?_⟩
    · simp [State.doneMover]
    · simp [State.doneMover]
    · simpa [State.doneMover] using s.copied_staged
    · simp [State.doneMover, State.copied]
  · intro un n ch addr k rest busy queue
    have run : exec .stageCopyDone s = .next (s.copied.endStage 0 k).pumpStaging := by
      refine congrArg Host.Outcome.next ((if_neg (by simp [busy])).trans ?_)
      simp [queue, State.copied]
    obtain ⟨pin, h⟩ := State.raiseIrq_eq { s.copied with port := { s.copied.port with
      stageQ := s.copied.port.stageQ.drop 1, stageBusy := false, stageResult := 0, stageSeq := k } } IRQ_STAGE
    refine ⟨_, run, ?_⟩
    rw [State.endStage, h]
    exact ⟨rfl, by simp [State.copied, queue], rfl, rfl, s.copied_staged, fun a => rfl⟩
  · intro found plain
    exact congrArg Host.Outcome.next (by simp [found, plain])
  · intro found conf
    exact congrArg Host.Outcome.next (by simp [found, conf])
  · intro found
    have run : exec (.frameDrainDone ch page) s = .next ({ s with port := { s.port with frames := s.port.frames.erase f } } : State).settleBases :=
      congrArg Host.Outcome.next (by simp only [found])
    refine ⟨_, run, (State.framesKept_settleBases _).frames, ?_⟩
    exact State.SameMem.sameBytes (.settleBases (.of_same (.refl s) rfl))

end Sys2Proof.Machine
end

section
/-!
PROOF. The requests of the submission ring: their acceptance and what they do (14.R382 to R384, 15.R399 to R405, 11.R297, R299,
17.R438 to R447, 21.R511, R512).
-/

namespace Sys2Proof.Machine

set_option Elab.async false

/-! ### Acceptance (14.R382 to R384) -/

section

variable {s : State} {want : Entry → Bool} {f : Entry → Nat → State → State} {e : Entry}

theorem State.accept_none (empty : s.headEntry = none) : s.accept want f = .next s := by
  rw [State.accept_cases, empty]

theorem State.accept_good (head : s.headEntry = some e) (named : want e = true) (good : e.bad = false) :
    s.accept want f = .next (f e s.port.sqHead s.takeHead) := by
  rw [State.accept_cases, head]
  simp [named, good]

theorem State.accept_bad (head : s.headEntry = some e) (named : want e = true) (bad : e.bad = true) :
    s.accept want f = .next (s.takeHead.finishReq (e.completion s.port.sqHead HP_ENTRY_FORM)) := by
  rw [State.accept_cases, head]
  simp [named, bad]

/-- What a row whose meaning is an acceptance does with the entry at the head. -/
theorem State.accept_row (s : State) (i : Instr) (want : Entry → Bool) (f : Entry → Nat → State → State)
    (means : exec i s = s.accept want f) :
    (s.headEntry = none → exec i s = .next s) ∧
      (∀ e, s.headEntry = some e → want e = true →
        (e.bad = false → exec i s = .next (f e s.port.sqHead s.takeHead)) ∧
        (e.bad = true → ∃ t, exec i s = .next t ∧
          t.port.finished = s.port.finished ++ [e.completion s.port.sqHead HP_ENTRY_FORM])) := by
  refine ⟨fun empty => means.trans (State.accept_none empty), fun e head named => ⟨fun good => ?_, fun bad => ?_⟩⟩
  · exact means.trans (State.accept_good head named good)
  · exact ⟨_, means.trans (State.accept_bad head named bad), rfl⟩

end

/-- Settles O44. -/
theorem requestsAccepted : Obligations.RequestsAccepted := by
  refine fun s => ⟨rfl, rfl, ?_⟩
  simp only [List.forall_mem_cons]
  exact ⟨s.accept_row _ _ _ rfl, s.accept_row _ _ _ rfl, s.accept_row _ _ _ rfl, s.accept_row _ _ _ rfl, s.accept_row _ _ _ rfl,
    s.accept_row _ _ _ rfl, s.accept_row _ _ _ rfl, s.accept_row _ _ _ rfl, s.accept_row _ _ _ rfl, s.accept_row _ _ _ rfl,
    s.accept_row _ _ _ rfl, by simp⟩

/-! ### Jobs and cancels (15.R399, R403 to R405) -/

@[simp] theorem Job.completion_slot (j : Job) (status : Nat) : (j.completion status).slot = j.slot := rfl

@[simp] theorem Job.completion_status (j : Job) (status : Nat) : (j.completion status).status = status := rfl

section

variable {s : State} {e : Entry} (head : s.headEntry = some e) (good : e.bad = false)
include head good

theorem submitJob_waits (named : s.namesImage e = true) (passes : s.takeHead.headerPasses (e.arg0 % 2 ^ 44) = true) :
    ∃ t, exec .submitJob s = .next t ∧ t.jobs = s.jobs ++ [e.job s.port.sqHead (s.accepted + 1)] ∧ s.sameBytes t := by
  refine ⟨_, State.accept_good head named good, ?_⟩
  rw [State.acceptJob, if_pos passes]
  exact ⟨rfl, fun a => rfl⟩

theorem submitPipeline_waits {b : List Byte} (named : s.namesRecord PIPE_MAGIC e = true)
    (front : s.takeHead.readWh (e.arg0 % 2 ^ 44) 64 = some (b.take 64))
    (record : s.takeHead.readWh (e.arg0 % 2 ^ 44) (64 + 64 * leAt b 6 1) = some b) (form : pipeOk b e.mslot e.nbind = true)
    (images : s.takeHead.imagesPass b = true) : ∃ t, exec .submitPipeline s = .next t ∧
      t.jobs = s.jobs ++ [(e.job s.port.sqHead (s.accepted + 1)).nextRun { record := b, stages := leAt b 6 1 } e.lengths] ∧ s.sameBytes t := by
  have stages : leAt (b.take 64) 6 1 = leAt b 6 1 := by
    simp only [leAt, List.drop_take, List.take_take]
    rfl
  refine ⟨_, State.accept_good head named good, ?_⟩
  simp only [State.acceptPipe, front, stages, record, form, images]
  exact ⟨rfl, fun a => rfl⟩

/-- A CANCEL whose target is none, or has been dispatched to its end. -/
theorem submitCancel_noTarget (kind : e.kind = 5)
    (missing : ((s.takeHead.jobOf (e.arg2 0)).filter (fun j => j.home.isNone && decide (j.st ≠ .ending))) = none) :
    ∃ t, exec .submitCancel s = .next t ∧
      t.port.finished = s.port.finished ++ [e.completion s.port.sqHead JOB_NO_TARGET] ∧ t.jobs = s.jobs := by
  refine ⟨_, State.accept_good head (by simp [kind]) good, ?_⟩
  simp only [State.acceptCancel, missing]
  exact ⟨rfl, rfl⟩

theorem submitCancel_waiting {j : Job} (kind : e.kind = 5) (target : s.jobOf (e.arg2 0) = some j) (own : j.home = none)
    (waits : j.st = .waiting) (cancels : j.cancels = []) : ∃ t, exec .submitCancel s = .next t ∧
      t.jobs = s.jobs.filter (fun x => x.slot != j.slot) ∧
      t.port.finished.map (fun c => (c.slot, c.status)) =
        s.port.finished.map (fun c => (c.slot, c.status)) ++ [(j.slot, JOB_CANCELLED), (s.port.sqHead, 0)] := by
  have found : ((s.takeHead.jobOf (e.arg2 0)).filter (fun j => j.home.isNone && decide (j.st ≠ .ending))) = some j := by
    rw [show s.takeHead.jobOf (e.arg2 0) = some j from target]
    simp [own, waits]
  refine ⟨_, State.accept_good head (by simp [kind]) good, ?_⟩
  simp only [State.acceptCancel, found, if_pos waits, State.completeJob, own, cancels]
  refine ⟨rfl, ?_⟩
  simp [State.takeHead, Entry.completion]

end

/-! ### Loads (11.R297, R299) -/

/-- The request that an accepted LOAD or RESTORE begins. -/
def Entry.loadReq (e : Entry) (restore : Bool) (slot : Nat) (map : List Placement) (a : Nat) : LoadReq :=
  { done := e.completion slot 0, mslot := e.mslot, restore := restore, pkgLen := e.arg0, map := map, heapAt := some a }

theorem State.not_beingFenced {s : State} (calm : s.mgmt.waiting = none) (c : Fin 64) : s.beingFenced c = false := by
  simp [State.beingFenced, calm]

section

variable {s : State} {e : Entry} (head : s.headEntry = some e) (good : e.bad = false)
include head good

theorem submitLoads_busy (busy : s.load.isSome = true) :
    ∀ p ∈ [(Instr.submitLoad, 2), (.submitRestore, 3), (.submitUnload, 4)], e.kind = p.2 → ∃ t, exec p.1 s = .next t ∧
      t.port.finished = s.port.finished ++ [e.completion s.port.sqHead WL_BUSY] ∧ t.load = s.load := by
  have busy : s.takeHead.load.isSome = true := busy
  have load (r : Bool) : State.acceptLoad r e s.port.sqHead s.takeHead = s.takeHead.reply e s.port.sqHead WL_BUSY := by
    rw [State.acceptLoad, if_pos busy]
  have unload : State.acceptUnload e s.port.sqHead s.takeHead = s.takeHead.reply e s.port.sqHead WL_BUSY := by
    rw [State.acceptUnload, if_pos busy]
  simp only [List.forall_mem_cons]
  refine ⟨fun kind => ⟨_, State.accept_good head (by simp [kind]) good, ?_⟩,
    fun kind => ⟨_, State.accept_good head (by simp [kind]) good, ?_⟩,
    fun kind => ⟨_, State.accept_good head (by simp [kind]) good, ?_⟩, by simp⟩
  · rw [load]; exact ⟨rfl, rfl⟩
  · rw [load]; exact ⟨rfl, rfl⟩
  · rw [unload]; exact ⟨rfl, rfl⟩

omit head good in
theorem acceptLoad_begins {u : State} {slot : Nat} {map : List Placement} {a : Nat} (restore : Bool) (free : u.load = none)
    (named : e.mslot < 16) (calm : u.mgmt.waiting = none) (read : u.readMap e = some map)
    (places : firstIndex (u.entryFails map e.mslot) map = none) (heap : u.heapPlace = some a)
    (dormant : restore = true → (u.model e.mslot).st = .dormant) : State.acceptLoad restore e slot u =
      { u with load := some (e.loadReq restore slot map a), fresh := u.fresh + 1 } := by
  have unfenced : ¬ (u.localMap map).any (fun p => u.beingFenced (coreIx (p.engine / 16))) = true := by
    simp [State.not_beingFenced calm]
  have there : ¬ (restore && decide ((getN u.models e.mslot {}).st ≠ .dormant)) = true := by
    rw [Bool.and_eq_true, decide_eq_true_eq]
    rintro ⟨r, ne⟩
    exact ne (dormant r)
  simp only [State.acceptLoad, free, Option.isSome_none, Bool.false_eq_true, if_false, if_neg (Nat.not_le.mpr named), read, if_neg unfenced,
    places, if_neg there, heap, Entry.loadReq]

theorem submitLoads_begin {map : List Placement} {a : Nat} (free : s.load = none) (named : e.mslot < 16)
    (calm : s.mgmt.waiting = none) (read : s.takeHead.readMap e = some map)
    (places : firstIndex (s.takeHead.entryFails map e.mslot) map = none) (heap : s.takeHead.heapPlace = some a) :
    ∀ p ∈ [(Instr.submitLoad, 2, false), (.submitRestore, 3, true)], e.kind = p.2.1 →
      (p.2.2 = true → (s.takeHead.model e.mslot).st = .dormant) →
      ∃ t l, exec p.1 s = .next t ∧ t.load = some l ∧ l.mslot = e.mslot ∧ l.restore = p.2.2 ∧ l.pkgLen = e.arg0 ∧ l.map = map ∧
        l.heapAt = some a ∧ s.sameBytes t := by
  have begins (restore : Bool) := acceptLoad_begins (e := e) (slot := s.port.sqHead) restore (u := s.takeHead) free named calm read places heap
  simp only [List.forall_mem_cons]
  refine ⟨fun kind dormant => ⟨_, e.loadReq false s.port.sqHead map a, State.accept_good head (by simp [kind]) good, ?_⟩,
    fun kind dormant => ⟨_, e.loadReq true s.port.sqHead map a, State.accept_good head (by simp [kind]) good, ?_⟩, by simp⟩
  · rw [begins false dormant]; exact ⟨rfl, rfl, rfl, rfl, rfl, rfl, fun a => rfl⟩
  · rw [begins true fun _ => dormant trivial]; exact ⟨rfl, rfl, rfl, rfl, rfl, rfl, fun a => rfl⟩

theorem submitUnload_begins (free : s.load = none) (named : e.mslot < 16) (calm : s.mgmt.waiting = none) (kind : e.kind = 4) :
    ∃ t, exec .submitUnload s = .next t ∧
      (t.model e.mslot).unload = (s.model e.mslot).unload ++ [e.completion s.port.sqHead 0] ∧ s.sameBytes t := by
  have free : ¬ s.takeHead.load.isSome = true := by simp [State.takeHead, free]
  have unfenced : ¬ (List.finRange 64).any (fun c => s.takeHead.beingFenced c && s.takeHead.ownsOn e.mslot c) = true := by
    simp [State.not_beingFenced (s := s.takeHead) calm]
  refine ⟨_, State.accept_good head (by simp [kind]) good, ?_⟩
  rw [State.acceptUnload, if_neg free, if_neg (Nat.not_le.mpr named), if_neg unfenced]
  exact ⟨by simp [State.model, getN, updN, named, State.takeHead], fun a => rfl⟩

end

/-! ### Counter requests (21.R511, R512) -/

/-- A read of counters leaves the stores, the host port and the Ledger's tail. -/
structure State.Sampled (s t : State) : Prop where
  mem : t.mem = s.mem
  port : t.port = s.port
  tail : t.lgTail = s.lgTail

section

variable {s t : State}

theorem State.Sampled.refl (s : State) : s.Sampled s := ⟨rfl, rfl, rfl⟩

theorem State.Sampled.trans {u : State} (h : s.Sampled t) (k : t.Sampled u) : s.Sampled u :=
  ⟨k.mem.trans h.mem, k.port.trans h.port, k.tail.trans h.tail⟩

theorem State.sampled_dumpPkg (s : State) (ev : Nat) : s.Sampled (s.dumpPkg ev).2 := by
  unfold State.dumpPkg State.pkgEvent
  cases pkgEventTimed ev <;> exact ⟨rfl, rfl, rfl⟩

theorem State.sampled_coreEvent (s : State) (c : Fin 64) (ev : Nat) : s.Sampled (s.coreEvent c ev).2 := by
  unfold State.coreEvent
  cases coreEventTimed ev <;> exact ⟨rfl, rfl, rfl⟩

theorem State.sampled_dumpCore (s : State) (c : Fin 64) (ev : Nat) : s.Sampled (s.dumpCore c ev).2 := by
  have event := s.sampled_coreEvent c ev
  unfold State.dumpCore State.sampleCore
  dsimp only
  split
  · split
    · exact .refl s
    · exact ⟨event.mem, event.port, event.tail⟩
  · exact ⟨event.mem, event.port, event.tail⟩

theorem sampled_dumpAll {f : State → Nat → DumpEntry × State} (step : ∀ (s : State) ev, s.Sampled (f s ev).2) (l : List Nat) (s : State) :
    s.Sampled (dumpAll f l s).2 := by
  induction l generalizing s with
  | nil => exact .refl s
  | cons ev l ih => exact (step s ev).trans (ih _)

theorem State.sampled_dumpCores (ops : Nat) (l : List (Fin 64)) (s : State) : s.Sampled (State.dumpCores ops l s).2 := by
  induction l generalizing s with
  | nil => exact .refl s
  | cons c l ih =>
    unfold State.dumpCores
    dsimp only
    split
    · exact (sampled_dumpAll (fun s ev => s.sampled_dumpCore c ev) _ s).trans (ih _)
    · exact ih s

theorem State.sampled_dump (s : State) (r : DumpReq) : s.Sampled (s.dump r).2 := by
  unfold State.dump
  dsimp only
  split
  · exact (sampled_dumpAll State.sampled_dumpPkg _ s).trans (State.sampled_dumpCores ..)
  · exact s.sampled_dumpCores ..

theorem length_dumpBytes (denied : Bool) (n i : Nat) (x : DumpEntry) : (dumpBytes denied n i x).length = 16 := by
  simp [dumpBytes]

theorem length_flatten_dumpBytes (denied : Bool) (n : Nat) (l : List DumpEntry) :
    (l.mapIdx (fun i x => dumpBytes denied n i x)).flatten.length = 16 * l.length := by
  rw [List.length_flatten, List.sum_eq_card_nsmul _ 16]
  · simp [Nat.mul_comm]
  · simp only [List.mem_map, List.mem_mapIdx]
    rintro _ ⟨_, ⟨i, hi, rfl⟩, rfl⟩
    exact length_dumpBytes ..

/-- What carrying out a counter request without a Ledger configuration leaves. -/
theorem State.runDump_writes (wf : s.mem.wf = true) (e : Entry) (slot : Nat) {r : DumpReq} (plain : bit r.ops 4 = false) :
    s.sameOutside (s.runDump e slot r) r.out (16 * r.len) ∧ (s.runDump e slot r).port.finished = s.port.finished ++
      [{ e.completion slot 0 with
        d0 := min r.len (s.dump r).1.length, d1 := (s.dump r).1.length - min r.len (s.dump r).1.length, d2 := s.lgTail }] := by
  have sampled := s.sampled_dump r
  have after (u : State) (h : s.Sampled u) (denied : Bool) (n : Nat) :
      s.sameOutside ({ u with fresh := n } |>.poke r.out
        (((s.dump r).1.take r.len).mapIdx (fun i x => dumpBytes denied u.fresh i x)).flatten) r.out (16 * r.len) := by
    intro a out
    simp only [State.poke_mem]
    rw [Memory.byte_write_outside _ _ _ _ (by rw [h.mem]; exact wf), h.mem]
    rw [length_flatten_dumpBytes, List.length_take]
    omega
  unfold State.runDump
  simp only [plain, Bool.and_false, if_false, Bool.false_eq_true]
  split
  · refine ⟨after _ sampled _ _, ?_⟩
    simp [sampled.port, sampled.tail]
  · refine ⟨after _ (.refl s) _ _, ?_⟩
    simp

end

section

variable {s : State} {e : Entry} (head : s.headEntry = some e) (good : e.bad = false)
include head good

theorem counterRequest_runs {b : List Byte} (named : s.namesRecord COUNTER_MAGIC e = true)
    (record : s.takeHead.readWh (e.arg0 % 2 ^ 44) 64 = some b) (ok : s.takeHead.dumpOk b e = true) (free : bit e.flags 2 = false)
    (canon : s.canonical = true) (plain : bit (parseDump b).ops 4 = false) :
    let n := (s.takeHead.dump (parseDump b)).1.length
    let r := parseDump b
    ∃ t, exec .counterRequest s = .next t ∧ s.sameOutside t r.out (16 * r.len) ∧ t.port.finished = s.port.finished ++
      [{ e.completion s.port.sqHead 0 with d0 := min r.len n, d1 := n - min r.len n, d2 := s.lgTail }] := by
  refine ⟨_, State.accept_good head named good, ?_⟩
  rw [State.acceptDump, if_neg (by simp [free]), State.doDump, record]
  simp only [if_pos ok]
  have wf : s.mem.wf = true := State.mem_wf canon
  exact State.runDump_writes (s := s.takeHead) wf e _ plain

end

/-! ### Lengths of digests, signatures and keys -/

theorem length_shaRound {v : List W64} (h : v.length = 8) (kw : W64 × W64) : (shaRound v kw).length = 8 := by
  unfold shaRound
  split
  · rfl
  · exact h

theorem length_shaRounds (l : List (W64 × W64)) {v : List W64} (h : v.length = 8) : (l.foldl shaRound v).length = 8 := by
  induction l generalizing v with
  | nil => exact h
  | cons kw l ih => exact ih (length_shaRound h kw)

theorem length_shaBlocks (n : Nat) {h : List W64} (l : h.length = 8) (bs : List Byte) : (shaBlocks n h bs).length = 8 := by
  induction n generalizing h bs with
  | zero => exact l
  | succ n ih =>
    refine ih ?_ _
    rw [shaBlock, List.length_zipWith, length_shaRounds _ l, l, Nat.min_self]

@[simp] theorem length_beBytes (n v : Nat) : (beBytes n v).length = n := by simp [beBytes]

/-- A flattened list of runs of equal length. -/
theorem length_flatMap_const {α β : Type} {n : Nat} {f : α → List β} (h : ∀ a, (f a).length = n) (l : List α) :
    (l.flatMap f).length = n * l.length := by
  rw [List.length_flatMap, List.sum_eq_card_nsmul _ n]
  · simp [Nat.mul_comm]
  · simp only [List.mem_map]
    rintro _ ⟨a, _, rfl⟩
    exact h a

@[simp] theorem length_sha512 (m : List Byte) : (sha512 m).length = 64 := by
  rw [sha512, length_flatMap_const (f := fun w : W64 => beBytes 8 w.toNat) (fun w => length_beBytes 8 w.toNat), length_shaBlocks _ rfl]

@[simp] theorem length_edSign (sk m : List Byte) : (edSign sk m).length = 64 := by simp [edSign, edEncode]

@[simp] theorem length_edPub (sk : List Byte) : (edPub sk).length = 32 := by simp [edPub, edEncode]

@[simp] theorem length_toLength (n : Nat) (b : List Byte) : (toLength n b).length = n := by
  simp [toLength]
  omega

@[simp] theorem length_zeros (n : Nat) : (zeros n).length = n := List.length_replicate

theorem length_hkdfBlocks (prk info : List Byte) (n : Nat) : ∀ i prev, (hkdfBlocks prk info n i prev).length = 64 * n := by
  induction n with
  | zero => intro i prev; rfl
  | succ n ih =>
    intro i prev
    simp [hkdfBlocks, hmac, ih]
    omega

@[simp] theorem length_hkdfExpand (prk info : List Byte) (n : Nat) : (hkdfExpand prk info n).length = n := by
  simp [hkdfExpand, length_hkdfBlocks]
  omega

@[simp] theorem length_sealModel (m : Model) : (sealModel m).length = 640 := by
  unfold sealModel
  split
  · exact length_zeros 640
  · simp

@[simp] theorem State.length_sealPeers (s : State) : s.sealPeers.length = 8 := by simp [State.sealPeers]

theorem State.length_sealBody (s : State) (eph nonce : List Byte) : (s.sealBody eph nonce).length = 14752 := by
  have progs := length_flatMap_const (f := fun i => toLength 64 (s.chouse.progs.getD i [])) (fun i => length_toLength 64 _) (List.range 64)
  unfold State.sealBody
  extract_lets peers head
  have front : head.length = 64 := by
    simp only [head, List.length_append, length_leBytes, length_zeros]
  have tail := length_flatMap_const length_sealModel s.models.toList
  have named := length_flatMap_const (length_leBytes 8) peers
  simp only [List.length_append, length_edPub, length_toLength, length_sha512, named, progs,
    tail, List.length_range, Vector.length_toList, front]
  have count : peers.length = 8 := s.length_sealPeers
  omega

@[simp] theorem State.length_deviceCert (s : State) : s.deviceCert.length = 144 := by simp [State.deviceCert, certBody, deviceCaPub]

@[simp] theorem length_deviceCaCert : deviceCaCert.length = 144 := by simp [deviceCaCert, certBody, deviceCaPub, rootKey]

/-! ### SEAL, SESSION, REKEY and RETIRE (17.R438, R439, R447) -/

section

variable {s : State} {e : Entry}

theorem State.keyIn_setKey_other (s : State) {n m : Nat} (ne : m ≠ n) (k : Option Key) : (s.setKey n k).keyIn m = s.keyIn m := by
  unfold State.setKey
  split
  · rfl
  · simp only [State.keyIn, getN, updN]
    split
    · rfl
    · split
      · split
        · exact Vector.getElem_set_ne _ _ ne.symm
        · rfl
      · rfl

/-- The block at an entry's address, where its form is right, is what the request's function gets. -/
theorem State.acceptBlock_formed {u : State} {form : State → List Byte → Bool} {f : State → Entry → Nat → List Byte → State} {b : List Byte}
    {slot : Nat} (block : u.blockAt (e.arg0 % 2 ^ 44) = some b) (formed : form u b = true) :
    State.acceptBlock form f e slot u = f u e slot b := by
  simp only [State.acceptBlock, block, formed, if_true]

theorem State.takeHead_wf (s : State) (canon : s.canonical = true) : s.takeHead.mem.wf = true := State.mem_wf (s := s) canon

/-- The Seal that a SEAL request builds is written whole, under a fresh key and the next counter. -/
theorem State.runSeal_eq (s : State) (e : Entry) (slot : Nat) (b : List Byte) : ∃ (v : State) (bytes : List Byte),
    s.runSeal e slot b = (v.poke (leAt b 0x20 8) bytes).replyWith e slot v.chouse.sealCtr sealOutBytes ∧ bytes.length = sealOutBytes ∧
      v.mem = s.mem ∧ v.port = s.port ∧
      v.keyIn 1 = some { ty := .x25519, bytes := leBytes 32 (Config.random s.chouse.draws).toNat } ∧
      v.chouse.sealCtr = (s.chouse.sealCtr + 1) % 2 ^ 64 ∧ v.chouse.sealFor = some v.chouse.sealCtr := by
  refine ⟨_, _, rfl, ?_, ?_, ?_, ?_, ?_, rfl⟩
  · simp [State.length_sealBody]
  · exact State.setKey_mem ..
  · exact State.setKey_port ..
  · exact State.keyIn_setKey { s with chouse := { s.chouse with draws := s.chouse.draws + 1 } } _ _ (by decide) (by decide)
  · rfl

/-- A session that opens has the keys of its first epoch, and the exchange's key is gone (17.R439). -/
theorem State.openSession_keys (s : State) (prk : List Byte) : (s.openSession prk).mem = s.mem ∧
    (s.openSession prk).chouse.session = { live := true } ∧ (s.openSession prk).keyIn 1 = none ∧
    (s.openSession prk).keyIn 2 = some { ty := .aes256, bytes := pageKeyOf prk 0 } := by
  have ended : s.SameMem s.endSession := .endSession (.refl s)
  unfold State.openSession
  generalize s.endSession = w at ended
  refine ⟨?_, rfl, State.keyIn_setKey _ 1 none (by decide) (by decide), ?_⟩
  · exact State.SameMem.of_same (.setKey (.setKey (.setKey ended))) rfl
  · exact (State.keyIn_setKey_other _ (by decide) none).trans (State.keyIn_setKey _ 2 _ (by decide) (by decide))

variable (head : s.headEntry = some e) (good : e.bad = false) {b : List Byte}
  (block : s.takeHead.blockAt (e.arg0 % 2 ^ 44) = some b)
include head good block

theorem submitSeal_seals (canon : s.canonical = true) (kind : e.kind = 0x10) (formed : sealForm s.takeHead b = true) :
    ∃ t, exec .submitSeal s = .next t ∧
      t.keyIn 1 = some { ty := .x25519, bytes := leBytes 32 (Config.random s.chouse.draws).toNat } ∧
      t.chouse.sealCtr = (s.chouse.sealCtr + 1) % 2 ^ 64 ∧ t.chouse.sealFor = some t.chouse.sealCtr ∧
      s.sameOutside t (leAt b 0x20 8) sealOutBytes ∧ t.port.finished = s.port.finished ++
        [{ e.completion s.port.sqHead 0 with d0 := t.chouse.sealCtr, d1 := sealOutBytes }] := by
  refine ⟨_, (State.accept_good head (by simp [kind]) good).trans (congrArg _ (State.acceptBlock_formed block formed)), ?_⟩
  obtain ⟨v, bytes, eq, length, mem, port, key, ctr, sealed⟩ := s.takeHead.runSeal_eq e s.port.sqHead b
  have chouse : (v.poke (leAt b 0x20 8) bytes).chouse = v.chouse := v.poke_chouse ..
  rw [eq]
  refine ⟨?_, ?_, ?_, fun a out => ?_, ?_⟩
  · exact (congrArg (fun h : House => getN h.keys 1 none) chouse).trans key
  · exact (congrArg House.sealCtr chouse).trans ctr
  · exact (congrArg House.sealFor chouse).trans (sealed.trans (congrArg some (congrArg House.sealCtr chouse).symm))
  · refine (congrArg (Memory.byte · a) (v.poke_mem ..)).trans ?_
    rw [Memory.byte_write_outside _ _ _ _ (by rw [mem]; exact s.takeHead_wf canon) (by rw [length]; exact out), mem]
    rfl
  · have finished : (v.poke (leAt b 0x20 8) bytes).port.finished = s.port.finished := by rw [State.poke_port, port]; rfl
    show (v.poke (leAt b 0x20 8) bytes).port.finished ++ _ = _
    rw [finished]
    exact congrArg (fun n => s.port.finished ++ [{ e.completion s.port.sqHead 0 with d0 := n, d1 := sealOutBytes }])
      (congrArg House.sealCtr chouse).symm

theorem submitSession_opens (canon : s.canonical = true) {k : Key} (kind : e.kind = 0x11) (formed : sessionForm s.takeHead b = true)
    (key : s.keyIn 1 = some k) (sealed : s.chouse.sealFor = some (leAt b 0x20 8))
    (mixed : (x25519 k.bytes (b.take 32)).all (· == 0) = false) : ∃ t, exec .submitSession s = .next t ∧
      t.chouse.session = { live := true } ∧ t.keyIn 1 = none ∧
      t.keyIn 2 = some { ty := .aes256, bytes := pageKeyOf (hmac s.chouse.sealDigest (x25519 k.bytes (b.take 32))) 0 } ∧
      s.sameOutside t (leAt b 0x28 8) 64 := by
  have key : s.takeHead.keyIn 1 = some k := key
  have sealed : s.takeHead.chouse.sealFor = some (leAt b 0x20 8) := sealed
  refine ⟨_, (State.accept_good head (by simp [kind]) good).trans (congrArg _ (State.acceptBlock_formed block formed)), ?_⟩
  simp only [State.runSession, key, sealed, ne_eq, not_true, if_false, mixed, Bool.false_eq_true]
  generalize undone : ({ s.takeHead with chouse := _ } : State) = u
  have mem : u.mem = s.mem := by rw [← undone]; rfl
  obtain ⟨kept, session, gone, first⟩ := u.openSession_keys (hmac s.takeHead.chouse.sealDigest (x25519 k.bytes (b.take 32)))
  refine ⟨?_, ?_, ?_, fun a out => ?_⟩
  · exact (congrArg House.session (State.poke_chouse ..)).trans session
  · exact (congrArg (fun h : House => getN h.keys 1 none) (State.poke_chouse ..)).trans gone
  · exact (congrArg (fun h : House => getN h.keys 2 none) (State.poke_chouse ..)).trans first
  · refine (congrArg (Memory.byte · a) (State.poke_mem ..)).trans ?_
    rw [Memory.byte_write_outside _ _ _ _ (by rw [kept, mem]; exact State.mem_wf canon) (by simpa [confirmOf] using out), kept, mem]

omit head good block in
theorem State.runRekey_next {u : State} {slot : Nat} (live : u.chouse.session.live = true) (one : u.chouse.session.prevLive = false)
    (epoch : leAt b 0 1 = (u.chouse.session.rekeys + 1).toNat % 4) :
    (u.runRekey e slot b).chouse.session.rekeys = u.chouse.session.rekeys + 1 ∧
      (u.runRekey e slot b).chouse.session.prevLive = true ∧ u.sameBytes (u.runRekey e slot b) := by
  simp only [State.runRekey, live, one, epoch, Bool.not_true, Bool.false_eq_true, if_false, ne_eq, not_true]
  exact ⟨rfl, rfl, fun a => congrArg (Memory.byte · a) (State.setKey_mem ..)⟩

theorem submitRekey_next (rest : restZero b 1 = true) (live : s.chouse.session.live = true) (kind : e.kind = 0x12)
    (one : s.chouse.session.prevLive = false) (epoch : leAt b 0 1 = (s.chouse.session.rekeys + 1).toNat % 4) :
    ∃ t, exec .submitRekey s = .next t ∧ t.chouse.session.rekeys = s.chouse.session.rekeys + 1 ∧
      t.chouse.session.prevLive = true ∧ s.sameBytes t := by
  have formed : epochForm s.takeHead b = true := rest
  exact ⟨_, (State.accept_good head (by simp [kind]) good).trans (congrArg _ (State.acceptBlock_formed block formed)),
    State.runRekey_next (u := s.takeHead) live one epoch⟩

omit head good block in
theorem State.retireEpoch_ends (u : State) {ep : Nat} (small : ep < 4) : (u.retireEpoch ep).chouse.session.prevLive = false ∧
    (u.retireEpoch ep).keyIn (2 + ep) = none ∧ (u.retireEpoch ep).mem = u.mem := by
  refine ⟨rfl, ?_, u.setKey_mem ..⟩
  exact (show (u.retireEpoch ep).keyIn (2 + ep) = (u.setKey (2 + ep) none).keyIn (2 + ep) from rfl).trans
    (State.keyIn_setKey u (2 + ep) none (by omega) (by omega))

theorem submitRetire_ends (rest : restZero b 1 = true) (live : s.chouse.session.live = true) (kind : e.kind = 0x13)
    (previous : s.chouse.session.previous = some (leAt b 0 1)) (ne : leAt b 0 1 ≠ s.chouse.session.current) :
    ∃ t, exec .submitRetire s = .next t ∧ t.chouse.session.prevLive = false ∧ t.keyIn (2 + leAt b 0 1) = none ∧ s.sameBytes t := by
  have formed : epochForm s.takeHead b = true := rest
  refine ⟨_, (State.accept_good head (by simp [kind]) good).trans (congrArg _ (State.acceptBlock_formed block formed)), ?_⟩
  have small : leAt b 0 1 < 4 := by
    simp only [Session.previous] at previous
    split at previous
    · have e := Option.some.inj previous
      omega
    · cases previous
  have retires : State.runRetire s.takeHead e s.port.sqHead b =
      (s.takeHead.retireEpoch (leAt b 0 1)).replyWith e s.port.sqHead (s.takeHead.stagedUnder (leAt b 0 1)) 0 := by
    have live : ¬ (!s.takeHead.chouse.session.live) = true := by
      rw [show s.takeHead.chouse.session.live = true from live]
      exact Bool.false_ne_true
    have ne : ¬ leAt b 0 1 = s.takeHead.chouse.session.current := ne
    have previous : s.takeHead.chouse.session.previous = some (leAt b 0 1) := previous
    rw [State.runRetire, if_neg live, if_neg ne, if_pos previous]
  obtain ⟨ended, gone, mem⟩ := s.takeHead.retireEpoch_ends small
  rw [retires]
  exact ⟨ended, gone, fun a => congrArg (Memory.byte · a) mem⟩

end

/-- Settles O45: one lemma for each request. -/
theorem requestEffects : Obligations.RequestEffects := by
  intro s e head good u slot off
  refine ⟨fun _ => submitJob_waits head good, fun b => submitPipeline_waits head good, fun b => counterRequest_runs head good,
    fun kind missing => submitCancel_noTarget head good kind ?_, fun j kind target own ended => submitCancel_noTarget head good kind ?_,
    fun j => submitCancel_waiting head good, submitLoads_busy head good, fun map a => submitLoads_begin head good,
    submitUnload_begins head good, fun b block canon => ⟨submitSeal_seals head good block canon, fun k => submitSession_opens head good block canon⟩,
    fun b block rest live => ⟨submitRekey_next head good block rest live, submitRetire_ends head good block rest live⟩⟩
  · have none : s.takeHead.jobOf (e.arg2 0) = none := List.find?_eq_none.mpr fun j mem => by simpa using missing j mem
    rw [none]
    rfl
  · rw [show s.takeHead.jobOf (e.arg2 0) = some j from target]
    simp [own, ended]

end Sys2Proof.Machine
end

section
/-!
PROOF. The life of a job (15.R396, R399 to R401, 07.R217, 19.R480) and the loader (11.R305, R315 to R325).
-/

namespace Sys2Proof.Machine

set_option Elab.async false

/-! ### What completions leave -/

/-- The parts of the state that no completion touches: all but the sequencers and the books of cores, the counters, the counts of
the package, the Ledger's queue and the model's own draws. -/
def State.beyond (s : State) : State :=
  { s with cores := Vector.replicate 64 {}, house := {}, clusters := Vector.replicate 8 {}, pkgEvents := [], lgQueue := [], fresh := 0 }

section

variable (s : State)

theorem State.beyond_updCore (c : Fin 64) (f : Core → Core) : (s.updCore c f).beyond = s.beyond := rfl

theorem State.beyond_updSeqr (q : SeqId) (f : Seqr → Seqr) : (s.updSeqr q f).beyond = s.beyond := by cases q <;> rfl

theorem State.beyond_countSeq (q : SeqId) (ev n : Nat) : (s.countSeq q ev n).beyond = s.beyond := by cases q <;> rfl

theorem State.beyond_addTotals (c : Fin 64) (ts : List (Nat × QTotals)) : (s.addTotals c ts).beyond = s.beyond := by
  refine foldl_keeps State.beyond (fun s e => ?_) ts s
  dsimp only
  split <;> rfl

theorem State.beyond_ledger (c : Fin 64) (e : QEntry) (flags : Nat) : (s.ledger c e flags).beyond = s.beyond := by
  unfold State.ledger
  split
  · rfl
  · dsimp only
    split
    · split <;> rfl
    · rfl

theorem State.beyond_applyCounter (q : SeqId) (idx : Nat) (v : Int) (n : Nat) : (s.applyCounter q idx v n).beyond = s.beyond := by
  unfold State.applyCounter
  dsimp only
  split
  · exact (State.beyond_countSeq ..).trans (State.beyond_updSeqr ..)
  · rfl

theorem State.beyond_retire (q : SeqId) (e : QEntry) (flags : Nat) : (s.retire q e flags).beyond = s.beyond := by
  have counts : (s.retireCounts q e).beyond = s.beyond := by
    unfold State.retireCounts
    dsimp only
    have slot := s.beyond_countSeq q EV_SLOT_RETIRED 1
    cases classEvent e.opcode with
    | none => split <;> simp [State.beyond_countSeq]
    | some ev => split <;> simp [State.beyond_countSeq]
  have done (u : State) : (u.retireDone q e).beyond = u.beyond := by
    unfold State.retireDone
    cases e.done with
    | none => rfl
    | some idx => exact u.beyond_applyCounter q idx 1 0
  cases q with
  | house =>
    rw [State.retire_house, done]
    exact (State.beyond_updSeqr ..).trans counts
  | core c =>
    rw [State.retire_core, State.beyond_ledger, done]
    exact (State.beyond_addTotals ..).trans ((State.beyond_updCore ..).trans ((State.beyond_updSeqr ..).trans counts))

theorem State.beyond_endWait (q : SeqId) : (s.endWait q).beyond = s.beyond := by
  unfold State.endWait
  split
  · exact (State.beyond_retire ..).trans (State.beyond_updSeqr ..)
  · rfl

theorem State.beyond_settleN (n : Nat) : (State.settleN n s).beyond = s.beyond := by
  induction n generalizing s with
  | zero => rfl
  | succ n ih =>
    unfold State.settleN
    split
    · exact (ih _).trans (s.beyond_endWait _)
    · rfl

theorem State.beyond_settle : s.settle.beyond = s.beyond := s.beyond_settleN 65

theorem State.beyond_complete (q : SeqId) (e : QEntry) (flags : Nat) : (s.complete q e flags).beyond = s.beyond :=
  (State.beyond_settle _).trans (s.beyond_retire q e flags)

end

section

variable {s t : State} (h : t.beyond = s.beyond)
include h

theorem State.assay_of_beyond : t.assay = s.assay := (congrArg State.assay h : t.beyond.assay = s.beyond.assay)

theorem State.mgmt_of_beyond : t.mgmt = s.mgmt := (congrArg State.mgmt h : t.beyond.mgmt = s.beyond.mgmt)

end

/-! ### The boundary of a job (15.R400, R401) -/

/-- What a boundary leaves of a core: no job, a sequencer that does not run, with its registers zero, and a zeroed store. -/
structure State.CoreReset (s : State) (c : Fin 64) : Prop where
  job : s.cores[c].job = none
  running : s.cores[c].seq.running = false
  scalars : s.cores[c].seq.s = Vector.replicate 32 0
  flags : s.cores[c].seq.flags = 0
  acc : s.cores[c].acc = []
  store : ∀ a, coreKey c.val 0 ≤ a → a < coreKey c.val 0 + coreStoreBytes → s.mem.byte a = 0

section

variable {s t : State} {c : Fin 64}

theorem State.CoreReset.of_same (h : s.CoreReset c) (cores : t.cores = s.cores) (mem : t.mem = s.mem) : t.CoreReset c := by
  obtain ⟨job, running, scalars, flags, acc, store⟩ := h
  exact ⟨by rw [cores, job], by rw [cores, running], by rw [cores, scalars], by rw [cores, flags], by rw [cores, acc], by rw [mem]; exact store⟩

theorem State.boundaryCore_resets (s : State) (c : Fin 64) : (s.boundaryCore c).CoreReset c := by
  refine ⟨?_, ?_, ?_, ?_, ?_, fun a low high => ?_⟩
  · simp [State.boundaryCore, State.count, State.forget, State.zero, resetCore]
  · simp [State.boundaryCore, State.count, State.forget, State.zero, resetCore]
  · simp [State.boundaryCore, State.count, State.forget, State.zero, resetCore]
  · simp [State.boundaryCore, State.count, State.forget, State.zero, resetCore]
  · simp [State.boundaryCore, State.count, State.forget, State.zero, resetCore]
  · exact (Memory.byte_zero _ (coreKey c.val 0) coreStoreBytes a).trans (if_neg fun out => out.elim (Nat.not_lt.mpr low) (Nat.not_le.mpr high))

theorem State.CoreReset.boundaryCore (h : s.CoreReset c) (d : Fin 64) : (s.boundaryCore d).CoreReset c := by
  by_cases same : c = d
  · exact same ▸ s.boundaryCore_resets c
  · have other : (s.boundaryCore d).cores[c] = s.cores[c] := by
      simp [State.boundaryCore, State.count, State.forget, State.zero, same]
    obtain ⟨job, running, scalars, flags, acc, store⟩ := h
    refine ⟨by rw [other, job], by rw [other, running], by rw [other, scalars], by rw [other, flags], by rw [other, acc], fun a low high => ?_⟩
    refine (Memory.byte_zero _ (coreKey d.val 0) coreStoreBytes a).trans ?_
    split
    · exact store a low high
    · rfl

/-- A fold that establishes a property of one of its members, and keeps it, leaves it. -/
theorem foldl_establishes {α : Type} {p : State → Prop} {f : State → α → State} {x : α} (makes : ∀ s, p (f s x))
    (keeps : ∀ s y, p s → p (f s y)) : ∀ (l : List α) (s : State), x ∈ l → p (l.foldl f s)
  | [], _, h => absurd h (List.not_mem_nil)
  | y :: l, s, h => by
    by_cases m : x ∈ l
    · exact foldl_establishes makes keeps l _ m
    · obtain rfl : x = y := (List.mem_cons.mp h).resolve_right m
      exact List.foldlRecOn l f (makes s) fun t h y _ => keeps t y h

theorem State.boundaryCore_assay (s : State) (c : Fin 64) : (s.boundaryCore c).assay = s.assay := rfl

theorem State.boundaryCore_mgmt (s : State) (c : Fin 64) : (s.boundaryCore c).mgmt = s.mgmt := rfl

theorem State.boundaryCores_keep (l : List (Nat × Nat)) (s : State) :
    (l.foldl (fun s e => s.boundaryCore (coreIx e.2)) s).assay = s.assay ∧
      (l.foldl (fun s e => s.boundaryCore (coreIx e.2)) s).mgmt = s.mgmt :=
  ⟨foldl_keeps State.assay (fun t (e : Nat × Nat) => t.boundaryCore_assay (coreIx e.2)) l s,
    foldl_keeps State.mgmt (fun t (e : Nat × Nat) => t.boundaryCore_mgmt (coreIx e.2)) l s⟩

/-- With Assay off a boundary applies nothing. -/
theorem State.boundaryCal_off (off : s.assay.en = false) (c : Fin 64) : s.boundaryCal c = s := by
  rw [State.boundaryCal, if_pos (by rw [off]; rfl)]

/-- The boundary resets every core of the job, and leaves Assay and the management port. -/
theorem State.boundary_resets (off : s.assay.en = false) (j : Job) :
    (∀ x ∈ j.cores, (s.boundary j).CoreReset (coreIx x.2)) ∧ (s.boundary j).mgmt = s.mgmt := by
  have settled : (s.boundaryClusters j).settle.beyond = s.beyond := State.beyond_settle _
  have calibrated : s.boundary j = j.cores.foldl (fun s e => s.boundaryCore (coreIx e.2)) (s.boundaryClusters j).settle := by
    unfold State.boundary
    dsimp only
    have kept := State.boundaryCores_keep j.cores (s.boundaryClusters j).settle
    generalize j.cores.foldl (fun s e => s.boundaryCore (coreIx e.2)) (s.boundaryClusters j).settle = t at kept
    have still : t.assay.en = false := by rw [kept.1, State.assay_of_beyond settled]; exact off
    exact List.foldlRecOn (motive := fun u => u = t) _ _ rfl fun u h e _ => by rw [h, State.boundaryCal_off still]
  rw [calibrated]
  refine ⟨fun x mem => ?_, (State.boundaryCores_keep ..).2.trans (State.mgmt_of_beyond settled)⟩
  exact foldl_establishes (p := fun t => t.CoreReset (coreIx x.2)) (x := x) (fun t => t.boundaryCore_resets _)
    (fun t y h => h.boundaryCore _) _ _ mem

theorem State.completeJob_keeps (s : State) (j : Job) (status : Nat) : (s.completeJob j status).cores = s.cores ∧
    (s.completeJob j status).mem = s.mem ∧ (s.completeJob j status).mgmt = s.mgmt := by
  unfold State.completeJob
  dsimp only
  split
  · exact ⟨rfl, rfl, rfl⟩
  · exact ⟨foldl_keeps State.cores State.finishReq_cores _ _, foldl_keeps State.mem State.finishReq_mem _ _,
      foldl_keeps State.mgmt State.finishReq_mgmt _ _⟩

theorem State.afterBoundary_keeps (s : State) (j : Job) : (s.afterBoundary j).cores = s.cores ∧ (s.afterBoundary j).mem = s.mem ∧
    (s.afterBoundary j).mgmt = s.mgmt := by
  have run (p : Pipe) : (s.nextRun j p).cores = s.cores ∧ (s.nextRun j p).mem = s.mem ∧ (s.nextRun j p).mgmt = s.mgmt := by
    unfold State.nextRun
    dsimp only
    split
    · exact ⟨rfl, rfl, rfl⟩
    · split
      · exact ⟨rfl, rfl, rfl⟩
      · exact s.completeJob_keeps j 0
  unfold State.afterBoundary
  dsimp only
  split
  · split
    · exact s.completeJob_keeps ..
    · split
      · exact s.completeJob_keeps ..
      · exact ⟨rfl, rfl, rfl⟩
  · split
    · exact s.completeJob_keeps ..
    · split
      · exact run _
      · exact s.completeJob_keeps ..

/-- The boundary of a job that is over, with Assay off and no management request waiting. -/
theorem State.jobBoundary_resets {slot : Nat} {j : Job} (found : s.jobOf slot = some j) (ended : s.jobOver j = true)
    (calm : s.mgmt.waiting = none) (off : s.assay.en = false) :
    ∃ t, exec (.jobBoundary slot) s = .next t ∧ ∀ x ∈ j.cores, t.CoreReset (coreIx x.2) := by
  have ready : (s.jobOver j && j.cores.all (fun e => s.boundaryReady (coreIx e.2))) = true := by
    simp [ended, State.boundaryReady, State.mayApply, State.assayActs, off]
  obtain ⟨reset, mgmt⟩ := State.boundary_resets off j
  obtain ⟨cores, mem, mgmt'⟩ := (s.boundary j).afterBoundary_keeps j
  have passed : s.jobBoundary slot = (s.boundary j).afterBoundary j := by
    simp only [State.jobBoundary, found, ready, if_true, State.passBoundary]
  have run : exec (.jobBoundary slot) s = .next ((s.boundary j).afterBoundary j) := by
    refine congrArg Host.Outcome.next ?_
    rw [passed, State.runWaiting, mgmt', mgmt, calm]
  exact ⟨_, run, fun x mem' => (reset x mem').of_same cores mem⟩

end

/-- Settles O46. -/
theorem jobRows : Obligations.JobRows := by
  refine ⟨?_, ?_, ?_, ?_, ?_, ?_⟩
  · intro s j runs first plain fit img binds image bind ok
    refine congrArg Host.Outcome.next ?_
    simp [runs, first, plain, State.dispatchJob, fit, image, bind, ok]
  · intro s j runs first counter
    refine congrArg Host.Outcome.next ?_
    simp [runs, first, counter]
  · intro s j st runs first plain fault
    have run : exec .jobDispatch s = .next (s.completeJob { j with pipe := (s.claimed j).pipe } st) := by
      refine congrArg Host.Outcome.next ?_
      simp [runs, first, plain, State.dispatchJob, fault]
    refine ⟨_, run, ?_, fun a => ?_⟩
    · unfold State.completeJob
      dsimp only
      split
      · rfl
      · exact foldl_keeps State.jobs State.finishReq_jobs _ _
    · rw [(s.completeJob_keeps ..).2.1]
  · intro s slot j found ended calm off
    obtain ⟨t, run, reset⟩ := State.jobBoundary_resets found ended calm off
    refine ⟨t, run, fun x mem => ?_⟩
    obtain ⟨job, running, scalars, flags, acc, store⟩ := reset x mem
    exact ⟨job, running, scalars, flags, acc, store⟩
  · intro c s slot j faulted fresh drained job found live
    refine congrArg Host.Outcome.next ?_
    have found : (s.updCore c (fun k => { k with seq := { k.seq with reported := true } })).jobOf slot = some j := found
    have due : ¬ (!(s.cores[c].seq.faulted && !s.cores[c].seq.reported && s.cores[c].drainedQueues)) = true := by
      rw [faulted, fresh, drained]
      decide
    simp only [if_neg due, job, found, if_neg live]
  · intro home n entry bind image s boot away good kind free image
    have ok : ¬ (s.boot ≠ .service || home.val == s.shape.fabricId || (parseEntry entry).bad || (parseEntry entry).kind != 1
        || (s.jobOf (0x8000 + 0x1000 * home.val + n.val)).isSome) = true := by
      simp [boot, away, good, kind, free]
    exact ⟨_, _, congrArg Host.Outcome.next (if_neg ok), rfl, rfl, rfl, rfl, rfl, rfl, rfl⟩

/-! ### The loader (11.R305, R315 to R325) -/

section

variable {s : State}

/-- A request whose load has been admitted closes with its completion. -/
theorem State.closeLoad_admitted {l : LoadReq} (load : s.load = some l) (admitted : l.admitted = true) (intake : l.intake = true)
    (status d2 : Nat) : s.closeLoad status d2 = ({ s with load := none } : State).finishReq (l.completion status d2) := by
  simp only [State.closeLoad, load, admitted, intake, if_true]

theorem firstIndex_none {α : Type} {p : α → Bool} {l : List α} (h : ∀ x ∈ l, p x = false) : firstIndex p l = none := by
  refine List.findSome?_eq_none_iff.mpr fun e mem => ?_
  obtain ⟨i, hi, rfl⟩ := List.mem_mapIdx.mp mem
  rw [if_neg (ne_true_of_eq_false (h _ (List.getElem_mem hi)))]

variable {l : LoadReq} {m : Manifest} (load : s.load = some l) (manifest : l.manifest = some m)
include load manifest

theorem loaderPlyProgram_programs {ply : Fin 8192} {d : DirEntry} (entry : l.entries.find? (fun e => e.1 == ply.val) = some (ply.val, d))
    (may : s.mayProgram l ply.val = true) :
    let w8 := l.classOf m s.shape.fabricId ply.val
    let r := if l.restore then s.restorePly ply.val d w8 else s.loadPly ply.val d w8
    exec (.loaderPlyProgram ply) s =
      .next (if r.1 then r.2.updLoad (fun l => { l with programmed := l.programmed ++ [ply.val] })
        else r.2.loadFailure WL_PROG_FAIL ply.val) := by
  refine congrArg Host.Outcome.next ?_
  simp only [load, manifest, entry, may, Bool.not_true, Bool.false_eq_true, if_false]

theorem modelAdmission_admits (fresh : l.admitted = false) (new : l.restore = false) (chunks : s.chunksDone l m = true)
    (plies : s.pliesDone l = true) : ∃ t k, exec (.modelAdmission true) s = .next t ∧ t.load = some k ∧ k.admitted = true ∧ k.heap = [] ∧
      k.heapAt = none ∧ (l.mslot < 16 → (t.model l.mslot).barrier = true) ∧ s.sameBytes t := by
  let taken (l : LoadReq) : LoadReq := { l with
    admitted := true, heap := [], heapAt := none, written := [], oldTensors := (s.model l.mslot).tensors }
  have run : exec (.modelAdmission true) s = .next ((s.updLoad taken).updModel l.mslot (fun k => { k with barrier := true, swapMask := 0 })) := by
    refine congrArg Host.Outcome.next ?_
    simp [load, manifest, fresh, new, chunks, plies, State.updLoad, taken]
  refine ⟨_, taken l, run, ?_, rfl, rfl, rfl, fun small => ?_, fun a => rfl⟩
  · simp [State.updLoad, load]
  · rw [State.model_updModel _ _ _ small]

theorem modelAdmission_restores (fresh : l.admitted = false) (again : l.restore = true) (intake : l.intake = true)
    (chunks : s.chunksDone l m = true) (plies : s.pliesDone l = true) : ∃ t, exec (.modelAdmission true) s = .next t ∧ t.load = none ∧
      t.port.finished = s.port.finished ++ [l.completion 0 0] ∧ (l.mslot < 16 → (t.model l.mslot).st = .resident) ∧ s.sameBytes t := by
  have closes := State.closeLoad_admitted (s := (s.enterModel l m).updLoad (fun l => { l with admitted := true }))
    (l := { l with admitted := true }) (by simp [State.updLoad, State.enterModel, load]) rfl intake 0 0
  have run : exec (.modelAdmission true) s = .next (((s.enterModel l m).updLoad (fun l => { l with admitted := true })).closeLoad 0 0) := by
    refine congrArg Host.Outcome.next ?_
    simp [load, manifest, fresh, again, chunks, plies]
  refine ⟨_, run, ?_⟩
  rw [closes]
  refine ⟨rfl, rfl, fun small => ?_, fun a => rfl⟩
  exact congrArg Model.st (State.model_updModel s l.mslot _ small)

theorem swapProgram_raises (admitted : l.admitted = true) (well : l.done.status = 0) (lowered : (s.model l.mslot).barrier = false)
    (small : l.mslot < 16) : ∃ t, exec .swapProgram s = .next t ∧ (t.model l.mslot).barrier = true ∧ s.sameBytes t := by
  refine ⟨s.updModel l.mslot (fun k => { k with barrier := true }), congrArg Host.Outcome.next ?_, ?_, fun a => rfl⟩
  · simp [load, manifest, admitted, well, lowered]
  · rw [State.model_updModel _ _ _ small]

theorem swapProgram_steps (admitted : l.admitted = true) (well : l.done.status = 0) (raised : (s.model l.mslot).barrier = true)
    (free : s.slotBusy l.mslot = false) (idle : ∀ e ∈ s.swapPlies l m, s.usable (plyCore e.1) = true ∧ s.coreIdle (plyCore e.1) = true ∧
      s.progFree (plyCore e.1) 1 = true ∧ s.capFree (plyCore e.1) 1 = true) :
    exec .swapProgram s = .next (s.swapStep l m) := by
  have ready : ¬ (s.slotBusy l.mslot || !s.coresIdle ((s.swapPlies l m).map (fun e => e.1)) ||
      !((s.swapPlies l m).map (fun e => e.1)).all (fun q => s.progFree (plyCore q) 1 && s.capFree (plyCore q) 1)) = true := by
    have cores : s.coresIdle ((s.swapPlies l m).map (fun e => e.1)) = true := by
      simp only [State.coresIdle, List.all_eq_true, List.forall_mem_map, Bool.and_eq_true]
      exact fun e mem => ⟨(idle e mem).1, (idle e mem).2.1⟩
    have grants : ((s.swapPlies l m).map (fun e => e.1)).all (fun q => s.progFree (plyCore q) 1 && s.capFree (plyCore q) 1) = true := by
      simp only [List.all_eq_true, List.forall_mem_map, Bool.and_eq_true]
      exact fun e mem => ⟨(idle e mem).2.2.1, (idle e mem).2.2.2⟩
    rw [free, cores, grants]
    decide
  refine congrArg Host.Outcome.next ?_
  simp only [load, manifest, admitted, well, raised, if_neg ready]
  rfl

omit load manifest in
theorem loadRollback_closes {l : LoadReq} (load : s.load = some l) (admitted : l.admitted = true) (failed : l.done.status ≠ 0)
    (free : s.slotBusy l.mslot = false) (old : l.old = []) (programmed : l.programmed = []) (intake : l.intake = true) :
    ∃ t, exec .loadRollback s = .next t ∧ t.load = none ∧
      t.port.finished = s.port.finished ++ [l.completion l.done.status l.done.d2] ∧ (l.mslot < 16 → (t.model l.mslot).barrier = false) := by
  have closes := State.closeLoad_admitted (s := s.updModel l.mslot (fun k => { k with barrier := false, swapMask := 0, tensors := l.oldTensors }))
    (l := l) load admitted intake l.done.status l.done.d2
  have run : exec .loadRollback s = .next ((s.updModel l.mslot (fun k =>
      { k with barrier := false, swapMask := 0, tensors := l.oldTensors })).closeLoad l.done.status l.done.d2) := by
    refine congrArg Host.Outcome.next ?_
    simp [load, admitted, failed, free, old, programmed, State.newPlies, State.coresIdle, State.rollEach]
  refine ⟨_, run, ?_⟩
  rw [closes]
  exact ⟨rfl, rfl, fun small => congrArg Model.barrier (State.model_updModel s l.mslot _ small)⟩

end

/-! ### Unloading and announced loads (11.R305, R324) -/

section

variable {s : State}

theorem State.models_freeOutside (s : State) (m : Nat) (keep : List Nat) : (s.freeOutside m keep).models = s.models :=
  foldl_keeps State.models (fun s q => by simp [State.freePly, State.dropDir, State.putDir, State.updPly]) _ s

theorem State.models_completeJob (s : State) (j : Job) (status : Nat) : (s.completeJob j status).models = s.models := by
  unfold State.completeJob
  dsimp only
  split
  · rfl
  · exact foldl_keeps State.models State.finishReq_models _ _

/-- A search for remaps leaves what a slot holds, its unload requests and its generation. -/
theorem State.model_retrySearch (s : State) (n : Nat) : (s.retrySearch.model n).st = (s.model n).st ∧
    (s.retrySearch.model n).unload = (s.model n).unload ∧ (s.retrySearch.model n).gen = (s.model n).gen := by
  have step (u : State) (m : Nat) (rs : Model → List Nat) :
      let v := u.updModel m (fun k => { k with remaps := rs k })
      (v.model n).st = (u.model n).st ∧ (v.model n).unload = (u.model n).unload ∧ (v.model n).gen = (u.model n).gen := by
    simp only [State.updModel, State.model, getN]
    split
    · rw [getElem_updN]
      split <;> exact ⟨rfl, rfl, rfl⟩
    · exact ⟨rfl, rfl, rfl⟩
  refine foldl_related (r := fun s t => (t.model n).st = (s.model n).st ∧ (t.model n).unload = (s.model n).unload ∧
    (t.model n).gen = (s.model n).gen) (fun _ => ⟨rfl, rfl, rfl⟩) (fun h k => ⟨k.1.trans h.1, k.2.1.trans h.2.1, k.2.2.trans h.2.2⟩)
    (fun u m => ?_) _ s
  dsimp only
  split
  · exact ⟨rfl, rfl, rfl⟩
  · split
    · exact step u m _
    · exact ⟨rfl, rfl, rfl⟩

theorem unloadFree_empties (idle : s.load = none) {n : Fin 16} (asked : (s.model n.val).unload ≠ []) (free : s.slotBusy n.val = false) :
    ∃ t, exec (.unloadFree n) s = .next t ∧ (t.model n.val).st = .empty ∧ (t.model n.val).unload = [] ∧
      (t.model n.val).gen = (s.model n.val).gen := by
  have run : exec (.unloadFree n) s =
      .next ((s.model n.val).unload.foldl State.finishReq ((s.emptySlot n.val).rejectHeld n.val)).retrySearch := by
    refine congrArg Host.Outcome.next ?_
    simp [asked, free, idle]
  obtain ⟨st, unload, gen⟩ := State.model_retrySearch ((s.model n.val).unload.foldl State.finishReq ((s.emptySlot n.val).rejectHeld n.val)) n.val
  have models : ((s.model n.val).unload.foldl State.finishReq ((s.emptySlot n.val).rejectHeld n.val)).models = (s.emptySlot n.val).models :=
    (foldl_keeps State.models State.finishReq_models _ _).trans (foldl_keeps State.models (fun t j => t.models_completeJob j JOB_MODEL) _ _)
  have emptied : (s.emptySlot n.val).model n.val = { gen := (s.model n.val).gen } := by
    rw [State.emptySlot, State.model_updModel _ _ _ n.isLt, State.model, s.models_freeOutside]
    rfl
  have model : State.model ((s.model n.val).unload.foldl State.finishReq ((s.emptySlot n.val).rejectHeld n.val)) n.val =
      { gen := (s.model n.val).gen } := by
    rw [State.model, models]
    exact emptied
  rw [model] at st unload gen
  exact ⟨_, run, st, unload, gen⟩

end

/-- Settles O48. -/
theorem loaderRows : Obligations.LoaderRows := by
  refine ⟨fun s l m load manifest => ⟨?_, ?_, ?_, ?_, ?_⟩, fun s l => loadRollback_closes, fun s n idle => unloadFree_empties idle, ?_⟩
  · exact fun ply d => loaderPlyProgram_programs load manifest
  · exact modelAdmission_admits load manifest
  · exact modelAdmission_restores load manifest
  · exact swapProgram_raises load manifest
  · exact swapProgram_steps load manifest
  · intro s peer n len b map sn idle boot away member calm places
    have known : getN s.fabric.members peer.val none = some (sn, false) := by simpa [getN] using member
    have unfenced : ¬ (s.localMap (map.map (fun w => parsePlacement w.toNat))).any
        (fun p => s.beingFenced (coreIx (p.engine / 16))) = true := by
      simp [State.not_beingFenced calm]
    have announced : ∃ l, s.announced peer.val n.val len (sha512 (b.take (b.length - 64))) (map.map (fun w => parsePlacement w.toNat)) = some l ∧
        l.mslot = n.val ∧ l.intake = false ∧ l.intakeId = peer.val ∧ l.pkgLen = len ∧ l.map = map.map (fun w => parsePlacement w.toNat) ∧
        l.restore = (decide ((s.model n.val).st = .dormant) && decide ((s.model n.val).digest = sha512 (b.take (b.length - 64)))) := by
      refine ⟨_, by rw [State.announced, idle], rfl, rfl, rfl, rfl, rfl, rfl⟩
    obtain ⟨l, found, mslot, intake, intakeId, pkgLen, lmap, restore⟩ := announced
    refine ⟨l, mslot, intake, intakeId, pkgLen, lmap, restore, congrArg Host.Outcome.next ?_⟩
    have mine : ¬ (s.boot ≠ .service || peer.val == s.shape.fabricId) = true := by simp [boot, away]
    simp only [known, Bool.or_false, Bool.not_false, Bool.not_true, if_neg mine, found, if_neg unfenced, firstIndex_none places]

end Sys2Proof.Machine
end

section
/-!
PROOF. Accesses of instructions to local stores, granule by granule (10.R274 to R277): a read of bytes that may be read returns
them, and a write of bytes that may be written writes them, and nothing else.
-/

namespace Sys2Proof.Machine

set_option Elab.async false

/-! ### What an access leaves -/

/-- The state but for the event counts of the cores, the clusters with their caches and the model's draws: what a read leaves. -/
def State.seen (s : State) : State :=
  { s with fresh := 0, cores := s.cores.map (fun k => { k with events := [] }), clusters := Vector.replicate 8 {} }

/-- The state but for these, the stores' bytes, their poison and what was written, and the counts of the package: what a write
leaves. -/
def State.shell (s : State) : State := { s.seen with mem := [], poison := [], written := [], pkgEvents := [] }

section

variable {s t u : State}

theorem State.shell_of_seen (h : t.seen = s.seen) : t.shell = s.shell :=
  congrArg (fun u : State => { u with mem := [], poison := [], written := [], pkgEvents := [] }) h

/-- Parts of a core but its counts, as what an access leaves keeps them. -/
theorem cores_of_shell (h : t.shell = s.shell) (c : Fin 64) : { t.cores[c] with events := [] } = { s.cores[c] with events := [] } := by
  have cores : t.cores.map (fun k : Core => { k with events := [] }) = s.cores.map (fun k => { k with events := [] }) :=
    congrArg State.cores h
  have := congrArg (fun v : Vector Core 64 => v[c]) cores
  simpa using this

theorem State.seqr_of_shell (h : t.shell = s.shell) (q : SeqId) : t.seqr q = s.seqr q := by
  cases q with
  | core c =>
    have seqs := congrArg Core.seq (cores_of_shell h c)
    exact seqs
  | house => exact (congrArg State.house h : t.shell.house = s.shell.house)

theorem State.shape_of_shell (h : t.shell = s.shell) : t.shape = s.shape := (congrArg State.shape h : t.shell.shape = s.shell.shape)

theorem State.fabric_of_shell (h : t.shell = s.shell) : t.fabric = s.fabric := (congrArg State.fabric h : t.shell.fabric = s.shell.fabric)

theorem State.port_of_shell (h : t.shell = s.shell) : t.port = s.port := (congrArg State.port h : t.shell.port = s.shell.port)

theorem State.chouse_of_shell (h : t.shell = s.shell) : t.chouse = s.chouse := (congrArg State.chouse h : t.shell.chouse = s.shell.chouse)

theorem State.mem_of_seen (h : t.seen = s.seen) : t.mem = s.mem := (congrArg State.mem h : t.seen.mem = s.seen.mem)

theorem State.poison_of_seen (h : t.seen = s.seen) : t.poison = s.poison := (congrArg State.poison h : t.seen.poison = s.seen.poison)

theorem State.written_of_seen (h : t.seen = s.seen) : t.written = s.written := (congrArg State.written h : t.seen.written = s.seen.written)

theorem State.accessFault_of_shell (h : t.shell = s.shell) (q : SeqId) (window write : Bool) (a : Nat) :
    t.accessFault q window write a = s.accessFault q window write a := by
  have mapped (r o : Nat) : t.mapped q r o = s.mapped q r o := by
    simp only [State.mapped, State.coreBit, State.clusterBit, State.shape_of_shell h]
  simp only [State.accessFault, mapped, State.shape_of_shell h, State.memberFault, State.fabric_of_shell h]

theorem State.localSpan_of_shell (h : t.shell = s.shell) {q : SeqId} {write : Bool} {a n : Nat} (span : s.localSpan q write a n) :
    t.localSpan q write a n := by
  refine ⟨span.1, fun i hi => ?_⟩
  rw [State.shape_of_shell h, State.accessFault_of_shell h]
  exact span.2 i hi

theorem State.poisoned_of_seen (h : t.seen = s.seen) (key n : Nat) : t.poisoned key n = s.poisoned key n := by
  simp only [State.poisoned, State.unwritten, State.poison_of_seen h, State.written_of_seen h]

theorem State.readableSpan_of_seen (h : t.seen = s.seen) {q : SeqId} {a n : Nat} (span : s.readableSpan q a n) : t.readableSpan q a n :=
  ⟨State.localSpan_of_shell (State.shell_of_seen h) span.1, (State.poisoned_of_seen h ..).trans span.2⟩

/-- Poison does not begin in a part of a clean span. -/
theorem State.poisoned_part {key n i m : Nat} (h : s.poisoned key n = false) (inside : i + m ≤ n) : s.poisoned (key + i) m = false := by
  simp only [State.poisoned, List.any_eq_false, Bool.and_eq_true, decide_eq_true_eq] at h ⊢
  intro e mem hit
  obtain ⟨⟨⟨there, below⟩, above⟩, some_⟩ := hit
  exact h e mem ⟨⟨⟨there, by omega⟩, by omega⟩, by omega⟩

end

/-! ### Bytes of a memory -/

theorem Memory.bytes_append (m : Memory) (a : Nat) : ∀ (k n : Nat), m.bytes a (k + n) = m.bytes a k ++ m.bytes (a + k) n := by
  intro k
  induction k generalizing a with
  | zero => simp [Memory.bytes]
  | succ k ih => intro n; rw [Nat.add_right_comm]; simp [Memory.bytes, ih, Nat.add_comm, Nat.add_left_comm]

theorem Memory.write_append (m : Memory) (a : Nat) (xs ys : List Byte) : m.write a (xs ++ ys) = (m.write a xs).write (a + xs.length) ys := by
  induction xs generalizing m a with
  | nil => rfl
  | cons x xs ih => simp [Memory.write, ih, Nat.add_assoc, Nat.add_comm]

/-! ### Where a span of local stores lies -/

section

variable {s t : State} {q : SeqId} {write : Bool} {a n k : Nat} {bs : List Byte}

/-- Bytes of one device have their keys in a row. -/
theorem addr_key_add (m : Nat) (same : addrDev (a + m) = addrDev a) (small : a + m < 2 ^ 51) : (a + m) % 2 ^ 48 = a % 2 ^ 48 + m := by
  unfold addrDev at same
  omega

theorem State.localSpan.part (span : s.localSpan q write a n) {i m : Nat} (inside : i + m ≤ n) : s.localSpan q write (a + i) m :=
  ⟨by have := span.1; omega, fun j hj => by rw [Nat.add_assoc]; exact span.2 (i + j) (by omega)⟩

theorem State.localSpan.key_add (span : s.localSpan q write a n) {i : Nat} (inside : i < n) : (a + i) % 2 ^ 48 = a % 2 ^ 48 + i := by
  have small := span.1
  refine addr_key_add i ?_ (by omega)
  exact (span.2 i inside).1.trans (span.2 0 (by omega)).1.symm

theorem State.readableSpan.part (span : s.readableSpan q a n) {i m : Nat} (inside : i + m ≤ n) : s.readableSpan q (a + i) m := by
  refine ⟨span.1.part inside, ?_⟩
  cases m with
  | zero => simp [State.poisoned]
  | succ m => rw [span.1.key_add (i := i) (by omega)]; exact State.poisoned_part span.2 inside

/-! ### An access within one granule -/

theorem State.seen_count (c : Fin 64) (e k : Nat) : (s.count c e k).seen = s.seen := by
  simp only [State.count, State.updCore, State.seen]
  congr 1
  ext i hi : 1
  rcases Nat.decEq c.val i with ne | rfl <;> simp [*]

theorem State.seen_countSeq (e k : Nat) : (s.countSeq q e k).seen = s.seen := by
  cases q with
  | core c => exact State.seen_count ..
  | house => rfl

theorem State.seen_cacheRead (k : Fin 8) (g : Nat) : (s.cacheRead k g).2.seen = s.seen := by
  unfold State.cacheRead
  simp only []
  split <;> rfl

theorem readCached_run (s : State) (q : SeqId) (a : Nat) : ∃ t, (readCached q a).run s = .ok () t ∧ t.seen = s.seen := by
  cases q with
  | house => exact ⟨s, rfl, rfl⟩
  | core c =>
    by_cases here : addrRegion a = 0 ∧ addrDev a = s.shape.fabricId
    · refine ⟨(s.cacheRead (clusterOf c) (addrOff a / 64)).2.count c
        (if (s.cacheRead (clusterOf c) (addrOff a / 64)).1 then EV_CC_HIT else EV_CC_MISS) 1, ?_, ?_⟩
      · simp [readCached, here]
      · rw [State.seen_count, State.seen_cacheRead]
    · exact ⟨s, by simp [readCached, here], rfl⟩

theorem countGranule_run (s : State) (q : SeqId) (unit a : Nat) (write : Bool) :
    ∃ t, (countGranule q unit a write).run s = .ok () t ∧ t.seen = s.seen := by
  obtain ⟨r, read, rSeen⟩ := readCached_run s q a
  let u := if write then s else r
  have uSeen : u.seen = s.seen := by
    cases write
    · exact rSeen
    · rfl
  let v := if 4 ≤ unit then u.countSeq q ((if write then EV_MV_GRAN_WR else EV_MV_GRAN_RD) + (unit - 4)) 1 else u
  have vSeen : v.seen = s.seen := by
    simp only [v]
    split
    · exact (State.seen_countSeq ..).trans uSeen
    · exact uSeen
  have run : (countGranule q unit a write).run s =
      .ok () (match servedBy q a with | some c => v.count c EV_CS_REMOTE_SERVED 1 | none => v) := by
    by_cases mover : 4 ≤ unit <;> cases write <;> cases other : servedBy q a <;>
      simp [countGranule, u, v, mover, change, read, other]
  refine ⟨_, run, ?_⟩
  cases servedBy q a with
  | none => exact vSeen
  | some c => exact (State.seen_count ..).trans vSeen

theorem checkAccess_run (unit : Nat) (ok : s.accessFault q false write a = none) (region : addrRegion a ≤ 1 ∨ addrRegion a = 3) :
    ∃ t, (checkAccess q unit a write).run s = .ok () t ∧ t.seen = s.seen := by
  have window : s.accessFault q (decide (4 ≤ unit)) write a = none := by
    have same : permitted q (decide (4 ≤ unit)) write (addrRegion a) (addrOff a) = permitted q false write (addrRegion a) (addrOff a) := by
      rcases region with low | high
      · cases q with
        | house => rfl
        | core c =>
          obtain zero | one : addrRegion a = 0 ∨ addrRegion a = 1 := by omega
          · simp [permitted, zero]
          · simp [permitted, one]
      · cases q <;> simp [permitted, high]
    simpa only [State.accessFault, same] using ok
  obtain ⟨t, run, seen⟩ := countGranule_run s q unit a write
  exact ⟨t, by simp [checkAccess, window, run], seen⟩

theorem fetch_run (unit : Nat) (dev : addrDev a = s.shape.fabricId) (region : addrRegion a ≤ 1 ∨ addrRegion a = 3)
    (clean : s.poisoned (a % 2 ^ 48) n = false) : (fetch q unit a n).run s = .ok (s.bytesAt a n) s := by
  have store : ¬ 4 ≤ addrRegion a := by omega
  have frames : inFrames a = false := by
    have : addrRegion a ≠ 2 := by omega
    simp [inFrames, this]
  simp [-Nat.reducePow, fetch, dev, store, clean, frames, State.bytesAt, State.peek]

theorem State.seen_here (h : t.seen = s.seen) : t.bytesAt = s.bytesAt := by
  unfold State.bytesAt
  rw [State.mem_of_seen h]

/-- A read of bytes that may be read, part by part. -/
theorem readParts_run (unit : Nat) : ∀ (k : Nat) {s : State} {a n : Nat}, s.readableSpan q a n → n = 0 ∨ a % 64 + n ≤ 64 * k →
    ∃ t, (readParts q unit k a n).run s = .ok (s.bytesAt a n) t ∧ t.seen = s.seen := by
  intro k
  induction k with
  | zero =>
    intro s a n span room
    obtain rfl : n = 0 := by omega
    exact ⟨s, rfl, rfl⟩
  | succ k ih =>
    intro s a n span room
    by_cases none_ : n = 0
    · subst none_
      exact ⟨s, by simp [readParts, State.bytesAt, Memory.bytes], rfl⟩
    have pos : 0 < n := by omega
    have wrap : wrapAddr a = a := Nat.mod_eq_of_lt (by have := span.1.1; omega)
    let m := firstPart a n
    have le : m ≤ n := Nat.min_le_left ..
    have mpos : 0 < m := by simp only [m, firstPart]; omega
    obtain ⟨dev, region, ok⟩ := span.1.2 0 pos
    obtain ⟨t, check, tSeen⟩ := checkAccess_run unit ok region
    have span' := State.readableSpan_of_seen tSeen span
    have clean : t.poisoned (a % 2 ^ 48) m = false := (span'.part (i := 0) (m := m) (by omega)).2
    have first := fetch_run (s := t) (q := q) (n := m) unit ((span'.1.2 0 pos).1) region clean
    obtain ⟨u, rest, uSeen⟩ : ∃ u, (readParts q unit k (a + m) (n - m)).run t = .ok (t.bytesAt (a + m) (n - m)) u ∧ u.seen = t.seen := by
      refine ih (span'.part (by omega)) ?_
      simp only [m, firstPart]
      omega
    refine ⟨u, ?_, uSeen.trans tSeen⟩
    have whole : s.bytesAt a n = s.bytesAt a m ++ s.bytesAt (a + m) (n - m) := by
      rcases Nat.lt_or_ge m n with more | all
      · simp only [State.bytesAt, span.1.key_add more, ← Memory.bytes_append]
        congr 1
        omega
      · have eq : n = m := by omega
        simp [eq, State.bytesAt, Memory.bytes]
    simp only [Nat.add_zero] at check first
    simp [readParts, none_, wrap, m, check, first, rest, whole, State.seen_here tSeen]

theorem readMem_run (unit : Nat) (span : s.readableSpan q a n) :
    ∃ t, (readMem q unit a n).run s = .ok (s.bytesAt a n) t ∧ t.seen = s.seen :=
  readParts_run unit _ span (.inr (by omega))

/-! ### Writes -/

theorem State.shell_updCluster (s : State) (k : Fin 8) (f : Cluster → Cluster) : (s.updCluster k f).shell = s.shell := rfl

theorem State.shell_warehouseWrite (s : State) (key n : Nat) : (s.warehouseWrite key n).shell = s.shell := by
  unfold State.warehouseWrite
  split
  · refine (foldl_keeps State.shell (fun u b => ?_) _ _).trans ?_ <;> rfl
  · rfl

theorem State.shell_poke (s : State) (key : Nat) (bs : List Byte) : (s.poke key bs).shell = s.shell :=
  (State.shell_warehouseWrite ({ s with mem := s.mem.write key bs } : State) key bs.length).trans rfl

theorem store_run (dev : addrDev a = s.shape.fabricId) (region : addrRegion a ≤ 1 ∨ addrRegion a = 3) (bs : List Byte) :
    ∃ t, (store q a bs).run s = .ok () t ∧ t.mem = s.mem.write (a % 2 ^ 48) bs ∧ t.shell = s.shell := by
  have inStore : ¬ 4 ≤ addrRegion a := by omega
  refine ⟨s.storeLocal q (a % 2 ^ 48) bs, by simp [-Nat.reducePow, store, change, dev, inStore], ?_, ?_⟩
  · cases q <;> exact State.poke_mem ..
  · cases q <;> exact State.shell_poke ..

/-- A write of bytes that may be written, part by part. -/
theorem writeParts_run (unit : Nat) : ∀ (k : Nat) {s : State} {a : Nat} {bs : List Byte}, s.localSpan q true a bs.length →
    bs = [] ∨ a % 64 + bs.length ≤ 64 * k →
    ∃ t, (writeParts q unit k a bs).run s = .ok () t ∧ t.mem = s.mem.write (a % 2 ^ 48) bs ∧ t.shell = s.shell := by
  intro k
  induction k with
  | zero =>
    intro s a bs span room
    obtain rfl : bs = [] := room.elim id (fun h => List.length_eq_zero_iff.mp (by omega))
    exact ⟨s, rfl, rfl, rfl⟩
  | succ k ih =>
    intro s a bs span room
    by_cases none_ : bs = []
    · subst none_
      exact ⟨s, by simp [writeParts], rfl, rfl⟩
    have pos : 0 < bs.length := List.length_pos_iff.mpr none_
    have fits : a % 64 + bs.length ≤ 64 * (k + 1) := room.resolve_left none_
    have wrap : wrapAddr a = a := Nat.mod_eq_of_lt (by have := span.1; omega)
    let m := firstPart a bs.length
    have le : m ≤ bs.length := Nat.min_le_left ..
    have mpos : 0 < m := by simp only [m, firstPart]; omega
    obtain ⟨dev, region, ok⟩ := span.2 0 pos
    obtain ⟨t, check, tSeen⟩ := checkAccess_run unit ok region
    have tSpan := State.localSpan_of_shell (State.shell_of_seen tSeen) span
    obtain ⟨u, first, uMem, uShell⟩ := store_run (s := t) (q := q) (tSpan.2 0 pos).1 region (bs.take m)
    have uSpan := State.localSpan_of_shell uShell tSpan
    obtain ⟨v, rest, vMem, vShell⟩ : ∃ v, (writeParts q unit k (a + m) (bs.drop m)).run u = .ok () v ∧
        v.mem = u.mem.write ((a + m) % 2 ^ 48) (bs.drop m) ∧ v.shell = u.shell := by
      refine ih (uSpan.part (by simp; omega)) ?_
      rcases Nat.lt_or_ge m bs.length with more | all
      · refine .inr ?_
        simp only [List.length_drop, m, firstPart] at more ⊢
        omega
      · exact .inl (List.drop_eq_nil_of_le all)
    refine ⟨v, ?_, ?_, vShell.trans (uShell.trans (State.shell_of_seen tSeen))⟩
    · simp only [Nat.add_zero] at check first
      simp [writeParts, none_, wrap, m, check, first, rest]
    · rw [vMem, uMem, State.mem_of_seen tSeen]
      rcases Nat.lt_or_ge m bs.length with more | all
      · rw [span.key_add more]
        have length : (bs.take m).length = m := by simp; omega
        have whole := Memory.write_append s.mem (a % 2 ^ 48) (bs.take m) (bs.drop m)
        rw [length, List.take_append_drop] at whole
        exact whole.symm
      · rw [List.drop_eq_nil_of_le all, List.take_of_length_le all]
        rfl

theorem writeMem_run (unit : Nat) (span : s.localSpan q true a bs.length) :
    ∃ t, (writeMem q unit a bs).run s = .ok () t ∧ t.mem = s.mem.write (a % 2 ^ 48) bs ∧ t.shell = s.shell :=
  writeParts_run unit _ span (.inr (by omega))

end

end Sys2Proof.Machine
end

section
/-!
PROOF. The debug port and the I3C target (17.R452, chapter 18): O52 and O53.
-/

namespace Sys2Proof.Machine

set_option Elab.async false

/-! ### The debug port -/

section

variable {s : State} {q : SeqId} {a n : Nat} {b : List Byte}

theorem debugHalt_halts (unlocked : s.debugOpen = true) : ∃ t, exec (.debugHalt q) s = .next t ∧ (t.seqr q).halted = true ∧
    t.decodes q = false ∧ s.sameBytes t ∧ ∀ q', q' ≠ q → t.seqr q' = s.seqr q' := by
  have run : exec (.debugHalt q) s = .next (s.updSeqr q (fun r => { r with halted := true, stepOne := false })) :=
    congrArg Host.Outcome.next (by simp [unlocked])
  refine ⟨_, run, by simp, ?_, fun _ => by simp, fun q' other => State.seqr_updSeqr_other _ _ _ other⟩
  simp [State.decodes, Seqr.decodes]

theorem debugStep_steps (unlocked : s.debugOpen = true) (halted : (s.seqr q).halted = true) : ∃ t, exec (.debugStep q) s = .next t ∧
    (t.seqr q).stepOne = true ∧ (t.seqr q).halted = true ∧ s.sameBytes t := by
  have run : exec (.debugStep q) s = .next (s.updSeqr q (fun r => { r with stepOne := true })) :=
    congrArg Host.Outcome.next (by simp [unlocked, halted])
  exact ⟨_, run, by simp, by simpa using halted, fun _ => by simp⟩

theorem debugResume_resumes (unlocked : s.debugOpen = true) : ∃ t, exec (.debugResume q) s = .next t ∧
    (t.seqr q).halted = false ∧ s.sameBytes t := by
  have run : exec (.debugResume q) s = .next (s.updSeqr q (fun r => { r with halted := false, stepOne := false })) :=
    congrArg Host.Outcome.next (by simp [unlocked])
  exact ⟨_, run, by simp, fun _ => by simp⟩

theorem debugRead_reads (unlocked : s.debugOpen = true) (reach : debugReaches a n = true) (span : s.readableSpan .house a n) :
    ∃ t, exec (.debugAccess a n none) s = .next t ∧ t.latch.bytes = s.bytesAt a n ∧ s.sameBytes t := by
  obtain ⟨t, read, seen⟩ := readMem_run 0 span
  have run : exec (.debugAccess a n none) s = .next { t with latch := { t.latch with bytes := s.bytesAt a n } } :=
    congrArg Host.Outcome.next (by simp [unlocked, reach, read])
  refine ⟨_, run, rfl, fun x => ?_⟩
  show t.mem.byte x = _
  rw [State.mem_of_seen seen]

theorem debugWrite_writes (unlocked : s.debugOpen = true) (reach : debugReaches a b.length = true) (wf : s.mem.wf = true)
    (span : s.localSpan .house true a b.length) : ∃ t, exec (.debugAccess a n (some b)) s = .next t ∧ t.bytesAt a b.length = b ∧
      s.sameOutside t (a % 2 ^ 48) b.length := by
  obtain ⟨t, write, mem, _⟩ := writeMem_run 0 span
  have run : exec (.debugAccess a n (some b)) s = .next t := congrArg Host.Outcome.next (by simp [unlocked, reach, write])
  refine ⟨t, run, ?_, fun x out => ?_⟩
  · rw [State.bytesAt, mem, Memory.bytes_write wf]
  · rw [mem, Memory.byte_write_outside _ _ _ _ wf out]

end

/-- Settles O52: an access of the debug port is one of the house sequencer, past the check of what the port may reach. -/
theorem debugRows : Obligations.DebugRows := by
  intro q s a n b
  refine ⟨fun unlocked => ?_, fun locked i mem => ?_⟩
  · have isOpen : s.debugOpen = true := by simp [State.debugOpen, unlocked]
    refine ⟨debugHalt_halts isOpen, debugStep_steps isOpen, debugResume_resumes isOpen, debugRead_reads isOpen,
      fun reach canonical span => debugWrite_writes isOpen reach (s.mem_wf canonical) span, fun no => ?_, fun no => ?_⟩
    · exact congrArg Host.Outcome.next (by simp [isOpen, no])
    · exact congrArg Host.Outcome.next (by simp [isOpen, no])
  · have closed : s.debugOpen = false := by simpa [State.debugOpen] using locked
    simp only [List.mem_cons, List.not_mem_nil, or_false] at mem
    rcases mem with rfl | rfl | rfl | rfl | rfl <;> exact congrArg Host.Outcome.next (by simp [closed])

/-! ### The I3C target -/

section

variable {s : State}

theorem i3cRead_on (on : s.i3cOn = true) (b : List Byte) :
    s.i3cRead b = .next { s with latch := { s.latch with i3c := some b, nack := false } } := by
  simp [State.i3cRead, on, State.i3cGives]

end

/-- Settles O53: each command writes the target's record or latches what it reads. -/
theorem i3cRows : Obligations.I3cRows := by
  intro s a
  refine ⟨fun on => ⟨fun free i mem => ?_, ?_, ?_, ?_, fun p mem => ?_, fun b posted => ?_,
    fun empty => ?_⟩, fun off => ?_, rfl⟩
  · simp only [List.mem_cons, List.not_mem_nil, or_false] at mem
    rcases mem with rfl | rfl <;> exact congrArg Host.Outcome.next (by simp [on, free])
  · exact congrArg Host.Outcome.next (by simp [on])
  · exact congrArg Host.Outcome.next (by simp [on])
  · exact congrArg Host.Outcome.next (by simp [on])
  · simp only [List.mem_cons, List.not_mem_nil, or_false] at mem
    rcases mem with rfl | rfl | rfl | rfl | rfl | rfl <;> exact i3cRead_on on _
  · exact congrArg Host.Outcome.next (by simp [on, posted, State.i3cGives])
  · exact congrArg Host.Outcome.next (by simp [on, empty, State.i3cNack])
  · exact congrArg Host.Outcome.next (by simp [off, State.i3cNack])

end Sys2Proof.Machine
end

section
/-!
PROOF. Triggers of Assay and the ends of conversions (chapters 12 and 13): O33 and O36.
-/

namespace Sys2Proof.Machine

set_option Elab.async false

section

variable {s t : State} {q : Nat} {full : Bool}

/-! ### What triggers change while Assay acts -/

/-- The state but for the plies' records of Assay, the work it scheduled on the cores, and the power state. -/
def State.unmeasured (s : State) : State :=
  { s with
    power := {}
    assay := { s.assay with plies := [] }
    cores := s.cores.map (fun k => { k with calCore := [] }) }

theorem State.assayPly_updAssay {f : AssayPly → AssayPly} (real : f (s.assayPly q) ≠ {}) (j : Nat) :
    (s.updAssay q f).assayPly j = if j = q then f (s.assayPly q) else s.assayPly j := by
  show NatMap.get {} (NatMap.put {} s.assay.plies q (f (s.assayPly q))) j = _
  rw [NatMap.put, if_neg real, NatMap.get_insert]
  rfl

theorem State.unmeasured_updCalCore (s : State) (c : Fin 64) (w : List CalCore → List CalCore) :
    (s.updCore c (fun k => { k with calCore := w k.calCore })).unmeasured = s.unmeasured := by
  simp only [State.updCore, State.unmeasured]
  congr 1
  ext i hi : 1
  rcases Nat.decEq c.val i with ne | rfl <;> simp [*]

theorem State.unmeasured_scheduleFull (s : State) (q : Nat) : (s.scheduleFull q).unmeasured = s.unmeasured := by
  unfold State.scheduleFull
  dsimp only
  split
  · rfl
  · exact State.unmeasured_updCalCore s (plyCore q) (fun l => l ++ [{ verify := true, emask := s.ownedEngines (plyCore q) (q % 8), ply := q % 8 }])

theorem State.assayPly_scheduleFull (s : State) (q j : Nat) : (s.scheduleFull q).assayPly j = s.assayPly j := by
  unfold State.scheduleFull
  dsimp only
  split <;> rfl

/-- A ply's record after a trigger. -/
def State.triggered (s : State) (q : Nat) (full : Bool) (a : AssayPly) : AssayPly :=
  { a with
    meas := if a.meas.active then a.meas else { active := true, t0 := s.plyTemp q }
    fullRun := a.fullRun || full }

theorem State.triggered_active (s : State) (q : Nat) (full : Bool) (a : AssayPly) : (s.triggered q full a).meas.active = true := by
  unfold State.triggered
  dsimp only
  split
  · assumption
  · rfl

theorem State.triggered_ne (s : State) (q : Nat) (full : Bool) (a : AssayPly) : s.triggered q full a ≠ {} := fun h => by
  have active := s.triggered_active q full a
  rw [h] at active
  exact absurd active (by decide)

/-- While Assay acts, a trigger of a ply it can measure is this change, and a full run scheduled when one starts. -/
theorem State.trigger_acting (acts : s.assayActs = true) (cal : s.calPly q = true) (full : Bool) : s.trigger q full =
    (let t := (s.wakeEvent false).updAssay q (s.triggered q full)
     if full && !(s.assayPly q).fullRun then t.scheduleFull q else t) := by
  simp only [State.trigger, cal, acts, Bool.not_true, Bool.false_eq_true, if_false]
  rfl

theorem State.trigger_unmeasured (acts : s.assayActs = true) (q : Nat) (full : Bool) : (s.trigger q full).unmeasured = s.unmeasured := by
  cases cal : s.calPly q with
  | false => simp [State.trigger, cal]
  | true =>
    obtain ⟨p, woken⟩ := s.wakeEvent_eq false
    rw [State.trigger_acting acts cal, woken]
    dsimp only
    split
    · exact State.unmeasured_scheduleFull ..
    · rfl

theorem State.trigger_assayPly (acts : s.assayActs = true) (cal : s.calPly q = true) (full : Bool) (j : Nat) :
    (s.trigger q full).assayPly j = if j = q then s.triggered q full (s.assayPly q) else s.assayPly j := by
  have woken (j : Nat) : (s.wakeEvent false).assayPly j = s.assayPly j := by
    obtain ⟨p, h⟩ := s.wakeEvent_eq false
    rw [h]
    rfl
  have record := State.assayPly_updAssay (s := s.wakeEvent false) (q := q) (State.triggered_ne s q full _) j
  rw [woken, woken] at record
  rw [State.trigger_acting acts cal]
  dsimp only
  split
  · exact (State.assayPly_scheduleFull ..).trans record
  · exact record

theorem State.assayActs_of_unmeasured (h : t.unmeasured = s.unmeasured) : t.assayActs = s.assayActs := by
  have en := congrArg (fun u : State => u.assay.en) h
  have boot := congrArg State.boot h
  have house := congrArg State.house h
  simp only [State.unmeasured] at en boot house
  simp only [State.assayActs, State.houseRuns, en, boot, house]

theorem State.calPly_of_unmeasured (h : t.unmeasured = s.unmeasured) (q : Nat) : t.calPly q = s.calPly q := by
  have plies := congrArg State.plies h
  have shape := congrArg State.shape h
  have core := congrArg (fun u : State => u.cores[(plyCore q).val]) h
  simp only [State.unmeasured, Vector.getElem_map] at plies shape core
  have mg := congrArg Core.fencedMg core
  have logic := congrArg Core.fencedLogic core
  simp only [State.calPly, State.plyRec, State.usable, State.coreBit, plies, shape, Fin.getElem_fin]
  rw [show t.cores[(plyCore q).val].fencedMg = s.cores[(plyCore q).val].fencedMg from mg,
    show t.cores[(plyCore q).val].fencedLogic = s.cores[(plyCore q).val].fencedLogic from logic]

theorem State.sameBytes_of_unmeasured (h : t.unmeasured = s.unmeasured) : s.sameBytes t := fun a => by
  have mem := congrArg State.mem h
  simp only [State.unmeasured] at mem
  rw [mem]

/-! ### The triggers -/

/-- A ply's record once its condition has fired. -/
def AssayPly.fire (full : Bool) (a : AssayPly) : AssayPly := if full then { a with firedFull := true } else { a with firedAge := true }

theorem AssayPly.fire_ne (full : Bool) (a : AssayPly) : a.fire full ≠ {} := fun h => by
  cases full
  · exact absurd (congrArg AssayPly.firedAge h) Bool.noConfusion
  · exact absurd (congrArg AssayPly.firedFull h) Bool.noConfusion

theorem ageTrigger_fires (fires : (if full then (s.assayPly q).firedFull else (s.assayPly q).firedAge) = false)
    (reached : s.ageReached q full = true) {ply : Fin 8192} (at_ : ply.val = q) : exec (.ageTrigger ply full) s =
      .next ((s.updAssay q (AssayPly.fire full)).trigger q full) := by
  subst at_
  refine congrArg Host.Outcome.next ?_
  simp only [fires, reached, Bool.not_true, Bool.or_self, Bool.false_eq_true, if_false]
  rfl

theorem ageTrigger_acting {ply : Fin 8192} (cal : s.calPly ply.val = true)
    (fires : (if full then (s.assayPly ply.val).firedFull else (s.assayPly ply.val).firedAge) = false)
    (reached : s.ageReached ply.val full = true) (acts : s.assayActs = true) : ∃ t, exec (.ageTrigger ply full) s = .next t ∧
      (t.assayPly ply.val).meas.active = true ∧ (full = true → (t.assayPly ply.val).fullRun = true ∧ (t.assayPly ply.val).firedFull = true) ∧
      (full = false → (t.assayPly ply.val).firedAge = true) ∧ s.sameBytes t := by
  have record := State.trigger_assayPly (s := s.updAssay ply.val (AssayPly.fire full)) (q := ply.val) acts cal full ply.val
  rw [if_pos rfl, State.assayPly_updAssay (AssayPly.fire_ne full _), if_pos rfl] at record
  refine ⟨_, ageTrigger_fires fires reached rfl, ?_, fun isFull => ⟨?_, ?_⟩, fun isAge => ?_,
    State.sameBytes_of_unmeasured (s := s) ((State.trigger_unmeasured (s := s.updAssay ply.val (AssayPly.fire full)) acts ply.val full).trans rfl)⟩
  all_goals rw [record]
  · exact State.triggered_active ..
  · simp [State.triggered, isFull]
  · simp [State.triggered, AssayPly.fire, isFull]
  · simp [State.triggered, AssayPly.fire, isAge]

theorem ageTrigger_held {ply : Fin 8192} (cal : s.calPly ply.val = true)
    (fires : (if full then (s.assayPly ply.val).firedFull else (s.assayPly ply.val).firedAge) = false)
    (reached : s.ageReached ply.val full = true) (rests : s.assayActs = false) : ∃ t, exec (.ageTrigger ply full) s = .next t ∧
      (ply.val, full) ∈ t.assay.held ∧ (t.assayPly ply.val).meas = (s.assayPly ply.val).meas ∧ t.cores = s.cores ∧ s.sameBytes t := by
  let u := s.updAssay ply.val (AssayPly.fire full)
  have record : (u.assayPly ply.val).meas = (s.assayPly ply.val).meas := by
    rw [State.assayPly_updAssay (AssayPly.fire_ne full _), if_pos rfl]
    cases full <;> rfl
  have held : u.trigger ply.val full = if u.assay.held.contains (ply.val, full) then u
      else { u with assay := { u.assay with held := u.assay.held ++ [(ply.val, full)] } } := by
    rw [State.trigger, show u.calPly ply.val = true from cal, show u.assayActs = false from rests]
    rfl
  refine ⟨_, ageTrigger_fires fires reached rfl, ?_⟩
  rw [show (s.updAssay ply.val (AssayPly.fire full)).trigger ply.val full = _ from held]
  split
  · next known => exact ⟨by simpa using known, record, rfl, fun _ => rfl⟩
  · exact ⟨by simp, record, rfl, fun _ => rfl⟩

/-! ### FORCE and EN -/

/-- Triggers while Assay acts leave the rest of the state. -/
theorem foldl_trigger_unmeasured (l : List (Nat × Bool)) : ∀ s : State, s.assayActs = true →
    (l.foldl (fun s h => s.trigger h.1 h.2) s).unmeasured = s.unmeasured := by
  induction l with
  | nil => exact fun _ _ => rfl
  | cons h l ih =>
    intro s acts
    have once := State.trigger_unmeasured acts h.1 h.2
    exact (ih (s.trigger h.1 h.2) ((State.assayActs_of_unmeasured once).trans acts)).trans once

/-- A light measurement of the ply is active, and a full run asked for. -/
def State.Forced (s : State) (q : Nat) : Prop := (s.assayPly q).meas.active = true ∧ (s.assayPly q).fullRun = true

theorem State.trigger_forces (acts : s.assayActs = true) (cal : s.calPly q = true) : (s.trigger q true).Forced q := by
  rw [State.Forced, State.trigger_assayPly acts cal, if_pos rfl]
  exact ⟨State.triggered_active .., by simp [State.triggered]⟩

theorem State.trigger_keeps_forced (acts : s.assayActs = true) (forced : s.Forced q) (r : Nat) : (s.trigger r true).Forced q := by
  cases cal : s.calPly r with
  | false => simpa [State.trigger, cal] using forced
  | true =>
    by_cases same : q = r
    · subst same
      exact State.trigger_forces acts cal
    · rw [State.Forced, State.trigger_assayPly acts cal, if_neg same]
      exact forced

theorem foldl_trigger_keeps_forced (l : List (Nat × Bool)) (every : ∀ h ∈ l, h.2 = true) : ∀ s : State, s.assayActs = true →
    s.Forced q → (l.foldl (fun s h => s.trigger h.1 h.2) s).Forced q := by
  induction l with
  | nil => exact fun _ _ forced => forced
  | cons h l ih =>
    intro s acts forced
    refine ih (fun g mem => every g (List.mem_cons_of_mem _ mem)) _
      ((State.assayActs_of_unmeasured (State.trigger_unmeasured acts ..)).trans acts) ?_
    show (s.trigger h.1 h.2).Forced q
    rw [every h List.mem_cons_self]
    exact State.trigger_keeps_forced acts forced h.1

theorem foldl_trigger_forces (l : List (Nat × Bool)) (every : ∀ h ∈ l, h.2 = true) (mem : (q, true) ∈ l) : ∀ s : State,
    s.assayActs = true → s.calPly q = true → (l.foldl (fun s h => s.trigger h.1 h.2) s).Forced q := by
  induction l with
  | nil => exact absurd mem List.not_mem_nil
  | cons h l ih =>
    intro s acts cal
    have once := State.trigger_unmeasured acts h.1 h.2
    have acts' := (State.assayActs_of_unmeasured once).trans acts
    have later := fun g (m : g ∈ l) => every g (List.mem_cons_of_mem _ m)
    rcases List.mem_cons.mp mem with rfl | rest
    · exact foldl_trigger_keeps_forced l later _ acts' (State.trigger_forces acts cal)
    · exact ih later rest _ acts' ((State.calPly_of_unmeasured once q).trans cal)

theorem State.asForce_eq (s : State) : s.asForce =
    ((s.pliesWhere (fun r => r.owner.isSome)).map (fun q => (q, true))).foldl (fun s h => s.trigger h.1 h.2) s := by
  rw [State.asForce, List.foldl_map]

theorem asForce_forces (s : State) : ∃ t, exec .asCtrlForce s = .next t ∧ s.sameBytes t ∧
    (s.assayActs = true → ∀ q ∈ s.pliesWhere (fun r => r.owner.isSome), s.calPly q = true →
      (t.assayPly q).meas.active = true ∧ (t.assayPly q).fullRun = true) := by
  refine ⟨s.asForce, rfl, State.SameMem.sameBytes ?_, fun acts q owned cal => ?_⟩
  · exact foldl_keeps State.mem (fun s q => (s.trigger_moves q true).mem) _ _
  · rw [State.asForce_eq]
    exact foldl_trigger_forces _ (by simp) (by simpa using owned) s acts cal

theorem asCtrlEn_off (s : State) : exec (.asCtrlEn false) s = .next { s with assay := { s.assay with en := false } } := by
  refine congrArg Host.Outcome.next ?_
  simp [State.asEnable, State.releaseHeld, State.assayActs]

theorem asCtrlEn_on (s : State) : ∃ t, exec (.asCtrlEn true) s = .next t ∧ t.assay.en = true ∧
    (s.houseRuns = true → t.assay.held = []) ∧ s.sameBytes t := by
  let u : State := { s with assay := { s.assay with en := true } }
  have runs : u.assayActs = s.houseRuns := rfl
  have on : s.asEnable true = u.releaseHeld := rfl
  refine ⟨s.asEnable true, rfl, ?_⟩
  cases acts : s.houseRuns with
  | false =>
    rw [on, State.releaseHeld, runs, acts]
    exact ⟨rfl, fun h => absurd h Bool.noConfusion, fun _ => rfl⟩
  | true =>
    let v : State := { u with assay := { u.assay with held := [] } }
    have kept := foldl_trigger_unmeasured u.assay.held v (runs.trans acts)
    have started : u.releaseHeld = u.assay.held.foldl (fun s h => s.trigger h.1 h.2) v := by
      rw [State.releaseHeld, runs, acts]
      rfl
    rw [on, started]
    have en := congrArg (fun w : State => w.assay.en) kept
    have held := congrArg (fun w : State => w.assay.held) kept
    exact ⟨en, fun _ => held, State.sameBytes_of_unmeasured (s := v) kept⟩

end

/-- Settles O33. -/
theorem assayTriggers : Obligations.AssayTriggers := by
  intro s ply full
  refine ⟨fun cal fires reached => ⟨ageTrigger_acting cal fires reached, ageTrigger_held cal fires reached⟩, fun idle => ?_,
    asForce_forces s, asCtrlEn_off s, asCtrlEn_on s⟩
  refine congrArg Host.Outcome.next (if_pos ?_)
  simpa using idle

/-! ### The end of a conversion (13.R353 to R360) -/

/-- The state but for what dealing an entry writes: the converters' progress, the counts of the entries, and the taps. -/
def State.undealt (s : State) : State :=
  { s with monitor := { results := s.monitor.results, powered := s.monitor.powered }, cores := Vector.replicate 64 {} }

/-- Only what dealing an entry writes has changed; the result registers are as they were. -/
def State.SameResults (s t : State) : Prop := t.undealt = s.undealt

section

variable {s t u : State}

theorem State.SameResults.refl (s : State) : s.SameResults s := rfl

theorem State.SameResults.trans (h : s.SameResults t) (k : t.SameResults u) : s.SameResults u := Eq.trans k h

theorem State.SameResults.results (h : s.SameResults t) : t.monitor.results = s.monitor.results := by
  have parts := congrArg (fun u : State => u.monitor.results) h
  exact parts

theorem State.SameResults.powered (h : s.SameResults t) : t.monitor.powered = s.monitor.powered := by
  have parts := congrArg (fun u : State => u.monitor.powered) h
  exact parts

theorem State.SameResults.power (h : s.SameResults t) : t.power = s.power := by
  have parts := congrArg State.power h
  exact parts

theorem State.SameResults.mem (h : s.SameResults t) : t.mem = s.mem := by
  have parts := congrArg State.mem h
  exact parts

theorem State.SameResults.startConversion (h : s.SameResults t) (am1 : Bool) (entry reg : Nat) :
    s.SameResults (t.startConversion am1 entry reg) := by
  refine h.trans ?_
  unfold State.startConversion
  dsimp only
  split <;> split <;> rfl

theorem State.dealDual_results (s : State) (am1 : Bool) : s.SameResults (s.dealDual am1) := by
  unfold State.dealDual
  dsimp only
  split
  · exact State.SameResults.startConversion rfl ..
  · split
    · exact .refl s
    · split
      · exact State.SameResults.startConversion rfl ..
      · exact .refl s

theorem State.dealIlv_results (s : State) (am1 : Bool) : s.SameResults (s.dealIlv am1) := by
  unfold State.dealIlv
  dsimp only
  split
  · exact .refl s
  · split
    · exact State.SameResults.startConversion rfl ..
    · split
      · exact State.SameResults.startConversion rfl ..
      · exact .refl s

theorem State.deal_results (s : State) (am1 : Bool) : s.SameResults (s.deal am1) := by
  cases am1
  all_goals
    simp only [State.deal, Bool.false_eq_true, if_false, if_true]
    split
    · exact .refl s
    · split
      · exact s.dealIlv_results _
      · exact s.dealDual_results _

theorem State.dealBoth_results (s : State) : s.SameResults s.dealBoth := by
  have dealt := (s.deal_results false).trans ((s.deal false).deal_results true)
  unfold State.dealBoth
  dsimp only
  split
  · exact dealt.trans rfl
  · exact dealt

theorem clampInt_fst (lo hi v : Int) (h : lo ≤ hi) : (clampInt lo hi v).1 = max lo (min hi v) := by
  unfold clampInt
  split
  · omega
  · split
    · show hi = _
      omega
    · show v = _
      omega

theorem clampInt_clips (lo hi v : Int) : (clampInt lo hi v).1 ≠ v ↔ v < lo ∨ hi < v := by
  unfold clampInt
  split
  · show lo ≠ v ↔ _
    omega
  · split
    · show hi ≠ v ↔ _
      omega
    · simp only [ne_eq, not_true_eq_false, false_iff]
      omega

/-- The result of a source without a tap is written to its register, and nothing is renewed from it but temperatures. -/
theorem State.writeResult_supply {cv : Converting} (source : 88 ≤ cv.source) (s : State) (raw : Int) : s.writeResult cv raw =
    { s with
      fresh := s.fresh + 1
      monitor := { s.monitor with
        results := updN s.monitor.results cv.reg (fun _ => resultOf s.draw.2 cv raw cv.valid)
        clip := s.monitor.clip || (resultOf s.draw.2 cv raw cv.valid).clip } } := by
  have noTap : ¬ cv.source < 64 := by omega
  have noTemp : ¬ cv.source < 88 := by omega
  simp only [State.writeResult, noTap, noTemp, if_false, and_false]
  rfl

theorem conversionEnd_discarded {cv : Converting} {raw : Int} (am0 : s.monitor.am0 = some cv) (discard : cv.discard = true) :
    ∃ t, exec (.monitorConversionEnd false raw) s = .next t ∧ t.monitor.results = s.monitor.results ∧ s.sameBytes t := by
  let u : State := { s with monitor := { s.monitor with am0 := none } }
  have run : exec (.monitorConversionEnd false raw) s = .next u.dealBoth := congrArg Host.Outcome.next (by
    simp only [am0, discard, if_true, Bool.false_eq_true, if_false]
    rfl)
  exact ⟨_, run, u.dealBoth_results.results, State.SameMem.sameBytes u.dealBoth_results.mem⟩

theorem conversionEnd_written {cv : Converting} {raw : Int} {n : Fin 32} (am0 : s.monitor.am0 = some cv) (source : 88 ≤ cv.source)
    (reg : cv.reg = n.val) (kept : cv.discard = false) : ∃ t, exec (.monitorConversionEnd false raw) s = .next t ∧
      t.monitor.results[n] = resultOf s cv raw cv.valid ∧
      (∀ m : Fin 32, m ≠ n → t.monitor.results[m] = s.monitor.results[m]) ∧ s.sameBytes t := by
  let u : State := { s with monitor := { s.monitor with am0 := none } }
  have run : exec (.monitorConversionEnd false raw) s = .next (u.writeResult cv raw).dealBoth := congrArg Host.Outcome.next (by
    simp only [am0, kept, Bool.false_eq_true, if_false]
    rfl)
  have results := (u.writeResult cv raw).dealBoth_results.results
  have mem := (u.writeResult cv raw).dealBoth_results.mem
  have written := u.writeResult_supply source raw
  have here : (u.writeResult cv raw).dealBoth.monitor.results = updN s.monitor.results n.val (fun _ => resultOf s cv raw cv.valid) := by
    rw [results, written, ← reg]
    rfl
  refine ⟨_, run, ?_, fun m other => ?_, State.SameMem.sameBytes (mem.trans (by rw [written]))⟩
  · simp only [here, Fin.getElem_fin, getElem_updN, if_true]
  · have ne : n.val ≠ m.val := fun h => other (Fin.ext h.symm)
    simp only [here, Fin.getElem_fin, getElem_updN, ne, if_false]

end

/-- Settles O36. -/
theorem conversionEnds : Obligations.ConversionEnds := by
  intro s cv raw n am0 source reg
  refine ⟨fun kept => ?_, fun discard => conversionEnd_discarded am0 discard⟩
  obtain ⟨t, run, result, others, bytes⟩ := conversionEnd_written (raw := raw) am0 source reg kept
  have noTap : ¬ cv.source < 64 := by omega
  have plain : resultOf s cv raw cv.valid = { (resultOf s cv raw cv.valid) with
      pass := s.monitor.pass
      source := cv.source
      fresh := true
      valid := cv.valid
      clip := decide (raw < 0 ∨ 4095 < raw)
      code := max 0 (min 4095 raw) } := by
    simp only [resultOf, noTap, decide_false, Bool.false_eq_true, if_false, clampInt_fst 0 4095 raw (by decide)]
    congr 1
    have clips := clampInt_clips 0 4095 raw
    rw [clampInt_fst 0 4095 raw (by decide)] at clips
    exact decide_eq_decide.mpr clips
  rw [plain] at result
  refine ⟨t, run, ?_, ?_, ?_, ?_, ?_, ?_, others, bytes⟩ <;> rw [result]

end Sys2Proof.Machine
end

section
/-!
PROOF. Power (chapter 16): O59.
-/

namespace Sys2Proof.Machine

set_option Elab.async false

section

variable {s t : State}

/-! ### The governor and the written limits -/

theorem bit_toNat {w : Nat} (v : BitVec w) (i : Nat) : bit v.toNat i = v.getLsbD i := by
  simp only [bit, BitVec.getLsbD, Nat.testBit_eq_decide_div_mod_eq]
  rfl

theorem govern_above {fused : Nat} {p : Power} (above : shortLimit fused p < p.p100) :
    (govern fused p).capEff = max 16 (p.capEff - (p.capEff + 7) / 8) ∧
      (govern fused p).vddcSet = max p.vddcMin (p.vddcSet - 2) := by
  simp [govern, above, ceilDiv]

/-- The governor moves the levers alone. -/
theorem govern_kept (fused : Nat) (p : Power) : (govern fused p).estimates = p.estimates ∧ (govern fused p).avg = p.avg ∧
    (govern fused p).p100 = p.p100 ∧ (govern fused p).p1s = p.p1s := by
  unfold govern
  dsimp only
  split
  · exact ⟨rfl, rfl, rfl, rfl⟩
  · split <;> exact ⟨rfl, rfl, rfl, rfl⟩

theorem creditStep_eq (p : Power) : ∃ c, creditStep p = { p with credit := c } := by
  unfold creditStep
  split <;> exact ⟨_, rfl⟩

theorem powerEstimate_takes (s : State) (events leakage : Nat) :
    let es := ((events + leakage) :: s.power.estimates).take 10
    let p100 := partOf es.sum 10
    let avg := s.power.avg + p100 - partOf s.power.avg 100000
    let p := creditStep (takeEstimate s.power (events + leakage))
    ∃ t, exec (.powerEstimate events leakage) s = .next t ∧ t.power.estimates = es ∧ t.power.avg = avg ∧
      t.power.p100 = min p100 0xFFFF ∧ t.power.p1s = min (partOf avg 100000) 0xFFFF ∧
      (s.power.throttling = true → t.power.capEff = 16 ∧ t.power.vddcSet = s.power.vddcMin ∧
        t.power.whEff = partOf s.power.whCeil 4) ∧
      (s.power.throttling = false → shortLimit s.fuses.powerLimit p < t.power.p100 →
        t.power.capEff = max 16 (s.power.capEff - (s.power.capEff + 7) / 8) ∧
        t.power.vddcSet = max s.power.vddcMin (s.power.vddcSet - 2)) ∧
      t = { s with power := t.power } := by
  intro es p100 avg p
  obtain ⟨c, credit⟩ := creditStep_eq (takeEstimate s.power (events + leakage))
  have sum : p100 = partOf (es.foldl (fun a e => a + e) 0) 10 := by rw [← List.sum_eq_foldl]
  have taken : p = { s.power with
      estimates := es
      avg := avg
      p100 := min p100 0xFFFF
      p1s := min (partOf avg 100000) 0xFFFF
      credit := c } := by
    simp only [p, credit, takeEstimate, avg, sum]
    rfl
  have kept (q : Power) : (if q.throttling then throttled q else govern s.fuses.powerLimit q).estimates = q.estimates ∧
      (if q.throttling then throttled q else govern s.fuses.powerLimit q).avg = q.avg ∧
      (if q.throttling then throttled q else govern s.fuses.powerLimit q).p100 = q.p100 ∧
      (if q.throttling then throttled q else govern s.fuses.powerLimit q).p1s = q.p1s := by
    split
    · exact ⟨rfl, rfl, rfl, rfl⟩
    · exact govern_kept ..
  obtain ⟨kEst, kAvg, kP100, kP1s⟩ := kept p
  refine ⟨_, rfl, kEst.trans (by rw [taken]), kAvg.trans (by rw [taken]), kP100.trans (by rw [taken]), kP1s.trans (by rw [taken]),
    fun throttling => ?_, fun free over_ => ?_, rfl⟩
  · have on : p.throttling = true := by rw [taken]; exact throttling
    show (if p.throttling then throttled p else _).capEff = _ ∧ (if p.throttling then throttled p else _).vddcSet = _ ∧
      (if p.throttling then throttled p else _).whEff = _
    rw [if_pos on, taken]
    exact ⟨rfl, rfl, rfl⟩
  · have off : ¬ p.throttling = true := by rw [taken]; simp [free]
    have above : shortLimit s.fuses.powerLimit p < p.p100 := lt_of_lt_of_eq over_ kP100
    obtain ⟨cap, vddc⟩ := govern_above above
    show (if p.throttling then throttled p else govern s.fuses.powerLimit p).capEff = _ ∧
      (if p.throttling then throttled p else govern s.fuses.powerLimit p).vddcSet = _
    rw [if_neg off, cap, vddc, taken]
    exact ⟨rfl, rfl⟩

theorem State.writeProfile_power (s : State) (g4En burstEn profileP : Bool) : (s.writeProfile g4En burstEn profileP).power.profileP = profileP ∧
    (s.writeProfile g4En burstEn profileP).power.burstEn = burstEn ∧ (s.writeProfile g4En burstEn profileP).power.g4En = g4En ∧
    (s.writeProfile g4En burstEn profileP).power.whCeil = if profileP then 768 else 250 := by
  have held (p : Power) : (holdLevers p).profileP = p.profileP ∧ (holdLevers p).burstEn = p.burstEn ∧ (holdLevers p).g4En = p.g4En ∧
      (holdLevers p).whCeil = p.whCeil := by
    unfold holdLevers
    split <;> exact ⟨rfl, rfl, rfl, rfl⟩
  have capped (t : State) (v : Nat) : (t.writeCap v).power.profileP = t.power.profileP ∧ (t.writeCap v).power.burstEn = t.power.burstEn ∧
      (t.writeCap v).power.g4En = t.power.g4En := by
    unfold State.writeCap
    dsimp only
    split <;> exact ⟨rfl, rfl, rfl⟩
  unfold State.writeProfile
  simp only [State.writeWhCeil, held, capped]
  cases profileP <;> exact ⟨rfl, rfl, rfl, rfl⟩

theorem pwProfileWrite_writes (s : State) (v : W32) : ∃ t, exec (.pwProfileWrite v) s = .next t ∧ t.power.profileP = v.getLsbD 0 ∧
    t.power.burstEn = v.getLsbD 2 ∧ t.power.g4En = v.getLsbD 3 ∧ t.power.whCeil = (if v.getLsbD 0 then 768 else 250) ∧ s.sameBytes t := by
  obtain ⟨p, b, g, w⟩ := s.writeProfile_power (bit v.toNat 3) (bit v.toNat 2) (bit v.toNat 0)
  simp only [bit_toNat] at p b g w
  refine ⟨_, rfl, ?_, ?_, ?_, ?_, State.SameMem.sameBytes (State.SameMem.writeProfile (.refl s))⟩ <;> rw [bit_toNat, bit_toNat, bit_toNat]
  · exact p
  · exact b
  · exact g
  · exact w

theorem pwForceWrite_writes (s : State) (v : W32) : ∃ t, exec (.pwForceWrite v) s = .next t ∧ t.power.forceEn = v.getLsbD 31 ∧
    t.power.forceState = min (v.toNat % 8) 4 ∧ s.sameBytes t := by
  have en : bit v.toNat 31 = v.getLsbD 31 := bit_toNat v 31
  have low : bits v.toNat 0 3 = v.toNat % 8 := by simp [bits]
  refine ⟨_, rfl, ?_, ?_, State.SameMem.sameBytes (State.SameMem.writeForce (.refl s))⟩
  · rw [← en]
    simp only [State.writeForce]
    split
    · simp only [State.startWake]; split <;> rfl
    · rfl
  · rw [← low]
    simp only [State.writeForce]
    split
    · simp only [State.startWake]; split <;> rfl
    · rfl

/-! ### Sleep -/

theorem Memory.byte_keep (p : Nat → Bool) (m : Memory) (a : Nat) : Memory.byte (NatMap.keep p m) a = if p a then m.byte a else 0 :=
  NatMap.get_keep 0 p a m

theorem sleepEntryDone_enters {g : Nat} (unasked : s.mgmt.waiting = none) (entering : s.power.entering = some g) :
    ∃ t, exec .sleepEntryDone s = .next t ∧ t.power.cur = g ∧ t.power.entering = none ∧
      (g = 3 → ∀ a, a / 2 ^ 44 = 1 → t.mem.byte a = 0) ∧
      (g = 4 → (∀ a, a / 2 ^ 44 = 0 → t.mem.byte a = 0) ∧ ∀ m : Fin 16, t.models[m].st ≠ .resident) := by
  have enters : s.enterSleep = s.sleepIn g := by rw [State.enterSleep, entering]
  have waiting : (s.sleepIn g).mgmt.waiting = none := by
    unfold State.sleepIn
    dsimp only
    split <;> exact unasked
  have run : exec .sleepEntryDone s = .next (s.sleepIn g) := by
    refine congrArg Host.Outcome.next ?_
    rw [enters, State.runWaiting, waiting]
  refine ⟨_, run, ?_, ?_, ?_, ?_⟩
  · unfold State.sleepIn
    dsimp only
    split <;> rfl
  · unfold State.sleepIn
    dsimp only
    split <;> rfl
  · rintro rfl a core
    show Memory.byte (NatMap.keep (fun a => a / 2 ^ 44 ≠ 1) s.mem) a = 0
    rw [Memory.byte_keep, if_neg (by simpa [-Nat.reducePow] using core)]
  · rintro rfl
    refine ⟨fun a wh => ?_, fun m => ?_⟩
    · show Memory.byte (NatMap.keep (fun a => a / 2 ^ 44 ≠ 0) s.mem) a = 0
      rw [Memory.byte_keep, if_neg (by simpa [-Nat.reducePow] using wh)]
    · show (s.models.map (fun m => if m.st = .resident then { m with st := .dormant } else m))[m].st ≠ _
      simp only [Fin.getElem_fin, Vector.getElem_map]
      split
      · exact ModelState.noConfusion
      · assumption

/-! ### The return to A -/

/-- The device is in state A, no return begins, the converters have power, and no management request waits. -/
structure State.Awake (s : State) : Prop where
  cur : s.power.cur = 0
  waking : s.power.waking = false
  powered : s.monitor.powered = true
  unasked : s.mgmt.waiting = none

theorem State.Awake.wakeEvent (h : s.Awake) (strong : Bool) : (s.wakeEvent strong).Awake := by
  obtain ⟨cur, waking, powered, unasked⟩ := h
  unfold State.wakeEvent State.startWake
  dsimp only
  split
  · exact ⟨cur, waking, powered, unasked⟩
  · split
    · exact ⟨cur, waking, powered, unasked⟩
    · exact ⟨cur, by simp [cur], powered, unasked⟩

theorem State.Awake.trigger (h : s.Awake) (q : Nat) (full : Bool) : (s.trigger q full).Awake := by
  unfold State.trigger
  split
  · exact h
  · split
    · split <;> exact ⟨h.cur, h.waking, h.powered, h.unasked⟩
    · have woken := h.wakeEvent false
      dsimp only
      split
      · unfold State.scheduleFull
        dsimp only
        split <;> exact ⟨woken.cur, woken.waking, woken.powered, woken.unasked⟩
      · exact ⟨woken.cur, woken.waking, woken.powered, woken.unasked⟩

theorem State.Awake.powerTrigger (h : s.Awake) : s.powerTrigger.Awake :=
  List.foldlRecOn _ _ h fun t kept q _ => by
    have marked : (t.updAssay q (fun a => { a with ageEstimate := true })).Awake :=
      ⟨kept.cur, kept.waking, kept.powered, kept.unasked⟩
    exact marked.trigger q false

theorem State.drainDue_none (none_ : ∀ f ∈ s.port.frames, f.due = false) : s.drainDue = (({ s with port := { s.port with
    frames := s.port.frames.map (fun g => { g with draining := g.draining || g.due, due := false })
    pointWaits := false
    idle := s.port.idle || s.port.idleNext
    idleNext := false } } : State).settleBases) := by
  have clear : s.port.frames.filter (fun f => f.due) = [] := by
    rw [List.filter_eq_nil_iff]
    exact fun f mem => by simp [none_ f mem]
  rw [State.drainDue, clear]
  rfl

theorem State.monTrigger_kept (s : State) : s.monTrigger.monitor.powered = s.monitor.powered ∧ s.monTrigger.power = s.power ∧
    s.monTrigger.mgmt = s.mgmt ∧ s.monTrigger.port = s.port := by
  unfold State.monTrigger
  split
  · exact ⟨rfl, rfl, rfl, rfl⟩
  · split
    · unfold State.monRestart
      have dealt := State.dealBoth_results { s with monitor := { s.monitor with
        pending := false
        run := true
        next := 0
        pass := (s.monitor.pass + 1) % 2 ^ 14
        results := s.monitor.results.map (fun r => { r with fresh := false }) } }
      have mgmt := congrArg State.mgmt dealt
      have port := congrArg State.port dealt
      exact ⟨dealt.powered, dealt.power, mgmt, port⟩
    · exact ⟨rfl, rfl, rfl, rfl⟩

theorem State.monitorOn_awake (cur : s.power.cur = 0) (waking : s.power.waking = false) (unasked : s.mgmt.waiting = none) :
    s.monitorOn.Awake := by
  unfold State.monitorOn
  split
  · next on => exact ⟨cur, waking, on, unasked⟩
  · obtain ⟨powered, power, mgmt, -⟩ := State.monTrigger_kept { s with monitor := { s.monitor with
      powered := true
      entries := s.monitor.entries.map (fun e => if e.source = 127 then e else { e with invalid := max e.invalid (sourceCount e) }) } }
    exact ⟨(congrArg Power.cur power).trans cur, (congrArg Power.waking power).trans waking, powered,
      (congrArg Mgmt.waiting mgmt).trans unasked⟩

theorem State.monitorOn_frames (s : State) : s.monitorOn.port.frames = s.port.frames := by
  unfold State.monitorOn
  split
  · rfl
  · exact congrArg Port.frames (State.monTrigger_kept _).2.2.2

theorem sleepExitDone_leaves (unasked : s.mgmt.waiting = none) (waking : s.power.waking = true) (clear : ∀ f ∈ s.port.frames, f.due = false) :
    ∃ t, exec .sleepExitDone s = .next t ∧ t.power.cur = 0 ∧ t.power.waking = false ∧ t.monitor.powered = true ∧ s.sameBytes t := by
  let u : State := ({ s with power := { s.power with cur := 0, waking := false } } : State).powerEngines
  have on : u.monitorOn.Awake := State.monitorOn_awake rfl rfl unasked
  have drained := State.drainDue_none (s := u.monitorOn) (by rw [State.monitorOn_frames]; exact clear)
  have awake : u.monitorOn.drainDue.Awake := by
    rw [drained]
    exact ⟨on.cur, on.waking, on.powered, on.unasked⟩
  have mem : s.SameMem u.monitorOn.drainDue := by
    rw [drained]
    exact State.SameMem.settleBases (State.SameMem.monitorOn (s₀ := s) (s := u) rfl)
  have left : s.leaveSleep = if decide (s.power.cur = 4) then u.monitorOn.drainDue.powerTrigger else u.monitorOn.drainDue := by
    rw [State.leaveSleep, waking]
    rfl
  obtain ⟨leftAwake, leftMem⟩ : s.leaveSleep.Awake ∧ s.SameMem s.leaveSleep := by
    rw [left]
    split
    · exact ⟨awake.powerTrigger, State.SameMem.powerTrigger mem⟩
    · exact ⟨awake, mem⟩
  have run : exec .sleepExitDone s = .next s.leaveSleep := congrArg Host.Outcome.next (by rw [State.runWaiting, leftAwake.unasked])
  exact ⟨_, run, leftAwake.cur, leftAwake.waking, leftAwake.powered, leftMem.sameBytes⟩

/-! ### TRIP -/

theorem tripExit_leaves {x : Int} (tripped : s.power.inTrip = true) (reading : s.tMax = some x) (cool : x < 100 * (s.power.tAlert : Int)) :
    ∃ t, exec .tripExit s = .next t ∧ t.power.inTrip = false ∧
      (s.port.state = .halted → s.boot = .service → s.commitWaits = false → t.port.state = .ready) ∧ s.sameBytes t := by
  let u : State := { s with power := { s.power with inTrip := false } }
  have run : exec .tripExit s = .next (if u.port.state = .halted ∧ u.boot = .service then
      if u.commitWaits then { u with port := { u.port with state := .updating } }
      else ({ u with port := { u.port with state := .ready } } : State).actRecorded else u) :=
    congrArg Host.Outcome.next (by
      rw [tripped, reading]
      exact if_pos cool)
  refine ⟨_, run, ?_, fun halted service free => ?_, State.SameMem.sameBytes (.ite (.ite rfl (State.SameMem.actRecorded rfl)) rfl)⟩
  · split
    · split
      · rfl
      · unfold State.actRecorded
        split <;> rfl
    · rfl
  · rw [if_pos ⟨halted, service⟩, if_neg (by rw [show u.commitWaits = false from free]; exact Bool.noConfusion)]
    unfold State.actRecorded
    split <;> rfl

/-- The state but for what stopping cores and abandoning Loom instructions writes. -/
def State.standing (s : State) : State :=
  { s with
    cores := Vector.replicate 64 {}
    jobs := []
    capWait := []
    capHeld := []
    progWait := []
    progHeld := []
    port := { s.port with stageQ := [] } }

theorem State.power_of_standing (h : t.standing = s.standing) : t.power = s.power := by
  have parts := congrArg State.power h
  exact parts

theorem State.standing_stopCore (s : State) (c : Fin 64) : (s.stopCore c).standing = s.standing := by
  simp only [State.stopCore, State.discard, State.countSeq, State.count, State.updSeqr, State.updCore, State.standing]

theorem State.standing_endRunning (s : State) (status : Nat) : (s.endRunning status).standing = s.standing := by
  refine foldl_keeps State.standing (fun s j => ?_) _ s
  unfold State.endJob
  split
  · rfl
  · refine (foldl_keeps State.standing (fun s e => ?_) _ _).trans rfl
    split
    · rfl
    · exact s.standing_stopCore _

theorem State.standing_abandonLooms (s : State) : s.abandonLooms.standing = s.standing := by
  refine foldl_keeps State.standing (fun s c => ?_) _ s
  unfold State.abandonLoom
  dsimp only
  split <;> rfl

theorem State.haltPort_power (s : State) : s.haltPort.power = s.power := by
  unfold State.haltPort
  split
  · simp
  · rfl

theorem State.wakeEvent_trip (s : State) (strong : Bool) : (s.wakeEvent strong).power.inTrip = s.power.inTrip ∧
    (s.wakeEvent strong).power.tripped = s.power.tripped ∧ (s.wakeEvent strong).power.alerting = s.power.alerting := by
  unfold State.wakeEvent State.startWake
  dsimp only
  split
  · exact ⟨rfl, rfl, rfl⟩
  · split <;> exact ⟨rfl, rfl, rfl⟩

theorem State.logEvent_power (s : State) (code : Nat) : (s.logEvent code).power = s.power := by
  obtain ⟨m, l, eq⟩ := State.logEvent_eq (s := s) code
  rw [eq]

theorem State.enterTrip_power (cool : s.power.inTrip = false) : s.enterTrip.power.inTrip = true ∧ s.enterTrip.power.tripped = true ∧
    s.enterTrip.power.alerting = s.power.alerting := by
  let u := s.markTrip.endRunning PW_THERMAL_TRIP
  have stands : u.abandonLooms.standing = s.markTrip.standing := u.standing_abandonLooms.trans (State.standing_endRunning ..)
  have halted : ((u.abandonLooms.logEvent PW_THERMAL_TRIP).haltPort).power = s.markTrip.power := by
    rw [State.haltPort_power, State.logEvent_power]
    exact State.power_of_standing stands
  have entered : s.enterTrip = ((u.abandonLooms.logEvent PW_THERMAL_TRIP).haltPort).wakeEvent true := by
    unfold State.enterTrip
    rw [if_neg (by simp [cool])]
  obtain ⟨inTrip, tripped, alerting⟩ := ((u.abandonLooms.logEvent PW_THERMAL_TRIP).haltPort).wakeEvent_trip true
  rw [halted] at inTrip tripped alerting
  rw [entered]
  exact ⟨inTrip, tripped, alerting⟩

theorem sleepComparatorTrip_trips (asleep : 2 ≤ s.power.cur) (cool : s.power.inTrip = false) : ∃ t, exec .sleepComparatorTrip s = .next t ∧
    t.power.inTrip = true ∧ t.power.tripped = true ∧ t.power.alerting = true ∧ s.sameBytes t := by
  let alerted := if s.power.alerting then s
    else ({ s with power := { s.power with alerting := true } } : State).logEvent MG_THERM_ALERT
  obtain ⟨alerting, still, mem⟩ : alerted.power.alerting = true ∧ alerted.power.inTrip = false ∧ s.SameMem alerted := by
    by_cases already : s.power.alerting = true
    · simp only [alerted, already, if_true]
      exact ⟨trivial, cool, State.SameMem.refl s⟩
    · simp only [alerted, already, Bool.false_eq_true, if_false, State.logEvent_power]
      exact ⟨trivial, cool, State.SameMem.logEvent rfl⟩
  obtain ⟨inTrip, tripped, kept⟩ := State.enterTrip_power still
  exact ⟨alerted.enterTrip, congrArg Host.Outcome.next (if_pos asleep), inTrip, tripped, kept.trans alerting,
    (State.SameMem.enterTrip mem).sameBytes⟩

end

/-- Settles O59. -/
theorem powerRows : Obligations.PowerRows := fun s =>
  ⟨powerEstimate_takes s, pwProfileWrite_writes s, pwForceWrite_writes s,
    fun _ ready => congrArg Host.Outcome.next (if_pos ready), fun _ unasked entering => sleepEntryDone_enters unasked entering,
    sleepExitDone_leaves, fun _ tripped reading cool => tripExit_leaves tripped reading cool, sleepComparatorTrip_trips⟩

end Sys2Proof.Machine
end

section
/-!
PROOF. The Stitch links (19.R471 to R476, 20.R490): O55.
-/

namespace Sys2Proof.Machine

set_option Elab.async false

section

variable {s : State} {n : Fin 4}

/-! ### Links of the state -/

theorem State.link_val (s : State) (n : Fin 4) : s.link n.val = s.fabric.links[n] := by
  simp [State.link, getN]

theorem State.links_updLink (s : State) (n m : Fin 4) (f : Link → Link) :
    (s.updLink n.val f).fabric.links[m] = if m = n then f s.fabric.links[m] else s.fabric.links[m] := by
  simp only [State.updLink, Fin.getElem_fin, getElem_updN, Fin.ext_iff, eq_comm]

theorem State.wakeEvent_fabric (s : State) (strong : Bool) : (s.wakeEvent strong).fabric = s.fabric := by
  obtain ⟨p, h⟩ := s.wakeEvent_eq strong
  rw [h]

/-- A link that went down has lost its handshake and what waited; the others are as they were. -/
def Link.downed (l : Link) : Link := { l with st := .down, nonce := [], mySealDigest := [], waiting := [] }

theorem State.links_linkDown (s : State) (n m : Fin 4) :
    (s.linkDown n.val).fabric.links[m] = if m = n then s.fabric.links[m].downed else s.fabric.links[m] := by
  unfold State.linkDown
  dsimp only
  split <;> exact State.links_updLink s n m Link.downed

/-! ### Training -/

theorem State.startTraining_trains (s : State) (n : Fin 4) : (s.startTraining n.val).fabric.links[n].st = .train ∧
    (s.startTraining n.val).fabric.links[n].failed = false ∧ (s.startTraining n.val).fabric.links[n].refused = false ∧
    (s.startTraining n.val).fabric.links[n].fenced = s.fabric.links[n].fenced ∧
    (∀ m : Fin 4, m ≠ n → (s.startTraining n.val).fabric.links[m] = s.fabric.links[m]) ∧ s.SameMem (s.startTraining n.val) := by
  have links (m : Fin 4) : (s.startTraining n.val).fabric.links[m] =
      if m = n then { s.fabric.links[m] with st := .train, failed := false, refused := false } else s.fabric.links[m] := by
    rw [State.startTraining, State.wakeEvent_fabric, State.links_updLink]
  refine ⟨?_, ?_, ?_, ?_, fun m other => ?_, State.SameMem.startTraining (State.SameMem.refl s)⟩
  · rw [links, if_pos rfl]
  · rw [links, if_pos rfl]
  · rw [links, if_pos rfl]
  · rw [links, if_pos rfl]
  · rw [links, if_neg other]

theorem linkTrainingStart_trains (able : s.canTrain = true) (down : s.fabric.links[n].st = .down) (sound : s.fabric.links[n].failed = false)
    (accepted : s.fabric.links[n].refused = false) (free : s.fabric.links[n].fenced = false) :
    exec (.linkTrainingStart n) s = .next (s.startTraining n.val) := by
  refine congrArg Host.Outcome.next (if_pos ?_)
  rw [able, State.link_val, down, sound, accepted, free]
  rfl

theorem linkRetry_trains (able : s.canTrain = true) (down : s.fabric.links[n].st = .down) (failed : s.fabric.links[n].failed = true)
    (free : s.fabric.links[n].fenced = false) : exec (.linkRetry n) s = .next (s.startTraining n.val) := by
  refine congrArg Host.Outcome.next (if_pos ?_)
  rw [able, State.link_val, down, failed, free]
  rfl

theorem linkRejectRetrain_trains (able : s.canTrain = true) (refused : s.fabric.links[n].refused = true)
    (free : s.fabric.links[n].fenced = false) : exec (.linkRejectRetrain n) s = .next (s.startTraining n.val) := by
  refine congrArg Host.Outcome.next (if_pos ?_)
  rw [able, State.link_val, refused, free]
  rfl

theorem linkFenceRetrain_trains (able : s.canTrain = true) (fenced : s.fabric.links[n].fenced = true)
    (few : s.fabric.links[n].fences.length < 3) :
    exec (.linkFenceRetrain n) s = .next ((s.updLink n.val (fun l => { l with fenced := false })).startTraining n.val) := by
  refine congrArg Host.Outcome.next (if_pos ?_)
  rw [able, State.link_val, fenced, decide_eq_true few]
  rfl

theorem State.trained_aligns (few : (inWindow s.timeUs 60000000 s.fabric.links[n].trainings).length < 15) (half : Bool) :
    (s.trained n.val half).fabric.links[n].st = .auth ∧ (s.trained n.val half).fabric.links[n].half = half := by
  have short : ¬ 16 ≤ (s.random32.2.timeUs :: inWindow s.random32.2.timeUs 60000000 (s.random32.2.link n.val).trainings).length := by
    have link : s.random32.2.link n.val = s.fabric.links[n] := State.link_val s n
    rw [link, List.length_cons]
    exact Nat.not_le.mpr (Nat.succ_lt_succ few)
  let aligned (l : Link) : Link := { l with
    st := .auth
    half := half
    nonce := s.random32.1
    retrains := min (l.retrains + 1) 0xFFFF
    trainings := s.random32.2.timeUs :: inWindow s.random32.2.timeUs 60000000 (s.random32.2.link n.val).trainings }
  have result : s.trained n.val half = s.random32.2.updLink n.val aligned := if_neg short
  rw [result, State.links_updLink, if_pos rfl]
  exact ⟨rfl, rfl⟩

theorem linkTrainingDone_run (training : s.fabric.links[n].st = .train) (lanes : LaneResult) : exec (.linkTrainingDone n lanes) s =
    .next (match lanes with
      | .full => s.trained n.val false
      | .half => s.trained n.val true
      | .fewer => (s.linkDown n.val).updLink n.val (fun l => { l with failed := true })) := by
  refine congrArg Host.Outcome.next ((if_neg ?_).trans ?_)
  · rw [State.link_val, training]
    exact fun h => h rfl
  · cases lanes <;> rfl

theorem linkAlignmentLoss_down (s : State) (n : Fin 4) : ∃ t, exec (.linkAlignmentLoss n) s = .next t ∧ t.fabric.links[n].st = .down ∧
    (∀ m : Fin 4, m ≠ n → t.fabric.links[m] = s.fabric.links[m]) ∧ s.sameBytes t := by
  by_cases down : s.fabric.links[n].st = .down
  · refine ⟨s, congrArg Host.Outcome.next (if_pos ?_), down, fun _ _ => rfl, fun _ => rfl⟩
    rw [State.link_val, down]
  · refine ⟨s.linkDown n.val, congrArg Host.Outcome.next (if_neg ?_), ?_, fun m other => ?_,
      (State.SameMem.linkDown (State.SameMem.refl s)).sameBytes⟩
    · rwa [State.link_val]
    · rw [State.links_linkDown, if_pos rfl]
      rfl
    · rw [State.links_linkDown, if_neg other]

/-! ### Authentication and keys -/

theorem State.rekeyLink_of_not_up (notUp : s.fabric.links[n].st ≠ .up) : s.rekeyLink n.val = s := by
  refine if_neg ?_
  simpa [getN] using notUp

theorem linkRekey_rekeys (full : 2 ^ 48 ≤ s.fabric.links[n].txCtr) (up : s.fabric.links[n].st = .up) :
    ∃ t, exec (.linkRekey n) s = .next t ∧ t.fabric.links[n].st = .rekey := by
  have run : exec (.linkRekey n) s = .next (s.rekeyLink n.val) := by
    refine congrArg Host.Outcome.next (if_pos ?_)
    rw [State.link_val]
    exact decide_eq_true full
  have isUp : (getN s.fabric.links n.val {}).st = .up := by simpa [getN] using up
  refine ⟨_, run, ?_⟩
  unfold State.rekeyLink
  rw [if_pos isUp]
  have links := State.links_updLink s.random32.2 n n (fun l => { l with st := .rekey, nonce := s.random32.1 })
  rw [if_pos rfl] at links
  exact congrArg Link.st links

theorem linkChallenge_answers {nonce : List Byte} (runs : s.fabricRuns = true) (busy : s.linksIdle = false) (length : nonce.length = 32)
    (auth : s.fabric.links[n].st = .auth) : ∃ t, exec (.linkChallenge n nonce) s = .next t ∧
      t.fabric.links[n].mySealDigest.length = 64 ∧ t.chouse.sealCtr = (s.chouse.sealCtr + 1) % 2 ^ 64 ∧ s.sameBytes t := by
  have same : s.rekeyLink n.val = s := State.rekeyLink_of_not_up (by rw [auth]; exact LinkState.noConfusion)
  have run : exec (.linkChallenge n nonce) s = .next (s.answerChallenge n.val nonce) := by
    refine congrArg Host.Outcome.next ((if_pos ?_).trans ?_)
    · rw [same, runs, busy, length, State.link_val, auth]
      rfl
    · rw [same]
  refine ⟨_, run, ?_, ?_, (State.SameMem.answerChallenge (State.SameMem.refl s)).sameBytes⟩
  · let keyed := s.random32.2.setKey (16 + n.val) (some { ty := .x25519, bytes := s.random32.1 })
    let body := keyed.buildSeal (x25519Pub s.random32.1) nonce
    have links := State.links_updLink body.2.2 n n (fun l => { l with mySealDigest := body.2.1 })
    rw [if_pos rfl] at links
    have digest : ((s.answerChallenge n.val nonce).fabric.links[n]).mySealDigest = body.2.1 := congrArg Link.mySealDigest links
    rw [digest]
    exact length_sha512 _
  · have kept : (s.random32.2.setKey (16 + n.val) (some { ty := .x25519, bytes := s.random32.1 })).chouse.sealCtr = s.chouse.sealCtr := by
      rw [State.setKey, if_neg (by omega)]
      rfl
    rw [← kept]
    rfl

/-! ### A peer's Seal -/

/-- The state but for what sending frames on a link writes. -/
def State.unsent (s : State) : State :=
  { s with
    pkgEvents := []
    fabric := { s.fabric with links := s.fabric.links.map (fun l => { l with txCtr := 0, sent := [], waiting := [] }) } }

theorem State.unsent_updLink (s : State) (n : Nat) (c : Link → Nat) (f : Link → List (Nat × StitchFrame)) (w : Link → List StitchFrame) :
    (s.updLink n (fun l => { l with txCtr := c l, sent := f l, waiting := w l })).unsent = s.unsent := by
  simp only [State.updLink, State.unsent]
  congr 2
  ext i hi : 1
  simp only [Vector.getElem_map, getElem_updN]
  split <;> rfl

theorem State.unsent_sendOn (s : State) (n : Nat) (f : StitchFrame) : (s.sendOn n f).unsent = s.unsent := by
  unfold State.sendOn
  split
  · exact State.unsent_updLink s n (fun l => l.txCtr + 1) (fun l => ((l.txCtr + 1, f) :: l.sent).take 64) Link.waiting
  · exact State.unsent_updLink s n Link.txCtr Link.sent (fun l => l.waiting ++ [f])

theorem State.unsent_flushLink (s : State) (n : Nat) : (s.flushLink n).unsent = s.unsent :=
  (foldl_keeps State.unsent (fun s f => s.unsent_sendOn n f) _ _).trans
    (State.unsent_updLink s n Link.txCtr Link.sent (fun _ => []))

theorem linkSealReceived_refuses {b dik ca : List Byte} {p : Fin 4} (runs : s.fabricRuns = true) (busy : s.linksIdle = false)
    (auth : s.fabric.links[n].st = .auth) (own : s.fabric.links[n].mySealDigest ≠ []) (bad : s.sealAccepted n.val b dik ca = false) :
    ∃ t, exec (.linkSealReceived n b dik ca p) s = .next t ∧ t.fabric.links[n].st = .down ∧ t.fabric.links[n].refused = true ∧
      t.fabric.links[n].lastCode = FB_SEAL_REJECT := by
  have run : exec (.linkSealReceived n b dik ca p) s = .next (s.refuseLink n.val) := by
    refine congrArg Host.Outcome.next ((if_neg ?_).trans (if_pos ?_))
    · rw [runs, busy, State.link_val, auth]
      simpa using own
    · rw [bad]
      rfl
  refine ⟨_, run, ?_⟩
  have links := State.links_updLink (s.linkDown n.val) n n (fun l => { l with lastCode := FB_SEAL_REJECT, refused := true })
  rw [if_pos rfl, State.links_linkDown, if_pos rfl] at links
  exact ⟨congrArg Link.st links, congrArg Link.refused links, congrArg Link.lastCode links⟩

theorem State.links_of_unsent {t : State} (h : t.unsent = s.unsent) (n : Fin 4) :
    { t.fabric.links[n] with txCtr := 0, sent := [], waiting := [] } =
      { s.fabric.links[n] with txCtr := 0, sent := [], waiting := [] } := by
  have link := congrArg (fun u : State => u.fabric.links[n]) h
  simpa only [State.unsent, Fin.getElem_fin, Vector.getElem_map] using link

theorem State.chouse_of_unsent {t : State} (h : t.unsent = s.unsent) : t.chouse = s.chouse := by
  have parts := congrArg State.chouse h
  exact parts

/-- The link as it has its new keys. -/
def Link.keyed (peer : W64) (peerLink : Nat) (l : Link) : Link := { l with
  st := .up, peerSerial := peer, peerLink := peerLink, txCtr := 0, rxCtr := 0, sent := [], nonce := [], mySealDigest := [], resend := false }

/-- The key slots of a link as it has its new keys. -/
def State.keySlots (s : State) (n : Nat) (ks : List Byte × List Byte) : State :=
  ((s.setKey (8 + n) (some { ty := .aes256, bytes := ks.1 })).setKey (12 + n) (some { ty := .aes256, bytes := ks.2 })).setKey (16 + n) none

theorem State.linkKeyed_keys (s : State) (n : Fin 4) (ks : List Byte × List Byte) (peer : W64) (peerLink : Nat) :
    (s.linkKeyed n.val ks peer peerLink).fabric.links[n].st = .up ∧ (s.linkKeyed n.val ks peer peerLink).fabric.links[n].rxCtr = 0 ∧
      (s.linkKeyed n.val ks peer peerLink).fabric.links[n].peerSerial = peer ∧
      (s.linkKeyed n.val ks peer peerLink).keyIn (16 + n.val) = none := by
  let w := (s.keySlots n.val ks).updLink n.val (Link.keyed peer peerLink)
  let v := if !decide ((s.link n.val).st = .auth) then w
    else { w with fabric := { w.fabric with exchanging := true, ready := w.fabric.ready ||| BitVec.ofNat 4 (2 ^ n.val) } }
  have result : s.linkKeyed n.val ks peer peerLink = v.flushLink n.val := rfl
  have vLinks : v.fabric.links = w.fabric.links := by
    simp only [v]
    split <;> rfl
  have vKeys : v.chouse = (s.keySlots n.val ks).chouse := by
    simp only [v]
    split <;> rfl
  have wLink : w.fabric.links[n] = Link.keyed peer peerLink (s.keySlots n.val ks).fabric.links[n] := by
    rw [State.links_updLink, if_pos rfl]
  have flushed := State.links_of_unsent (v.unsent_flushLink n.val) n
  rw [vLinks, wLink] at flushed
  have st := congrArg Link.st flushed
  have rxCtr := congrArg Link.rxCtr flushed
  have peerSerial := congrArg Link.peerSerial flushed
  have keys : (v.flushLink n.val).chouse = (s.keySlots n.val ks).chouse := (State.chouse_of_unsent (v.unsent_flushLink n.val)).trans vKeys
  refine ⟨st, rxCtr, peerSerial, ?_⟩
  have slots : (v.flushLink n.val).keyIn (16 + n.val) = (s.keySlots n.val ks).keyIn (16 + n.val) := by
    rw [State.keyIn, State.keyIn, keys]
  rw [result, slots]
  exact State.keyIn_setKey _ _ _ (by omega) (by omega)

theorem linkSealReceived_keys {b dik ca : List Byte} {p : Fin 4} {k : Key} (runs : s.fabricRuns = true) (busy : s.linksIdle = false)
    (auth : s.fabric.links[n].st = .auth) (own : s.fabric.links[n].mySealDigest ≠ []) (good : s.sealAccepted n.val b dik ca = true)
    (key : s.keyIn (16 + n.val) = some k) (secret : (x25519 k.bytes ((b.drop 0x60).take 32)).all (· == 0) = false) :
    ∃ t, exec (.linkSealReceived n b dik ca p) s = .next t ∧ t.fabric.links[n].st = .up ∧ t.fabric.links[n].rxCtr = 0 ∧
      t.fabric.links[n].peerSerial = BitVec.ofNat 64 (leAt b 0x10 8) ∧ t.keyIn (16 + n.val) = none ∧ s.sameBytes t := by
  let ks := linkKeys s.fuses.serial.toNat (leAt b 0x10 8) (x25519 k.bytes ((b.drop 0x60).take 32)) (s.link n.val).mySealDigest
    (sha512 (b.take 0x39A0))
  have run : exec (.linkSealReceived n b dik ca p) s =
      .next (s.linkKeyed n.val ks (BitVec.ofNat 64 (leAt b 0x10 8)) p.val) := by
    refine congrArg Host.Outcome.next ((if_neg ?_).trans ((if_neg ?_).trans ?_))
    · rw [runs, busy, State.link_val, auth]
      simpa using own
    · rw [good]
      exact Bool.noConfusion
    · rw [key]
      exact if_neg (by rw [secret]; exact Bool.noConfusion)
  obtain ⟨st, rxCtr, serial, slot⟩ := s.linkKeyed_keys n ks (BitVec.ofNat 64 (leAt b 0x10 8)) p.val
  exact ⟨_, run, st, rxCtr, serial, slot, (State.SameMem.linkKeyed (State.SameMem.refl s)).sameBytes⟩

end

/-- Settles O55. -/
theorem linkRows : Obligations.LinkRows := by
  intro s n
  refine ⟨fun able => ⟨fun down sound accepted free => ?_, fun down failed free => ?_, fun refused free => ?_, fun fenced few => ?_⟩,
    fun training => ⟨fun few p mem => ?_, ?_⟩, linkAlignmentLoss_down s n, fun nonce => linkChallenge_answers,
    fun b dik ca p runs busy auth own => ⟨linkSealReceived_refuses runs busy auth own, fun k => linkSealReceived_keys runs busy auth own⟩,
    linkRekey_rekeys⟩
  · obtain ⟨st, failed, refused, -, others, mem⟩ := s.startTraining_trains n
    exact ⟨_, linkTrainingStart_trains able down sound accepted free, st, failed, refused, others, mem.sameBytes⟩
  · obtain ⟨st, failed', refused, -, others, mem⟩ := s.startTraining_trains n
    exact ⟨_, linkRetry_trains able down failed free, st, failed', refused, others, mem.sameBytes⟩
  · obtain ⟨st, failed, refused', -, others, mem⟩ := s.startTraining_trains n
    exact ⟨_, linkRejectRetrain_trains able refused free, st, failed, refused', others, mem.sameBytes⟩
  · obtain ⟨st, failed, refused, open_, others, mem⟩ := (s.updLink n.val (fun l => { l with fenced := false })).startTraining_trains n
    refine ⟨_, linkFenceRetrain_trains able fenced few, ⟨st, failed, refused, fun m other => ?_, mem.sameBytes⟩, ?_⟩
    · rw [others m other, State.links_updLink, if_neg other]
    · rw [open_, State.links_updLink, if_pos rfl]
  · simp only [List.mem_cons, List.not_mem_nil, or_false] at mem
    rcases mem with rfl | rfl
    · obtain ⟨st, half⟩ := State.trained_aligns few false
      exact ⟨_, linkTrainingDone_run training .full, st, half⟩
    · obtain ⟨st, half⟩ := State.trained_aligns few true
      exact ⟨_, linkTrainingDone_run training .half, st, half⟩
  · refine ⟨_, linkTrainingDone_run training .fewer, ?_⟩
    have links := State.links_updLink (s.linkDown n.val) n n (fun l => { l with failed := true })
    rw [if_pos rfl, State.links_linkDown, if_pos rfl] at links
    exact ⟨congrArg Link.st links, congrArg Link.failed links⟩

end Sys2Proof.Machine
end

section
/-!
PROOF. The fabric (19.R472, R475, R477, R478, R481): O56.
-/

namespace Sys2Proof.Machine

set_option Elab.async false

section

variable {s : State} {n : Fin 4}

/-! ### Member lists -/

theorem memberList_merges (runs : s.fabricRuns = true) (busy : s.linksIdle = false) (id : Fin 8) (ms : List Member)
    (up : s.fabric.links[n].st = .up) : ∃ t, exec (.memberList n id ms) s = .next t ∧
      t.fabric.heard = mergeMembers s.fabric.heard ms ∧ t.fabric.links[n].peerId = id.val ∧ t.fabric.exchanging = true ∧ s.sameBytes t := by
  let u := s.updLink n.val (fun l => { l with peerId := id.val })
  have run : exec (.memberList n id ms) s = .next (({ u with fabric := { u.fabric with
      exchanging := true
      heard := mergeMembers u.fabric.heard ms } } : State).takeReports ms) := by
    refine congrArg Host.Outcome.next (if_neg ?_)
    rw [runs, busy, State.link_val, up]
    exact Bool.noConfusion
  refine ⟨_, run, rfl, ?_, rfl, fun _ => rfl⟩
  have links := State.links_updLink s n n (fun l => { l with peerId := id.val })
  rw [if_pos rfl] at links
  exact congrArg Link.peerId links

theorem memberListStable_settles (runs : s.fabricRuns = true) (exchanging : s.fabric.exchanging = true) :
    ∃ t, exec .memberListStable s = .next t ∧ t.fabric.members = s.settleIds.1 ∧ t.fabric.heard = [] ∧ t.fabric.exchanging = false ∧
      s.sameBytes t := by
  have runsOn : ¬ ((!s.fabricRuns || !s.fabric.exchanging) = true) := by
    rw [runs, exchanging]
    exact Bool.noConfusion
  refine ⟨_, congrArg Host.Outcome.next (if_neg runsOn), ?_⟩
  dsimp only
  split <;> exact ⟨rfl, rfl, rfl, fun _ => rfl⟩

/-! ### Routes -/

theorem routeRewrite_routes (runs : s.fabricRuns = true) (dist : List (Fin 8 × Fin 8 × Nat)) (held : s.fabric.held = []) :
    ∃ t, exec (.routeRewrite dist) s = .next t ∧ (∀ i : Fin 8, t.fabric.routes[i] = s.routeTo dist i.val) ∧
      t.fabric.links = s.fabric.links ∧ s.sameBytes t := by
  have run : exec (.routeRewrite dist) s = .next { s with fabric := { s.fabric with
      routes := Vector.ofFn (fun i => s.routeTo dist i.val)
      held := [] } } := by
    refine congrArg Host.Outcome.next ((if_neg ?_).trans ?_)
    · rw [runs]
      exact Bool.noConfusion
    · dsimp only
      rw [held]
      rfl
  exact ⟨_, run, fun i => by simp, rfl, fun _ => rfl⟩

/-! ### Frames -/

theorem stitchFrameReceive_run {h p tag : List Byte} {k : Key} (busy : s.linksIdle = false) (up : s.fabric.links[n].st = .up)
    (header : h.length = 16) (short : p.length ≤ 256) (whole : p.length % 64 = 0) (tagged : tag.length = 16)
    (key : s.keyIn (12 + n.val) = some k) : exec (.stitchFrameReceive n h p tag) s =
      .next (match gcmOpen k.bytes (leBytes 12 (s.fabric.links[n].rxCtr + 1)) h p tag with
        | some data => s.acceptFrame n.val h data
        | none => s.discardFrame n.val) := by
  refine congrArg Host.Outcome.next ((if_neg ?_).trans ?_)
  · rw [busy, State.link_val, up]
    exact Bool.noConfusion
  · have form : (h.length == 16 && decide (p.length ≤ 256) && p.length % 64 == 0 && tag.length == 16) = true := by
      simp [header, short, whole, tagged]
    cases opened : gcmOpen k.bytes (leBytes 12 (s.fabric.links[n].rxCtr + 1)) h p tag with
    | none => simp only [form, key, State.link_val, opened]
    | some data => simp only [form, key, State.link_val, opened]

theorem State.discardFrame_counts (few : (inWindow s.timeUs 1000000 s.fabric.links[n].discards).length < 1023) :
    (s.discardFrame n.val).fabric.links[n].rxCtr = s.fabric.links[n].rxCtr ∧
      (s.discardFrame n.val).fabric.links[n].errors = min (s.fabric.links[n].errors + 1) 0xFFFF ∧
      (s.discardFrame n.val).fabric.links[n].resend = true ∧ s.SameMem (s.discardFrame n.val) := by
  let counted (l : Link) : Link := { l with
    errors := min (l.errors + 1) 0xFFFF
    resend := true
    discards := s.timeUs :: inWindow s.timeUs 1000000 (s.link n.val).discards }
  have few' : ¬ 1024 ≤ (s.timeUs :: inWindow s.timeUs 1000000 (s.link n.val).discards).length := by
    rw [State.link_val, List.length_cons]
    omega
  have result : s.discardFrame n.val = (s.updLink n.val counted).countPkg (PE_SL_RX_DISCARD + n.val) 1 := if_neg few'
  have links : (s.discardFrame n.val).fabric.links[n] = counted s.fabric.links[n] := by
    rw [result]
    exact (State.links_updLink s n n counted).trans (if_pos rfl)
  rw [links]
  exact ⟨rfl, rfl, rfl, State.SameMem.discardFrame (State.SameMem.refl s)⟩

/-- Frames sent on a link that is up and busy take the next counters. -/
theorem foldl_sendOn_txCtr (n : Fin 4) (l : List (Nat × StitchFrame)) : ∀ s : State, s.linksIdle = false → s.fabric.links[n].st = .up →
    (l.foldl (fun s f => s.sendOn n.val f.2) s).fabric.links[n].txCtr = s.fabric.links[n].txCtr + l.length ∧
      s.SameMem (l.foldl (fun s f => s.sendOn n.val f.2) s) := by
  induction l with
  | nil => exact fun s _ _ => ⟨rfl, State.SameMem.refl s⟩
  | cons f l ih =>
    intro s busy up
    let sends (l : Link) : Link := { l with txCtr := l.txCtr + 1, sent := ((l.txCtr + 1, f.2) :: l.sent).take 64 }
    have sent : s.sendOn n.val f.2 = (s.updLink n.val sends).countPkg (PE_SL_TX_FRAMES + n.val) 1 := by
      refine if_pos ⟨?_, by rw [busy]; rfl⟩
      simpa [getN] using up
    have link : (s.sendOn n.val f.2).fabric.links[n] = sends s.fabric.links[n] := by
      rw [sent]
      exact (State.links_updLink s n n sends).trans (if_pos rfl)
    have busy' : (s.sendOn n.val f.2).linksIdle = false := by
      rw [sent]
      exact busy
    obtain ⟨ctr, mem⟩ := ih (s.sendOn n.val f.2) busy' (by rw [link]; exact up)
    refine ⟨?_, mem.trans (by rw [sent]; rfl)⟩
    rw [List.foldl_cons, ctr, link, List.length_cons]
    show s.fabric.links[n].txCtr + 1 + l.length = _
    omega

theorem stitchResendRequest_sends (busy : s.linksIdle = false) (c : Nat) (up : s.fabric.links[n].st = .up) :
    ∃ t, exec (.stitchResendRequest n c) s = .next t ∧
      t.fabric.links[n].txCtr = s.fabric.links[n].txCtr + (s.fabric.links[n].sent.filter (fun f => decide (c ≤ f.1))).length ∧
      s.sameBytes t := by
  let older (l : Link) : Link := { l with sent := l.sent.filter (fun f => decide (f.1 < c)) }
  have run : exec (.stitchResendRequest n c) s = .next (((s.fabric.links[n].sent.filter (fun f => decide (c ≤ f.1))).reverse).foldl
      (fun s f => s.sendOn n.val f.2) (s.updLink n.val older)) := by
    refine congrArg Host.Outcome.next ((if_neg ?_).trans ?_)
    · rw [State.link_val, up]
      exact fun h => h rfl
    · rw [← State.link_val]
  have link : (s.updLink n.val older).fabric.links[n] = older s.fabric.links[n] := (State.links_updLink s n n older).trans (if_pos rfl)
  obtain ⟨ctr, mem⟩ := foldl_sendOn_txCtr n ((s.fabric.links[n].sent.filter (fun f => decide (c ≤ f.1))).reverse) (s.updLink n.val older)
    busy (by rw [link]; exact up)
  refine ⟨_, run, ?_, State.SameMem.sameBytes mem⟩
  rw [ctr, link, List.length_reverse]

/-! ### A lost member -/

/-- What the loss of a member leads to keeps the entries that it wrote (19.R481). -/
theorem State.loseMember_roster (s : State) (id : Nat) (serial : W64) :
    (s.loseMember id serial).fabric.members = updN s.fabric.members id (fun e => e.map (fun e => (e.1, true))) ∧
      (s.loseMember id serial).fabric.routes = updN s.fabric.routes id (fun r => { r with lost := true }) := by
  let entered : State := { s with
    fabric := { s.fabric with
      members := updN s.fabric.members id (fun e => e.map (fun (e : W64 × Bool) => (e.1, true)))
      routes := updN s.fabric.routes id (fun r => { r with lost := true }) }
    models := s.models.map (fun (m : Model) =>
      if m.holders.contains serial && m.awaits.all (fun e => e.1 != serial) then { m with awaits := m.awaits ++ [(serial, false)] }
      else m) }
  have kept : (s.loseMember id serial).roster = entered.roster :=
    ((State.LeadsTo.refl entered).peerLost (id := id) (serial := serial)).roster
  exact ⟨(Prod.mk.inj kept).1, (Prod.mk.inj kept).2⟩

theorem memberLost_enters (runs : s.fabricRuns = true) {id : Fin 8} {sn : W64} (member : s.fabric.members[id] = some (sn, false))
    (other : id.val ≠ s.shape.fabricId) (cut : s.fabric.routes[id].links &&& s.shape.linkMap = 0) :
    ∃ t, exec (.memberLost id) s = .next t ∧ t.fabric.members[id] = some (sn, true) ∧ t.fabric.routes[id].lost = true := by
  have run : exec (.memberLost id) s = .next (s.loseMember id.val sn) := by
    have entry : getN s.fabric.members id.val none = some (sn, false) := by simpa [getN] using member
    have route : getN s.fabric.routes id.val {} = s.fabric.routes[id] := by simp [getN]
    refine congrArg Host.Outcome.next ?_
    simp only [entry]
    refine if_neg ?_
    rw [runs, route, cut]
    simpa using other
  obtain ⟨members, routes⟩ := s.loseMember_roster id.val sn
  refine ⟨_, run, ?_, ?_⟩
  · simp only [members, Fin.getElem_fin, getElem_updN, if_true]
    rw [show s.fabric.members[id.val] = some (sn, false) from member]
    rfl
  · simp only [routes, Fin.getElem_fin, getElem_updN, if_true]

end

/-- Settles O56. -/
theorem fabricRows : Obligations.FabricRows := by
  intro s runs busy
  refine ⟨fun n id ms up => memberList_merges runs busy id ms up, memberListStable_settles runs, routeRewrite_routes runs,
    fun n h p tag k up header short whole tagged key => ⟨fun data opened => ?_, fun closed few => ?_⟩,
    fun n c up => stitchResendRequest_sends busy c up, fun id sn member other cut => memberLost_enters runs member other cut⟩
  · rw [stitchFrameReceive_run busy up header short whole tagged key, opened]
  · obtain ⟨ctr, errors, resend, mem⟩ := State.discardFrame_counts few
    refine ⟨s.discardFrame n.val, ?_, ctr, errors, resend, mem.sameBytes⟩
    rw [stitchFrameReceive_run busy up header short whole tagged key, closed]

end Sys2Proof.Machine
end

section
/-!
PROOF. Start-up and supplies (17.R428, R433, R450, R451, 22.R527, R528, 23.R541, R546): O49 and O50.
-/

namespace Sys2Proof.Machine

set_option Elab.async false

section

variable {s : State}

/-! ### Resets and the hardware phase -/

theorem porstAssert_resets (s : State) : ∃ t, exec .porstAssert s = .next t ∧ t.boot = .porst ∧ t.port = {} ∧
    (∀ c : Fin 64, t.cores[c] = {}) ∧ t.fuses = s.fuses ∧ t.plies = s.plies ∧ t.cells = s.cells ∧ t.jobs = [] ∧
    (∀ a, t.mem.byte a = if a / 2 ^ 44 = 0 then s.mem.byte a else 0) := by
  refine ⟨s.cold .porst, rfl, rfl, rfl, fun c => ?_, rfl, rfl, rfl, rfl, fun a => ?_⟩
  · show (Vector.replicate 64 ({} : Core))[c] = {}
    simp
  · show Memory.byte (NatMap.keep (fun a => a / 2 ^ 44 = 0) s.mem) a = _
    rw [Memory.byte_keep]
    simp only [decide_eq_true_eq]

/-- What the self-tests of start-up leave as it was. -/
def State.untested (s : State) : State :=
  { s with
    fresh := 0
    cores := Vector.replicate 64 {}
    shape := {}
    mgmt := {}
    latch := {}
    models := Vector.replicate 16 {} }

theorem State.untested_logEvent (s : State) (code : Nat) : (s.logEvent code).untested = s.untested := by
  obtain ⟨m, l, eq⟩ := State.logEvent_eq (s := s) code
  rw [eq]
  rfl

theorem State.untested_bootTest (s : State) (c : Fin 64) : (s.bootTest c).untested = s.untested := by
  unfold State.bootTest
  dsimp only
  split
  · rfl
  · exact (State.untested_logEvent _ FN_CONVERTER).trans rfl

theorem State.untested_foldl_bootTest (s : State) (l : List (Fin 64)) : (l.foldl State.bootTest s).untested = s.untested :=
  foldl_keeps State.untested State.untested_bootTest l s

/-- The device as the hardware phase has reset and powered it, before its self-tests. -/
def State.powered (s : State) : State :=
  let t := (s.cold .selfTest).ageUnpowered
  ({ t with house := { running := true, codeLen := 4096 }, supply := { t.supply with holding := false } } : State).powerEngines

theorem State.hardwarePhase_eq (s : State) : s.hardwarePhase = if s.refclk.present then s.powered.bootTests else s.powered.raiseIrq IRQ_CLK := rfl

theorem State.hardwarePhase_tested (present : s.refclk.present = true) : s.hardwarePhase.boot = .hardware ∧
    s.hardwarePhase.house.running = true ∧ s.hardwarePhase.plies = s.plies ∧ s.hardwarePhase.supply.out = s.supply.out := by
  rw [State.hardwarePhase_eq, if_pos present]
  have kept := s.powered.untested_foldl_bootTest (List.finRange 64)
  have house := congrArg (fun t : State => t.house.running) kept
  have plies := congrArg State.plies kept
  have supply := congrArg (fun t : State => t.supply.out) kept
  exact ⟨rfl, house, plies, supply⟩

theorem porstDeassert_held (low : s.boot = .porst) (out : s.supply.out ≠ []) :
    ∃ t, exec .porstDeassert s = .next t ∧ t.boot = .internalReset := by
  refine ⟨s.cold .internalReset, congrArg Host.Outcome.next ?_, rfl⟩
  rw [if_neg (fun h => h low), if_pos out]

theorem porstDeassert_run (low : s.boot = .porst) (inRange : s.supply.out = []) : exec .porstDeassert s = .next s.hardwarePhase := by
  refine congrArg Host.Outcome.next ?_
  rw [if_neg (fun h => h low), if_neg (fun h => h inRange)]

theorem State.hardwarePhase_waits (absent : s.refclk.present = false) : s.hardwarePhase.boot = .selfTest ∧
    s.hardwarePhase.port.irqStatus = BitVec.ofNat 8 (2 ^ IRQ_CLK) := by
  rw [State.hardwarePhase_eq, if_neg (by simp [absent])]
  obtain ⟨pin, raised⟩ := State.raiseIrq_eq (s := s.powered) IRQ_CLK
  rw [raised]
  exact ⟨rfl, BitVec.zero_or⟩

theorem internalResetRelease_phase (held : s.boot = .internalReset) (present : s.refclk.present = true) :
    ∃ t, exec .internalResetRelease s = .next t ∧ t.boot = .hardware ∧ t.supply.out = [] := by
  let u : State := { s with supply := { s.supply with out := [] } }
  obtain ⟨boot, -, -, out⟩ := State.hardwarePhase_tested (s := u) present
  exact ⟨u.hardwarePhase, congrArg Host.Outcome.next (if_pos held), boot, out⟩

/-! ### Boot ROM and firmware -/

theorem bootRomPhase_recovers (hardware : s.boot = .hardware) (bad : s.bankValid s.chouse.bank = false)
    (worse : s.bankValid (1 - s.chouse.bank) = false) :
    ∃ t, exec .bootRomPhase s = .next t ∧ t.boot = .recovery ∧ t.port.state = .halted := by
  let u : State := { s with boot := .recovery, port := { s.port with state := .halted } }
  obtain ⟨pin, raised⟩ := State.raiseIrq_eq (s := u) IRQ_HALT
  have run : exec .bootRomPhase s = .next (u.raiseIrq IRQ_HALT) := by
    refine congrArg Host.Outcome.next ?_
    rw [if_neg (fun h => h hardware), if_neg (by simp [bad]), if_neg (by simp [worse])]
  refine ⟨_, run, ?_⟩
  rw [raised]
  exact ⟨rfl, rfl⟩

theorem bootRomPhase_takes (hardware : s.boot = .hardware) (good : s.bankValid s.chouse.bank = true) :
    exec .bootRomPhase s = .next { s with boot := .rom } := by
  refine congrArg Host.Outcome.next ?_
  rw [if_neg (fun h => h hardware), if_pos good]

/-- The phase of start-up, the age clocks and the stores' bytes. -/
def State.clocks (s : State) := (s.boot, s.assay.age, s.assay.epoch, s.mem)

theorem State.wakeEvent_clocks (s : State) (strong : Bool) : (s.wakeEvent strong).clocks = s.clocks := by
  obtain ⟨p, eq⟩ := s.wakeEvent_eq strong
  rw [eq]
  rfl

theorem State.trigger_clocks (s : State) (q : Nat) (full : Bool) : (s.trigger q full).clocks = s.clocks := by
  unfold State.trigger
  split
  · rfl
  · split
    · split <;> rfl
    · dsimp only
      split
      · unfold State.scheduleFull
        dsimp only
        split <;> exact s.wakeEvent_clocks false
      · exact s.wakeEvent_clocks false

theorem State.powerTrigger_clocks (s : State) : s.powerTrigger.clocks = s.clocks :=
  foldl_keeps State.clocks (fun s q => State.trigger_clocks (s.updAssay q _) q false) _ s

theorem houseFirmwarePhase_sets (rom : s.boot = .rom) (sound : s.assay.badRecords = []) :
    ∃ t, exec .houseFirmwarePhase s = .next t ∧ t.boot = .house ∧ t.assay.age = s.assay.hdrAge ∧ t.assay.epoch = s.assay.hdrEpoch ∧
      s.sameBytes t := by
  let u : State := { s.loadClocks.loadRoutes with boot := .house }
  have run : exec .houseFirmwarePhase s = .next u.powerTrigger := by
    refine congrArg Host.Outcome.next ((if_neg (fun h => h rom)).trans ?_)
    have none_ : u.assay.badRecords = [] := sound
    show (u.assay.badRecords.foldl State.recordBad u).powerTrigger = _
    rw [none_]
    rfl
  have clocks := u.powerTrigger_clocks
  simp only [State.clocks, Prod.mk.injEq] at clocks
  obtain ⟨boot, age, epoch, mem⟩ := clocks
  exact ⟨_, run, boot, age, epoch, State.SameMem.sameBytes mem⟩

theorem serviceFirmwarePhase_serves (house : s.boot = .house) (unasked : s.mgmt.waiting = none) (clear : s.chouse.scrub = none) :
    ∃ t, exec .serviceFirmwarePhase s = .next t ∧ t.boot = .service ∧
      t.port.state = (if s.power.inTrip then .halted else .ready) ∧ s.sameBytes t := by
  let served : State := { s with boot := .service }
  obtain ⟨port, clocked⟩ : ∃ p, (if s.refclk.present then served else served.raiseIrq IRQ_CLK) = { served with port := p } := by
    split
    · exact ⟨s.port, rfl⟩
    · obtain ⟨pin, raised⟩ := State.raiseIrq_eq (s := served) IRQ_CLK
      exact ⟨_, raised⟩
  let t : State := { served with port := port }
  have waits : t.runWaiting = t := by rw [State.runWaiting, show t.mgmt.waiting = none from unasked]
  have run : exec .serviceFirmwarePhase s = .next (
      if t.power.inTrip then ({ t with port := { t.port with state := .halted } } : State).raiseIrq IRQ_HALT
      else ({ t with port := { t.port with state := .ready } } : State).actRecorded) := by
    refine congrArg Host.Outcome.next ((if_neg (fun h => h house)).trans ?_)
    show (let u := (if s.refclk.present then served else served.raiseIrq IRQ_CLK).runWaiting
      if u.chouse.scrub.isSome then u
      else if u.power.inTrip then ({ u with port := { u.port with state := .halted } } : State).raiseIrq IRQ_HALT
      else ({ u with port := { u.port with state := .ready } } : State).actRecorded) = _
    rw [clocked, waits]
    exact if_neg (by rw [show t.chouse.scrub = none from clear]; exact Bool.noConfusion)
  refine ⟨_, run, ?_⟩
  cases trip : s.power.inTrip with
  | true =>
    obtain ⟨pin, raised⟩ := State.raiseIrq_eq (s := { t with port := { t.port with state := .halted } }) IRQ_HALT
    rw [if_pos rfl, raised]
    exact ⟨rfl, rfl, fun _ => rfl⟩
  | false =>
    rw [if_neg Bool.noConfusion, State.actRecorded]
    split <;> exact ⟨rfl, rfl, fun _ => rfl⟩

end

/-- Settles O49. -/
theorem bootPhases : Obligations.BootPhases := fun s =>
  ⟨porstAssert_resets s, porstDeassert_held,
    fun low inRange present => by
      obtain ⟨boot, house, plies, -⟩ := State.hardwarePhase_tested present
      exact ⟨_, porstDeassert_run low inRange, boot, house, plies⟩,
    fun low inRange absent => ⟨_, porstDeassert_run low inRange, State.hardwarePhase_waits absent⟩,
    internalResetRelease_phase, bootRomPhase_takes, bootRomPhase_recovers, houseFirmwarePhase_sets, serviceFirmwarePhase_serves⟩

/-! ### Supplies (10.R279, 22.R527, R528) -/

section

variable {s t : State}

theorem State.cutStore_kept (s : State) : ∃ n a, s.cutStore = { s with fresh := n, assay := a } := by
  unfold State.cutStore
  dsimp only
  split <;> exact ⟨_, _, rfl⟩

/-- The device at the moment of an excursion: what is lost with the rail, and the rail out of range. -/
def State.railOut (s : State) (rail : Rail) : State :=
  let u := if feedsWarehouse rail then s.loseWarehouse else s
  let v := if rail = .vddAon then u.cutStore else u
  { v with supply := { v.supply with out := if v.supply.out.contains rail then v.supply.out else v.supply.out ++ [rail] } }

theorem State.railOut_kept (s : State) (rail : Rail) : rail ∈ (s.railOut rail).supply.out ∧ (s.railOut rail).boot = s.boot ∧
    (s.railOut rail).mem = (if feedsWarehouse rail then s.loseWarehouse else s).mem ∧
    (s.railOut rail).written = (if feedsWarehouse rail then s.loseWarehouse else s).written := by
  let u := if feedsWarehouse rail then s.loseWarehouse else s
  obtain ⟨n, x, cut⟩ : ∃ n x, (if rail = .vddAon then u.cutStore else u) = { u with fresh := n, assay := x } := by
    split
    · exact u.cutStore_kept
    · exact ⟨u.fresh, u.assay, rfl⟩
  have boot : u.boot = s.boot := by
    simp only [u]
    split <;> rfl
  have out : s.railOut rail = { u with
      fresh := n
      assay := x
      supply := { u.supply with out := if u.supply.out.contains rail then u.supply.out else u.supply.out ++ [rail] } } := by
    unfold State.railOut
    dsimp only
    rw [cut]
  rw [out]
  refine ⟨?_, boot, rfl, rfl⟩
  dsimp only
  split
  · next there => simpa using there
  · simp

theorem railExcursion_resets {rail : Rail} (counts : s.railCounts rail = true) (running : s.boot ≠ .porst) :
    ∃ t, exec (.railExcursion rail) s = .next t ∧ t.boot = .internalReset ∧ rail ∈ t.supply.out ∧ t.port = {} ∧
      (feedsWarehouse rail = true → (∀ a, t.mem.byte a = 0) ∧ t.written = []) ∧
      (feedsWarehouse rail = false → ∀ a, a / 2 ^ 44 = 0 → t.mem.byte a = s.mem.byte a) := by
  obtain ⟨listed, boot, mem, written⟩ := s.railOut_kept rail
  have run : exec (.railExcursion rail) s = .next ((s.railOut rail).cold .internalReset) := by
    refine congrArg Host.Outcome.next ((if_neg (by simp [counts])).trans ?_)
    show (s.railOut rail).cold (if (s.railOut rail).boot = .porst then .porst else .internalReset) = _
    rw [if_neg (by rwa [boot])]
  have byte (a : Nat) : ((s.railOut rail).cold .internalReset).mem.byte a = if a / 2 ^ 44 = 0 then (s.railOut rail).mem.byte a else 0 := by
    refine (Memory.byte_keep (fun a => a / 2 ^ 44 = 0) (s.railOut rail).mem a).trans ?_
    simp only [decide_eq_true_eq]
  refine ⟨_, run, rfl, listed, rfl, fun feeds => ⟨fun a => ?_, ?_⟩, fun other a low => ?_⟩
  · rw [byte, mem, if_pos feeds]
    split
    · next low =>
      refine (Memory.byte_keep (fun a => a / 2 ^ 44 ≠ 0) s.mem a).trans (if_neg ?_)
      simpa [-Nat.reducePow] using low
    · rfl
  · show (s.railOut rail).written = []
    rw [written, if_pos feeds]
    rfl
  · rw [byte, if_pos low, mem, other]
    rfl

theorem vprogLow_marks (s : State) : ∃ t, exec .vprogLowDuringProg s = .next t ∧ s.sameBytes t ∧
    (s.cores.toList.any progIntegrates = true → t.supply = s.supply ∧ ∀ c : Fin 64, ∀ i ∈ t.cores[c].loomQ, i.kind = .prog →
      i.phase = .integrating → i.vprogLow = true) ∧
    (s.cores.toList.any progIntegrates = false → t = { s with supply := { s.supply with vprogLow := true } }) := by
  refine ⟨_, rfl, ?_, fun some_ => ?_, fun none_ => ?_⟩
  · split <;> exact fun _ => rfl
  · rw [if_pos some_]
    refine ⟨rfl, fun c i mem kind phase => ?_⟩
    simp only [Fin.getElem_fin, Vector.getElem_map, List.mem_map] at mem
    obtain ⟨j, -, rfl⟩ := mem
    split at kind
    · next both => simp [both]
    · next other =>
      split at phase
      · contradiction
      · exact absurd ⟨kind, phase⟩ other
  · rw [if_neg (by simp [none_])]

theorem vddIoLoss_releases (s : State) : ∃ t, exec .vddIoLoss s = .next t ∧ t.supply.vddIo = false ∧ t.port.irqPin = false ∧
    s.sameBytes t := by
  let u : State := { s with supply := { s.supply with vddIo := false } }
  have settled : u.settlePin = { u with port := { u.port with irqPin := false } } := if_pos (Bool.or_true _)
  exact ⟨{ u with port := { u.port with irqPin := false } }, congrArg Host.Outcome.next settled, rfl, rfl, fun _ => rfl⟩

theorem vddIoReturn_drives (clear : s.chouse.scrub = none) (plain : s.chouse.conf = false) : ∃ t, exec .vddIoReturn s = .next t ∧
    t.supply.vddIo = true ∧ t.port.irqPin = s.port.pinWanted ∧ s.sameBytes t := by
  let u : State := { s with supply := { s.supply with vddIo := true } }
  have settled : u.settlePin = { u with port := { u.port with irqPin := u.port.pinWanted } } := by
    refine (if_neg ?_).trans (if_neg ?_)
    · rw [show u.chouse.scrub = none from clear]
      exact Bool.noConfusion
    · rw [show u.chouse.conf = false from plain]
      exact Bool.noConfusion
  exact ⟨{ u with port := { u.port with irqPin := u.port.pinWanted } }, congrArg Host.Outcome.next settled, rfl, rfl, fun _ => rfl⟩

/-! ### The end of a scrub (17.R450, R451) -/

/-- The state but for the links, the package's counts and the draws: what re-keying and flushing the links leaves. -/
def State.offline (s : State) : State := { s with fabric := {}, pkgEvents := [], chouse := { s.chouse with draws := 0 } }

theorem State.offline_renewLink (s : State) (n : Nat) : (s.renewLink n).offline = s.offline := by
  unfold State.renewLink State.rekeyLink
  dsimp only
  split
  · rfl
  · split <;> rfl

theorem State.offline_sendOn (s : State) (n : Nat) (f : StitchFrame) : (s.sendOn n f).offline = s.offline := by
  unfold State.sendOn
  split <;> rfl

theorem State.offline_rekeyLinks (s : State) : s.rekeyLinks.offline = s.offline :=
  foldl_keeps State.offline State.offline_renewLink _ s

theorem State.offline_flushLink (s : State) (n : Nat) : (s.flushLink n).offline = s.offline := by
  have emptied : (s.updLink n (fun l => { l with waiting := [] })).offline = s.offline := rfl
  exact (foldl_keeps State.offline (fun s f => s.offline_sendOn n f) _ _).trans emptied

theorem State.offline_flushLinks (s : State) : s.flushLinks.offline = s.offline :=
  foldl_keeps State.offline State.offline_flushLink _ s

/-- The state after the steps of a scrub that unloads no slot, with its rings and its mode. -/
def State.scrubbed (s : State) (k : Scrub) : State :=
  (((s.scrubSrams.scrubWarehouse k.heap).scrubCounters).scrubKeys).scrubRings.scrubMode k

theorem State.setKey_eq (s : State) (n : Nat) (k : Option Key) : ∃ keys, s.setKey n k = { s with chouse := { s.chouse with keys := keys } } := by
  unfold State.setKey
  split
  · exact ⟨s.chouse.keys, rfl⟩
  · exact ⟨_, rfl⟩

theorem State.clearKeys_eq (s : State) (p : Nat → Bool) : ∃ keys, s.clearKeys p = { s with chouse := { s.chouse with keys := keys } } := by
  unfold State.clearKeys
  generalize List.range 64 = l
  induction l generalizing s with
  | nil => exact ⟨s.chouse.keys, rfl⟩
  | cons n l ih =>
    obtain ⟨keys, first⟩ : ∃ keys, (if p n then s.setKey n none else s) = { s with chouse := { s.chouse with keys := keys } } := by
      split
      · exact s.setKey_eq n none
      · exact ⟨s.chouse.keys, rfl⟩
    obtain ⟨keys', rest⟩ := ih { s with chouse := { s.chouse with keys := keys } }
    rw [List.foldl_cons, first, rest]
    exact ⟨keys', rfl⟩

/-- A cleared slot holds no key. -/
theorem State.keyIn_clearKeys (s : State) {p : Nat → Bool} {n : Nat} (cleared : p n = true) (real : n ≠ 0) (small : n < 64) :
    (s.clearKeys p).keyIn n = none := by
  refine foldl_establishes (p := fun s => s.keyIn n = none) (x := n) (fun s => ?_) (fun s m empty => ?_) (List.range 64) s
    (List.mem_range.mpr small)
  · rw [if_pos cleared]
    exact State.keyIn_setKey _ _ _ real small
  · split
    · by_cases same : n = m
      · subst same
        exact State.keyIn_setKey _ _ _ real small
      · rw [State.keyIn_setKey_other _ same]
        exact empty
    · exact empty

theorem State.endSession_eq (s : State) : ∃ staged keys, s.endSession = { s with
    port := { s.port with staged := staged }
    chouse := { s.chouse with keys := keys, session := {} } } := by
  unfold State.endSession
  obtain ⟨keys, cleared⟩ := s.clearKeys_eq (fun n => 2 ≤ n && n ≤ 6)
  rw [cleared]
  exact ⟨_, keys, rfl⟩

theorem State.scrubKeys_kept (s : State) : s.scrubKeys.mem = s.mem ∧ s.scrubKeys.cores = s.cores ∧ s.scrubKeys.power = s.power ∧
    s.scrubKeys.chouse.conf = s.chouse.conf ∧ s.scrubKeys.keyIn 1 = none := by
  have empty := s.endSession.keyIn_clearKeys (p := fun n => n == 1 || 16 ≤ n) (n := 1) rfl (by decide) (by decide)
  obtain ⟨keys, cleared⟩ := s.endSession.clearKeys_eq (fun n => n == 1 || 16 ≤ n)
  obtain ⟨staged, keys', ended⟩ := s.endSession_eq
  unfold State.scrubKeys
  rw [cleared, ended] at empty ⊢
  exact ⟨rfl, rfl, rfl, rfl, empty⟩

/-- The host part and every SRAM are zero. -/
theorem State.scrubWarehouse_zero (s : State) (heap : Option Nat) {a : Nat}
    (scrubbed : a / 2 ^ 44 ≠ 0 ∨ a < s.port.split % 64 * 2 ^ 28) : (s.scrubSrams.scrubWarehouse heap).mem.byte a = 0 := by
  have base : ((s.scrubSrams.mem).zero 0 (s.port.split * 2 ^ 28)).byte a = 0 := by
    rw [Memory.byte_zero]
    split
    · next outside =>
      refine (Memory.byte_keep (fun a => a / 2 ^ 44 = 0) s.mem a).trans (if_neg ?_)
      have : a / 2 ^ 44 ≠ 0 := by
        rcases scrubbed with high | low
        · exact high
        · have := Nat.mod_le s.port.split 64
          omega
      simpa [-Nat.reducePow] using this
    · rfl
  have ledger : (((s.scrubSrams.mem).zero 0 (s.port.split * 2 ^ 28)).zero s.lgBase (4096 * s.lgPages)).byte a = 0 := by
    rw [Memory.byte_zero]
    split
    · exact base
    · rfl
  cases heap with
  | none => exact ledger
  | some h =>
    refine (Memory.byte_zero _ h (2 ^ 30) a).trans ?_
    split
    · exact ledger
    · rfl

/-- What the end of a scrub has once its steps are done, whatever the links do. -/
structure State.Scrubbed (s t : State) (k : Scrub) : Prop where
  mem : ∀ a, a / 2 ^ 44 ≠ 0 ∨ a < s.port.split % 64 * 2 ^ 28 → t.mem.byte a = 0
  cores : ∀ c : Fin 64, t.cores[c].acc = [] ∧ t.cores[c].seq.flags = 0
  tail : t.port.cqTail = 0
  cool : t.power.inTrip = s.power.inTrip
  key : t.keyIn 1 = none
  conf : t.chouse.conf = k.mode.getD s.chouse.conf

/-- The rings and the mode change no store, no core, no power state and no key. -/
theorem State.Scrubbed.of_kept {t : State} {k : Scrub} (mem : ∀ a, a / 2 ^ 44 ≠ 0 ∨ a < s.port.split % 64 * 2 ^ 28 → t.mem.byte a = 0)
    (cores : t.cores = s.cores.map scrubCore) (power : t.power = s.power) (conf : t.chouse.conf = s.chouse.conf)
    (key : t.keyIn 1 = none) : s.Scrubbed (t.scrubRings.scrubMode k) k where
  mem := mem
  cores c := by
    have cores' : (t.scrubRings.scrubMode k).cores = s.cores.map scrubCore := cores
    rw [cores']
    simp [scrubCore, resetCore]
  tail := rfl
  cool := congrArg Power.inTrip power
  key := key
  conf := congrArg (k.mode.getD ·) conf

/-- The steps of a scrub before its keys leave the power state and the mode alone. -/
theorem State.scrubCounters_kept (s : State) (heap : Option Nat) :
    ((s.scrubSrams.scrubWarehouse heap).scrubCounters).cores = s.cores.map scrubCore ∧
    ((s.scrubSrams.scrubWarehouse heap).scrubCounters).power = s.power ∧
    ((s.scrubSrams.scrubWarehouse heap).scrubCounters).chouse.conf = s.chouse.conf := by
  cases heap <;> exact ⟨rfl, rfl, rfl⟩

theorem State.scrubbed_scrubbed (s : State) (k : Scrub) : s.Scrubbed (s.scrubbed k) k := by
  have zero := fun a => s.scrubWarehouse_zero k.heap (a := a)
  obtain ⟨cores, power, conf⟩ := s.scrubCounters_kept k.heap
  obtain ⟨mem', cores', power', conf', key⟩ := ((s.scrubSrams.scrubWarehouse k.heap).scrubCounters).scrubKeys_kept
  refine .of_kept (fun a scrubbed => ?_) (cores'.trans cores) (power'.trans power) (conf'.trans conf) key
  rw [mem']
  exact zero a scrubbed

theorem State.Scrubbed.of_offline {t u : State} {k : Scrub} (h : s.Scrubbed t k) (same : u.offline = t.offline) : s.Scrubbed u k := by
  have mem := congrArg State.mem same
  have cores := congrArg State.cores same
  have port := congrArg State.port same
  have power := congrArg State.power same
  have keys := congrArg (fun v : State => v.chouse.keys) same
  have conf := congrArg (fun v : State => v.chouse.conf) same
  simp only [State.offline] at mem cores port power keys conf
  constructor
  case mem => rw [mem]; exact h.mem
  case cores => rw [cores]; exact h.cores
  case tail => rw [port]; exact h.tail
  case cool => rw [power]; exact h.cool
  case key => rw [State.keyIn, keys]; exact h.key
  case conf => rw [conf]; exact h.conf

theorem State.Scrubbed.of_port {t : State} {k : Scrub} (h : s.Scrubbed t k) {c : Option Scrub} {p : Port} (tail : p.cqTail = t.port.cqTail) :
    s.Scrubbed { t with chouse := { t.chouse with scrub := c }, port := p } k :=
  ⟨h.mem, h.cores, tail.trans h.tail, h.cool, h.key, h.conf⟩

theorem State.leaveScrub_ready (u : State) (cool : u.power.inTrip = false) :
    ∃ p : Port, u.leaveScrub = { u with chouse := { u.chouse with scrub := none }, port := p } ∧ p.state = .ready ∧
      p.cqTail = u.port.cqTail := by
  have ready : u.leaveScrub = ({ u with
      chouse := { u.chouse with scrub := none }
      port := { u.port with state := .ready } } : State).actRecorded := by
    unfold State.leaveScrub
    simp only [cool, Bool.false_eq_true, if_false]
  rw [ready, State.actRecorded]
  split <;> exact ⟨_, rfl, rfl, rfl⟩

theorem State.port_of_offline {t u : State} (same : u.offline = t.offline) : u.port = t.port := by
  have port := congrArg State.port same
  exact port

theorem State.scrub_of_offline {t u : State} (same : u.offline = t.offline) : u.chouse.scrub = t.chouse.scrub := by
  have scrub := congrArg (fun v : State => v.chouse.scrub) same
  exact scrub

/-- Leaving the scrub and flushing the links ends it with the port ready. -/
theorem State.Scrubbed.flushed {u : State} {k : Scrub} (steps : s.Scrubbed u k) (cool : s.power.inTrip = false) :
    s.Scrubbed u.leaveScrub.flushLinks k ∧ u.leaveScrub.flushLinks.chouse.scrub = none ∧ u.leaveScrub.flushLinks.port.state = .ready := by
  obtain ⟨p, left, ready, tail⟩ := u.leaveScrub_ready (steps.cool.trans cool)
  rw [left]
  have same := State.offline_flushLinks { u with chouse := { u.chouse with scrub := none }, port := p }
  refine ⟨(steps.of_port tail).of_offline same, ?_, ?_⟩
  · have scrub := State.scrub_of_offline same
    exact scrub
  · have port := State.port_of_offline same
    rw [port]
    exact ready

theorem State.Scrubbed.answered {t : State} {k : Scrub} (steps : s.Scrubbed t k) (scrub : t.chouse.scrub = none)
    (ready : t.port.state = .ready) (cmd ctr : Nat) : ∃ u, ((t.countPkg PE_SCRUBS 1).raiseIrq IRQ_MGMT).respond ctr cmd 0 [] = u ∧
      s.Scrubbed u k ∧ u.chouse.scrub = none ∧ u.port.state = .ready := by
  obtain ⟨pin, raised⟩ := State.raiseIrq_eq (s := t.countPkg PE_SCRUBS 1) IRQ_MGMT
  rw [raised]
  exact ⟨_, rfl, ⟨steps.mem, steps.cores, steps.tail, steps.cool, steps.key, steps.conf⟩, scrub, ready⟩

theorem execScrubEnd_eq {k : Scrub} (scrub : s.chouse.scrub = some k) (all : k.looms = false) (idle : s.jobs = []) (unloaded : s.load = none)
    (alone : s.mgmt.joined = []) : exec .scrubEnd s = .next
      (((((s.scrubbed k).rekeyLinks.leaveScrub.flushLinks.countPkg PE_SCRUBS 1).raiseIrq IRQ_MGMT)).respond k.ctr k.cmd 0 []) := by
  have done : s.scrubOver k = true := by simp [State.scrubOver, idle, unloaded, Scrub.named, all]
  have named : k.named = [] := by simp [Scrub.named, all]
  refine congrArg Host.Outcome.next ?_
  simp only [scrub, done, if_true, alone, List.length_nil, State.runJoined, State.endScrub, named, List.foldl_nil]
  rfl

theorem scrubEnd_ends {k : Scrub} (scrub : s.chouse.scrub = some k) (all : k.looms = false) (idle : s.jobs = []) (unloaded : s.load = none)
    (cool : s.power.inTrip = false) (alone : s.mgmt.joined = []) : ∃ t, exec .scrubEnd s = .next t ∧ t.chouse.scrub = none ∧
      t.port.state = .ready ∧ t.port.cqTail = 0 ∧ (∀ a, a / 2 ^ 44 ≠ 0 ∨ a < s.port.split % 64 * 2 ^ 28 → t.mem.byte a = 0) ∧
      (∀ c : Fin 64, t.cores[c].acc = [] ∧ t.cores[c].seq.flags = 0) ∧ t.keyIn 1 = none ∧
      t.chouse.conf = k.mode.getD s.chouse.conf := by
  have steps := (s.scrubbed_scrubbed k).of_offline (State.offline_rekeyLinks _)
  obtain ⟨flushed, gone, ready⟩ := steps.flushed cool
  obtain ⟨t, answer, done, scrub', ready'⟩ := flushed.answered gone ready k.cmd k.ctr
  exact ⟨t, (execScrubEnd_eq scrub all idle unloaded alone).trans (congrArg Host.Outcome.next answer), scrub', ready', done.tail,
    done.mem, done.cores, done.key, done.conf⟩

end

/-- Settles O50. -/
theorem supplyEvents : Obligations.SupplyEvents := fun s =>
  ⟨fun _ counts running => railExcursion_resets counts running, vprogLow_marks s, vddIoLoss_releases s, vddIoReturn_drives,
    fun low => congrArg Host.Outcome.next (if_pos low),
    fun on powered => congrArg Host.Outcome.next (if_pos (by rw [on, powered]; rfl)), rfl,
    fun _ scrub all idle unloaded cool alone => scrubEnd_ends scrub all idle unloaded cool alone⟩

end Sys2Proof.Machine
end


section
/-!
PROOF. The completion of the instructions in the queues of a sequencer (07.R208, R210, R214).
-/

namespace Sys2Proof.Machine
set_option Elab.async false

section

variable {s : State} {q : SeqId}

/-- A completion changes neither the queues of a sequencer nor its registers and its instruction index, and no byte. -/
theorem State.complete_own (s : State) (q : SeqId) (e : QEntry) (flags : Nat) (p : SeqId) :
    ((s.complete q e flags).seqr p).millQ = (s.seqr p).millQ ∧ ((s.complete q e flags).seqr p).moverQ = (s.seqr p).moverQ ∧
    ((s.complete q e flags).seqr p).s = (s.seqr p).s ∧ ((s.complete q e flags).seqr p).pc = (s.seqr p).pc := by
  obtain ⟨buf, x, fl, own, -⟩ := (s.kept_complete q e flags).seqr p
  rw [own]
  exact ⟨rfl, rfl, rfl, rfl⟩

theorem State.sameBytes_complete (s : State) (q : SeqId) (e : QEntry) (flags : Nat) : s.sameBytes (s.complete q e flags) :=
  fun a => by rw [(s.kept_complete q e flags).mem]

/-- Once an entry has left its queue, its completion leaves the queues as they are. -/
theorem State.complete_left (s : State) (q : SeqId) (e : QEntry) {f : Seqr → Seqr} (scalars : (f (s.seqr q)).s = (s.seqr q).s)
    (pc : (f (s.seqr q)).pc = (s.seqr q).pc) :
    let u := (s.updSeqr q f).complete q e 0
    (u.seqr q).millQ = (f (s.seqr q)).millQ ∧ (u.seqr q).moverQ = (f (s.seqr q)).moverQ ∧ (u.seqr q).s = (s.seqr q).s ∧
      (u.seqr q).pc = (s.seqr q).pc ∧ s.sameBytes u := by
  obtain ⟨mill, movers, scalars', pc'⟩ := (s.updSeqr q f).complete_own q e 0 q
  rw [State.seqr_updSeqr] at mill movers scalars' pc'
  refine ⟨mill, movers, scalars'.trans scalars, pc'.trans pc, fun a => ?_⟩
  rw [(s.updSeqr q f).sameBytes_complete q e 0 a, State.updSeqr_mem]

theorem millEntry_completes {n : Nat} {e : QEntry} (entry : (s.seqr q).millQ[n]? = some e) (may : s.millMay (s.seqr q).millQ n = true) :
    ∃ u, exec (.instructionCompletion q .mill n) s = .next (u.pumpQueues q) ∧ (u.seqr q).millQ = (s.seqr q).millQ.eraseIdx n ∧
      (u.seqr q).s = (s.seqr q).s ∧ (u.seqr q).pc = (s.seqr q).pc ∧ s.sameBytes u := by
  obtain ⟨mill, -, rest⟩ := s.complete_left q e (f := fun r => { r with millQ := r.millQ.eraseIdx n }) rfl rfl
  refine ⟨_, congrArg Host.Outcome.next ?_, mill, rest⟩
  simp only [entry, if_pos may]

theorem moverEntry_completes {m : Fin 4} {e : QEntry} {rest : List QEntry} (entry : (s.seqr q).moverQ[m] = e :: rest)
    (unstaged : e.staging = false) (ran : e.work = none) (acked : s.acked e = true) :
    ∃ u, exec (.instructionCompletion q (.mover m) 0) s = .next (u.pumpQueues q) ∧ (u.seqr q).moverQ[m] = rest ∧
      (u.seqr q).s = (s.seqr q).s ∧ (u.seqr q).pc = (s.seqr q).pc ∧ s.sameBytes u := by
  obtain ⟨-, movers, kept⟩ := s.complete_left q e (f := fun r => { r with moverQ := updN r.moverQ m.val (fun _ => rest) }) rfl rfl
  have head : getN (s.seqr q).moverQ m.val [] = e :: rest := (dif_pos m.isLt).trans entry
  refine ⟨_, congrArg Host.Outcome.next ?_, ?_, kept⟩
  · simp only [head, unstaged, ran, acked, Option.isSome_none, Bool.not_true, Bool.or_self, Bool.false_eq_true, if_false]
  · rw [movers]
    simp [getElem_updN]

theorem loomHead_completes {c : Fin 64} {i : LoomInstr} {rest : List LoomInstr} (head : s.cores[c].loomQ = i :: rest) :
    (i.phase = .done → exec (.instructionCompletion (.core c) .loom 0) s = .next (s.retireLoom c i)) ∧
    (i.phase = .integrating → i.kind ≠ .mvm → i.kind ≠ .mvmt →
      exec (.instructionCompletion (.core c) .loom 0) s = .next (s.endOther c i)) := by
  have run : exec (.instructionCompletion (.core c) .loom 0) s = .next (s.completeLoom c) := rfl
  rw [run]
  unfold State.completeLoom
  simp only [head]
  refine ⟨fun done => ?_, fun integrates other other' => ?_⟩
  · rw [if_pos done]
  · rw [if_neg (by rw [integrates]; exact nofun), if_pos ⟨integrates, other, other'⟩]

/-- What a completion with a DONE counter does to the counters, where no WAIT is. -/
theorem State.complete_counterAt {e : QEntry} {idx : Nat} (wf : s.canonical = true) (done : e.done = some idx) (small : idx < 65536)
    (idle : ∀ p, (s.seqr p).wait = none) {j : Nat} (hj : j < 65536) :
    (s.complete q e 0).counterAt j = if j = idx then (counterAdd (s.counterAt idx) 1 0).1 else s.counterAt j := by
  have books := s.sameProgram_retireBooks q e
  have same (j : Nat) : (s.retireBooks q e).counterAt j = s.counterAt j := by
    rw [books.counterAt]
    simp [State.counterAt]
  have wf' : (s.retireBooks q e).countersWf := fun k => by
    rw [books.clusters, State.updSeqr_clusters]
    exact State.counters_wf wf k
  have counted : (s.retireBooks q e).retireDone q e = (s.retireBooks q e).applyCounter q idx 1 0 := by
    unfold State.retireDone
    rw [done, Option.elim_some]
  have settled : s.complete q e 0 = s.retire q e 0 := State.settle_of_no_wait _ fun p => (s.retire_wait q e 0 p).trans (idle p)
  rw [settled, (s.sameProgram_retire q e 0).counterAt, counted, State.counterAt_applyCounter wf' small hj, same, same]

end

/-- Settles O29. -/
theorem completionRules : Obligations.CompletionRules := by
  refine ⟨fun q s => ⟨fun _ _ entry may => millEntry_completes entry may,
    fun _ _ _ entry unstaged ran acked => moverEntry_completes entry unstaged ran acked, ?_⟩, ?_⟩
  · rintro c i rest rfl head
    exact loomHead_completes head
  · intro q s e idx wf done small idle
    have counted (j : Nat) := State.complete_counterAt (q := q) (j := j) wf done small idle
    refine ⟨(counted idx small).trans (if_pos rfl), fun j hj ne => (counted j hj).trans (if_neg ne), fun p => ?_, s.sameBytes_complete q e 0⟩
    obtain ⟨-, -, scalars, pc⟩ := s.complete_own q e 0 p
    exact ⟨scalars, pc⟩

end Sys2Proof.Machine
end


section
/-!
PROOF. The reliability rows (chapter 20): a state outside the canonical form of the stores refutes them.
-/

namespace Sys2Proof.Machine
set_option Elab.async false

/-- The lines of a cluster with set 0 listed twice, which no canonical state has: the second entry reads only once the first is gone. -/
def doubledLines : State :=
  State.reset.updCluster 0 (fun u => { u with lines := [(0, [(0, 5)]), (0, [(0, 6)])] })

/-- The uncorrectable error disables the location, and erases the first entry of its set alone: the second shows a line there. -/
theorem disableCacheLine_doubledLines : (doubledLines.disableCacheLine 0 0 0).clusters[(0 : Fin 8)].lineAt 0 0 = some 6 := by
  decide +kernel

/-- Refutes O57: the statement asks of every state that no line stands at a disabled cache location. In a state whose lines list set 0
twice, `NatMap.put` erases the first entry, and the second one's line stands at the location (`doubledLines`). -/
theorem not_reliabilityRows : ¬ Obligations.ReliabilityRows := by
  unfold Obligations.ReliabilityRows
  intro h
  obtain ⟨-, -, -, lines, -⟩ := h doubledLines
  obtain ⟨t, run, -, gone, -⟩ := lines 0 0 0 (by decide) (by decide) (by decide +kernel) (by decide +kernel)
  have ran : exec (.patrolRead (.cacheLine 0 0 0) .uncorrectable) doubledLines = .next (doubledLines.disableCacheLine 0 0 0) := rfl
  obtain rfl : doubledLines.disableCacheLine 0 0 0 = t := Host.Outcome.next.inj (ran.symm.trans run)
  rw [disableCacheLine_doubledLines] at gone
  exact Option.some_ne_none 6 gone

end Sys2Proof.Machine
end


section
/-!
PROOF. The CAL rows (chapters 12, 13): what a completion at decode leaves of the rest of the state, the operands that descriptors name,
and the effect of each row.
-/

namespace Sys2Proof.Machine
set_option Elab.async false

/-! ### What a completion leaves -/

/-- A core but for its sequencer and for what the completion of an instruction counts or frees. -/
def Core.uncounted (k : Core) : Core :=
  { k with seq := {}, qz := {}, streams := Vector.replicate 8 none, events := [], retired := 0 }

/-- The state but for the sequencers and for what a completion counts, frees or samples. -/
def State.uncounted (s : State) : State :=
  { s with
    cores := s.cores.map Core.uncounted
    house := {}
    clusters := Vector.replicate 8 {}
    lgQueue := []
    pkgEvents := []
    fresh := 0 }

section

variable (s : State) (q : SeqId)

theorem State.uncounted_updCore (c : Fin 64) {f : Core → Core} (h : ∀ k, (f k).uncounted = k.uncounted) :
    (s.updCore c f).uncounted = s.uncounted := by
  simp only [State.updCore, State.uncounted]
  congr 1
  ext i hi : 1
  rcases Nat.decEq c.val i with ne | rfl <;> simp [*]

theorem State.uncounted_updSeqr (f : Seqr → Seqr) : (s.updSeqr q f).uncounted = s.uncounted := by
  cases q with
  | core c => exact s.uncounted_updCore c fun _ => rfl
  | house => rfl

theorem State.uncounted_countSeq (e n : Nat) : (s.countSeq q e n).uncounted = s.uncounted := by
  cases q with
  | core c => exact s.uncounted_updCore c fun _ => rfl
  | house => rfl

theorem State.uncounted_addTotals (c : Fin 64) (ts : List (Nat × QTotals)) : (s.addTotals c ts).uncounted = s.uncounted := by
  refine foldl_keeps State.uncounted (fun s e => ?_) ts s
  dsimp only
  split
  · exact s.uncounted_updCore c fun _ => rfl
  · exact (State.uncounted_countSeq _ (.core c) _ _).trans (s.uncounted_updCore c fun _ => rfl)

theorem State.uncounted_ledger (c : Fin 64) (e : QEntry) (flags : Nat) : (s.ledger c e flags).uncounted = s.uncounted := by
  have counted := s.uncounted_updCore c (f := fun k => { k with retired := s.cores[c].retired + 1 }) fun _ => rfl
  unfold State.ledger
  dsimp only
  split
  · rfl
  · split
    · split
      · exact counted
      · exact counted
    · exact counted

theorem State.uncounted_applyCounter (idx : Nat) (v : Int) (n : Nat) : (s.applyCounter q idx v n).uncounted = s.uncounted := by
  have put : (s.putCounter idx (counterAdd (s.counterAt idx) v n).1).uncounted = s.uncounted := rfl
  unfold State.applyCounter
  dsimp only
  split
  · exact (State.uncounted_countSeq _ q _ _).trans ((State.uncounted_updSeqr _ q _).trans put)
  · exact put

theorem Core.uncounted_slots (k : Core) (hands frees : List Nat) :
    (hands.foldl handSlot (frees.foldl freeSlot k)).uncounted = k.uncounted := by
  have freed : (frees.foldl freeSlot k).uncounted = k.uncounted := by
    induction frees generalizing k with
    | nil => rfl
    | cons n ns ih => exact ih (freeSlot k n)
  rw [← freed]
  generalize frees.foldl freeSlot k = u
  induction hands generalizing u with
  | nil => rfl
  | cons n ns ih => exact ih (handSlot u n)

theorem State.uncounted_retire (e : QEntry) (flags : Nat) : (s.retire q e flags).uncounted = s.uncounted := by
  have counts : (s.retireCounts q e).uncounted = s.uncounted := by
    have slot := s.uncounted_countSeq q EV_SLOT_RETIRED 1
    unfold State.retireCounts
    cases classEvent e.opcode with
    | none =>
      dsimp only [Option.elim]
      split
      · exact (State.uncounted_countSeq ..).trans slot
      · exact slot
    | some ev =>
      dsimp only [Option.elim]
      split
      · exact (State.uncounted_countSeq ..).trans ((State.uncounted_countSeq ..).trans slot)
      · exact (State.uncounted_countSeq ..).trans slot
  have books : (s.retireBooks q e).uncounted = s.uncounted := by
    have unwaited := (State.uncounted_updSeqr (s.retireCounts q e) q (unwait [e.uid])).trans counts
    cases q with
    | house => exact unwaited
    | core c =>
      exact (State.uncounted_addTotals ..).trans ((State.uncounted_updCore _ c (Core.uncounted_slots · e.hands e.frees)).trans unwaited)
  have done : ((s.retireBooks q e).retireDone q e).uncounted = s.uncounted := by
    unfold State.retireDone
    cases e.done with
    | none => exact books
    | some idx => exact (State.uncounted_applyCounter _ q idx 1 0).trans books
  cases q with
  | house => exact (congrArg State.uncounted (s.retire_house e flags)).trans done
  | core c => exact (congrArg State.uncounted (s.retire_core e flags c)).trans ((State.uncounted_ledger ..).trans done)

theorem State.uncounted_endWait : (s.endWait q).uncounted = s.uncounted := by
  unfold State.endWait
  split
  · exact (State.uncounted_retire ..).trans (State.uncounted_updSeqr ..)
  · rfl

theorem State.uncounted_settleN (n : Nat) : (State.settleN n s).uncounted = s.uncounted := by
  induction n generalizing s with
  | zero => rfl
  | succ n ih =>
    unfold State.settleN
    split
    · exact (ih _).trans (s.uncounted_endWait _)
    · rfl

theorem State.uncounted_completedNow (w : W128) : (s.completedNow q w).uncounted = s.uncounted :=
  (State.uncounted_settleN _ 65).trans ((State.uncounted_retire ..).trans (State.uncounted_updSeqr ..))

end

section

variable {s t u : State} {q : SeqId} {w : W128} {f : Flow}

theorem State.uncounted_of_seen (h : t.seen = s.seen) : t.uncounted = s.uncounted := by
  have erased (u : State) : u.seen.uncounted = u.uncounted := by simp [State.seen, State.uncounted, Core.uncounted]
  rw [← erased t, h, erased]

theorem State.monitor_of_uncounted (h : t.uncounted = s.uncounted) : t.monitor = s.monitor := by
  have monitor := congrArg State.monitor h
  exact monitor

theorem State.assay_of_uncounted (h : t.uncounted = s.uncounted) : t.assay = s.assay := by
  have assay := congrArg State.assay h
  exact assay

theorem State.plies_of_uncounted (h : t.uncounted = s.uncounted) : t.plies = s.plies := by
  have plies := congrArg State.plies h
  exact plies

theorem State.core_of_uncounted (h : t.uncounted = s.uncounted) (c : Fin 64) : t.cores[c].uncounted = s.cores[c].uncounted := by
  have cores : t.cores.map Core.uncounted = s.cores.map Core.uncounted := congrArg State.cores h
  simpa using congrArg (fun v : Vector Core 64 => v[c]) cores

/-- What a row does that takes the state to `mid` and completes at its decode: it also leaves the rest of the state as `mid` has it. -/
theorem State.Takes.exec_ends_rest (h : s.Takes q w) {i : Instr} {body : ExecM Flow} {mid : State} (ok : i.wordOk = true)
    (means : exec i s = s.instr i q w body) (run : body.run s = .ok .next (mid.completedNow q w)) :
    ∃ t, exec i s = .next t ∧ s.Ends mid t q w .next ∧ t.uncounted = mid.uncounted := by
  refine ⟨_, means.trans ((State.instr_eq ..).1 ok), h.ends run, ?_⟩
  rw [h.decode_ok run]
  exact (State.uncounted_updSeqr ..).trans (mid.uncounted_completedNow q w)

/-- Decode has gone on where the row left the sequencer's index and loops alone. -/
theorem State.Ends.wentOn {mid : State} (h : s.Ends mid t q w .next) (loops : (mid.seqr q).loops = (s.seqr q).loops) :
    Seqr.wentOn (s.seqr q) (t.seqr q) := by
  refine ⟨h.pc.trans ?_, h.loops.trans ?_⟩ <;> simp [Seqr.advance, loops]

/-! ### Operands -/

theorem sampleSlot_run {slot : Nat} {dest : Bool} {d : TD} (h : s.Names q slot dest d) :
    (sampleSlot q slot).run s = .ok (s.mem.bytes (slotKey q (s.seqr q).tdBase slot) 64) s := by
  have inStore := decide_eq_true h.inStore
  have settled := h.settled
  have clean := h.clean
  unfold sampleSlot
  rw [EStateM.run_bind, EStateM.run_get]
  dsimp only
  generalize slotKey q (s.seqr q).tdBase slot = key at *
  rw [settled, if_neg Bool.false_ne_true, EStateM.run_bind, demand_pass inStore]
  dsimp only
  rw [clean, if_neg Bool.false_ne_true]
  rfl

/-- A slot that names a tensor gives its descriptor. -/
theorem operandAt_run {slot : Nat} {dest : Bool} {d : TD} (h : s.Names q slot dest d) (detail : Nat) :
    (operandAt q slot dest detail).run s = .ok d s := by
  simp only [operandAt, EStateM.run_bind, sampleSlot_run h, EStateM.run_get, ← h.reads, h.valid]
  cases streams : bit d.stream 7 with
  | false => rfl
  | true =>
    obtain ⟨c, rfl, opened⟩ := h.stream streams
    simp only [if_true, EStateM.run_bind, demand_pass opened]
    rfl

/-- The descriptor slot that an operand's position names (07.R218). -/
def operandSlot (w : W128) : Nat → Nat
  | 0 => wTdd w
  | 1 => wTda w
  | 2 => wTdb w
  | _ => wTdc w

theorem operand_run {pos : Nat} {dest : Bool} {d : TD} (h : s.Names q (operandSlot w pos) dest d) :
    (operand q w pos dest).run s = .ok d s := by
  match pos with
  | 0 => exact operandAt_run h _
  | 1 => exact operandAt_run h _
  | 2 => exact operandAt_run h _
  | n + 3 => exact operandAt_run h _

end

/-! ### CAL rows whose operands are registers -/

section

variable {s t u : State} {w : W128}

theorem State.mem_of_uncounted (h : t.uncounted = s.uncounted) : t.mem = s.mem := by
  have mem := congrArg State.mem h
  exact mem

theorem calNow_run {q : SeqId} {body : ExecM Unit} {mid : State} (run : body.run s = .ok () mid) :
    (calNow q w body).run s = .ok .next (mid.completedNow q w) :=
  now_run (by simp only [EStateM.run_bind, run]; rfl)

theorem calRA_run (w : W128) (s : State) : (calRA .house w).run s = .ok (s.house.scalar (wordBits w 38 5)).toNat s := rfl

/-- A CAL row that leaves the house sequencer alone: the rest of the state is as the row has it. -/
theorem State.Takes.exec_cal (h : s.Takes .house w) {i : Instr} {body : ExecM Flow} {mid : State} (ok : i.wordOk = true)
    (means : exec i s = s.instr i .house w body) (run : body.run s = .ok .next (mid.completedNow .house w)) (own : mid.house = s.house) :
    ∃ t, exec i s = .next t ∧ t.uncounted = mid.uncounted ∧ t.house.s = s.house.s ∧ Seqr.wentOn s.house t.house := by
  obtain ⟨t, exec_eq, ends, rest⟩ := h.exec_ends_rest ok means run
  exact ⟨t, exec_eq, rest, ends.scalars.trans (congrArg Seqr.s own), ends.wentOn (congrArg Seqr.loops own)⟩

theorem calRead_reads (h : s.Takes .house w) (ok : (Instr.calRead .house w).wordOk = true) : ∃ t, exec (.calRead .house w) s = .next t ∧
    t.house.s = updN s.house.s (wordBits w 43 5)
      (fun _ => BitVec.ofNat 64 (resWord (getN s.monitor.results (bits (wImm w) 0 5) {}))) ∧
    t.monitor = s.monitor ∧ Seqr.wentOn s.house t.house ∧ s.sameBytes t := by
  obtain ⟨t, exec_eq, ends, rest⟩ := h.exec_ends_rest (i := .calRead .house w) ok rfl (calNow_run rfl)
  exact ⟨t, exec_eq, ends.scalars, State.monitor_of_uncounted rest, ends.wentOn rfl, fun a => by rw [ends.mem]; rfl⟩

/-- The entry that a write of `v` to entry `n` asks for. -/
def State.newEntry (s : State) (n v : Nat) : MonEntry :=
  { filt := bits v 10 2, gain := bits v 8 2, source := if 95 < bits v 0 7 then 127 else bits v 0 7
    invalid := (getN s.monitor.entries n {}).invalid }

/-- The state in which it stands there, its result not valid, before conversions start. -/
def State.entered (s : State) (n v : Nat) : State :=
  { s with monitor := { s.monitor with
    entries := updN s.monitor.entries n (fun _ => { s.newEntry n v with
      invalid := max (getN s.monitor.entries n {}).invalid (changeCount (getN s.monitor.entries n {}) (s.newEntry n v)) })
    results := updN s.monitor.results n (fun r => { r with valid := false, fresh := false })
    am0 := discardEntry n s.monitor.am0, am1 := discardEntry n s.monitor.am1 } }

theorem State.writeEntry_eq (s : State) (n v : Nat) : s.writeEntry n v =
    if s.newEntry n v = getN s.monitor.entries n {} then s else (s.entered n v).dealBoth := rfl

theorem State.house_writeEntry (s : State) (n v : Nat) : (s.writeEntry n v).house = s.house ∧ (s.writeEntry n v).mem = s.mem := by
  rw [State.writeEntry_eq]
  split
  · exact ⟨rfl, rfl⟩
  · have dealt := (s.entered n v).dealBoth_results
    have house := congrArg State.house dealt
    exact ⟨house, dealt.mem⟩

theorem calSeq_writes (h : s.Takes .house w) (ok : (Instr.calSeq .house w).wordOk = true) : ∃ t, exec (.calSeq .house w) s = .next t ∧
    t.monitor = (s.writeEntry (bits (wImm w) 0 5) ((s.house.scalar (wordBits w 38 5)).toNat % 2 ^ 32)).monitor ∧ t.house.s = s.house.s ∧
    Seqr.wentOn s.house t.house ∧ s.sameBytes t := by
  let mid := s.writeEntry (bits (wImm w) 0 5) ((s.house.scalar (wordBits w 38 5)).toNat % 2 ^ 32)
  obtain ⟨own, mem⟩ : mid.house = s.house ∧ mid.mem = s.mem := s.house_writeEntry _ _
  obtain ⟨t, exec_eq, rest, scalars, went⟩ := h.exec_cal (i := .calSeq .house w) (mid := mid) ok rfl (calNow_run rfl) own
  exact ⟨t, exec_eq, State.monitor_of_uncounted rest, scalars, went, fun a => by rw [State.mem_of_uncounted rest, mem]⟩

theorem Core.tap_of_uncounted {k k' : Core} (h : k.uncounted = k'.uncounted) : k.tap = k'.tap := by
  have tap := congrArg Core.tap h
  exact tap

theorem Core.applyMark_of_uncounted {k k' : Core} (h : k.uncounted = k'.uncounted) : k.applyMark = k'.applyMark := by
  have mark := congrArg Core.applyMark h
  exact mark

theorem calTap_points (h : s.Takes .house w) (ok : (Instr.calTap .house w).wordOk = true) : ∃ t, exec (.calTap .house w) s = .next t ∧
    (∀ c : Fin 64, c.val = bits (wImm w) 8 6 → t.cores[c].tap.engine = bits (wImm w) 4 4 ∧
      t.cores[c].tap.col = bits (wImm w) 0 3 ∧ t.cores[c].tap.stale = true) ∧
    (∀ c : Fin 64, c.val ≠ bits (wImm w) 8 6 → t.cores[c].tap = s.cores[c].tap) ∧
    t.house.s = s.house.s ∧ Seqr.wentOn s.house t.house ∧ s.sameBytes t := by
  let d := coreIx (bits (wImm w) 8 6)
  let mid := s.pointTap d (bits (wImm w) 4 4) (bits (wImm w) 0 3)
  have named : d.val = bits (wImm w) 8 6 := Nat.mod_eq_of_lt (Nat.mod_lt _ (by decide))
  obtain ⟨t, exec_eq, rest, scalars, went⟩ := h.exec_cal (i := .calTap .house w) (mid := mid) ok rfl (calNow_run rfl) rfl
  have tap (c : Fin 64) := Core.tap_of_uncounted (State.core_of_uncounted rest c)
  refine ⟨t, exec_eq, fun c here => ?_, fun c there => ?_, scalars, went, fun a => by rw [State.mem_of_uncounted rest]; rfl⟩
  · obtain rfl : c = d := Fin.ext (here.trans named.symm)
    rw [tap]
    simp [mid, State.pointTap, State.updCore]
  · have ne : d.val ≠ c.val := fun e => there (e.symm.trans named)
    rw [tap]
    simp [mid, State.pointTap, State.updCore, ne]

/-- The cores of a list are marked, and no others. -/
theorem State.applyMark_foldl (l : List (Fin 64)) (s : State) (c : Fin 64) :
    (l.foldl (fun s c => s.updCore c (fun k => { k with applyMark := true })) s).cores[c].applyMark =
      (s.cores[c].applyMark || decide (c ∈ l)) := by
  induction l generalizing s with
  | nil => simp
  | cons d l ih =>
    rw [List.foldl_cons, ih]
    by_cases same : d = c
    · subst same
      simp [State.updCore]
    · have ne : d.val ≠ c.val := fun e => same (Fin.ext e)
      simp [State.updCore, ne, Ne.symm same]

/-- Marking the cores of a map changes no sequencer of the house and no byte. -/
theorem State.calApply_marks (s : State) (m : Nat) : (s.calApply m).house = s.house ∧ (s.calApply m).mem = s.mem ∧
    ∀ c : Fin 64, (s.calApply m).cores[c].applyMark = (s.cores[c].applyMark || (bit m c.val && s.usable c)) := by
  let l := (coresIn m).filter (fun c => s.usable c)
  let u := l.foldl (fun s c => s.updCore c (fun k => { k with applyMark := true })) s
  have house : u.house = s.house := foldl_keeps State.house (f := fun s c => s.updCore c _) (fun _ _ => rfl) l s
  have mem : u.mem = s.mem := foldl_keeps State.mem (f := fun s c => s.updCore c _) (fun _ _ => rfl) l s
  have marks (c : Fin 64) : u.cores[c].applyMark = (s.cores[c].applyMark || (bit m c.val && s.usable c)) := by
    rw [State.applyMark_foldl]
    congr 1
    simp [l, coresIn, Bool.and_comm]
  have parts : (s.calApply m).house = u.house ∧ (s.calApply m).mem = u.mem ∧ (s.calApply m).cores = u.cores := by
    unfold State.calApply
    dsimp only
    split
    · exact ⟨rfl, rfl, rfl⟩
    · split <;> exact ⟨rfl, rfl, rfl⟩
  obtain ⟨sameHouse, sameMem, sameCores⟩ := parts
  exact ⟨sameHouse.trans house, sameMem.trans mem, fun c => by rw [sameCores]; exact marks c⟩

theorem calApply_marks (h : s.Takes .house w) (ok : (Instr.calApply .house w).wordOk = true) : ∃ t, exec (.calApply .house w) s = .next t ∧
    (∀ c : Fin 64, t.cores[c].applyMark =
      (s.cores[c].applyMark || (bit (s.house.scalar (wordBits w 38 5)).toNat c.val && s.usable c))) ∧
    t.house.s = s.house.s ∧ Seqr.wentOn s.house t.house ∧ s.sameBytes t := by
  let mid := s.calApply (s.house.scalar (wordBits w 38 5)).toNat
  obtain ⟨own, mem, marks⟩ : mid.house = s.house ∧ mid.mem = s.mem ∧ _ := s.calApply_marks _
  obtain ⟨t, exec_eq, rest, scalars, went⟩ := h.exec_cal (i := .calApply .house w) (mid := mid) ok rfl (calNow_run rfl) own
  refine ⟨t, exec_eq, fun c => ?_, scalars, went, fun a => by rw [State.mem_of_uncounted rest, mem]⟩
  rw [Core.applyMark_of_uncounted (State.core_of_uncounted rest c), marks]

/-! ### The write of a sequence entry (13.R359, R360, R363) -/

/-- What dealing entries to the converters leaves, where every conversion's start leaves it. -/
theorem State.dealBoth_keeps {α : Type} (g : State → α) (start : ∀ s am1 e r, g (State.startConversion s am1 e r) = g s)
    (count : ∀ (s : State) n p, g { s with monitor := { s.monitor with next := n, pass := p } } = g s)
    (stop : ∀ (s : State), g { s with monitor := { s.monitor with run := false } } = g s) (s : State) : g s.dealBoth = g s := by
  have dual (s : State) (am1 : Bool) : g (s.dealDual am1) = g s := by
    unfold State.dealDual
    dsimp only
    split
    · exact (start ..).trans (count s _ s.monitor.pass)
    · split
      · rfl
      · split
        · exact (start ..).trans (count ..)
        · rfl
  have ilv (s : State) (am1 : Bool) : g (s.dealIlv am1) = g s := by
    unfold State.dealIlv
    dsimp only
    split
    · rfl
    · split
      · exact (start ..).trans (count s _ s.monitor.pass)
      · split
        · exact (start ..).trans (count ..)
        · rfl
  have deal (s : State) (am1 : Bool) : g (s.deal am1) = g s := by
    unfold State.deal
    generalize (if am1 then s.monitor.am1.isSome else s.monitor.am0.isSome) = busy
    dsimp only
    split
    · rfl
    · split
      · exact ilv s am1
      · exact dual s am1
  have both : g ((s.deal false).deal true) = g s := (deal _ true).trans (deal s false)
  unfold State.dealBoth
  dsimp only
  split
  · exact (stop _).trans both
  · exact both

/-- The sequence entries but for their counts of conversions to come. -/
def State.settings (s : State) : Vector MonEntry 32 := s.monitor.entries.map (fun e => { e with invalid := 0 })

theorem State.settings_dealBoth (s : State) : s.dealBoth.settings = s.settings := by
  refine State.dealBoth_keeps State.settings (fun s am1 e r => ?_) (fun _ _ _ => rfl) (fun _ => rfl) s
  have counted : (updN s.monitor.entries e (fun e => { e with invalid := e.invalid - 1 })).map (fun e : MonEntry => { e with invalid := 0 }) =
      s.monitor.entries.map (fun e => { e with invalid := 0 }) := by
    ext i hi : 1
    simp only [Vector.getElem_map, getElem_updN]
    split <;> rfl
  unfold State.startConversion
  dsimp only
  split <;> split <;> exact counted

/-- A sequence that does not run deals no entry. -/
theorem State.dealBoth_entries (stopped : s.monitor.run = false) : s.dealBoth.monitor.entries = s.monitor.entries := by
  have idle (am1 : Bool) : s.deal am1 = s := by
    unfold State.deal
    rw [if_pos]
    simp [stopped]
  unfold State.dealBoth
  rw [idle, idle]
  dsimp only
  split <;> rfl

theorem State.newEntry_eq (s : State) (n : Fin 32) (v : Nat) : s.newEntry n v = {
    filt := v / 2 ^ 10 % 4
    gain := v / 2 ^ 8 % 4
    source := if 95 < v % 128 then 127 else v % 128
    invalid := s.monitor.entries[n].invalid } := by
  have read : getN s.monitor.entries n.val {} = s.monitor.entries[n] := dif_pos n.isLt
  rw [State.newEntry, read]
  simp [bits]

theorem changeCount_source {old new : MonEntry} (known : new.source ≠ 127) (other : old.source ≠ new.source) :
    sourceCount new ≤ changeCount old new := by
  unfold changeCount
  rw [if_pos ⟨other, known⟩]
  exact Nat.le_max_left ..

/-- What the write of another entry leaves. -/
theorem writeEntry_changed {n : Fin 32} {v : Nat} (other : s.newEntry n v ≠ getN s.monitor.entries n.val {}) :
    let t := s.writeEntry n.val v
    let new := s.newEntry n v
    t.monitor.entries[n].source = new.source ∧ t.monitor.entries[n].filt = new.filt ∧ t.monitor.entries[n].gain = new.gain ∧
    (s.monitor.run = false → s.monitor.entries[n].invalid ≤ t.monitor.entries[n].invalid ∧
      (new.source ≠ 127 → s.monitor.entries[n].source ≠ new.source → sourceCount new ≤ t.monitor.entries[n].invalid)) ∧
    t.monitor.results[n].valid = false ∧ t.monitor.results[n].fresh = false ∧
    ∀ m : Fin 32, m ≠ n → t.monitor.results[m] = s.monitor.results[m] := by
  intro t new
  have wrote : t = (s.entered n v).dealBoth := (s.writeEntry_eq n v).trans (if_neg other)
  have read : getN s.monitor.entries n.val {} = s.monitor.entries[n] := dif_pos n.isLt
  have settings := congrArg (fun l : Vector MonEntry 32 => l[n]) ((congrArg State.settings wrote).trans (s.entered n v).settings_dealBoth)
  have results : t.monitor.results = (s.entered n v).monitor.results := by rw [wrote]; exact (State.dealBoth_results _).results
  have here : (s.entered n v).monitor.entries[n] = { s.newEntry n v with
      invalid := max s.monitor.entries[n].invalid (changeCount s.monitor.entries[n] (s.newEntry n v)) } := by
    simp only [State.entered, read]
    simp [getElem_updN]
  simp only [State.settings, Fin.getElem_fin, Vector.getElem_map] at settings here
  rw [here] at settings
  have result : t.monitor.results[n] = { s.monitor.results[n] with valid := false, fresh := false } := by
    rw [results]
    simp [State.entered, getElem_updN]
  refine ⟨?_, ?_, ?_, fun stopped => ?_, by rw [result], by rw [result], fun m ne => ?_⟩
  · have source := congrArg MonEntry.source settings
    exact source
  · have filt := congrArg MonEntry.filt settings
    exact filt
  · have gain := congrArg MonEntry.gain settings
    exact gain
  · have kept : t.monitor.entries = (s.entered n v).monitor.entries := by rw [wrote]; exact State.dealBoth_entries stopped
    simp only [Fin.getElem_fin, kept, here]
    refine ⟨Nat.le_max_left .., fun known changed => ?_⟩
    exact (changeCount_source (new := s.newEntry n v) known changed).trans (Nat.le_max_right ..)
  · have ne' : n.val ≠ m.val := fun e => ne (Fin.ext e.symm)
    rw [results]
    simp [State.entered, getElem_updN, ne']

end

/-- Settles O30. -/
theorem calRegisterRows : Obligations.CalRegisterRows := by
  refine ⟨fun w s h => ⟨calRead_reads h, calSeq_writes h, calTap_points h, calApply_marks h⟩, fun s n v => ?_⟩
  have read : getN s.monitor.entries n.val {} = s.monitor.entries[n] := dif_pos n.isLt
  have same := s.newEntry_eq n v
  refine ⟨fun eq => (s.writeEntry_eq n v).trans (if_pos ((same.trans eq).trans read.symm)), fun ne => ?_⟩
  have changed := writeEntry_changed (s := s) (n := n) (v := v) (fun eq => ne (same.symm.trans (eq.trans read)))
  rw [same] at changed
  exact changed

end Sys2Proof.Machine
end


section
/-!
PROOF. The CAL rows with a tensor (12.R349): a calibration record of an odd length refutes their statement.
-/

namespace Sys2Proof.Machine
set_option Elab.async false

/-- A tensor of one element in secure SRAM. -/
def recordTd : TD :=
  { base := 3 * 2 ^ 44 + 0x1000, ext0 := 1, ext1 := 1, ext2 := 1, ext3 := 1, eff0 := 1, eff1 := 1, eff2 := 1, eff3 := 1
    str1 := 64, str2 := 64, str3 := 64, bound := 1000, format := 1 }

/-- House firmware at work with this tensor in slot 0, and record 0 stored with no payload byte, while the record itself gives 252: the
state is canonical, but no write of a record leaves it (12.R347). -/
def shortRecord : State :=
  { State.reset with
    boot := .service
    mem := Memory.write [] (storeKey 3 0) (tdBytes recordTd)
    assay := { stored := [(0, ([], State.reset.livePayload 0))] } }

/-- CAL.REC READ of record 0 to slot 0. -/
def readRecordWord : W128 := BitVec.ofNat 128 (0xC * 2 ^ 124 + 5 * 2 ^ 118)

theorem shortRecord_takes : shortRecord.Takes .house readRecordWord := by
  constructor <;> decide +kernel

theorem shortRecord_names : shortRecord.Names .house (wTdd readRecordWord) true recordTd := by
  constructor
  case stream => exact fun streams => absurd streams (by decide)
  all_goals decide +kernel

theorem shortRecord_span : shortRecord.localSpan .house true recordTd.base 256 := by
  refine ⟨by decide +kernel, ?_⟩
  decide +kernel

/-- Record 0 reads as its check word alone. -/
theorem shortRecord_reads : shortRecord.readRecord 0 = some (checkWord 0 []) := by decide +kernel

/-- Refutes O31: REC READ of a record is to leave the bytes that `readRecord` gives in 256 bytes at TDD. The statement bounds the length of
no stored payload: in the canonical state `shortRecord` the record has 4 bytes, and no 256 bytes are those. -/
theorem not_calTensorRows : ¬ Obligations.CalTensorRows := by
  unfold Obligations.CalTensorRows
  intro h
  obtain ⟨-, rows⟩ := h readRecordWord shortRecord shortRecord_takes (by decide +kernel)
  obtain ⟨reads, -⟩ := rows recordTd shortRecord_names
  obtain ⟨t, -, bytes, -⟩ := reads (checkWord 0 []) (by decide) (by decide +kernel) shortRecord_reads shortRecord_span
  have length := congrArg List.length bytes
  rw [State.bytesAt, Memory.length_bytes] at length
  exact absurd length (by decide +kernel)

end Sys2Proof.Machine
end


section
/-!
PROOF. Assay's scheduled work and measurements (12.R331 to R348).
-/

namespace Sys2Proof.Machine
set_option Elab.async false

/-- A core but for what a PROBE of its engines moves: its engines, its tap and its counts. -/
def Core.unprobed (k : Core) : Core := { k with engines := Vector.replicate 16 {}, tap := {}, events := [] }

/-- The state but for what a PROBE moves. -/
def State.unprobed (s : State) : State := { s with cores := s.cores.map Core.unprobed, fresh := 0 }

section

variable {s t u : State} {c : Fin 64}

theorem State.unprobed_updCore (s : State) (c : Fin 64) {f : Core → Core} (h : ∀ k, (f k).unprobed = k.unprobed) :
    (s.updCore c f).unprobed = s.unprobed := by
  simp only [State.updCore, State.unprobed]
  congr 1
  ext i hi : 1
  rcases Nat.decEq c.val i with ne | rfl <;> simp [*]

theorem State.unprobed_count (s : State) (c : Fin 64) (ev n : Nat) : (s.count c ev n).unprobed = s.unprobed :=
  s.unprobed_updCore c (f := fun k => { k with events := _ }) fun _ => rfl

theorem State.unprobed_updEngine (s : State) (c : Fin 64) (e : Nat) (f : Engine → Engine) : (s.updEngine c e f).unprobed = s.unprobed :=
  s.unprobed_updCore c (f := fun k => { k with engines := _ }) fun _ => rfl

theorem State.unprobed_selectPlies (s : State) (c : Fin 64) (es : List (Nat × Nat)) : (s.selectPlies c es).unprobed = s.unprobed := by
  have selected := foldl_keeps State.unprobed (f := fun s (e : Nat × Nat) => s.updEngine c e.1 (fun g => { g with selected := e.2 }))
    (fun s _ => s.unprobed_updEngine ..) es s
  unfold State.selectPlies
  dsimp only
  split
  · exact (State.unprobed_count ..).trans selected
  · exact selected

theorem State.unprobed_endOpenings (s : State) (c : Fin 64) (es : List (Nat × Nat)) : (s.endOpenings c es).unprobed = s.unprobed :=
  foldl_keeps State.unprobed (fun s _ => s.unprobed_updEngine ..) es s

theorem State.unprobed_tapProbe (s : State) (c : Fin 64) (e ply : Nat) : (s.tapProbe c e ply).unprobed = s.unprobed := by
  unfold State.tapProbe
  dsimp only
  split
  · rfl
  · exact State.unprobed_updCore (s.drawMany 2).2 c (f := fun k => { k with tap := _ }) fun _ => rfl

theorem State.unprobed_tapProbes (s : State) (c : Fin 64) (e ply n : Nat) : (s.tapProbes c e ply n).unprobed = s.unprobed := by
  induction n generalizing s with
  | zero => rfl
  | succ n ih => exact (ih _).trans (s.unprobed_tapProbe c e ply)

theorem State.unprobed_probeOwn (s : State) (c : Fin 64) (e ply rep : Nat) : (s.probeOwn c e ply rep).2.unprobed = s.unprobed := by
  let v := ((s.selectPlies c [(e, ply)]).endOpenings c [(e, ply)]).tapProbes c e ply rep
  have probed : v.unprobed = s.unprobed :=
    (State.unprobed_tapProbes ..).trans ((State.unprobed_endOpenings ..).trans (s.unprobed_selectPlies c [(e, ply)]))
  have drawn : (v.drawMany (1024 * rep + 1)).2.unprobed = s.unprobed := probed
  unfold State.probeOwn
  dsimp only
  exact (State.unprobed_count ..).trans ((State.unprobed_count ..).trans drawn)

/-! What a PROBE leaves of the state. -/

theorem State.cores_of_unprobed (h : t.unprobed = s.unprobed) (d : Fin 64) : t.cores[d].unprobed = s.cores[d].unprobed := by
  have cores : t.cores.map Core.unprobed = s.cores.map Core.unprobed := congrArg State.cores h
  simpa using congrArg (fun v : Vector Core 64 => v[d]) cores

theorem State.calCore_of_unprobed (h : t.unprobed = s.unprobed) (d : Fin 64) : t.cores[d].calCore = s.cores[d].calCore := by
  have work := congrArg Core.calCore (State.cores_of_unprobed h d)
  exact work

theorem State.house_of_unprobed (h : t.unprobed = s.unprobed) : t.house = s.house := by
  have house := congrArg State.house h
  exact house

theorem State.mem_of_unprobed (h : t.unprobed = s.unprobed) : t.mem = s.mem := by
  have mem := congrArg State.mem h
  exact mem

theorem State.localSpan_of_unprobed (h : t.unprobed = s.unprobed) {q : SeqId} {write : Bool} {a n : Nat} (span : s.localSpan q write a n) :
    t.localSpan q write a n := by
  have shape : t.shape = s.shape := by
    have shape := congrArg State.shape h
    exact shape
  have fabric : t.fabric = s.fabric := by
    have fabric := congrArg State.fabric h
    exact fabric
  refine ⟨span.1, fun i hi => ?_⟩
  obtain ⟨dev, region, ok⟩ := span.2 i hi
  refine ⟨dev.trans (congrArg Shape.fabricId shape).symm, region, ?_⟩
  have mapped (r o : Nat) : t.mapped q r o = s.mapped q r o := by simp only [State.mapped, State.coreBit, State.clusterBit, shape]
  rw [← ok]
  simp only [State.accessFault, mapped, State.memberFault, shape, fabric]

/-! ### Scheduled work -/

/-- The state in which the core has taken the first work it has. -/
def State.tookWork (s : State) (c : Fin 64) (rest : List CalCore) : State := s.updCore c (fun x => { x with calCore := rest })

theorem State.tookWork_calCore (s : State) (c : Fin 64) (rest : List CalCore) : (s.tookWork c rest).cores[c].calCore = rest := by
  simp [State.tookWork, State.updCore]

/-- Work that may run runs, on the state in which the core has taken it. -/
theorem calCoreExecute_run {k : CalCore} {rest : List CalCore} (first : s.cores[c].calCore = k :: rest) (acts : s.assayActs = true)
    (usable : s.usable c = true) (idle : s.coreIdle c = true) (free : s.capFree c (enginesIn k.emask).length = true) {x : Unit}
    (run : (calCoreWork c k).run (s.tookWork c rest) = .ok x t) : exec (.calCoreExecute c) s = .next t := by
  refine congrArg Host.Outcome.next ?_
  have may : (s.assayActs && s.usable c && s.coreIdle c && s.capFree c (enginesIn k.emask).length) = true := by
    rw [acts, usable, idle, free]
    rfl
  rw [first]
  dsimp only
  rw [if_pos may]
  have ran : (calCoreWork c k).run (s.updCore c (fun x => { x with calCore := rest })) = .ok x t := run
  rw [ran]

theorem calCoreWork_verify {k : CalCore} (verify : k.verify = true) (empty : tdEmpty k.tdd = true) :
    (calCoreWork c k).run u = .ok () ((enginesIn k.emask).foldl (fun s e => s.verifyFor c e k.ply) u) := by
  unfold calCoreWork
  rw [if_pos verify, empty]
  rfl

/-- A PROBE whose row lies outside its destination writes nothing. -/
theorem probeFor_beyond {k : CalCore} {n : Nat} (beyond : k.tdd.eff1 ≤ n) (e : Nat) :
    (probeFor c k n e).run u = .ok () (u.probeOwn c e k.ply k.rep).2 := by
  unfold probeFor
  simp only [EStateM.run_bind, EStateM.run_get, if_neg (Nat.not_lt.mpr beyond)]
  rfl

theorem probes_beyond {k : CalCore} (beyond : k.tdd.eff1 = 0) : ∀ (l : List (Nat × Nat)) (u : State),
    ∃ xs t, (l.mapM (fun x => probeFor c k x.1 x.2)).run u = .ok xs t ∧ t.unprobed = u.unprobed := by
  intro l
  induction l with
  | nil => exact fun u => ⟨[], u, rfl, rfl⟩
  | cons x l ih =>
    intro u
    obtain ⟨xs, t, run, kept⟩ := ih (u.probeOwn c x.2 k.ply k.rep).2
    refine ⟨() :: xs, t, ?_, kept.trans (u.unprobed_probeOwn c x.2 k.ply k.rep)⟩
    simp only [List.mapM_cons, EStateM.run_bind, probeFor_beyond (c := c) (k := k) (n := x.1) (by omega), run]
    rfl

theorem calCoreWork_probe {k : CalCore} (probe : k.verify = false) {xs : List Unit}
    (run : (((enginesIn k.emask).mapIdx (fun n e => (n, e))).mapM (fun x => probeFor c k x.1 x.2)).run u = .ok xs t) :
    (calCoreWork c k).run u = .ok () t := by
  unfold calCoreWork
  rw [if_neg (by rw [probe]; exact Bool.false_ne_true)]
  simp only [EStateM.run_bind, run]
  rfl

/-- A PROBE without destination rows leaves memory and the house sequencer alone. -/
theorem calCoreExecute_probe {k : CalCore} {rest : List CalCore} (first : s.cores[c].calCore = k :: rest) (acts : s.assayActs = true)
    (usable : s.usable c = true) (idle : s.coreIdle c = true) (free : s.capFree c (enginesIn k.emask).length = true)
    (probe : k.verify = false) (beyond : k.tdd.eff1 = 0) : ∃ t, exec (.calCoreExecute c) s = .next t ∧ t.cores[c].calCore = rest ∧
      t.house = s.house ∧ s.sameBytes t := by
  obtain ⟨xs, t, run, kept⟩ := probes_beyond (c := c) beyond ((enginesIn k.emask).mapIdx (fun n e => (n, e))) (s.tookWork c rest)
  refine ⟨t, calCoreExecute_run first acts usable idle free (calCoreWork_probe probe run), ?_, (State.house_of_unprobed kept).trans rfl, fun a => ?_⟩
  · exact (State.calCore_of_unprobed kept c).trans (s.tookWork_calCore c rest)
  · rw [State.mem_of_unprobed kept]
    rfl

/-- The results of a PROBE as the bytes of its row. -/
def probeBytes (v : List Int) : List Byte := v.flatMap (fun x => leBytes 4 (unsigned 32 x))

theorem length_probeBytes (v : List Int) : (probeBytes v).length = 4 * v.length := by
  induction v with
  | nil => rfl
  | cons x v ih =>
    simp only [probeBytes, List.flatMap_cons, List.length_append, length_leBytes, List.length_cons] at ih ⊢
    omega

/-- A PROBE of one engine writes its results to the row of its destination. -/
theorem calCoreExecute_row {k : CalCore} {rest : List CalCore} {e : Nat} (first : s.cores[c].calCore = k :: rest) (acts : s.assayActs = true)
    (usable : s.usable c = true) (idle : s.coreIdle c = true) (free : s.capFree c (enginesIn k.emask).length = true)
    (probe : k.verify = false) (wf : s.canonical = true) (one : enginesIn k.emask = [e]) (row : k.tdd.eff1 = 1)
    (span : s.localSpan .house true (rowAddr k.tdd 0 0 0) (4 * k.tdd.eff0)) :
    let v := ((s.tookWork c rest).probeOwn c e k.ply k.rep).1.take k.tdd.eff0
    ∃ t, exec (.calCoreExecute c) s = .next t ∧ t.cores[c].calCore = rest ∧ t.house = s.house ∧
      t.bytesAt (rowAddr k.tdd 0 0 0) (4 * v.length) = probeBytes v ∧
      s.sameOutside t (rowAddr k.tdd 0 0 0 % 2 ^ 48) (4 * v.length) := by
  intro v
  let p := ((s.tookWork c rest).probeOwn c e k.ply k.rep).2
  have kept : p.unprobed = (s.tookWork c rest).unprobed := State.unprobed_probeOwn ..
  have mem : p.mem = s.mem := (State.mem_of_unprobed kept).trans rfl
  have short : 4 * v.length ≤ 4 * k.tdd.eff0 := by
    exact Nat.mul_le_mul_left 4 (List.length_take_le ..)
  have part : p.localSpan .house true (rowAddr k.tdd 0 0 0) (probeBytes v).length := by
    rw [length_probeBytes]
    exact (State.localSpan_of_unprobed kept (s := s.tookWork c rest) span).part (i := 0) (by omega)
  obtain ⟨t, wrote, tMem, shell⟩ := writeMem_run 0 part
  have probed : (probeFor c k 0 e).run (s.tookWork c rest) = .ok () t := by
    unfold probeFor
    simp only [EStateM.run_bind, EStateM.run_get]
    rw [if_pos (by omega)]
    exact wrote
  have run : (((enginesIn k.emask).mapIdx (fun n e => (n, e))).mapM (fun x => probeFor c k x.1 x.2)).run (s.tookWork c rest) =
      .ok [()] t := by
    rw [one]
    simp only [List.mapIdx_cons, List.mapIdx_nil, List.mapM_cons, List.mapM_nil, EStateM.run_bind, probed]
    rfl
  have memWf : s.mem.wf = true := State.mem_wf wf
  refine ⟨t, calCoreExecute_run first acts usable idle free (calCoreWork_probe probe run), ?_, ?_, ?_, fun a outside => ?_⟩
  · have work := congrArg Core.calCore (cores_of_shell shell c)
    exact Eq.trans work ((State.calCore_of_unprobed kept c).trans (s.tookWork_calCore c rest))
  · exact (State.seqr_of_shell shell .house).trans ((State.house_of_unprobed kept).trans rfl)
  · rw [State.bytesAt, tMem, mem, ← length_probeBytes]
    exact Memory.bytes_write memWf ..
  · rw [tMem, mem]
    exact Memory.byte_write_outside _ _ _ a memWf (by rw [length_probeBytes]; exact outside)

/-! ### Measurements and re-anneals -/

theorem sampleWaitExpiry_probes {ply : Fin 8192} (active : (s.assayPly ply.val).meas.active = true) (acts : s.assayActs = true)
    (cal : s.calPly ply.val = true) (none_ : s.cores[plyCore ply.val].calCore = []) :
    ∃ t k, exec (.sampleWaitExpiry ply) s = .next t ∧ t.cores[plyCore ply.val].calCore = [k] ∧ k.verify = false ∧
      k.emask = 2 ^ plyEngine ply.val ∧ k.ply = ply.val % 8 ∧ k.rep = 64 ∧ s.sameBytes t := by
  obtain ⟨p, woken⟩ := s.wakeEvent_eq false
  let k : CalCore := { verify := false, emask := 2 ^ plyEngine ply.val, ply := ply.val % 8, rep := 64 }
  let t := (s.wakeEvent false).updCore (plyCore ply.val) (fun x => { x with calCore := x.calCore ++ [k] })
  have run : exec (.sampleWaitExpiry ply) s = .next t := by
    refine congrArg Host.Outcome.next (if_pos ?_)
    rw [active, acts, cal, none_]
    rfl
  refine ⟨t, k, run, ?_, rfl, rfl, rfl, rfl, fun a => ?_⟩
  · have cores : (s.wakeEvent false).cores = s.cores := by rw [woken]
    simpa [t, State.updCore, cores] using none_
  · simp only [t, woken]
    rfl

theorem annealWaitExpiry_holds {ply : Fin 8192} (due : s.plyDue ply.val = true) : ∃ t, exec (.annealWaitExpiry ply) s = .next t ∧
    (t.assayPly ply.val).overdue = true ∧ t.cores = s.cores ∧ s.sameBytes t := by
  refine ⟨_, congrArg Host.Outcome.next (if_pos due), ?_, rfl, fun _ => rfl⟩
  have overdue : ({ s.assayPly ply.val with overdue := true } : AssayPly) ≠ {} := fun same =>
    Bool.noConfusion (congrArg AssayPly.overdue same)
  rw [State.assayPly_updAssay overdue, if_pos rfl]

end

/-- Settles O32. -/
theorem assayEvents : Obligations.AssayEvents := by
  intro s c ply
  refine ⟨fun k rest first acts usable idle free => ⟨fun verify empty => ?_, calCoreExecute_probe first acts usable idle free,
    fun e probe wf one row _ span => calCoreExecute_row first acts usable idle free probe wf one row span⟩, fun idle can => ?_,
    fun active acts cal done => ?_, sampleWaitExpiry_probes, fun can => congrArg Host.Outcome.next (if_pos can), annealWaitExpiry_holds,
    fun off => congrArg Host.Outcome.next (if_neg (by rw [off]; exact Bool.false_ne_true))⟩
  · exact calCoreExecute_run first acts usable idle free (calCoreWork_verify verify empty)
  · exact congrArg Host.Outcome.next (if_pos (by rw [idle, can]; rfl))
  · exact congrArg Host.Outcome.next (if_pos (by rw [active, acts, cal, done]; rfl))

end Sys2Proof.Machine
end


section
/-!
PROOF. The decode of the LOOM class (08.R234 to R240): the entry that a word puts into the Loom queue, and LOOM.PLY on an empty queue.
-/

namespace Sys2Proof.Machine
set_option Elab.async false

section

variable {s t : State} {c : Fin 64} {w : W128}

/-! ### What joins the queue -/

theorem roomLoom_run (room : s.cores[c].loomQ.length < 8) : (roomLoom c).run s = .ok () s := by
  simp only [roomLoom, EStateM.run_bind, EStateM.run_get, if_neg (Nat.not_le.mpr room)]
  rfl

theorem newEntry_run (q : SeqId) (w : W128) (s : State) : (newEntry q w).run s = .ok (s.ownEntry q w) (s.numbered q) := rfl

/-- The state in which an instruction has joined the Loom queue, which goes on. -/
def State.queued (s : State) (c : Fin 64) (x : LoomInstr) : State :=
  (s.updCore c (fun k => { k with loomQ := k.loomQ ++ [x] })).pump c

theorem putLoom_run (c : Fin 64) (x : LoomInstr) (s : State) : (putLoom c x).run s = .ok () (s.queued c x) := rfl

/-- A new instruction of the Loom queue. -/
structure LoomInstr.New (x : LoomInstr) (s : State) (c : Fin 64) (w : W128) : Prop where
  phase : x.phase = .queued
  works : x.noop = false
  pc : x.q.pc = (s.seqr (.core c)).pc
  opcode : x.q.opcode = wOpcode w
  done : x.q.done = donesTo (.core c) w

/-- A row whose decode puts an instruction into the queue. -/
theorem State.Takes.exec_queues (h : s.Takes (.core c) w) {i : Instr} {body : ExecM Flow} {v : State} {x : LoomInstr} {p : LoomInstr → Prop}
    (ok : i.wordOk = true) (means : exec i s = s.instr i (.core c) w body) (run : body.run s = .ok .next (v.queued c x))
    (queue : v.cores[c].loomQ = s.cores[c].loomQ) (mem : v.mem = s.mem) (fresh : x.New s c w) (has : p x) :
    ∃ (v : State) (x : LoomInstr), exec i s =
        .next (((v.updCore c (fun k => { k with loomQ := k.loomQ ++ [x] })).pump c).updSeqr (.core c)
          (fun r => r.advance (s.seqr (.core c)).pc .next)) ∧
      v.cores[c].loomQ = s.cores[c].loomQ ∧ v.mem = s.mem ∧ x.phase = .queued ∧ x.noop = false ∧
      x.q.pc = (s.seqr (.core c)).pc ∧ x.q.opcode = wOpcode w ∧ x.q.done = donesTo (.core c) w ∧ p x := by
  refine ⟨v, x, ?_, queue, mem, fresh.phase, fresh.works, fresh.pc, fresh.opcode, fresh.done, has⟩
  exact (means.trans ((State.instr_eq ..).1 ok)).trans (congrArg Host.Outcome.next (h.decode_ok run))

theorem State.numbered_loomQ (s : State) (c : Fin 64) : (s.numbered (.core c)).cores[c].loomQ = s.cores[c].loomQ := by
  simp [State.numbered, State.updSeqr, State.updCore]

/-! ### MVM and MVMT -/

/-- The checks of an MVM pass. -/
theorem checkMv_run {t : Bool} {es : List LoomEngine} {tda tdd : TD} (h : s.MvChecks c w t es tda tdd) :
    (checkMv c w t es tda tdd).run s = .ok () s := by
  obtain ⟨planes, whole⟩ := h.planes
  obtain ⟨format, extents⟩ := h.format
  obtain ⟨same, small⟩ := h.classes
  have chain := h.chain
  have plane : (decide (bits (wImm w) 0 3 ≤ 4) && es.length % 2 ^ bits (wImm w) 0 3 == 0) = true := by simp [planes, whole]
  have formats : (tdFmt tda == (if wFlag w 3 then .a4u else .a8u) && tda.eff1 == tdd.eff1) = true := by simp [format, extents]
  have classes : (es.all (fun e => e.w8 == (es.headD {}).w8) && !(wFlag w 0 && s.cores[c].chain && s.cores[c].chainW8 != (es.headD {}).w8)
      && !(wFlag w 2 && (es.headD {}).w8)) = true := by
    have all : es.all (fun e => e.w8 == (es.headD {}).w8) = true := by simpa using same
    rw [all]
    have modes : (wFlag w 2 && (es.headD {}).w8) = false := by
      rw [Bool.eq_false_iff, ne_eq, Bool.and_eq_true]
      exact small
    rw [modes]
    cases acc : wFlag w 0 with
    | false => rfl
    | true =>
      obtain ⟨-, -, -, w8s⟩ := chain acc
      rw [w8s, bne_self_eq_false, Bool.and_false]
      rfl
  have chains : (!wFlag w 0 || (s.cores[c].chain && s.cores[c].chainT == t && s.cores[c].chainK20 == wFlag w 2)) = true := by
    cases acc : wFlag w 0 with
    | false => rfl
    | true =>
      obtain ⟨there, kind, k20, -⟩ := chain acc
      rw [there, kind, k20, beq_self_eq_true, beq_self_eq_true]
      rfl
  simp only [checkMv, EStateM.run_bind, EStateM.run_get, demand_pass plane, demand_pass formats, demand_pass classes, demand_pass chains,
    demand_pass (decide_eq_true h.input), demand_pass (decide_eq_true h.output), demand_pass (decide_eq_true h.entries)]

/-- The finish operands that an MVM without a chain samples. -/
def State.finish (s : State) (c : Fin 64) (w : W128) : FinishOps :=
  match (finishOps (.core c) w (bit (wImm w) 11) []).run s with
  | .ok o _ => o
  | .error _ _ => {}

theorem finishOps_run (s : State) (c : Fin 64) (w : W128) : (finishOps (.core c) w (bit (wImm w) 11) []).run s = .ok (s.finish c w) s := rfl

/-- The instruction that an MVM puts into the queue. -/
def State.mvInstr (s : State) (c : Fin 64) (w : W128) (t : Bool) (tdd tda : TD) : LoomInstr :=
  { q := { s.ownEntry (.core c) w with
      srcs := [tda]
      dsts := if wFlag w 1 then [] else [tdd]
      dst := if wFlag w 1 then [] else tdd :: chainDests [] }
    kind := if t then .mvmt else .mvm
    acc := wFlag w 0, hold := wFlag w 1, k20 := wFlag w 2, a4 := wFlag w 3
    engines := s.enginesOf c w, ks := 2 ^ bits (wImm w) 0 3, tdd := tdd, tda := tda, psh := bits (wImm w) 17 3
    fin := s.finish c w
    w8 := ((s.enginesOf c w).headD {}).w8
    producer := !wFlag w 1 && produces tdd [] false
    abandons := !wFlag w 0 && (s.numbered (.core c)).cores[c].chain }

/-- The state in which the chain of an MVM is open (03.R91). -/
def State.chained (s : State) (c : Fin 64) (w : W128) (t w8 : Bool) : State :=
  s.updCore c (fun k =>
    if wFlag w 0 then { k with chain := wFlag w 1 }
    else { k with chain := wFlag w 1, chainT := t, chainW8 := w8, chainK20 := wFlag w 2 })

theorem State.chained_loomQ (s : State) (c : Fin 64) (w : W128) (t w8 : Bool) : (s.chained c w t w8).cores[c].loomQ = s.cores[c].loomQ := by
  simp only [State.chained, State.updCore, Fin.getElem_fin, Vector.getElem_set_self]
  split <;> rfl

theorem loomMv_run {t : Bool} {tdd tda : TD} (room : s.cores[c].loomQ.length < 8)
    (settled : bit (wImm w) 20 = true → ∀ i ∈ s.cores[c].loomQ, i.kind = .ply → i.phase = .done) (plain : bits (wImm w) 40 8 = 0xFF)
    (dest : s.Names (.core c) (wTdd w) true tdd) (source : s.Names (.core c) (wTda w) false tda) (tddFull : tdEmpty tdd = false)
    (tdaFull : tdEmpty tda = false) (engines : s.enginesOf c w ≠ []) (checks : s.MvChecks c w t (s.enginesOf c w) tda tdd) :
    (loomMv c w t).run s = .ok .next (((s.numbered (.core c)).chained c w t ((s.enginesOf c w).headD {}).w8).queued c
      (s.mvInstr c w t tdd tda)) := by
  have waits : (bit (wImm w) 20 && s.cores[c].loomQ.any (fun i => i.kind == .ply && i.phase != .done)) = false := by
    cases sel : bit (wImm w) 20 with
    | false => rfl
    | true => simpa using settled sel
  have some_ : (s.enginesOf c w == []) = false := by simpa using engines
  have named : (s.enginesOf c w != []) = true := bne_iff_ne.mpr engines
  have chain : (chainOperand (.core c) (bits (wImm w) 40 8) (some tdd) (some tdd.ext0)).run s = .ok [] s := by
    simp only [chainOperand, if_pos plain]
    rfl
  have fin : (if wFlag w 1 then ([] : List ChainStep) else []) = [] := ite_self _
  unfold loomMv
  simp only [EStateM.run_bind, EStateM.run_get, waits, Bool.false_eq_true, if_false, operand_run (pos := 0) dest,
    operand_run (pos := 1) source, chain, named, some_, if_true, checkMv_run checks, fin, finishOps_run, roomLoom_run room,
    newEntry_run, tdaFull, tddFull, Bool.or_self]
  rfl

/-! ### PROG, VERIFY and PROBE -/

/-- The instruction that a PROG or VERIFY puts into the queue. -/
def State.rowsInstr (s : State) (c : Fin 64) (w : W128) (kind : LoomKind) (w8 : Bool) (tda : TD) : LoomInstr :=
  { q := { s.ownEntry (.core c) w with srcs := [tda] }
    kind := kind, w8 := w8, engines := s.maskAt c w (bits (wImm w) 45 3), tda := tda
    row0 := bits (wImm w) 35 10, nrow := bits (wImm w) 24 11
    iter := if bits (wImm w) 20 4 = 0 ∨ 12 < bits (wImm w) 20 4 then 12 else bits (wImm w) 20 4
    rd := bits (wImm w) 15 5, re := bits (wImm w) 10 5 }

theorem loomRows_run {kind : LoomKind} {w8 : Bool} {tda : TD} (room : s.cores[c].loomQ.length < 8)
    (source : s.Names (.core c) (wTda w) false tda) (format : tdFmt tda = .int8) (wide : tda.ext0 = 512)
    (rows : tda.eff1 = bits (wImm w) 24 11) (planes : tda.eff2 = (s.maskAt c w (bits (wImm w) 45 3)).length)
    (inside : bits (wImm w) 35 10 + bits (wImm w) 24 11 ≤ 1024) (full : tdEmpty tda = false) :
    (loomRows c w kind w8).run s = .ok .next ((s.numbered (.core c)).queued c (s.rowsInstr c w kind w8 tda)) := by
  have formats : (tdFmt tda == .int8 && tda.ext0 == 512 && tda.eff1 == bits (wImm w) 24 11 &&
      tda.eff2 == (s.maskAt c w (bits (wImm w) 45 3)).length) = true := by simp [format, wide, rows, planes]
  unfold loomRows
  simp only [EStateM.run_bind, EStateM.run_get, operand_run (pos := 1) source, demand_pass formats, demand_pass (decide_eq_true inside),
    roomLoom_run room, newEntry_run, full, Bool.false_eq_true, if_false]
  rfl

/-- The instruction that a PROBE puts into the queue. -/
def State.probeInstr (s : State) (c : Fin 64) (w : W128) (tdd : TD) : LoomInstr :=
  { q := { s.ownEntry (.core c) w with dsts := [tdd], dst := [tdd] }
    kind := .probe, engines := s.maskAt c w (bits (wImm w) 45 3), tdd := tdd, rep := bits (wImm w) 0 8 }

theorem loomProbe_run {tdd : TD} (room : s.cores[c].loomQ.length < 8) (dest : s.Names (.core c) (wTdd w) true tdd)
    (format : tdFmt tdd = .int32) (rows : tdd.eff1 = (s.maskAt c w (bits (wImm w) 45 3)).length) (some_ : bits (wImm w) 0 8 ≠ 0)
    (full : tdEmpty tdd = false) :
    (loomProbe c w).run s = .ok .next ((s.numbered (.core c)).queued c (s.probeInstr c w tdd)) := by
  have formats : (tdFmt tdd == .int32 && tdd.eff1 == (s.maskAt c w (bits (wImm w) 45 3)).length) = true := by simp [format, rows]
  unfold loomProbe
  simp only [EStateM.run_bind, EStateM.run_get, operand_run (pos := 0) dest, demand_pass formats, roomLoom_run room, newEntry_run, full,
    some_, Bool.false_eq_true, or_self, if_false]
  rfl

/-! ### PLY on an empty queue -/

/-- The plies of record that a LOOM.PLY names. -/
def plyEngines (w : W128) : List LoomEngine :=
  (maskEngines (wFlags w % 2 ^ 16)).map (fun n => { engine := n, ply := bits (wImm w) (3 * n) 3 })

/-- The instruction that a LOOM.PLY puts into the queue. -/
def State.plyInstr (s : State) (c : Fin 64) (w : W128) : LoomInstr :=
  { q := s.ownEntry (.core c) w, kind := .ply, took := true, engines := plyEngines w }

theorem loomPly_run (room : s.cores[c].loomQ.length < 8) :
    (loomPly c w).run s = .ok .next ((s.numbered (.core c)).queued c (s.plyInstr c w)) := by
  unfold loomPly
  simp only [EStateM.run_bind, roomLoom_run room, newEntry_run]
  rfl

/-- The state but for the engines of a core. -/
def State.offEngines (c : Fin 64) (s : State) : State := s.updCore c (fun k => { k with engines := Vector.replicate 16 {} })

theorem State.offEngines_updEngine (s : State) (c : Fin 64) (e : Nat) (f : Engine → Engine) :
    (s.updEngine c e f).offEngines c = s.offEngines c := by
  simp [State.offEngines, State.updEngine, State.updCore]

theorem State.offEngines_runPly (s : State) (c : Fin 64) (x : LoomInstr) : (s.runPly c x).offEngines c = s.offEngines c :=
  (foldl_keeps (State.offEngines c) (fun s _ => s.offEngines_updEngine ..) _ _).trans
    (foldl_keeps (State.offEngines c) (fun s _ => s.offEngines_updEngine ..) _ s)

section

variable {u : State} (h : t.offEngines c = u.offEngines c)
include h

theorem State.loomQ_of_offEngines : t.cores[c].loomQ = u.cores[c].loomQ := by
  have queue := congrArg (fun v : State => v.cores[c].loomQ) h
  simpa [State.offEngines, State.updCore] using queue

theorem State.seqr_of_offEngines : t.seqr (.core c) = u.seqr (.core c) := by
  have seqr := congrArg (fun v : State => v.cores[c].seq) h
  simpa [State.offEngines, State.updCore, State.seqr] using seqr

theorem State.cores_of_offEngines {d : Fin 64} (other : d ≠ c) : t.cores[d] = u.cores[d] := by
  have cores := congrArg (fun v : State => v.cores[d]) h
  have ne : c.val ≠ d.val := fun e => other (Fin.ext e.symm)
  simpa [State.offEngines, State.updCore, Vector.getElem_set, ne] using cores

theorem State.rest_of_offEngines : t.mem = u.mem ∧ t.plies = u.plies ∧ t.cells = u.cells := by
  have mem := congrArg State.mem h
  have plies := congrArg State.plies h
  have cells := congrArg State.cells h
  exact ⟨mem, plies, cells⟩

end

/-- What each engine's ply of record is once those of a list are set. -/
theorem State.ofRecord_foldl (f : Nat → Nat) (l : List LoomEngine) (named : ∀ x ∈ l, x.ply = f x.engine) (s : State) (e : Fin 16) :
    (l.foldl (fun s x => s.updEngine c x.engine (fun g => { g with ofRecord := x.ply })) s).cores[c].engines[e].ofRecord =
      if e.val ∈ l.map (fun x => x.engine) then f e.val else s.cores[c].engines[e].ofRecord := by
  induction l generalizing s with
  | nil => simp
  | cons x l ih =>
    obtain ⟨here, rest⟩ := List.forall_mem_cons.mp named
    rw [List.foldl_cons, ih rest]
    have set : (s.updEngine c x.engine (fun g => { g with ofRecord := x.ply })).cores[c].engines[e].ofRecord =
        if x.engine = e.val then x.ply else s.cores[c].engines[e].ofRecord := by
      simp only [State.updEngine, State.updCore, Fin.getElem_fin, Vector.getElem_set_self, getElem_updN]
      split <;> rfl
    rw [set]
    by_cases same : x.engine = e.val
    · simp [← same, here]
    · simp [same, Ne.symm same]

theorem State.ofRecord_endOpenings (s : State) (c : Fin 64) (es : List (Nat × Nat)) (e : Fin 16) :
    (s.endOpenings c es).cores[c].engines[e].ofRecord = s.cores[c].engines[e].ofRecord := by
  refine foldl_keeps (fun s : State => s.cores[c].engines[e].ofRecord) (fun s x => ?_) es s
  simp only [State.updEngine, State.updCore, Fin.getElem_fin, Vector.getElem_set_self, getElem_updN]
  split <;> rfl

theorem mem_plyEngines (w : W128) (e : Fin 16) : e.val ∈ (plyEngines w).map (fun x => x.engine) ↔ bit (wFlags w) e.val = true := by
  have small := e.isLt
  simp only [plyEngines, maskEngines, List.map_map, Function.comp_def, List.map_id', List.mem_filter, List.mem_range, small, true_and]
  have same : bit (wFlags w % 2 ^ 16) e.val = bit (wFlags w) e.val := by
    have low := Nat.testBit_mod_two_pow (wFlags w) 16 e.val
    rw [decide_eq_true small, Bool.true_and, Nat.testBit_eq_decide_div_mod_eq, Nat.testBit_eq_decide_div_mod_eq] at low
    exact low
  rw [same]

/-- A PLY sets the plies of record of the engines that its word names. -/
theorem State.ofRecord_runPly (s : State) {x : LoomInstr} (engines : x.engines = plyEngines w) (e : Fin 16) :
    (s.runPly c x).cores[c].engines[e].ofRecord =
      if bit (wFlags w) e.val then bits (wImm w) (3 * e.val) 3 else s.cores[c].engines[e].ofRecord := by
  have named : ∀ y ∈ x.engines, y.ply = bits (wImm w) (3 * y.engine) 3 := by
    rw [engines]
    intro y hy
    obtain ⟨n, -, rfl⟩ := List.mem_map.mp hy
    rfl
  unfold State.runPly
  rw [State.ofRecord_foldl (fun n => bits (wImm w) (3 * n) 3) x.engines named, State.ofRecord_endOpenings, engines]
  simp only [mem_plyEngines]

/-- A PLY that heads an empty queue is done at once. -/
theorem State.queued_ply {x : LoomInstr} (empty : s.cores[c].loomQ = []) (ply : x.kind = .ply) (new : x.phase = .queued) (took : x.took = true)
    (works : x.noop = false) : s.queued c x =
      ((s.updCore c (fun k => { k with loomQ := k.loomQ ++ [x] })).runPly c x).updLoom c x.q.uid (fun i => { i with phase := .done }) := by
  let u := s.updCore c (fun k => { k with loomQ := k.loomQ ++ [x] })
  let t := (u.runPly c x).updLoom c x.q.uid (fun i => { i with phase := .done })
  have uQueue : u.cores[c].loomQ = [x] := by
    simp only [u, State.updCore, Fin.getElem_fin, Vector.getElem_set_self]
    exact congrArg (· ++ [x]) empty
  have tQueue : t.cores[c].loomQ = [{ x with phase := .done }] := by
    have same := (State.loomQ_of_offEngines (u.offEngines_runPly c x)).trans uQueue
    simp only [t, State.updLoom, State.updCore, Fin.getElem_fin, Vector.getElem_set_self] at same ⊢
    rw [same]
    simp
  have steps : u.advanceLoom c x = t := by
    simp only [State.advanceLoom, new, took, if_true, State.issueLoom, works, Bool.false_eq_true, if_false, ply]
    rfl
  have first : u.cores[c].loomQ.find? (fun i => !loomPast i) = some x := by
    rw [uQueue]
    simp [loomPast, new]
  have past : t.cores[c].loomQ.find? (fun i => !loomPast i) = none := by
    rw [tQueue]
    simp [loomPast]
  have stops (n : Nat) : State.pumpLoom n c t = t := by
    cases n with
    | zero => rfl
    | succ n => simp only [State.pumpLoom, past]
  have pumped : State.pumpLoom 16 c u = t := by
    rw [State.pumpLoom, first]
    dsimp only
    rw [steps, past, if_neg nofun]
    exact stops 15
  have unchanged : t.changePlies c = t := by
    rw [State.changePlies, tQueue]
    simp [loomPast]
  exact (congrArg (State.changePlies · c) pumped).trans unchanged

/-- LOOM.PLY on an empty queue. -/
theorem loomPly_sets (h : s.Takes (.core c) w) (ok : (Instr.loomPly (.core c) w).wordOk = true) (empty : s.cores[c].loomQ = []) :
    ∃ t, exec (.loomPly (.core c) w) s = .next t ∧
      (∀ e : Fin 16, t.cores[c].engines[e].ofRecord =
        if bit (wFlags w) e.val then bits (wImm w) (3 * e.val) 3 else s.cores[c].engines[e].ofRecord) ∧
      (∀ d : Fin 64, d ≠ c → t.cores[d] = s.cores[d]) ∧
      Seqr.wentOn (s.seqr (.core c)) (t.seqr (.core c)) ∧ s.sameBytes t ∧ t.plies = s.plies ∧ t.cells = s.cells := by
  let x := s.plyInstr c w
  let u := (s.numbered (.core c)).updCore c (fun k => { k with loomQ := k.loomQ ++ [x] })
  let r := u.runPly c x
  have kept : r.offEngines c = u.offEngines c := u.offEngines_runPly c x
  have run := loomPly_run (w := w) (s := s) (c := c) (by rw [empty]; decide)
  rw [State.queued_ply ((s.numbered_loomQ c).trans empty) rfl rfl rfl rfl] at run
  obtain ⟨mem, plies, cells⟩ := State.rest_of_offEngines kept
  have seqr : r.seqr (.core c) = { s.seqr (.core c) with nextUid := (s.seqr (.core c)).nextUid + 1 } := by
    rw [State.seqr_of_offEngines kept, ← s.numbered_seqr (.core c)]
    simp [u, State.seqr, State.updCore]
  refine ⟨_, ((State.instr_eq ..).1 ok).trans (congrArg Host.Outcome.next (h.decode_ok run)), fun e => ?_, fun d other => ?_, ?_,
    fun a => congrArg (Memory.byte · a) mem, plies, cells⟩
  · have record := State.ofRecord_runPly (c := c) (w := w) u (x := x) rfl e
    have own : u.cores[c].engines[e].ofRecord = s.cores[c].engines[e].ofRecord := by simp [u, State.numbered, State.updSeqr]
    rw [own] at record
    simp only [State.updSeqr, State.updLoom, Fin.getElem_fin, State.updCore_self]
    exact record
  · have same : u.cores[d] = s.cores[d] := by simp [u, State.numbered, State.updSeqr, other]
    simp only [State.updSeqr, State.updLoom, Fin.getElem_fin, State.updCore_other _ _ _ other]
    exact (State.cores_of_offEngines kept other).trans same
  · have own : (r.updLoom c x.q.uid (fun i => { i with phase := .done })).seqr (.core c) = r.seqr (.core c) := by
      simp [State.updLoom, State.updCore, State.seqr]
    rw [State.seqr_updSeqr]
    refine ⟨?_, ?_⟩
    · exact (congrArg (fun q : Seqr => (q.advance (s.seqr (.core c)).pc .next).pc) (own.trans seqr)).trans rfl
    · exact (congrArg (fun q : Seqr => (q.advance (s.seqr (.core c)).pc .next).loops) (own.trans seqr)).trans rfl

end

/-- Settles O10. -/
theorem loomRows_hold : Obligations.LoomRows := by
  intro c w s h joins room
  have queue := s.numbered_loomQ c
  refine ⟨?_, ?_, fun ok tdd dest format rows some_ full => ?_, fun ok empty => ?_⟩
  · have mv (t : Bool) {i : Instr} (means : exec i s = s.instr i (.core c) w (loomMv c w t)) (ok : i.wordOk = true) settled plain tdd tda dest
        source tddFull tdaFull engines (checks : s.MvChecks c w t (s.enginesOf c w) tda tdd) :=
      h.exec_queues ok means (loomMv_run (tdd := tdd) room settled plain dest source tddFull tdaFull engines checks)
        ((State.chained_loomQ ..).trans queue) rfl ⟨rfl, rfl, rfl, rfl, rfl⟩
        (p := fun x => x.kind = (if t then .mvmt else .mvm) ∧ x.acc = wFlag w 0 ∧ x.hold = wFlag w 1 ∧ x.k20 = wFlag w 2 ∧
          x.a4 = wFlag w 3 ∧ x.engines = s.enginesOf c w ∧ x.ks = 2 ^ bits (wImm w) 0 3 ∧ x.tdd = tdd ∧ x.tda = tda ∧
          x.psh = bits (wImm w) 17 3) ⟨rfl, rfl, rfl, rfl, rfl, rfl, rfl, rfl, rfl, rfl⟩
    simp only [List.forall_mem_cons]
    exact ⟨mv false rfl, mv true rfl, by simp⟩
  · have rows {i : Instr} (kind : LoomKind) (w8 : Bool) (means : exec i s = s.instr i (.core c) w (loomRows c w kind w8)) (ok : i.wordOk = true)
        tda source format wide rows planes inside full :=
      h.exec_queues ok means (loomRows_run (tda := tda) room source format wide rows planes inside full) queue rfl ⟨rfl, rfl, rfl, rfl, rfl⟩
        (p := fun x => x.kind = kind ∧ x.w8 = w8 ∧ x.engines = s.maskAt c w (bits (wImm w) 45 3) ∧ x.tda = tda ∧
          x.row0 = bits (wImm w) 35 10 ∧ x.nrow = bits (wImm w) 24 11) ⟨rfl, rfl, rfl, rfl, rfl, rfl⟩
    simp only [List.forall_mem_cons]
    exact ⟨rows .prog _ rfl, rows .verify _ rfl, by simp⟩
  · exact h.exec_queues ok rfl (loomProbe_run room dest format rows some_ full) queue rfl ⟨rfl, rfl, rfl, rfl, rfl⟩ ⟨rfl, rfl, rfl, rfl⟩
  · exact loomPly_sets h ok empty

end Sys2Proof.Machine
end


section
/-!
PROOF. The slots of a stream (07.R212, 09.R264).
-/

namespace Sys2Proof.Machine
set_option Elab.async false

section

variable {s : State} {c : Fin 64} {n : Fin 8} {m : Stream}

theorem streamSlotFilled_eq (stream : getN s.cores[c].streams n.val none = some m) : exec (.streamSlotFilled c n) s = .next
    (if m.mayFill then s.transfer c n.val m m.moved
      { m with full := m.full ++ [m.moved], moved := m.moved + 1, closed := decide (m.moved + 1 = m.tiles) } else s) := by
  refine congrArg Host.Outcome.next ?_
  rw [stream]

theorem streamSlotDrain_eq {x : Nat} {rest : List Nat} (stream : getN s.cores[c].streams n.val none = some m) (full : m.full = x :: rest) :
    exec (.streamSlotDrain c n) s = .next (if m.out && !m.closed then s.transfer c n.val m x
      { m with full := rest, moved := m.moved + 1, closed := decide (m.moved + 1 = m.tiles) } else s) := by
  refine congrArg Host.Outcome.next ?_
  rw [stream]
  dsimp only
  rw [full]

end

/-- Settles O28. -/
theorem streamSlots : Obligations.StreamSlots := by
  intro c n s m stream
  refine ⟨fun may => ?_, fun may => ?_, fun x rest full out opened => ?_⟩
  · rw [streamSlotFilled_eq stream, if_pos may]
  · rw [streamSlotFilled_eq stream, if_neg (by rw [may]; exact Bool.false_ne_true)]
  · rw [streamSlotDrain_eq stream full, if_pos (by rw [out, opened]; rfl)]

end Sys2Proof.Machine
end


section
/-!
PROOF. The rows of a tensor of one row as they are read and written (04.R110, R111), and the start of a queued instruction on operands in
no stream (07.R208, R212).
-/

namespace Sys2Proof.Machine
set_option Elab.async false

/-! ### Rows -/

theorem tdRows_one {t : TD} (h : OneRow t) : tdRows t = [(0, 0, 0)] := by
  obtain ⟨one, one', one''⟩ := h.row
  simp [tdRows, one, one', one'']

theorem rowAddr_zero {t : TD} (plain : t.skind = 0) (small : t.base < 2 ^ 51) : rowAddr t 0 0 0 = t.base := by
  simp only [rowAddr, plain, Nat.zero_mul, Nat.add_zero]
  exact Nat.mod_eq_of_lt small

theorem State.localSpan.small {s : State} {q : SeqId} {write : Bool} {a n : Nat} (span : s.localSpan q write a n) (pos : 0 < n) :
    a < 2 ^ 51 := by
  have := span.1
  omega

/-- Whole bytes packed are written in full. -/
theorem packCodes_some {f : Fmt} (bytes : fmtBits f ≠ 4) (codes : List Nat) (old : Nat → Nat) :
    packCodes f (codes.map some) old = (codes.flatMap (leBytes (fmtBits f / 8))).map some := by
  unfold packCodes
  generalize fmtBits f = n at bytes
  split
  · exact absurd rfl bytes
  · simp [List.flatMap_map, List.map_flatMap]

/-- Bytes that are all written make one run. -/
theorem byteRuns_some (bs : List Byte) (o : Nat) : byteRuns o (bs.map some) = if bs = [] then [] else [(o, bs)] := by
  induction bs generalizing o with
  | nil => rfl
  | cons b bs ih =>
    rw [List.map_cons, byteRuns, ih]
    cases bs with
    | nil => rfl
    | cons c cs => simp

theorem length_flatMap_leBytes (n : Nat) (codes : List Nat) : (codes.flatMap (leBytes n)).length = n * codes.length := by
  induction codes with
  | nil => rfl
  | cons v codes ih => simp [ih, length_leBytes, Nat.mul_add, Nat.add_comm]

section

variable {s : State} {q : SeqId}

/-- Codes of whole bytes written to the row of a tensor of one row. -/
theorem writeCodes_run (unit : Nat) {d : TD} {codes : List Nat} {r : OutRow} (first : r.i1 = 0 ∧ r.i2 = 0 ∧ r.i3 = 0) (plain : d.skind = 0)
    (bytes : fmtBits (tdFmt d) ≠ 4) (fits : codes.length ≤ d.eff0) (some_ : 0 < fmtBits (tdFmt d) / 8 * codes.length)
    (span : s.localSpan q true d.base (fmtBits (tdFmt d) / 8 * codes.length)) :
    ∃ t, (writeCodes q unit d r (codes.map some)).run s = .ok () t ∧
      t.mem = s.mem.write (d.base % 2 ^ 48) (codes.flatMap (leBytes (fmtBits (tdFmt d) / 8))) ∧ t.shell = s.shell := by
  obtain ⟨i1, i2, i3⟩ := first
  have length := length_flatMap_leBytes (fmtBits (tdFmt d) / 8) codes
  obtain ⟨t, wrote, mem, shell⟩ := writeMem_run (s := s) (q := q) (bs := codes.flatMap (leBytes (fmtBits (tdFmt d) / 8))) unit
    (length.symm ▸ span)
  refine ⟨t, ?_, mem, shell⟩
  have whole : (codes.map some).take d.eff0 = codes.map some := List.take_of_length_le (by simpa using fits)
  have here : rowAddr d r.i1 r.i2 r.i3 = d.base := by
    rw [i1, i2, i3]
    exact rowAddr_zero plain (span.small some_)
  have full : codes.flatMap (leBytes (fmtBits (tdFmt d) / 8)) ≠ [] := fun empty => by
    rw [empty, List.length_nil] at length
    omega
  unfold writeCodes
  simp only [here, whole, if_neg bytes, EStateM.run_bind, packCodes_some bytes, byteRuns_some, if_neg full]
  simp only [EStateM.run_pure, writeRuns, EStateM.run_bind, Nat.add_zero, wrote]

/-! ### The start of an instruction -/

theorem takeSlots_run : ∀ (ts : List TD), (∀ t ∈ ts, bit t.stream 7 = false) → (takeSlots q ts).run s = .ok (some ts) s := by
  intro ts
  induction ts with
  | nil => exact fun _ => rfl
  | cons t ts ih =>
    intro alone
    obtain ⟨here, rest⟩ := List.forall_mem_cons.mp alone
    have mine := ih rest
    cases q with
    | house => simp only [takeSlots, EStateM.run_bind, EStateM.run_pure, mine]
    | core c => simp only [takeSlots, here, Bool.false_eq_true, if_false, EStateM.run_bind, EStateM.run_pure, mine]

theorem streamsOf_alone {ts : List TD} (alone : ∀ t ∈ ts, bit t.stream 7 = false) : streamsOf ts = [] := by
  rw [streamsOf, List.map_eq_nil_iff, List.filter_eq_nil_iff]
  intro t ht
  rw [alone t ht]
  exact Bool.false_ne_true

theorem updCore_id (s : State) (c : Fin 64) : s.updCore c (fun k => k) = s := by simp [State.updCore]

theorem holdSlots_none : (holdSlots q []).run s = .ok () s := by
  cases q with
  | house => rfl
  | core c => exact congrArg (EStateM.Result.ok ()) (updCore_id s c)

/-- The entry of an instruction that has started. -/
def QEntry.started (e : QEntry) (before after : State) (q : SeqId) : QEntry :=
  { e with
    noop := false, producer := false, work := none, frees := [], hands := []
    dst := resolved e.dsts ++ chainDests (e.work.getD .prefetch).chain
    acks := (after.takeTotals q).2.acksSince before.fabric.seq, totals := (after.takeTotals q).1 }

/-- An instruction on operands in no stream starts with what its work does. -/
theorem startEntry_run {t : State} {e : QEntry} {run : List TD → List TD → ExecM Unit} (works : e.noop = false)
    (alone : ∀ t ∈ e.srcs ++ e.dsts, bit t.stream 7 = false) (quiet : e.producer = false) (ran : (run e.srcs e.dsts).run s = .ok () t) :
    (startEntry q e run).run s = .ok (e.started s t q) (t.takeTotals q).2 := by
  have attempted : (withEnd q false (run e.srcs e.dsts)).run s = .ok () t := by
    have tried : (attempt (run e.srcs e.dsts)).run s = .ok (.ok ()) t := by
      have ran : run e.srcs e.dsts s = .ok () t := ran
      simp only [attempt, EStateM.run, ran]
    simp only [withEnd, EStateM.run_bind, tried]
    rfl
  have sources := streamsOf_alone fun t ht => alone t (List.mem_append_left _ ht)
  have dests := streamsOf_alone fun t ht => alone t (List.mem_append_right _ ht)
  have all := streamsOf_alone alone
  unfold startEntry
  simp only [EStateM.run_bind, EStateM.run_get, works, Bool.false_eq_true, if_false, takeSlots_run _ alone, List.take_left', List.drop_left',
    quiet, attempted, all, holdSlots_none, sources, dests]
  rfl

/-- An instruction that is a no-op starts with no effect. -/
theorem startEntry_noop {e : QEntry} {run : List TD → List TD → ExecM Unit} (noop : e.noop = true) (quiet : e.producer = false) :
    (startEntry q e run).run s = .ok { e with noop := true, work := none } s := by
  unfold startEntry
  simp only [EStateM.run_bind, EStateM.run_get, noop, if_true, EStateM.run_pure, quiet, Bool.false_eq_true, if_false]

theorem seqr_takeTotals (t : State) (q p : SeqId) : (t.takeTotals q).2.seqr p = t.seqr p := by
  cases q with
  | house => rfl
  | core c =>
    cases p with
    | house => rfl
    | core d =>
      rcases Nat.decEq c.val d.val with ne | same
      · simp [State.takeTotals, State.seqr, State.updCore, ne]
      · obtain rfl : c = d := Fin.ext same
        simp [State.takeTotals, State.seqr, State.updCore]

theorem mem_takeTotals (t : State) (q : SeqId) : (t.takeTotals q).2.mem = t.mem := by cases q <;> rfl

end

end Sys2Proof.Machine
end


section
/-!
PROOF. The MOVE rows (07.R208, R212, 08.R232, R233, 14.R380) on a sequencer whose queues are empty.
-/

namespace Sys2Proof.Machine
set_option Elab.async false

section

variable {s t u : State} {q : SeqId} {w : W128} {m : Nat}

/-! ### Queues that stand empty -/

/-- No instruction is in a queue of the sequencer. -/
structure State.QueuesEmpty (s : State) (q : SeqId) : Prop where
  loom : ∀ c, q = .core c → s.cores[c].loomQ = []
  mill : (s.seqr q).millQ = []
  mover : ∀ m, getN (s.seqr q).moverQ m [] = []

theorem getN_beyond {α : Type} {n : Nat} (v : Vector α n) {i : Nat} (h : n ≤ i) (d : α) : getN v i d = d := dif_neg (by omega)

theorem State.queuesEmpty_of_alone (alone : s.inQueues q 63 = []) : s.QueuesEmpty q := by
  simp only [State.inQueues, List.append_eq_nil_iff, List.flatMap_eq_nil_iff, List.mem_range] at alone
  obtain ⟨⟨loom, mill⟩, movers⟩ := alone
  rw [if_pos (by decide)] at loom mill
  refine ⟨fun c own => ?_, List.map_eq_nil_iff.mp mill, fun m => ?_⟩
  · subst own
    exact List.map_eq_nil_iff.mp loom
  · by_cases small : m < 4
    · have mover := movers m small
      have named : bit 63 (2 + m) = true := by interval_cases m <;> rfl
      rw [if_pos named] at mover
      exact List.map_eq_nil_iff.mp mover
    · exact getN_beyond _ (by omega) _

theorem State.pumpLoom_empty (n : Nat) {c : Fin 64} (empty : s.cores[c].loomQ = []) : State.pumpLoom n c s = s := by
  cases n with
  | zero => rfl
  | succ n => simp only [State.pumpLoom, empty, List.find?_nil]

theorem State.pump_empty {c : Fin 64} (empty : s.cores[c].loomQ = []) : s.pump c = s := by
  rw [State.pump, State.pumpLoom_empty _ empty, State.changePlies, empty]
  rfl

theorem State.pumpMill_empty (empty : (s.seqr q).millQ = []) : s.pumpMill q = s := by
  simp only [State.pumpMill, State.pumpMillN, empty, millNext, List.find?_nil]

theorem State.pumpMover_empty (empty : getN (s.seqr q).moverQ m [] = []) : s.pumpMover q m = s := by
  simp only [State.pumpMover, empty]

/-- A fold that acts at one element only acts once. -/
theorem foldl_once {f : State → Nat → State} : ∀ (l : List Nat) (s : State), l.Nodup → m ∈ l → (∀ n, n ≠ m → f s n = s) →
    (∀ n, n ≠ m → f (f s m) n = f s m) → l.foldl f s = f s m := by
  intro l
  induction l with
  | nil => exact fun _ _ there => absurd there List.not_mem_nil
  | cons x l ih =>
    intro s nodup there before after
    obtain ⟨fresh, nodup⟩ := List.nodup_cons.mp nodup
    rw [List.foldl_cons]
    by_cases same : x = m
    · subst same
      have still : ∀ l : List Nat, x ∉ l → l.foldl f (f s x) = f s x := by
        intro l
        induction l with
        | nil => exact fun _ => rfl
        | cons y l ihl =>
          intro absent
          obtain ⟨ne, rest⟩ := not_or.mp (fun h => absent (List.mem_cons.mpr h))
          rw [List.foldl_cons, after y (Ne.symm ne), ihl rest]
      exact still l fresh
    · rw [before x same]
      exact ih s nodup ((List.mem_cons.mp there).resolve_left (Ne.symm same)) before after

/-! ### The instruction in its queue -/

/-- The state in which an entry has joined the mover's queue. -/
def State.moved (s : State) (q : SeqId) (m : Nat) (e : QEntry) : State :=
  (s.numbered q).updSeqr q (fun r => { r with moverQ := updN r.moverQ m (fun l => l ++ [e]) })

theorem State.moved_seqr (s : State) (q : SeqId) (m : Nat) (e : QEntry) : (s.moved q m e).seqr q = { s.seqr q with
    nextUid := (s.seqr q).nextUid + 1
    moverQ := updN (s.seqr q).moverQ m (fun l => l ++ [e]) } := by
  simp [State.moved, State.numbered]

theorem State.moved_other {p : SeqId} (s : State) (m : Nat) (e : QEntry) (other : p ≠ q) : (s.moved q m e).seqr p = s.seqr p := by
  simp [State.moved, State.numbered, other]

theorem getN_updN {α : Type} {n : Nat} (v : Vector α n) (i j : Nat) (f : α → α) (d : α) (hi : i < n) :
    getN (updN v i f) j d = if j = i then f (getN v i d) else getN v j d := by
  unfold getN
  by_cases hj : j < n
  · rw [dif_pos hj, dif_pos hi, dif_pos hj, getElem_updN]
    by_cases same : i = j
    · subst same
      simp
    · rw [if_neg same, if_neg (Ne.symm same)]
  · rw [dif_neg hj, dif_neg hj, if_neg (by omega)]

theorem State.moved_queue (empty : s.QueuesEmpty q) (hm : m < 4) (e : QEntry) (n : Nat) :
    getN ((s.moved q m e).seqr q).moverQ n [] = if n = m then [e] else [] := by
  rw [s.moved_seqr, getN_updN _ _ _ _ _ hm, empty.mover, empty.mover, List.nil_append]

/-- What a MOVE row leaves: the other sequencers as they were, and its own with this one entry in the mover's queue. -/
structure State.MoveLeaves (s t : State) (q : SeqId) (m : Nat) (e : QEntry) : Prop where
  own : t.seqr q = { s.seqr q with
    nextUid := (s.seqr q).nextUid + 1
    moverQ := updN (s.seqr q).moverQ m (fun l => l ++ [e]) }
  other : ∀ p, p ≠ q → t.seqr p = s.seqr p

theorem State.moveLeaves_moved (s : State) (q : SeqId) (m : Nat) (e : QEntry) : s.MoveLeaves (s.moved q m e) q m e :=
  ⟨s.moved_seqr q m e, fun _ other => s.moved_other m e other⟩

theorem State.MoveLeaves.queue {e : QEntry} (h : s.MoveLeaves t q m e) (empty : s.QueuesEmpty q) (hm : m < 4) (n : Nat) :
    getN (t.seqr q).moverQ n [] = if n = m then [e] else [] := by
  rw [h.own, getN_updN _ _ _ _ _ hm, empty.mover, empty.mover, List.nil_append]

/-- Pumping the queues of a sequencer in which only a mover has an entry pumps that mover. -/
theorem State.pumpQueues_one {v : State} {e e' : QEntry} (empty : s.QueuesEmpty q) (hm : m < 4) (joined : s.MoveLeaves v q m e)
    (loom : ∀ c, q = .core c → v.cores[c].loomQ = s.cores[c].loomQ) (left : s.MoveLeaves (v.pumpMover q m) q m e') :
    v.pumpQueues q = v.pumpMover q m := by
  have mill : v.pumpMill q = v := State.pumpMill_empty (by rw [joined.own]; exact empty.mill)
  have movers : (List.range 4).foldl (fun s m => s.pumpMover q m) v = v.pumpMover q m := by
    refine foldl_once _ _ List.nodup_range (List.mem_range.mpr hm) (fun n ne => State.pumpMover_empty ?_) fun n ne => State.pumpMover_empty ?_
    · rw [joined.queue empty hm, if_neg ne]
    · rw [left.queue empty hm, if_neg ne]
  unfold State.pumpQueues
  cases q with
  | house =>
    dsimp only
    rw [mill]
    exact movers
  | core c =>
    have pumped : v.pump c = v := State.pump_empty ((loom c rfl).trans (empty.loom c rfl))
    dsimp only
    rw [pumped, mill]
    exact movers

theorem State.moved_loomQ (s : State) (m : Nat) (e : QEntry) (c : Fin 64) (_ : q = .core c) :
    (s.moved q m e).cores[c].loomQ = s.cores[c].loomQ := by
  cases q with
  | house => rfl
  | core d =>
    rcases Nat.decEq d.val c.val with ne | same
    · simp [State.moved, State.numbered, State.updSeqr, State.updCore, ne]
    · obtain rfl : d = c := Fin.ext same
      simp [State.moved, State.numbered, State.updSeqr, State.updCore]

/-- A MOVE row whose decode puts an entry into the empty queue of its mover. -/
theorem State.MoveTakes.exec_moves (h : s.MoveTakes q w) {i : Instr} {body : ExecM Flow} {v : State} {e e' : QEntry} (ok : i.wordOk = true)
    (means : exec i s = s.instr i q w (moveRow q body)) (run : body.run s = .ok .next v) (joins : s.MoveLeaves v q (wMover w) e)
    (loom : ∀ c, q = .core c → v.cores[c].loomQ = s.cores[c].loomQ) (left : s.MoveLeaves (v.pumpMover q (wMover w)) q (wMover w) e')
    (opcode : e'.opcode = wOpcode w) (pc : e'.pc = (s.seqr q).pc) (done : e'.done = donesTo q w) :
    ∃ t, exec i s = .next t ∧ s.joinedMover t q w ∧ getN (t.seqr q).moverQ (wMover w) [] = [e'] ∧
      t.mem = (v.pumpMover q (wMover w)).mem ∧ t.port = (v.pumpMover q (wMover w)).port ∧
      (∀ c : Fin 64, t.cores[c].streams = (v.pumpMover q (wMover w)).cores[c].streams) := by
  have empty := State.queuesEmpty_of_alone h.alone
  have hm : wMover w < 4 := Nat.mod_lt _ (by decide)
  have pumped := State.pumpQueues_one empty hm joins loom left
  generalize v.pumpMover q (wMover w) = u at pumped left
  have ran : (moveRow q body).run s = .ok .next u := by
    simp only [moveRow, EStateM.run_bind, run]
    exact congrArg (EStateM.Result.ok Flow.next) pumped
  let t := u.updSeqr q (fun r => r.advance (s.seqr q).pc .next)
  have queue : getN (t.seqr q).moverQ (wMover w) [] = [e'] := by
    simp only [t]
    rw [State.seqr_updSeqr, Seqr.advance_eq]
    exact (left.queue empty hm _).trans (if_pos rfl)
  refine ⟨t, (means.trans ((State.instr_eq ..).1 ok)).trans (congrArg Host.Outcome.next (h.takes.decode_ok ran)),
    ⟨⟨e', ?_, opcode, pc, done⟩, ?_, fun p other => ?_, ?_⟩, queue, State.updSeqr_mem .., State.updSeqr_port .., fun c => ?_⟩
  · rw [queue, empty.mover, List.nil_append]
  · simp only [t]
    rw [State.seqr_updSeqr, left.own]
    exact ⟨rfl, rfl⟩
  · simp only [t]
    rw [State.seqr_updSeqr_other _ _ _ other, left.other p other]
    exact ⟨rfl, rfl, rfl, rfl, rfl, rfl, rfl⟩
  · simp only [t]
    rw [State.seqr_updSeqr, left.own]
    rfl
  · cases q with
    | house => rfl
    | core d =>
      rcases Nat.decEq d.val c.val with ne | same
      · simp [t, State.updSeqr, State.updCore, ne]
      · obtain rfl : d = c := Fin.ext same
        simp [t, State.updSeqr]

/-! ### What an entry does when it starts -/

theorem getN_same {n : Nat} (v : Vector (List QEntry) n) {i : Nat} (hi : i < n) (f : List QEntry → List QEntry) :
    getN (updN v i f) i [] = f (getN v i []) := by
  rw [getN_updN _ _ _ _ _ hi, if_pos rfl]

theorem updN_updN {α : Type} {n : Nat} (v : Vector α n) (i : Nat) (f g : α → α) : updN (updN v i f) i g = updN v i (fun x => g (f x)) := by
  ext j hj : 1
  simp only [getElem_updN]
  split <;> rfl

/-- An entry put back in place of one that is alone in its queue. -/
theorem State.moveLeaves_put {e e' : QEntry} (empty : s.QueuesEmpty q) (seqrs : ∀ p, t.seqr p = (s.moved q m e).seqr p) (uid : e'.uid = e.uid) :
    s.MoveLeaves (t.updSeqr q (fun r => { r with moverQ := updN r.moverQ m (fun l => putEntry l e') })) q m e' := by
  refine ⟨?_, fun p other => ?_⟩
  · have put : updN (updN (s.seqr q).moverQ m (fun l => l ++ [e])) m (fun l => putEntry l e') =
        updN (s.seqr q).moverQ m (fun l => l ++ [e']) := by
      rw [updN_updN]
      ext j hj : 1
      simp only [getElem_updN]
      split
      · next same =>
        have none_ : (s.seqr q).moverQ[j] = [] := by
          rw [← empty.mover j]
          exact (dif_pos hj).symm
        rw [none_]
        simp [putEntry, uid]
      · rfl
    rw [State.seqr_updSeqr, seqrs, s.moved_seqr]
    dsimp only
    rw [put]
  · rw [State.seqr_updSeqr_other _ _ _ other, seqrs, s.moved_other m e other]

/-- The entry, alone in its queue, starts with what its work does, and leaves the sequencers as that leaves them. -/
theorem State.pumpMover_starts {e e' : QEntry} {k : QueueWork} (empty : s.QueuesEmpty q) (hm : m < 4) (work : e.work = some k)
    (direct : k ≠ .stage) (run : (startEntry q e (moverWork q (4 + m) k)).run (s.moved q m e) = .ok e' t)
    (seqrs : ∀ p, t.seqr p = (s.moved q m e).seqr p) (uid : e'.uid = e.uid) :
    s.MoveLeaves ((s.moved q m e).pumpMover q m) q m e' ∧ ((s.moved q m e).pumpMover q m).mem = t.mem := by
  have first : getN ((s.moved q m e).seqr q).moverQ m [] = [e] := (State.moved_queue empty hm e m).trans (if_pos rfl)
  have starts : ¬ (k = .stage ∧ (!e.noop) = true) := fun stage => direct stage.1
  have pumped : (s.moved q m e).pumpMover q m =
      t.updSeqr q (fun r => { r with moverQ := updN r.moverQ m (fun l => putEntry l e') }) := by
    simp only [State.pumpMover, first, work, if_neg starts, run]
  rw [pumped]
  exact ⟨State.moveLeaves_put empty seqrs uid, State.updSeqr_mem ..⟩

/-! ### LOAD and STORE -/

theorem roomMover_run (empty : s.QueuesEmpty q) (m : Nat) : (roomMover q m).run s = .ok () s := by
  simp only [roomMover, EStateM.run_bind, EStateM.run_get, empty.mover]
  rfl

theorem runMove_run (empty : s.QueuesEmpty q) (a : TD) (d : Option TD) (noop reg : Bool) (k : QueueWork) :
    (runMove q w a d noop reg k).run s = .ok .next (s.moved q (wMover w) { s.ownEntry q w with
      noop := noop, regStore := reg && !noop, work := some k, word := w, srcs := [a], dsts := d.toList }) := by
  simp only [runMove, EStateM.run_bind, roomMover_run empty, newEntry_run]
  rfl

/-- A span that may be accessed lies in no register window. -/
theorem State.localSpan.outside {write : Bool} {d : TD} {n : Nat} (span : s.localSpan q write d.base n) (pos : 0 < n) :
    inWindow4 q d = false := by
  obtain ⟨-, region, -⟩ := span.2 0 pos
  rw [Nat.add_zero] at region
  have other : (addrRegion d.base == 4) = false := by
    rw [beq_eq_false_iff_ne]
    omega
  unfold inWindow4
  rw [other, Bool.false_and]

/-- A row of 32-bit elements. -/
theorem rowLen_int32 {t : TD} (format : t.format = 3) : tdFmt t = .int32 ∧ rowLen t = 4 * t.eff0 := by
  have fmt : tdFmt t = .int32 := by simp [tdFmt, format, fmtOf]
  refine ⟨fmt, ?_⟩
  rw [rowLen, fmt, runBytes, fmtBits]
  omega

theorem length_unpack (f : Fmt) (n : Nat) (b : List Byte) : (unpack f n b).length = n := by simp [unpack]

/-- The copy of one INT32 row. -/
theorem moveBody_run (unit : Nat) {d a : TD} (dRow : OneRow d) (aRow : OneRow a) (dFormat : d.format = 3) (aFormat : a.format = 3)
    (same : a.eff0 = d.eff0) (source : s.readableSpan q a.base (rowLen a)) (dest : s.localSpan q true d.base (rowLen d)) :
    ∃ t, (moveBody q unit a d).run s = .ok () t ∧ t.mem = s.mem.write (d.base % 2 ^ 48) ((s.rowRaw a).flatMap (leBytes 4)) ∧
      t.shell = s.shell := by
  obtain ⟨dFmt, dLen⟩ := rowLen_int32 dFormat
  obtain ⟨aFmt, aLen⟩ := rowLen_int32 aFormat
  have pos := aRow.some_
  have dpos := dRow.some_
  obtain ⟨a1, a2, a3⟩ := aRow.row
  obtain ⟨d1, d2, d3⟩ := dRow.row
  obtain ⟨r, read, seen⟩ := readMem_run unit source
  have shell : r.shell = s.shell := State.shell_of_seen seen
  have length : (s.rowRaw a).length = d.eff0 := (length_unpack ..).trans same
  have bytes : fmtBits (tdFmt d) / 8 = 4 := by rw [dFmt]; rfl
  have span : r.localSpan q true d.base (fmtBits (tdFmt d) / 8 * (s.rowRaw a).length) := by
    rw [bytes, length, ← dLen]
    exact State.localSpan_of_shell shell dest
  obtain ⟨t, wrote, mem, kept⟩ := writeCodes_run (s := r) (q := q) unit (d := d) (codes := s.rowRaw a) (r := { i1 := 0, i2 := 0, i3 := 0 })
    ⟨rfl, rfl, rfl⟩ dRow.plain (by rw [dFmt]; decide) (by omega) (by rw [bytes]; omega) span
  rw [bytes, State.mem_of_seen seen] at mem
  refine ⟨t, ?_, mem, kept.trans shell⟩
  have cut : { a with eff0 := min a.eff0 d.eff0, eff1 := min a.eff1 d.eff1, eff2 := min a.eff2 d.eff2, eff3 := min a.eff3 d.eff3 } = a := by
    have e0 : min a.eff0 d.eff0 = a.eff0 := by omega
    have e1 : min a.eff1 d.eff1 = a.eff1 := by omega
    have e2 : min a.eff2 d.eff2 = a.eff2 := by omega
    have e3 : min a.eff3 d.eff3 = a.eff3 := by omega
    rw [e0, e1, e2, e3]
  have small : a.base < 2 ^ 51 := source.1.small (by omega)
  have aRows := tdRows_one aRow
  have read' : (readMem q unit a.base (runBytes (tdFmt a) a.eff0)).run s = .ok (s.bytesAt a.base (rowLen a)) r := read
  unfold moveBody
  rw [cut]
  dsimp only
  rw [aRows]
  have copied : (writeCodes q unit d { i1 := 0, i2 := 0, i3 := 0 } ((unpack (tdFmt a) a.eff0 (s.bytesAt a.base (rowLen a))).map some)).run r =
      .ok () t := wrote
  simp only [copyRows, aRow.plain, Nat.zero_ne_one, false_and, if_false, rowAddr_zero aRow.plain small, EStateM.run_bind, read', copied]
  rfl

theorem State.localSpan_congr {write : Bool} {a n : Nat} (shape : t.shape = s.shape) (fabric : t.fabric = s.fabric)
    (span : s.localSpan q write a n) : t.localSpan q write a n := by
  refine ⟨span.1, fun i hi => ?_⟩
  obtain ⟨dev, region, ok⟩ := span.2 i hi
  refine ⟨dev.trans (congrArg Shape.fabricId shape).symm, region, ?_⟩
  have mapped (r o : Nat) : t.mapped q r o = s.mapped q r o := by simp only [State.mapped, State.coreBit, State.clusterBit, shape]
  rw [← ok]
  simp only [State.accessFault, mapped, State.memberFault, shape, fabric]

theorem State.localSpan_moved {write : Bool} {a n : Nat} (e : QEntry) (span : s.localSpan q write a n) : (s.moved q m e).localSpan q write a n :=
  State.localSpan_congr (by simp [State.moved, State.numbered]) (by simp [State.moved, State.numbered]) span

theorem State.readableSpan_moved {a n : Nat} (e : QEntry) (span : s.readableSpan q a n) : (s.moved q m e).readableSpan q a n := by
  refine ⟨State.localSpan_moved e span.1, ?_⟩
  rw [← span.2]
  simp [State.poisoned, State.unwritten, State.moved, State.numbered]

theorem State.moved_mem (s : State) (q : SeqId) (m : Nat) (e : QEntry) : (s.moved q m e).mem = s.mem := by
  simp [State.moved, State.numbered]

/-- What the statement asks of the operands of a copy of one INT32 row, whose core-store side `load` names. -/
structure State.CopyRow (s : State) (q : SeqId) (w : W128) (load : Bool) (d a : TD) : Prop where
  dest : s.Names q (wTdd w) true d
  source : s.Names q (wTda w) false a
  dRow : OneRow d
  aRow : OneRow a
  dFormat : d.format = 3
  aFormat : a.format = 3
  same : a.eff0 = d.eff0
  side : addrRegion (if load then d.base else a.base) = 1
  readable : s.readableSpan q a.base (rowLen a)
  writable : s.localSpan q true d.base (rowLen d)

/-- The entry of a copy of one row. -/
def State.copyEntry (s : State) (q : SeqId) (w : W128) (d a : TD) : QEntry :=
  { s.ownEntry q w with work := some .copy, word := w, srcs := [a], dsts := [d] }

theorem moveCopy_run {load : Bool} {d a : TD} (empty : s.QueuesEmpty q) (h : s.CopyRow q w load d a) :
    (moveCopy q w load).run s = .ok .next (s.moved q (wMover w) (s.copyEntry q w d a)) := by
  obtain ⟨dFmt, dLen⟩ := rowLen_int32 h.dFormat
  obtain ⟨aFmt, aLen⟩ := rowLen_int32 h.aFormat
  have apos := h.aRow.some_
  have dpos := h.dRow.some_
  obtain ⟨a1, a2, a3⟩ := h.aRow.row
  obtain ⟨d1, d2, d3⟩ := h.dRow.row
  have dOut : inWindow4 q d = false := h.writable.outside (by omega)
  have aOut : inWindow4 q a = false := h.readable.1.outside (by omega)
  have window {t : TD} (pos : Nat) (out : inWindow4 q t = false) : (checkWindow q w pos t).run s = .ok () s :=
    demand_pass (by rw [out]; rfl)
  have side : coreSide q (if load then d else a) = true := by
    have region := h.side
    cases load with
    | true =>
      rw [if_pos rfl] at region ⊢
      rw [coreSide, region]
      rfl
    | false =>
      rw [if_neg Bool.false_ne_true] at region ⊢
      rw [coreSide, region]
      rfl
  have matches_ : moveOk q d a (if load then d else a) = true := by
    simp [moveOk, side, h.dFormat, h.aFormat, h.same, a1, a2, a3, d1, d2, d3, h.aRow.plain, h.dRow.plain]
  have full : tdEmpty d = false := by
    have ne : d.eff0 ≠ 0 := by omega
    simp [tdEmpty, d1, d2, d3, ne]
  simp only [moveCopy, EStateM.run_bind, operand_run (pos := 0) h.dest, operand_run (pos := 1) h.source, window _ dOut, window _ aOut,
    demand_pass matches_, runMove_run empty, full, dOut]
  rfl

/-- MOVE.LOAD and MOVE.STORE of one INT32 row. -/
theorem moveCopy_copies {i : Instr} {load : Bool} {d a : TD} (h : s.MoveTakes q w) (ok : i.wordOk = true)
    (means : exec i s = s.instr i q w (moveRow q (moveCopy q w load))) (c : s.CopyRow q w load d a) :
    ∃ t, exec i s = .next t ∧ t.rowHolds d (s.rowRaw a) ∧ s.sameOutsideRow t d ∧ s.joinedMover t q w := by
  have empty := State.queuesEmpty_of_alone h.alone
  have hm : wMover w < 4 := Nat.mod_lt _ (by decide)
  let e := s.copyEntry q w d a
  let v := s.moved q (wMover w) e
  have vMem : v.mem = s.mem := s.moved_mem ..
  have raw : v.rowRaw a = s.rowRaw a := by rw [State.rowRaw, State.rowRaw, State.bytesAt, State.bytesAt, vMem]
  obtain ⟨t, copies, mem, shell⟩ := moveBody_run (s := v) (4 + wMover w) c.dRow c.aRow c.dFormat c.aFormat c.same
    (State.readableSpan_moved e c.readable) (State.localSpan_moved e c.writable)
  rw [vMem, raw] at mem
  have alone : ∀ x ∈ e.srcs ++ e.dsts, bit x.stream 7 = false := by
    intro x hx
    obtain rfl | rfl : x = a ∨ x = d := by simpa [e, State.copyEntry] using hx
    · exact c.aRow.alone
    · exact c.dRow.alone
  have start := startEntry_run (s := v) (q := q) (t := t) (e := e) (run := moverWork q (4 + wMover w) .copy) rfl alone rfl copies
  obtain ⟨left, leftMem⟩ := State.pumpMover_starts empty hm (e := e) (k := .copy) rfl nofun start
    (fun p => (seqr_takeTotals t q p).trans (State.seqr_of_shell shell p)) rfl
  obtain ⟨u, exec_eq, joined, -, uMem, -⟩ := h.exec_moves ok means (moveCopy_run empty c) (s.moveLeaves_moved ..)
    (s.moved_loomQ _ _) left rfl rfl rfl
  have wf := State.mem_wf h.canonical
  have length : ((s.rowRaw a).flatMap (leBytes 4)).length = 4 * (s.rowRaw a).length := length_flatMap_leBytes 4 _
  have final := (uMem.trans leftMem).trans ((mem_takeTotals t q).trans mem)
  refine ⟨u, exec_eq, ?_, fun x outside => ?_, joined⟩
  · rw [State.rowHolds, State.bytesAt, final, ← length]
    exact Memory.bytes_write wf ..
  · rw [final]
    refine Memory.byte_write_outside _ _ _ x wf ?_
    have len := (rowLen_int32 c.dFormat).2
    have rows : (s.rowRaw a).length = d.eff0 := (length_unpack ..).trans c.same
    omega

/-! ### PREFETCH and STAGE -/

theorem prefetch_seen (q : SeqId) (a : TD) (s : State) : ∃ t, (prefetchBody q a).run s = .ok () t ∧ t.seen = s.seen := by
  refine ⟨_, rfl, foldl_keeps State.seen (fun s x => ?_) _ s⟩
  dsimp only
  split
  · split
    · exact State.seen_cacheRead ..
    · rfl
  · rfl

/-- MOVE.PREFETCH. -/
theorem movePrefetch_joins {a : TD} (h : s.MoveTakes q w) (ok : (Instr.movePrefetch q w).wordOk = true) (source : s.Names q (wTda w) false a)
    (alone : bit a.stream 7 = false) : ∃ t, exec (.movePrefetch q w) s = .next t ∧ s.sameBytes t ∧ s.joinedMover t q w := by
  have empty := State.queuesEmpty_of_alone h.alone
  have hm : wMover w < 4 := Nat.mod_lt _ (by decide)
  let e : QEntry := { s.ownEntry q w with
    noop := tdEmpty a, regStore := false && !tdEmpty a, work := some .prefetch, word := w, srcs := [a], dsts := [] }
  have decoded : (movePrefetch q w).run s = .ok .next (s.moved q (wMover w) e) := by
    simp only [movePrefetch, EStateM.run_bind, operand_run (pos := 1) source]
    exact runMove_run empty a none (tdEmpty a) false .prefetch
  obtain ⟨t, fetched, seen⟩ := prefetch_seen q a (s.moved q (wMover w) e)
  have mem : t.mem = s.mem := (State.mem_of_seen seen).trans (s.moved_mem ..)
  obtain ⟨e', x, start, seqrs, xMem, uid, opcode, pc, done⟩ : ∃ e' x,
      (startEntry q e (moverWork q (4 + wMover w) .prefetch)).run (s.moved q (wMover w) e) = .ok e' x ∧
      (∀ p, x.seqr p = (s.moved q (wMover w) e).seqr p) ∧ x.mem = s.mem ∧ e'.uid = e.uid ∧ e'.opcode = e.opcode ∧ e'.pc = e.pc ∧
      e'.done = e.done := by
    cases full : tdEmpty a with
    | true => exact ⟨_, _, startEntry_noop (e := e) full rfl, fun _ => rfl, s.moved_mem .., rfl, rfl, rfl, rfl⟩
    | false =>
      refine ⟨_, _, startEntry_run (e := e) full (by simpa [e] using alone) rfl fetched, fun p => ?_, (mem_takeTotals t q).trans mem,
        rfl, rfl, rfl, rfl⟩
      exact (seqr_takeTotals t q p).trans (State.seqr_of_shell (State.shell_of_seen seen) p)
  obtain ⟨left, leftMem⟩ := State.pumpMover_starts empty hm (e := e) (k := .prefetch) rfl nofun start seqrs uid
  obtain ⟨u, exec_eq, joined, -, uMem, -⟩ := h.exec_moves ok rfl decoded (s.moveLeaves_moved ..) (s.moved_loomQ _ _) left opcode pc done
  exact ⟨u, exec_eq, fun b => by rw [uMem, leftMem, xMem], joined⟩

/-- MOVE.STAGE while the staging queue has room. -/
theorem moveStage_enters {a : TD} (h : s.MoveTakes q w) (ok : (Instr.moveStage q w).wordOk = true) (source : s.Names q (wTda w) false a)
    (full : tdEmpty a = false) (room : s.port.stageQ.length < 16) :
    ∃ t uid, exec (.moveStage q w) s = .next t ∧ s.sameBytes t ∧ s.joinedMover t q w ∧
      t.port.stageQ = s.port.stageQ ++ [.move q uid a (wMover w)] ∧
      (∃ e, (getN (t.seqr q).moverQ (wMover w) []).getLast? = some e ∧ e.uid = uid ∧ e.staging = true) := by
  have empty := State.queuesEmpty_of_alone h.alone
  have hm : wMover w < 4 := Nat.mod_lt _ (by decide)
  let e : QEntry := { s.ownEntry q w with noop := false, regStore := false && !false, work := some .stage, word := w, srcs := [a], dsts := [] }
  let v := s.moved q (wMover w) e
  have decoded : (moveStage q w).run s = .ok .next v := by
    simp only [moveStage, EStateM.run_bind, operand_run (pos := 1) source, full]
    exact runMove_run empty a none false false .stage
  have first : getN (v.seqr q).moverQ (wMover w) [] = [e] := (State.moved_queue empty hm e _).trans (if_pos rfl)
  have port : v.port = s.port := by simp [v, State.moved, State.numbered]
  let x : State := { v with port := { v.port with stageQ := v.port.stageQ ++ [.move q e.uid a (wMover w)] } }
  let e' : QEntry := { e with work := none, staging := true }
  have pumped : v.pumpMover q (wMover w) =
      x.updSeqr q (fun r => { r with moverQ := updN r.moverQ (wMover w) (fun l => putEntry l e') }) := by
    have work : e.work = some .stage := rfl
    have enters : True ∧ (!e.noop) = true := ⟨trivial, rfl⟩
    simp only [State.pumpMover, first, work]
    rw [if_pos enters, State.enterStaging, if_neg (by rw [port]; omega)]
    rfl
  have left : s.MoveLeaves (v.pumpMover q (wMover w)) q (wMover w) e' := by
    rw [pumped]
    exact State.moveLeaves_put (e := e) (e' := e') empty (fun p => by cases p <;> rfl) rfl
  obtain ⟨t, exec_eq, joined, queue, mem, tPort, -⟩ := h.exec_moves ok rfl decoded (s.moveLeaves_moved ..) (s.moved_loomQ _ _) left rfl rfl rfl
  refine ⟨t, e.uid, exec_eq, fun b => ?_, joined, ?_, e', ?_, rfl, rfl⟩
  · rw [mem, pumped, State.updSeqr_mem]
    exact congrArg (Memory.byte · b) (s.moved_mem ..)
  · rw [tPort, pumped, State.updSeqr_port, ← port]
  · rw [queue]
    rfl

/-! ### STREAM -/

/-- A stream as MOVE.STREAM opens it. -/
def openedStream (w : W128) (d a : TD) (pc : Nat) : Stream :=
  { out := bit (wImm w) 3, mover := wMover w, mem := a, slot := d, slots := bits (wImm w) 4 4 + 1, dist := bits (wImm w) 8 4 + 1
    tiles := streamTiles a d, closed := streamTiles a d == 0, pc := pc }

/-- MOVE.STREAM on a core whose stream is idle. -/
theorem moveStream_opens {c : Fin 64} {d a : TD} (h : s.MoveTakes (.core c) w) (ok : (Instr.moveStream (.core c) w).wordOk = true)
    (slot : s.Names (.core c) (wTdd w) (!bit (wImm w) 3) d) (mem : s.Names (.core c) (wTda w) (bit (wImm w) 3) a)
    (some_ : 2 ≤ bits (wImm w) 4 4 + 1) (dist : bits (wImm w) 8 4 + 1 ≤ bits (wImm w) 4 4 + 1)
    (idle : ∀ m, getN s.cores[c].streams (bits (wImm w) 0 3) none = some m → m.idle = true) :
    ∃ t, exec (.moveStream (.core c) w) s = .next t ∧ s.sameBytes t ∧ s.joinedMover t (.core c) w ∧
      t.cores[c].streams = updN s.cores[c].streams (bits (wImm w) 0 3) (fun _ => some (openedStream w d a (s.seqr (.core c)).pc)) := by
  have empty := State.queuesEmpty_of_alone h.alone
  have hm : wMover w < 4 := Nat.mod_lt _ (by decide)
  let e := s.ownEntry (.core c) w
  let v := ((s.numbered (.core c)).updCore c (fun k => { k with
    streams := updN k.streams (bits (wImm w) 0 3) (fun _ => some (openedStream w d a e.pc)) })).updSeqr (.core c)
      (fun r => { r with moverQ := updN r.moverQ (wMover w) (fun l => l ++ [e]) })
  have decoded : (moveStreamOn (.core c) w).run s = .ok .next v := by
    simp only [moveStreamOn, moveStream, EStateM.run_bind, EStateM.run_get, operand_run (pos := 0) slot, operand_run (pos := 1) mem,
      demand_pass (decide_eq_true (And.intro some_ dist)), roomMover_run empty]
    cases there : getN s.cores[c].streams (bits (wImm w) 0 3) none with
    | none => rfl
    | some m =>
      simp only [idle m there, Bool.not_true, Bool.false_eq_true, if_false]
      rfl
  have joins : s.MoveLeaves v (.core c) (wMover w) e := by
    refine ⟨?_, fun p other => ?_⟩
    · simp [v, State.numbered, State.seqr, State.updSeqr]
    · cases p with
      | house => rfl
      | core b =>
        have ne : b ≠ c := fun same => other (congrArg SeqId.core same)
        simp [v, State.numbered, State.seqr, State.updSeqr, ne]
  have still : v.pumpMover (.core c) (wMover w) = v := by
    have first : getN (v.seqr (.core c)).moverQ (wMover w) [] = [e] := (joins.queue empty hm _).trans (if_pos rfl)
    simp only [State.pumpMover, first]
    rfl
  have loom : ∀ b, SeqId.core c = .core b → v.cores[b].loomQ = s.cores[b].loomQ := by
    rintro b ⟨⟩
    simp [v, State.numbered, State.updSeqr]
  obtain ⟨t, exec_eq, joined, -, tMem, -, streams⟩ := h.exec_moves ok rfl decoded joins loom (by rw [still]; exact joins) rfl rfl rfl
  rw [still] at tMem streams
  refine ⟨t, exec_eq, fun b => by rw [tMem]; rfl, joined, (streams c).trans ?_⟩
  simp [v, e, State.numbered, State.updSeqr, State.ownEntry]

end

/-- Settles O27. -/
theorem moveRows : Obligations.MoveRows := by
  intro q w s h
  refine ⟨?_, fun a source alone => ⟨fun ok => movePrefetch_joins h ok source alone,
    fun ok full room => moveStage_enters h ok source full room⟩, ?_⟩
  · simp only [List.forall_mem_cons]
    refine ⟨fun ok d a dest source dRow aRow dFormat aFormat same side readable writable => ?_,
      fun ok d a dest source dRow aRow dFormat aFormat same side readable writable => ?_, by simp⟩
    · exact moveCopy_copies h ok rfl ⟨dest, source, dRow, aRow, dFormat, aFormat, same, side, readable, writable⟩
    · exact moveCopy_copies h ok rfl ⟨dest, source, dRow, aRow, dFormat, aFormat, same, side, readable, writable⟩
  · rintro c d a rfl ok out slots dist slot mem some_ fits idle
    exact moveStream_opens h ok slot mem some_ fits idle

end Sys2Proof.Machine
end


section
/-!
PROOF. A MILL word on a sequencer whose Mill queue is empty joins the queue and starts at once (07.R208); what its conversions and flags
count (05.R151, 06.R168).
-/

namespace Sys2Proof.Machine
set_option Elab.async false

/-! ### What counts leave -/

/-- A core but for what conversions and flags count, and its flags. -/
def Core.tallied (k : Core) : Core :=
  { k with
    events := []
    qzEnd := []
    seq := { k.seq with flags := 0 } }

/-- The state but for the stores, what accesses count, and what conversions and flags count: what a MILL instruction that reads and writes
rows leaves. -/
def State.tallied (s : State) : State :=
  { s.shell with
    cores := s.shell.cores.map Core.tallied
    house := { s.shell.house with flags := 0 } }

section

variable {s t u v : State} {q : SeqId} {w : W128} {c : Fin 64}

theorem State.tallied_of_shell (h : t.shell = s.shell) : t.tallied = s.tallied := by rw [State.tallied, h, State.tallied]

theorem State.tallied_of_seen (h : t.seen = s.seen) : t.tallied = s.tallied := State.tallied_of_shell (State.shell_of_seen h)

theorem State.tallied_updCore (s : State) (c : Fin 64) {f : Core → Core} (h : ∀ k, (f k).tallied = k.tallied) :
    (s.updCore c f).tallied = s.tallied := by
  have reset (k : Core) : ({ k with events := [] } : Core).tallied = k.tallied := rfl
  simp only [State.updCore, State.tallied, State.shell, State.seen]
  congr 1
  ext i hi : 1
  rcases Nat.decEq c.val i with ne | rfl <;> simp [*]

theorem State.tallied_countSeq (s : State) (q : SeqId) (e n : Nat) : (s.countSeq q e n).tallied = s.tallied :=
  State.tallied_of_seen (State.seen_countSeq e n)

theorem State.tallied_setFlag (s : State) (q : SeqId) (b : Nat) : (s.setFlag q b).tallied = s.tallied := by
  have put : (s.updSeqr q (fun r => { r with flags := flagPut r.flags b true })).tallied = s.tallied := by
    cases q with
    | house => rfl
    | core c => exact s.tallied_updCore c fun _ => rfl
  simp only [State.setFlag]
  split
  · exact (State.tallied_countSeq ..).trans put
  · exact put

theorem State.tallied_countConv (s : State) (q : SeqId) (clips invalids : Nat) : (s.countConv q clips invalids).tallied = s.tallied := by
  have clipped : (if clips = 0 then s else s.countSeq q EV_QZ_CONV_CLIP clips).tallied = s.tallied := by
    split
    · rfl
    · exact State.tallied_countSeq ..
  simp only [State.countConv]
  split
  · exact clipped
  · exact (State.tallied_setFlag ..).trans ((State.tallied_countSeq ..).trans clipped)

theorem State.tallied_endTotals (s : State) (q : SeqId) (qst : Option Nat) (tot : Totals) : (s.endTotals q qst tot).tallied = s.tallied := by
  have counted := s.tallied_countConv q tot.clips tot.invalids
  unfold State.endTotals
  cases q with
  | house => exact counted
  | core c =>
    cases qst with
    | none => exact counted
    | some n => exact (State.tallied_updCore _ c (f := fun k => { k with qzEnd := k.qzEnd ++ [(n, tot.q)] }) fun _ => rfl).trans counted

theorem State.tallied_takeTotals (s : State) (q : SeqId) : (s.takeTotals q).2.tallied = s.tallied := by
  cases q with
  | house => rfl
  | core c => exact s.tallied_updCore c fun _ => rfl

theorem State.mem_setFlag (s : State) (q : SeqId) (b : Nat) : (s.setFlag q b).mem = s.mem := by
  simp only [State.setFlag]
  split
  · exact (State.mem_of_seen (State.seen_countSeq ..)).trans (State.updSeqr_mem ..)
  · exact State.updSeqr_mem ..

theorem State.mem_countConv (s : State) (q : SeqId) (clips invalids : Nat) : (s.countConv q clips invalids).mem = s.mem := by
  have clipped : (if clips = 0 then s else s.countSeq q EV_QZ_CONV_CLIP clips).mem = s.mem := by
    split
    · rfl
    · exact State.mem_of_seen (State.seen_countSeq ..)
  simp only [State.countConv]
  split
  · exact clipped
  · exact (State.mem_setFlag ..).trans ((State.mem_of_seen (State.seen_countSeq ..)).trans clipped)

theorem State.mem_endTotals (s : State) (q : SeqId) (qst : Option Nat) (tot : Totals) : (s.endTotals q qst tot).mem = s.mem := by
  have counted := s.mem_countConv q tot.clips tot.invalids
  unfold State.endTotals
  cases q with
  | house => exact counted
  | core c =>
    cases qst with
    | none => exact counted
    | some n => exact counted

/-! ### What they keep -/

theorem State.core_of_tallied (h : t.tallied = s.tallied) (c : Fin 64) : t.cores[c].tallied = s.cores[c].tallied := by
  have cores : t.shell.cores.map Core.tallied = s.shell.cores.map Core.tallied := congrArg State.cores h
  have here := congrArg (fun v : Vector Core 64 => v[c]) cores
  have shells (u : State) : (u.shell.cores.map Core.tallied)[c] = u.cores[c].tallied := by
    simp only [State.shell, State.seen, Fin.getElem_fin, Vector.getElem_map]
    rfl
  rwa [shells, shells] at here

/-- A sequencer but for its flags. -/
theorem State.seqr_of_tallied (h : t.tallied = s.tallied) (p : SeqId) : { t.seqr p with flags := 0 } = { s.seqr p with flags := 0 } := by
  cases p with
  | core c =>
    have parts := congrArg Core.seq (State.core_of_tallied h c)
    exact parts
  | house =>
    have parts := congrArg State.house h
    exact parts

theorem State.scalars_of_tallied (h : t.tallied = s.tallied) (p : SeqId) : (t.seqr p).s = (s.seqr p).s := by
  have parts := congrArg Seqr.s (State.seqr_of_tallied h p)
  exact parts

theorem State.mill_of_tallied (h : t.tallied = s.tallied) (c : Fin 64) : t.cores[c].mill = s.cores[c].mill := by
  have parts := congrArg Core.mill (State.core_of_tallied h c)
  exact parts

theorem State.shape_of_tallied (h : t.tallied = s.tallied) : t.shape = s.shape := by
  have parts := congrArg State.shape h
  exact parts

theorem State.fabric_of_tallied (h : t.tallied = s.tallied) : t.fabric = s.fabric := by
  have parts := congrArg State.fabric h
  exact parts

theorem State.localSpan_of_tallied (h : t.tallied = s.tallied) {write : Bool} {a n : Nat} (span : s.localSpan q write a n) :
    t.localSpan q write a n :=
  State.localSpan_congr (State.shape_of_tallied h) (State.fabric_of_tallied h) span

/-! ### The work of a Mill instruction and the sequencers -/

/-- What the work of a Mill instruction leaves of the sequencers: its own queue and index, and the others' registers. -/
structure State.MillRan (v t : State) (q : SeqId) : Prop where
  queue : (t.seqr q).millQ = (v.seqr q).millQ
  pc : (t.seqr q).pc = (v.seqr q).pc
  loops : (t.seqr q).loops = (v.seqr q).loops
  others : v.othersKeep t q

theorem State.MillRan.trans (a : s.MillRan t q) (b : t.MillRan u q) : s.MillRan u q := by
  refine ⟨b.queue.trans a.queue, b.pc.trans a.pc, b.loops.trans a.loops, fun p other => ?_⟩
  obtain ⟨sa, pa, ala, tda, f0a, f1a, fa⟩ := a.others p other
  obtain ⟨sb, pb, alb, tdb, f0b, f1b, fb⟩ := b.others p other
  exact ⟨sb.trans sa, pb.trans pa, alb.trans ala, tdb.trans tda, f0b.trans f0a, f1b.trans f1a, fb.trans fa⟩

theorem State.millRan_of_tallied (h : t.tallied = s.tallied) : s.MillRan t q := by
  have same (p : SeqId) := State.seqr_of_tallied h p
  refine ⟨?_, ?_, ?_, fun p _ => ⟨?_, ?_, ?_, ?_, ?_, ?_, ?_⟩⟩
  · exact (congrArg Seqr.millQ (same q) :)
  · exact (congrArg Seqr.pc (same q) :)
  · exact (congrArg Seqr.loops (same q) :)
  · exact (congrArg Seqr.s (same p) :)
  · exact (congrArg Seqr.pc (same p) :)
  · exact (congrArg Seqr.al (same p) :)
  · exact (congrArg Seqr.tdBase (same p) :)
  · exact (congrArg Seqr.fault0 (same p) :)
  · exact (congrArg Seqr.fault1 (same p) :)
  · exact (congrArg Seqr.faulted (same p) :)

/-- Scalar registers and actual lengths written. -/
theorem State.millRan_updSeqr (s : State) {f : Seqr → Seqr} (queue : ∀ r, (f r).millQ = r.millQ) (pc : ∀ r, (f r).pc = r.pc)
    (loops : ∀ r, (f r).loops = r.loops) : s.MillRan (s.updSeqr q f) q := by
  refine ⟨?_, ?_, ?_, fun p other => ?_⟩
  · rw [State.seqr_updSeqr, queue]
  · rw [State.seqr_updSeqr, pc]
  · rw [State.seqr_updSeqr, loops]
  · rw [State.seqr_updSeqr_other _ _ _ other]
    exact ⟨rfl, rfl, rfl, rfl, rfl, rfl, rfl⟩

/-! ### The instruction in its queue -/

/-- The state in which an entry has joined the Mill queue. -/
def State.milled (s : State) (q : SeqId) (e : QEntry) : State :=
  (s.numbered q).updSeqr q (fun r => { r with millQ := r.millQ ++ [e] })

theorem State.milled_seqr (s : State) (q : SeqId) (e : QEntry) : (s.milled q e).seqr q = { s.seqr q with
    nextUid := (s.seqr q).nextUid + 1
    millQ := (s.seqr q).millQ ++ [e] } := by
  simp [State.milled, State.numbered]

theorem State.milled_other {p : SeqId} (s : State) (e : QEntry) (other : p ≠ q) : (s.milled q e).seqr p = s.seqr p := by
  simp [State.milled, State.numbered, other]

theorem State.milled_mem (s : State) (q : SeqId) (e : QEntry) : (s.milled q e).mem = s.mem := by simp [State.milled, State.numbered]

theorem State.milled_scalars (s : State) (q : SeqId) (e : QEntry) : ((s.milled q e).seqr q).s = (s.seqr q).s := by rw [s.milled_seqr]

theorem State.localSpan_milled {write : Bool} {a n : Nat} (e : QEntry) (span : s.localSpan q write a n) : (s.milled q e).localSpan q write a n :=
  State.localSpan_congr (by simp [State.milled, State.numbered]) (by simp [State.milled, State.numbered]) span

theorem State.readableSpan_milled {a n : Nat} (e : QEntry) (span : s.readableSpan q a n) : (s.milled q e).readableSpan q a n := by
  refine ⟨State.localSpan_milled e span.1, ?_⟩
  rw [← span.2]
  simp [State.poisoned, State.unwritten, State.milled, State.numbered]

theorem State.milled_mill (s : State) (q : SeqId) (e : QEntry) (c : Fin 64) : (s.milled q e).cores[c].mill = s.cores[c].mill := by
  cases q with
  | house => rfl
  | core d =>
    rcases Nat.decEq d.val c.val with ne | same
    · simp [State.milled, State.numbered, State.updSeqr, State.updCore, ne]
    · obtain rfl : d = c := Fin.ext same
      simp [State.milled, State.numbered, State.updSeqr, State.updCore]

/-- The entry of a Mill instruction that is to do `k`. -/
def State.millEntry (s : State) (q : SeqId) (w : W128) (srcs dsts : List TD) (k : QueueWork) : QEntry :=
  { s.ownEntry q w with noop := false, work := some k, word := w, srcs := srcs, dsts := dsts, producer := false }

theorem roomMill_run (alone : (s.seqr q).millQ = []) : (roomMill q).run s = .ok () s := by
  simp only [roomMill, EStateM.run_bind, EStateM.run_get, alone]
  rfl

theorem runMill_run (alone : (s.seqr q).millQ = []) (srcs dsts : List TD) (k : QueueWork) :
    (runMill q w srcs dsts false false k).run s = .ok .next (s.milled q (s.millEntry q w srcs dsts k)) := by
  simp only [runMill, EStateM.run_bind, roomMill_run alone, newEntry_run]
  rfl

/-- The entry, alone in the Mill queue, starts, and no other is there to start. -/
theorem State.pumpMill_starts {e e' : QEntry} {k : QueueWork} (alone : (v.seqr q).millQ = [e]) (work : e.work = some k)
    (run : (startEntry q e (millWork q e.word k)).run v = .ok e' t) (queue : (t.seqr q).millQ = [e]) (uid : e'.uid = e.uid)
    (ran : e'.work = none) : v.pumpMill q = t.updSeqr q (fun r => { r with millQ := putEntry r.millQ e' }) := by
  have first : millNext (v.seqr q).millQ = some (e, k) := by simp [alone, millNext, work]
  have started : v.startMill q e k = (t.updSeqr q (fun r => { r with millQ := putEntry r.millQ e' }), true) := by
    simp only [State.startMill, run]
  have left : ((t.updSeqr q (fun r => { r with millQ := putEntry r.millQ e' })).seqr q).millQ = [e'] := by
    rw [State.seqr_updSeqr, queue]
    simp [putEntry, uid]
  have last : millNext [e'] = none := by simp [millNext, ran]
  unfold State.pumpMill
  simp only [State.pumpMillN, first, started, if_true]
  rw [left, last]

end

section

variable {s t u : State} {q : SeqId} {w : W128}

/-- A MILL word whose decode puts its entry into the empty Mill queue, and whose work runs. -/
theorem State.MillTakes.exec_mills (h : s.MillTakes q w) {i : Instr} {body : ExecM Flow} {ss ds : List TD} {k : QueueWork}
    (ok : i.wordOk = true) (means : exec i s = s.instr i q w (millRow q body))
    (decoded : body.run s = .ok .next (u.milled q (s.millEntry q w ss ds k))) (seqrs : ∀ p, u.seqr p = s.seqr p)
    (alone : ∀ t ∈ ss ++ ds, bit t.stream 7 = false)
    (worked : (millWork q w k ss ds).run (u.milled q (s.millEntry q w ss ds k)) = .ok () t)
    (ran : (u.milled q (s.millEntry q w ss ds k)).MillRan t q) :
    ∃ x, exec i s = .next x ∧ s.joinedMill x q w ∧ x.mem = t.mem ∧ (x.seqr q).s = (t.seqr q).s ∧ Seqr.sameSpecial (t.seqr q) (x.seqr q) ∧
      ∀ c : Fin 64, x.cores[c].mill = t.cores[c].mill := by
  let e := s.millEntry q w ss ds k
  let v := u.milled q e
  let e' := e.started v t q
  have queued : (v.seqr q).millQ = [e] := by
    rw [u.milled_seqr, seqrs]
    exact congrArg (· ++ [e]) h.alone
  have started : (startEntry q e (millWork q e.word k)).run v = .ok e' (t.takeTotals q).2 := startEntry_run rfl alone rfl worked
  have pumped : v.pumpMill q = (t.takeTotals q).2.updSeqr q (fun r => { r with millQ := putEntry r.millQ e' }) := by
    refine State.pumpMill_starts queued rfl started ?_ rfl rfl
    rw [seqr_takeTotals, ran.queue]
    exact queued
  have row : (millRow q body).run s =
      .ok .next ((t.takeTotals q).2.updSeqr q (fun r => { r with millQ := putEntry r.millQ e' })) := by
    simp only [millRow, EStateM.run_bind, decoded]
    exact congrArg (EStateM.Result.ok Flow.next) pumped
  have executed := (means.trans ((State.instr_eq ..).1 ok)).trans (congrArg Host.Outcome.next (h.takes.decode_ok row))
  refine ⟨_, executed, ⟨⟨e', ?_, rfl, rfl, rfl⟩, ?_, fun p other => ?_⟩, ?_, ?_, ?_, fun c => ?_⟩
  · rw [State.seqr_updSeqr, State.seqr_updSeqr, seqr_takeTotals, Seqr.advance_eq]
    dsimp only
    rw [ran.queue, queued, h.alone]
    exact congrArg (· :: []) (if_pos rfl)
  · rw [State.seqr_updSeqr, State.seqr_updSeqr, seqr_takeTotals]
    have loops : (t.seqr q).loops = (s.seqr q).loops := by rw [ran.loops, u.milled_seqr, seqrs]
    simp only [Seqr.wentOn, Seqr.advance, loops, and_self]
  · rw [State.seqr_updSeqr_other _ _ _ other, State.seqr_updSeqr_other _ _ _ other, seqr_takeTotals, ← seqrs p, ← u.milled_other e other]
    exact ran.others p other
  · rw [State.updSeqr_mem, State.updSeqr_mem, mem_takeTotals]
  · rw [State.seqr_updSeqr, State.seqr_updSeqr, seqr_takeTotals]
    rfl
  · rw [State.seqr_updSeqr, State.seqr_updSeqr, seqr_takeTotals]
    exact ⟨rfl, rfl, rfl, rfl, rfl⟩
  · rw [← State.mill_of_tallied (t.tallied_takeTotals q) c]
    cases q with
    | house => rfl
    | core d =>
      rcases Nat.decEq d.val c.val with ne | same
      · simp [State.updSeqr, State.updCore, ne]
      · obtain rfl : d = c := Fin.ext same
        simp [State.updSeqr, State.updCore]

end

end Sys2Proof.Machine
end


section
/-!
PROOF. The reading of a row without scales and the writing of one of 32-bit elements (04.R109 to R111, 05.R150).
-/

namespace Sys2Proof.Machine
set_option Elab.async false

theorem bind_run {α β : Type} {s t : State} {x : ExecM α} {f : α → ExecM β} {v : α} (ran : x.run s = .ok v t) :
    (x >>= f).run s = (f v).run t := by
  rw [EStateM.run_bind, ran]

section

variable {s t : State} {q : SeqId} {a d : TD}

/-! ### A source row -/

theorem rowLen_pos (row : OneRow a) : 0 < rowLen a := by
  have some_ := row.some_
  have wide : 4 ≤ fmtBits (tdFmt a) := by cases tdFmt a <;> decide
  have := Nat.mul_le_mul some_ wide
  unfold rowLen runBytes
  omega

theorem tdEmpty_row (row : OneRow a) : tdEmpty a = false := by
  obtain ⟨one, one', one''⟩ := row.row
  have some_ := row.some_
  simp [tdEmpty, one, one', one'']
  omega

theorem firstRow_row (row : OneRow a) : firstRow a = a := by
  obtain ⟨one, one', one''⟩ := row.row
  have limit {n : Nat} (h : n = 1) : min n 1 = n := Nat.min_eq_left h.le
  rw [firstRow, limit one, limit one', limit one'']

/-- The elements of a row without scales. -/
def State.rowElems (s : State) (t : TD) : List Elem := (s.rowRaw t).map (fun v => { code := codeVal (tdFmt t) 0 v })

theorem readMem_row (unit : Nat) (row : OneRow a) (span : s.readableSpan q a.base (rowLen a)) :
    ∃ t, (readMem q unit (rowAddr a 0 0 0) (runBytes (tdFmt a) a.eff0)).run s = .ok (s.bytesAt a.base (rowLen a)) t ∧ t.seen = s.seen := by
  rw [rowAddr_zero row.plain (span.1.small (rowLen_pos row))]
  exact readMem_run unit span

theorem attempt_run {α : Type} {x : ExecM α} {v : α} (ran : x.run s = .ok v t) : (attempt x).run s = .ok (.ok v) t := by
  have ran : x s = .ok v t := ran
  simp only [attempt, EStateM.run, ran]

theorem readLine_row (unit : Nat) (row : OneRow a) (grid : fmtBell (tdFmt a) = false) (span : s.readableSpan q a.base (rowLen a))
    (cols : List ColRec) (k : ReadState) :
    ∃ t, (readLine q unit a cols (0, 0, 0) k).run s = .ok ({ elems := s.rowElems a }, k) t ∧ t.seen = s.seen := by
  obtain ⟨t, read, seen⟩ := readMem_row unit row span
  have plain := row.plain
  refine ⟨t, ?_, seen⟩
  simp only [readLine, EStateM.run_bind, plain, Nat.reduceEqDiff, if_false, EStateM.run_pure, false_and, read, grid, Bool.false_eq_true,
    linkElems, List.map_map]
  rfl

theorem sourceLines_row (unit : Nat) (row : OneRow a) (grid : fmtBell (tdFmt a) = false) (span : s.readableSpan q a.base (rowLen a)) :
    ∃ t, (sourceLines q unit a).run s = .ok [((0, 0, 0), { elems := s.rowElems a })] t ∧ t.seen = s.seen := by
  obtain ⟨t, read, seen⟩ := readLine_row unit row grid span [] {}
  have plain : ¬ a.skind = 3 := by rw [row.plain]; decide
  have cols : (attempt (colRecs q unit a)).run s = .ok (.ok []) s := attempt_run (by rw [colRecs, if_neg plain]; rfl)
  refine ⟨t, ?_, seen⟩
  simp only [sourceLines, readSource, EStateM.run_bind, cols, tdRows_one row, readLines, attempt_run read, Option.isSome_none,
    Bool.false_eq_true, if_false, EStateM.run_pure]
  rfl

theorem readRaw_row (row : OneRow a) (span : s.readableSpan q a.base (rowLen a)) :
    ∃ t, (readRaw q a).run s = .ok (s.rowRaw a) t ∧ t.seen = s.seen := by
  obtain ⟨t, read, seen⟩ := readMem_row 2 row span
  refine ⟨t, ?_, seen⟩
  simp only [readRaw, tdEmpty_row row, Bool.false_eq_true, if_false, EStateM.run_bind, read]
  rfl

theorem State.rowRaw_of_mem (mem : t.mem = s.mem) (a : TD) : t.rowRaw a = s.rowRaw a := by
  rw [State.rowRaw, State.rowRaw, State.bytesAt, State.bytesAt, mem]

theorem length_rowRaw (s : State) (a : TD) : (s.rowRaw a).length = a.eff0 := length_unpack ..

/-! ### A destination row -/

/-- Values convert one by one where no side list takes any. -/
theorem convCells_vals {k : Sink} (side : k.side = none) (arith : k.arith = false) (grid : fmtBell (tdFmt k.td) = false) (zp free : Nat)
    (r : OutRow) : ∀ (xs : List Num) (i0 : Nat) (v : Convert),
      (convCells k zp free (fun _ => .val 1) r i0 (xs.map .val) v).1 = (xs.map (fun x => (toFmt (tdFmt k.td) zp x).1)).map some := by
  intro xs
  induction xs with
  | nil => exact fun _ _ => rfl
  | cons x xs ih =>
    intro i0 v
    simp only [List.map_cons, convCells, if_true, grid, Bool.false_eq_true, if_false, convElem, side, plainCode, arith]
    rw [ih]

theorem convCells_tail {k : Sink} (side : k.side = none) (zp free : Nat) (scale : Nat → Num) (r : OutRow) : ∀ (cs : List Cell) (i0 : Nat)
    (v : Convert), (convCells k zp free scale r i0 cs v).2.written = v.written ∧ (convCells k zp free scale r i0 cs v).2.full = v.full := by
  intro cs
  induction cs with
  | nil => exact fun _ _ => ⟨rfl, rfl⟩
  | cons c cs ih =>
    intro i0 v
    cases c with
    | none => exact ih _ _
    | skip => exact ih _ _
    | val x =>
      simp only [convCells, convElem, side]
      exact ih _ _

/-- A sink that writes a row of 32-bit elements as it stands. -/
structure Sink.Plain (k : Sink) : Prop where
  row : OneRow k.td
  side : k.side = none
  arith : k.arith = false
  wide : fmtBits (tdFmt k.td) = 32

theorem grid_wide {f : Fmt} (wide : fmtBits f = 32) : fmtBell f = false := by cases f <;> revert wide <;> decide

/-- One row of values written. -/
theorem writeOut_row {k : Sink} {r : OutRow} {xs : List Num} (plain : k.Plain) (first : r.i1 = 0 ∧ r.i2 = 0 ∧ r.i3 = 0)
    (cells : r.cells = xs.map .val) (good : r.err = none) (some_ : xs ≠ []) (fits : xs.length ≤ k.td.eff0)
    (span : s.localSpan q true k.td.base (4 * xs.length)) :
    ∃ t, (writeOut q k [r]).run s = .ok () t ∧
      t.mem = s.mem.write (k.td.base % 2 ^ 48) ((xs.map (fun x => (toFmt (tdFmt k.td) k.zp x).1)).flatMap (leBytes 4)) ∧
      t.tallied = s.tallied := by
  obtain ⟨row, side, arith, wide⟩ := plain
  have grid := grid_wide wide
  have some' := List.length_pos_iff.mpr some_
  have eight : fmtBits (tdFmt k.td) / 8 = 4 := by rw [wide]
  let codes := xs.map (fun x => (toFmt (tdFmt k.td) k.zp x).1)
  have count : codes.length = xs.length := List.length_map ..
  obtain ⟨u, wrote, mem, shell⟩ := writeCodes_run (s := s) (q := q) (d := k.td) (codes := codes) (r := r) k.unit first row.plain
    (by rw [wide]; decide) (count.trans_le fits) (by rw [eight]; omega) (by rw [eight, count]; exact span)
  rw [eight] at mem
  let conv := convCells k k.zp 0 (fun _ => .val 1) r 0 r.cells {}
  have converted : conv.1 = codes.map some := by
    simp only [conv, cells]
    exact convCells_vals side arith grid ..
  have tail := convCells_tail side k.zp 0 (fun _ => .val 1) r r.cells 0 {}
  have free : needsFree k [r] = false := by rw [needsFree, grid]; rfl
  have tagged : k.tagged = false := by rw [Sink.tagged, row.plain]; exact Bool.and_false _
  have blocked : k.blocked = false := by rw [Sink.blocked, row.plain]; exact Bool.and_false _
  have put : (writeConverted q k r (fun n => convCells k k.zp 0 (fun _ => .val 1) r 0 (r.cells.take n) {})).run s = .ok (conv.2, none) u := by
    simp only [writeConverted, List.take_length, EStateM.run_bind]
    rw [show (convCells k k.zp 0 (fun _ => .val 1) r 0 r.cells {}).1 = codes.map some from converted, attempt_run wrote]
    simp only [good]
    rfl
  have blocks : (writeBlocks q k (s.seed q) 0 [[r]] {}).run s = .ok (conv.2, none) u := by
    simp only [writeBlocks, tagged, blocked, Bool.false_eq_true, if_false, writeEach, writePlainRow, EStateM.run_bind, put, EStateM.run_pure]
  refine ⟨u.endTotals q k.qst conv.2.tot, ?_, (State.mem_endTotals ..).trans mem, (State.tallied_endTotals ..).trans
    (State.tallied_of_shell shell)⟩
  have written : conv.2.written = 0 := tail.1
  have full : conv.2.full = 0 := tail.2
  simp only [writeOut, free, Bool.false_eq_true, if_false, EStateM.run_bind, EStateM.run_pure, EStateM.run_get, rowBlocks, blocks, side, change,
    EStateM.run_modify, written, full, if_true]

/-! ### Where a row of 32-bit elements stands -/

theorem rowLen_wide (wide : fmtBits (tdFmt d) = 32) : rowLen d = 4 * d.eff0 := by
  rw [rowLen, runBytes, wide]
  omega

theorem State.localSpan.front {write : Bool} {b n m : Nat} (span : s.localSpan q write b n) (inside : m ≤ n) : s.localSpan q write b m :=
  span.part (i := 0) (by omega)

theorem State.rowHolds_write (h : s.canonical = true) {codes : List Nat}
    (mem : t.mem = s.mem.write (d.base % 2 ^ 48) (codes.flatMap (leBytes 4))) : t.rowHolds d codes := by
  rw [State.rowHolds, State.bytesAt, mem, ← length_flatMap_leBytes]
  exact Memory.bytes_write (State.mem_wf h) ..

theorem State.sameOutside_write (h : s.canonical = true) {bs : List Byte} {n : Nat} (mem : t.mem = s.mem.write (d.base % 2 ^ 48) bs)
    (fits : bs.length ≤ n) : s.sameOutside t (d.base % 2 ^ 48) n := by
  intro x outside
  rw [mem]
  exact Memory.byte_write_outside _ _ _ x (State.mem_wf h) (by omega)

theorem State.sameOutsideRow_write (h : s.canonical = true) (wide : fmtBits (tdFmt d) = 32) {codes : List Nat}
    (mem : t.mem = s.mem.write (d.base % 2 ^ 48) (codes.flatMap (leBytes 4))) (fits : codes.length ≤ d.eff0) : s.sameOutsideRow t d := by
  refine State.sameOutside_write h mem ?_
  rw [length_flatMap_leBytes, rowLen_wide wide]
  omega

end

end Sys2Proof.Machine
end


section
/-!
PROOF. MILL.RNG and MILL.WALK (06.R181 to R184, 08.R245).
-/

namespace Sys2Proof.Machine
set_option Elab.async false

/-! ### Integers as 32-bit codes -/

theorem rne_int (i : Int) : rne (i : Rat) = i := by
  have whole : (i : Rat).floor = i := Rat.floor_intCast i
  simp [rne, whole]

theorem toFmt_int32 (zp : Nat) {i : Int} (low : -2 ^ 31 ≤ i) (high : i < 2 ^ 31) :
    (toFmt .int32 zp (.val (i : Rat))).1 = unsigned 32 i := by
  simp only [toFmt, toInt, fmtFloat, fmtBell, fmtA, fmtBits, Bool.false_eq_true, if_false, clampInt, Int.zero_add, rne_int]
  rw [if_neg (by omega), if_neg (by omega)]

theorem toFmt_nat (zp : Nat) {n : Nat} (small : n < 2 ^ 31) : (toFmt .int32 zp (.val (n : Rat))).1 = n := by
  have code := toFmt_int32 zp (i := n) (by omega) (by omega)
  rw [Int.cast_natCast] at code
  rw [code, unsigned]
  omega

/-- A 32-bit word read as a signed integer has its own code. -/
theorem toFmt_signed (zp : Nat) {v : Nat} (word : v < 2 ^ 32) : (toFmt .int32 zp (.val (signed 32 v : Int))).1 = v := by
  have whole : v % 2 ^ 32 = v := Nat.mod_eq_of_lt word
  have range : -2 ^ 31 ≤ signed 32 v ∧ signed 32 v < 2 ^ 31 ∧ unsigned 32 (signed 32 v) = v := by
    simp only [signed, unsigned, whole]
    split <;> omega
  obtain ⟨low, high, back⟩ := range
  rw [toFmt_int32 zp low high, back]

theorem tdFmt_of_format {d : TD} {f : Fmt} (h : fmtOf d.format = some f) : tdFmt d = f := by rw [tdFmt, h]; rfl

section

variable {s t : State} {q : SeqId} {w : W128} {d : TD}

theorem change_run (f : State → State) (s : State) : (change f).run s = .ok () (f s) := rfl

theorem scalar_run (q : SeqId) (n : Nat) (s : State) : (scalar q n).run s = .ok ((s.seqr q).scalar n).toNat s := rfl

/-! ### RNG -/

theorem linearIndex_first (d : TD) (i : Nat) : linearIndex d i (0, 0, 0) = i := by simp [linearIndex]

theorem philoxWord_lt (key ctr i : Nat) : philoxWord key ctr i < 2 ^ 32 := BitVec.isLt _

/-- The 32-bit code of an element of an RNG. -/
def rngCode (uf : Bool) (key base i : Nat) : Nat :=
  let v := philoxWord key ((base + i / 4) % 2 ^ 128) i
  if uf = true then fp32Bits (.val ((v / 2 ^ 8 : Nat) * pow2 (-24))) else v

theorem rngCode_eq {f : Fmt} (uf : Bool) (key base i zp : Nat) (format : f = if uf then .fp32 else .int32) :
    (toFmt f zp (rngValue uf key base i)).1 = rngCode uf key base i := by
  subst format
  cases uf with
  | true => rfl
  | false => exact toFmt_signed zp (philoxWord_lt ..)

theorem rngCode_form (w : W128) (key base : Nat) : rngCode (wForm w == 1) key base = fun i =>
    let v := philoxWord key ((base + i / 4) % 2 ^ 128) i
    if wForm w = 1 then fp32Bits (.val ((v / 2 ^ 8 : Nat) * pow2 (-24))) else v := by
  funext i
  simp only [rngCode, beq_iff_eq]

theorem rngBody_run {uf : Bool} (key base : Nat) (row : OneRow d) (format : tdFmt d = if uf then .fp32 else .int32)
    (span : s.localSpan q true d.base (rowLen d)) :
    ∃ t, (rngBody q uf key base [] [d]).run s = .ok () t ∧
      t.mem = s.mem.write (d.base % 2 ^ 48) (((List.range d.eff0).map (rngCode uf key base)).flatMap (leBytes 4)) ∧ t.tallied = s.tallied := by
  have wide : fmtBits (tdFmt d) = 32 := by rw [format]; cases uf <;> rfl
  let n := d.eff0 * d.eff1 * d.eff2 * d.eff3
  let u := s.countSeq q EV_ML_RNG_WORDS n
  have counted : u.tallied = s.tallied := s.tallied_countSeq ..
  have mem : u.mem = s.mem := State.mem_of_seen (State.seen_countSeq ..)
  let xs := (List.range d.eff0).map (fun i => rngValue uf key base (linearIndex d i (0, 0, 0)))
  have count : xs.length = d.eff0 := by simp [xs]
  obtain ⟨t, wrote, tMem, tally⟩ := writeOut_row (s := u) (q := q) (k := { td := d }) (xs := xs)
    (r := { cells := (List.range d.eff0).map (fun i => .val (rngValue uf key base (linearIndex d i (0, 0, 0)))) }) ⟨row, rfl, rfl, wide⟩
    ⟨rfl, rfl, rfl⟩ (by simp [xs]) rfl (List.ne_nil_of_length_pos (count ▸ row.some_)) count.le
    (State.localSpan_of_tallied counted (span.front (by rw [rowLen_wide wide, count])))
  refine ⟨t, ?_, ?_, tally.trans counted⟩
  · simp only [rngBody, List.headD_cons, EStateM.run_bind, change, EStateM.run_modify, tdRows_one row, List.map_cons, List.map_nil]
    exact wrote
  · rw [tMem, mem]
    simp only [xs, List.map_map, Function.comp_def, linearIndex_first, rngCode_eq uf key base _ 0 format]

/-- The key and the counter that the word names, in the scalar registers. -/
structure Seqr.RngWords (r : Seqr) (w : W128) (key ctr : Nat) : Prop where
  key : (r.scalar (bits (wImm w) 43 5)).toNat % 2 ^ 32 + (r.scalar (bits (wImm w) 43 5 + 1)).toNat % 2 ^ 32 * 2 ^ 32 = key
  ctr : (r.scalar (bits (wImm w) 38 5)).toNat + (r.scalar (bits (wImm w) 38 5 + 1)).toNat * 2 ^ 64 = ctr

theorem millRng_run {key ctr : Nat} (alone : (s.seqr q).millQ = []) (dest : s.Names q (wTdd w) true d) (row : OneRow d) (quiet : wFlag w 0 = false)
    (evenK : bits (wImm w) 43 5 % 2 = 0) (evenC : bits (wImm w) 38 5 % 2 = 0) (words : (s.seqr q).RngWords w key ctr) :
    (millRng q w).run s = .ok .next (s.milled q (s.millEntry q w [] [d] (.rng key ctr))) := by
  have even : (bits (wImm w) 43 5 % 2 == 0 && bits (wImm w) 38 5 % 2 == 0) = true := by rw [evenK, evenC]; rfl
  unfold millRng
  refine (bind_run (demand_run even)).trans ((bind_run (operand_run (pos := 0) dest)).trans ?_)
  rw [quiet]
  refine (bind_run (scalar_run ..)).trans ((bind_run (scalar_run ..)).trans ((bind_run (scalar_run ..)).trans ((bind_run (scalar_run ..)).trans ?_)))
  rw [words.key, words.ctr, tdEmpty_row row]
  exact runMill_run alone [] [d] (.rng key ctr)
/-- MILL.RNG without ENTROPY on a core. -/
theorem millRng_writes {c : Fin 64} {key ctr : Nat} (h : s.MillTakes (.core c) w) (dest : s.Names (.core c) (wTdd w) true d) (row : OneRow d)
    (span : s.localSpan (.core c) true d.base (rowLen d)) (ok : (Instr.millRng (.core c) w).wordOk = true) (quiet : wFlag w 0 = false)
    (evenK : bits (wImm w) 43 5 % 2 = 0) (evenC : bits (wImm w) 38 5 % 2 = 0) (format : d.format = if wForm w = 1 then 8 else 3)
    (words : (s.seqr (.core c)).RngWords w key ctr) :
    ∃ t, exec (.millRng (.core c) w) s = .next t ∧ t.rowHolds d ((List.range d.eff0).map (rngCode (wForm w == 1) key ctr)) ∧
      s.sameOutsideRow t d ∧ s.joinedMill t (.core c) w ∧ t.cores[c].seq.s = s.cores[c].seq.s := by
  have fmt : tdFmt d = if (wForm w == 1) = true then .fp32 else .int32 := by
    by_cases form : wForm w = 1
    · exact tdFmt_of_format (by rw [format, if_pos form, if_pos (beq_iff_eq.mpr form)]; rfl)
    · exact tdFmt_of_format (by rw [format, if_neg form, if_neg (mt beq_iff_eq.mp form)]; rfl)
  have wide : fmtBits (tdFmt d) = 32 := by rw [fmt]; split <;> rfl
  obtain ⟨t, worked, mem, tally⟩ := rngBody_run key ctr row fmt
    (State.localSpan_milled (s.millEntry (.core c) w [] [d] (.rng key ctr)) span)
  obtain ⟨x, exec_eq, joined, xMem, scalars, -, -⟩ := h.exec_mills ok rfl (millRng_run h.alone dest row quiet evenK evenC words)
    (fun _ => rfl) (by simpa using row.alone) worked (State.millRan_of_tallied tally)
  have final := (xMem.trans mem).trans (congrArg (Memory.write · _ _) (s.milled_mem ..))
  exact ⟨x, exec_eq, State.rowHolds_write h.canonical final, State.sameOutsideRow_write h.canonical wide final (by simp), joined,
    scalars.trans ((State.scalars_of_tallied tally _).trans (s.milled_scalars (.core c) _))⟩

/-! ### WALK -/

theorem leNat_lt (bs : List Byte) : leNat bs < 256 ^ bs.length := by
  induction bs with
  | nil => exact Nat.one_pos
  | cons b bs ih =>
    have byte : b.toNat < 256 := b.isLt
    rw [leNat, List.length_cons, Nat.pow_succ]
    omega

/-- Elements of 8 bits are bytes. -/
theorem rowRaw_lt {a : TD} (eight : fmtBits (tdFmt a) = 8) {v : Nat} (there : v ∈ s.rowRaw a) : v < 2 ^ 8 := by
  obtain ⟨i, -, rfl⟩ := List.mem_map.mp there
  have below (b : List Byte) : leNat (b.take 1) < 256 := by
    have bound := leNat_lt (b.take 1)
    have short : (b.take 1).length ≤ 1 := List.length_take_le ..
    exact bound.trans_le (Nat.pow_le_pow_right (by decide) short)
  simp only [elemAt, eight]
  exact below _

/-- A trie whose root has no edges, as far as a WALK reads it. -/
structure State.EmptyTrie (s : State) (q : SeqId) (t : Trie) (root : Nat) : Prop where
  node : 8 ≤ t.span
  readable : s.readableSpan q t.base 8
  reads : leNat (s.bytesAt t.base 8) = root
  edges : bits root 31 9 = 0
  inside : 8 * t.nnode + 4 * bits root 40 24 ≤ t.span

theorem State.EmptyTrie.of_seen {trie : Trie} {root : Nat} (h : s.EmptyTrie q trie root) (seen : t.seen = s.seen) : t.EmptyTrie q trie root :=
  ⟨h.node, State.readableSpan_of_seen seen h.readable, by rw [State.bytesAt, State.mem_of_seen seen]; exact h.reads, h.edges, h.inside⟩

theorem demand_at {b : Bool} (h : b = true) (code unit : Nat) : (demand b code unit).run s = .ok () s := by
  rw [h]
  rfl

theorem trieNode_root {trie : Trie} {root : Nat} (h : s.EmptyTrie q trie root) :
    ∃ t, (trieNode q trie 0).run s = .ok root t ∧ t.seen = s.seen := by
  obtain ⟨t, read, seen⟩ := readMem_run (s := s) (q := q) 2 h.readable
  refine ⟨t, ?_, seen⟩
  unfold trieNode
  refine (bind_run (demand_at (decide_eq_true (by have := h.node; omega)) ..)).trans ((bind_run read).trans ?_)
  exact congrArg (EStateM.Result.ok · t) h.reads

theorem trieEdge_empty (trie : Trie) (label n first : Nat) (s : State) : (trieEdge q trie label n first first).run s = .ok none s := by
  cases n with
  | zero => rfl
  | succ n =>
    rw [trieEdge, if_pos le_rfl]
    rfl

/-- No edge leaves the root: no token is found. -/
theorem walkFrom_root {trie : Trie} {root : Nat} (h : s.EmptyTrie q trie root) (bs : List Nat) (i : Nat) :
    (walkFrom q trie bs i root none).run s = .ok none s := by
  cases bs with
  | nil => rfl
  | cons b bs =>
    have inside : decide (8 * trie.nnode + 4 * (bits root 40 24 + bits root 31 9) ≤ trie.span) = true := by
      rw [h.edges]
      exact decide_eq_true h.inside
    have child : (trieChild q trie root b).run s = .ok none s := by
      unfold trieChild
      refine (bind_run (demand_at inside ..)).trans ?_
      rw [h.edges]
      exact trieEdge_empty ..
    exact bind_run child

/-- Every byte of the input from a position on is emitted as a byte token. -/
theorem walkAll_bytes {trie : Trie} {root : Nat} (inp : List Nat) (byteBase bound : Nat) : ∀ (n : Nat) {s : State} {pos : Nat} {out : List Nat},
    s.EmptyTrie q trie root → inp.length < pos + n → pos ≤ inp.length → out.length + (inp.length - pos) ≤ bound →
    ∃ t, (walkAll q trie inp byteBase bound n pos out).run s = .ok (out ++ (inp.drop pos).map (byteBase + ·), inp.length, none) t ∧
      t.seen = s.seen := by
  intro n
  induction n with
  | zero =>
    intro s pos out _ far near _
    omega
  | succ n ih =>
    intro s pos out h far near room
    unfold walkAll
    by_cases last : inp.length ≤ pos
    · obtain rfl : pos = inp.length := by omega
      refine ⟨s, ?_, rfl⟩
      rw [if_pos (.inl last), List.drop_length, List.map_nil, List.append_nil]
      rfl
    · obtain ⟨t, node, seen⟩ := trieNode_root h
      have none_ : (attempt (do
          let root ← trieNode q trie 0
          walkFrom q trie (inp.drop pos) pos root none)).run s = .ok (.ok none) t :=
        attempt_run ((bind_run node).trans (walkFrom_root (h.of_seen seen) ..))
      have here : pos < inp.length := by omega
      have byte : inp.getD pos 0 = inp[pos] := by simp [here]
      obtain ⟨u, rest, seen'⟩ := ih (pos := pos + 1) (out := out ++ [byteBase + inp.getD pos 0]) (h.of_seen seen) (by omega) here
        (by rw [List.length_append, List.length_singleton]; omega)
      refine ⟨u, ?_, seen'.trans seen⟩
      rw [if_neg (by omega)]
      refine (bind_run none_).trans (rest.trans ?_)
      rw [byte, List.drop_eq_getElem_cons here, List.map_cons, List.append_assoc, List.singleton_append]

theorem writeValues_row {xs : List Num} (row : OneRow d) (wide : fmtBits (tdFmt d) = 32) (some_ : xs ≠ []) (fits : xs.length ≤ d.eff0)
    (span : s.localSpan q true d.base (4 * xs.length)) :
    ∃ t, (writeValues q d xs).run s = .ok () t ∧
      t.mem = s.mem.write (d.base % 2 ^ 48) ((xs.map (fun x => (toFmt (tdFmt d) 0 x).1)).flatMap (leBytes 4)) ∧ t.tallied = s.tallied := by
  have wrote := writeOut_row (s := s) (q := q) (k := { td := d }) (r := { cells := xs.map .val }) (xs := xs) ⟨row, rfl, rfl, wide⟩
    ⟨rfl, rfl, rfl⟩ rfl rfl some_ fits span
  rw [writeValues, List.take_of_length_le fits]
  exact wrote

/-- The state in which a WALK has written the count of its tokens and its position. -/
def State.walked (s : State) (q : SeqId) (w : W128) (n : Nat) : State :=
  (s.updSeqr q (fun r => { r with al := updN r.al (bits (wImm w) 21 3) (fun _ => BitVec.ofNat 32 n) })).updSeqr q
    (fun r => { r with s := updN r.s (bits (wImm w) 16 5) (fun _ => BitVec.ofNat 64 n) })

theorem State.walked_seqr (s : State) (q : SeqId) (w : W128) (n : Nat) : (s.walked q w n).seqr q = { s.seqr q with
    al := updN (s.seqr q).al (bits (wImm w) 21 3) (fun _ => BitVec.ofNat 32 n)
    s := updN (s.seqr q).s (bits (wImm w) 16 5) (fun _ => BitVec.ofNat 64 n) } := by
  simp [State.walked]

theorem State.millRan_walked (s : State) (n : Nat) : s.MillRan (s.walked q w n) q :=
  (s.millRan_updSeqr (f := fun r => { r with al := updN r.al (bits (wImm w) 21 3) (fun _ => BitVec.ofNat 32 n) }) (fun _ => rfl) (fun _ => rfl)
    fun _ => rfl).trans (State.millRan_updSeqr _ (f := fun r => { r with
      s := updN r.s (bits (wImm w) 16 5) (fun _ => BitVec.ofNat 64 n) }) (fun _ => rfl) (fun _ => rfl) fun _ => rfl)

/-- The input and the tables of a WALK whose bytes all become byte tokens. -/
structure State.WalkRows (s : State) (q : SeqId) (w : W128) (d a b : TD) (root : Nat) : Prop where
  dRow : OneRow d
  aRow : OneRow a
  dFmt : tdFmt d = .int32
  bytes : fmtBits (tdFmt a) = 8
  writable : s.localSpan q true d.base (rowLen d)
  readable : s.readableSpan q a.base (rowLen a)
  real : tdNone b = false
  trie : s.EmptyTrie q { base := b.base, span := tdSpan b, nnode := bits (wImm w) 24 24 } root
  fits : a.eff0 ≤ d.eff0

theorem walkBody_run {a b : TD} {root byteBase : Nat} (h : s.WalkRows q w d a b root) (small : byteBase < 2 ^ 24) :
    ∃ t : State, (walkBody q w byteBase [a, b] [d]).run s = .ok () (t.walked q w a.eff0) ∧
      t.mem = s.mem.write (d.base % 2 ^ 48) (((s.rowRaw a).map (byteBase + ·)).flatMap (leBytes 4)) ∧ t.tallied = s.tallied := by
  obtain ⟨dRow, aRow, dFmt, bytes, writable, readable, real, trie, fits⟩ := h
  have wide : fmtBits (tdFmt d) = 32 := by rw [dFmt]; rfl
  have length := length_rowRaw s a
  obtain ⟨t, read, seen⟩ := readRaw_row aRow readable
  obtain ⟨u, walked, seen'⟩ := walkAll_bytes (s.rowRaw a) byteBase d.eff0 ((s.rowRaw a).length + 1) (pos := 0) (out := []) (trie.of_seen seen)
    (by omega) (Nat.zero_le _) (by rw [length, List.length_nil]; omega)
  rw [List.nil_append, List.drop_zero, length] at walked
  let x := u.countSeq q EV_ML_WALK_BYTES a.eff0
  have counted : x.seen = s.seen := (State.seen_countSeq ..).trans (seen'.trans seen)
  let out := (s.rowRaw a).map (byteBase + ·)
  have count : out.length = a.eff0 := (List.length_map ..).trans length
  have codes : (out.map (fun n : Nat => Num.val (n : Rat))).map (fun x => (toFmt (tdFmt d) 0 x).1) = out := by
    rw [List.map_map, dFmt]
    refine (List.map_congr_left fun n there => ?_).trans (List.map_id out)
    obtain ⟨v, byte, rfl⟩ := List.mem_map.mp there
    have := rowRaw_lt bytes byte
    exact toFmt_nat 0 (by omega)
  obtain ⟨y, wrote, mem, tally⟩ := writeValues_row (s := x) (q := q) (d := d) (xs := out.map (fun n : Nat => Num.val (n : Rat))) dRow wide
    (List.ne_nil_of_length_pos (by rw [List.length_map, count]; exact aRow.some_)) (by rw [List.length_map, count]; exact fits)
    (State.localSpan_of_shell (State.shell_of_seen counted)
      (writable.front (by rw [rowLen_wide wide, List.length_map, count]; omega)))
  rw [codes, State.mem_of_seen counted] at mem
  refine ⟨y, ?_, mem, tally.trans (State.tallied_of_seen counted)⟩
  unfold walkBody
  simp only [List.headD_cons, List.getD_cons_succ, List.getD_cons_zero, firstRow_row dRow, firstRow_row aRow]
  refine (bind_run read).trans ?_
  rw [real, length]
  refine (bind_run walked).trans ((bind_run (change_run ..)).trans ((bind_run wrote).trans ?_))
  rw [count]
  rfl

/-- MILL.WALK over an empty trie on a core. -/
theorem millWalk_writes {c : Fin 64} {a b : TD} {root : Nat} (h : s.MillTakes (.core c) w) (dest : s.Names (.core c) (wTdd w) true d)
    (source : s.Names (.core c) (wTda w) false a) (table : s.Names (.core c) (wTdb w) false b) (alone : bit b.stream 7 = false)
    (rows : s.WalkRows (.core c) w d a b root) (ok : (Instr.millWalk (.core c) w).wordOk = true) :
    ∃ t, exec (.millWalk (.core c) w) s = .next t ∧
      t.rowHolds d ((s.rowRaw a).map ((s.cores[c].seq.scalar (bits (wImm w) 11 5)).toNat % 2 ^ 24 + ·)) ∧
      t.cores[c].seq.s = updN s.cores[c].seq.s (bits (wImm w) 16 5) (fun _ => BitVec.ofNat 64 a.eff0) ∧
      t.cores[c].seq.al = updN s.cores[c].seq.al (bits (wImm w) 21 3) (fun _ => BitVec.ofNat 32 a.eff0) ∧
      s.sameOutside t (d.base % 2 ^ 48) (4 * a.eff0) := by
  let byteBase := (s.cores[c].seq.scalar (bits (wImm w) 11 5)).toNat % 2 ^ 24
  let e := s.millEntry (.core c) w [a, b] [d] (.walk byteBase)
  let v := s.milled (.core c) e
  have vMem : v.mem = s.mem := s.milled_mem ..
  have decoded : (millWalk (.core c) w).run s = .ok .next v := by
    unfold millWalk
    refine (bind_run (operand_run (pos := 0) dest)).trans ((bind_run (operand_run (pos := 1) source)).trans
      ((bind_run (operand_run (pos := 2) table)).trans ((bind_run (scalar_run ..)).trans ?_)))
    rw [tdEmpty_row rows.dRow]
    exact runMill_run h.alone [a, b] [d] (.walk byteBase)
  have trie := rows.trie
  have moved : v.WalkRows (.core c) w d a b root := ⟨rows.dRow, rows.aRow, rows.dFmt, rows.bytes, State.localSpan_milled e rows.writable,
    State.readableSpan_milled e rows.readable, rows.real, ⟨trie.node, State.readableSpan_milled e trie.readable,
      (congrArg leNat (congrArg (Memory.bytes · _ 8) vMem)).trans trie.reads, trie.edges, trie.inside⟩, rows.fits⟩
  obtain ⟨t, worked, mem, tally⟩ := walkBody_run (byteBase := byteBase) moved (Nat.mod_lt _ (by decide))
  obtain ⟨x, exec_eq, joined, xMem, scalars, special, -⟩ := h.exec_mills ok rfl decoded (fun _ => rfl)
    (by simpa using ⟨rows.aRow.alone, alone, rows.dRow.alone⟩) worked
    ((State.millRan_of_tallied tally).trans (State.millRan_walked t a.eff0))
  have tMem : (t.walked (.core c) w a.eff0).mem = t.mem := by simp [State.walked]
  have final := (xMem.trans tMem).trans mem
  rw [vMem, State.rowRaw_of_mem vMem] at final
  have before := State.seqr_of_tallied tally (.core c)
  rw [s.milled_seqr] at before
  have al : (t.seqr (.core c)).al = s.cores[c].seq.al := (congrArg Seqr.al before :)
  have regs : (t.seqr (.core c)).s = s.cores[c].seq.s := (congrArg Seqr.s before :)
  rw [t.walked_seqr] at scalars special
  refine ⟨x, exec_eq, State.rowHolds_write h.canonical final, ?_, ?_, State.sameOutside_write h.canonical final ?_⟩
  · rw [← regs]
    exact scalars
  · rw [← al]
    exact special.1
  · rw [length_flatMap_leBytes, List.length_map, length_rowRaw]

end

/-- Settles O16: the bodies write the rows through `writeOut_row`, from the Philox words and from the walk that finds no edge. -/
theorem millRngWalkRows : Obligations.MillRngWalkRows := by
  unfold Obligations.MillRngWalkRows
  intro c w s d h dest row span
  refine ⟨fun ok quiet evenK evenC format => ?_, fun a b source table aRow bytes readable alone real node bReadable format fits ok edges inside => ?_⟩
  · obtain ⟨t, exec_eq, holds, outside, joined, regs⟩ := millRng_writes h dest row span ok quiet evenK evenC format ⟨rfl, rfl⟩
    rw [rngCode_form] at holds
    exact ⟨t, exec_eq, holds, outside, joined, regs⟩
  · exact millWalk_writes h dest source table alone ⟨row, aRow, tdFmt_of_format (by rw [format]; rfl), bytes, span, readable, real,
      ⟨node, bReadable, rfl, edges, inside⟩, fits⟩ ok

end Sys2Proof.Machine
end


section
/-!
PROOF. MILL.TABLE LOAD and EVAL (06.R176 to R178, 08.R245).
-/

namespace Sys2Proof.Machine
set_option Elab.async false

section

variable {s t u : State} {q : SeqId} {w : W128} {a d : TD} {c : Fin 64}

/-! ### A Mill instruction whose work faults -/

theorem bind_fails {α β : Type} {x : ExecM α} {f : FaultInfo} (failed : x.run s = .error f t) (g : α → ExecM β) :
    (x >>= g).run s = .error f t := by
  rw [EStateM.run_bind, failed]

theorem demand_fails {b : Bool} (h : b = false) (code unit : Nat) (s : State) :
    (demand b code unit).run s = .error { code := code, unit := unit } s := by
  rw [h]
  rfl

theorem State.mem_raiseFault (s : State) (q : SeqId) (f : FaultInfo) (opcode pc : Nat) : (s.raiseFault q f opcode pc).mem = s.mem := by
  have drawn (u : State) : (u.faultDetail f).2.mem = u.mem := by
    unfold State.faultDetail
    split <;> rfl
  have counted : (s.countSeq q EV_FAULTS 1).mem = s.mem := (State.SameMem.refl s).countSeq
  unfold State.raiseFault
  exact (State.SameMem.refl _).updSeqr.discard.trans ((drawn _).trans counted)

theorem State.mem_flushTotals (s : State) (q : SeqId) : (s.flushTotals q).mem = s.mem := by
  cases q with
  | house => rfl
  | core c =>
    refine foldl_keeps State.mem (f := _) (fun s e => ?_) s.cores[c].qzEnd s
    dsimp only
    split <;> rfl

/-- The part of a core that a change of another part leaves. -/
theorem State.part_updCore {α : Type} (part : Core → α) (s : State) (d c : Fin 64) {f : Core → Core} (same : ∀ k, part (f k) = part k) :
    part (s.updCore d f).cores[c] = part s.cores[c] := by
  rcases Nat.decEq d.val c.val with ne | eq
  · simp [State.updCore, ne]
  · obtain rfl : d = c := Fin.ext eq
    simp [State.updCore, same]

theorem State.mill_updSeqr (s : State) (q : SeqId) (f : Seqr → Seqr) (c : Fin 64) : (s.updSeqr q f).cores[c].mill = s.cores[c].mill := by
  cases q with
  | house => rfl
  | core d => exact s.part_updCore Core.mill d c fun _ => rfl

theorem State.mill_countSeq (s : State) (q : SeqId) (e n : Nat) (c : Fin 64) : (s.countSeq q e n).cores[c].mill = s.cores[c].mill :=
  State.mill_of_tallied (s.tallied_countSeq q e n) c

theorem State.mill_discard (s : State) (q : SeqId) (c : Fin 64) : (s.discard q).cores[c].mill = s.cores[c].mill := by
  have counted := (State.mill_updSeqr (s.countSeq q EV_SLOT_WASTED (s.unstarted q).length) q (fun r => unwait (s.unstarted q) { r with
      millQ := r.millQ.filter (fun e => !(s.unstartedMoves q).contains e.uid)
      moverQ := r.moverQ.map (fun l => l.filter (fun e => !(s.unstartedMoves q).contains e.uid)) }) c).trans (s.mill_countSeq ..)
  unfold State.discard
  cases q with
  | house => exact counted
  | core d => exact (State.part_updCore Core.mill _ d c (f := fun k => { k with loomQ := k.loomQ.filter loomStarted }) fun _ => rfl).trans counted

theorem State.mill_raiseFault (s : State) (q : SeqId) (f : FaultInfo) (opcode pc : Nat) (c : Fin 64) :
    (s.raiseFault q f opcode pc).cores[c].mill = s.cores[c].mill := by
  have drawn (u : State) : (u.faultDetail f).2.cores[c].mill = u.cores[c].mill := by
    unfold State.faultDetail
    split <;> rfl
  unfold State.raiseFault
  exact (State.mill_discard ..).trans ((State.mill_updSeqr ..).trans ((drawn _).trans (s.mill_countSeq ..)))

theorem State.mill_flushTotals (s : State) (q : SeqId) (c : Fin 64) : (s.flushTotals q).cores[c].mill = s.cores[c].mill := by
  cases q with
  | house => rfl
  | core d =>
    refine (State.part_updCore Core.mill _ d c (f := fun k => { k with qzEnd := [] }) fun _ => rfl).trans ?_
    refine foldl_keeps (fun u : State => u.cores[c].mill) (fun u e => ?_) s.cores[d].qzEnd s
    have put := u.part_updCore Core.mill d c (f := fun k => { k with qz := { k.qz with
      qs := updN k.qz.qs e.1 (fun _ => addQStat (getN u.cores[d].qz.qs e.1 {}) e.2) } }) fun _ => rfl
    dsimp only
    split
    · exact put
    · exact (State.mill_of_tallied (State.tallied_countSeq _ (.core d) ..) c).trans put

theorem State.seqr_flushTotals (s : State) (q p : SeqId) : (s.flushTotals q).seqr p = s.seqr p := by
  cases q with
  | house => rfl
  | core d =>
    cases p with
    | house =>
      refine foldl_keeps State.house (fun u e => ?_) s.cores[d].qzEnd s
      dsimp only
      split <;> rfl
    | core c =>
      refine (State.part_updCore Core.seq _ d c (f := fun k => { k with qzEnd := [] }) fun _ => rfl).trans ?_
      refine foldl_keeps (fun u : State => u.cores[c].seq) (fun u e => ?_) s.cores[d].qzEnd s
      have put := u.part_updCore Core.seq d c (f := fun k => { k with qz := { k.qz with
        qs := updN k.qz.qs e.1 (fun _ => addQStat (getN u.cores[d].qz.qs e.1 {}) e.2) } }) fun _ => rfl
      dsimp only
      split
      · exact put
      · exact (State.seqr_of_shell (State.shell_of_seen (State.seen_countSeq (q := .core d) ..)) (.core c)).trans put

/-- What the fault of an instruction that has started leaves. -/
theorem State.faultEntry_leaves (clear : (s.seqr q).faulted = false) (e : QEntry) (f : FaultInfo) :
    let t := s.faultEntry q e f
    (t.seqr q).faulted = true ∧ (t.seqr q).fault0 = fault0Word f e.opcode e.pc ∧ t.mem = s.mem ∧
      ∀ c : Fin 64, t.cores[c].mill = s.cores[c].mill := by
  let u := (s.flushTotals q).updSeqr q (fun r => unwait [e.uid] { r with
    millQ := r.millQ.filter (fun x => x.uid != e.uid)
    moverQ := r.moverQ.map (fun l => l.filter (fun x => x.uid != e.uid)) })
  have still : (u.seqr q).faulted = false := by
    simp only [u]
    rw [State.seqr_updSeqr, State.seqr_flushTotals]
    exact clear
  obtain ⟨buf, mill, movers, detail, own⟩ := State.raiseFault_own still f e.opcode e.pc
  refine ⟨congrArg Seqr.faulted own, congrArg Seqr.fault0 own, ?_, fun c => ?_⟩
  · exact (State.mem_raiseFault ..).trans ((State.updSeqr_mem ..).trans (s.mem_flushTotals q))
  · exact (State.mill_raiseFault ..).trans ((State.mill_updSeqr ..).trans (s.mill_flushTotals q c))

/-- An instruction on operands in no stream whose work faults. -/
theorem startEntry_fails {e : QEntry} {run : List TD → List TD → ExecM Unit} {f : FaultInfo} (works : e.noop = false)
    (alone : ∀ t ∈ e.srcs ++ e.dsts, bit t.stream 7 = false) (quiet : e.producer = false) (real : f.code ≠ 0)
    (failed : (run e.srcs e.dsts).run s = .error f t) : (startEntry q e run).run s = .error f t := by
  have failed : run e.srcs e.dsts s = .error f t := failed
  have tried : (attempt (run e.srcs e.dsts)).run s = .ok (.error f) t := by
    simp only [attempt, EStateM.run, failed, if_neg real]
  have ended : (withEnd q false (run e.srcs e.dsts)).run s = .error f t := by
    simp only [withEnd, EStateM.run_bind, tried]
    rfl
  unfold startEntry
  simp only [EStateM.run_bind, EStateM.run_get, works, Bool.false_eq_true, if_false, takeSlots_run _ alone, List.take_left', List.drop_left',
    quiet, ended]

/-- A MILL word whose decode puts its entry into the empty Mill queue, and whose work faults. -/
theorem State.MillTakes.exec_faults (h : s.MillTakes q w) {i : Instr} {body : ExecM Flow} {ss ds : List TD} {k : QueueWork} {f : FaultInfo}
    (ok : i.wordOk = true) (means : exec i s = s.instr i q w (millRow q body))
    (decoded : body.run s = .ok .next (s.milled q (s.millEntry q w ss ds k))) (alone : ∀ t ∈ ss ++ ds, bit t.stream 7 = false)
    (failed : (millWork q w k ss ds).run (s.milled q (s.millEntry q w ss ds k)) = .error f t) (real : f.code ≠ 0)
    (clear : (t.seqr q).faulted = false) :
    ∃ x, exec i s = .next x ∧ (x.seqr q).faulted = true ∧ (x.seqr q).fault0 = fault0Word f (wOpcode w) (s.seqr q).pc ∧ x.mem = t.mem ∧
      ∀ c : Fin 64, x.cores[c].mill = t.cores[c].mill := by
  let e := s.millEntry q w ss ds k
  let v := s.milled q e
  have queued : (v.seqr q).millQ = [e] := by
    rw [s.milled_seqr]
    exact congrArg (· ++ [e]) h.alone
  have first : millNext (v.seqr q).millQ = some (e, k) := by simp [queued, millNext, e, State.millEntry]
  have failed' : (startEntry q e (millWork q e.word k)).run v = .error f t := startEntry_fails rfl alone rfl real failed
  have started : v.startMill q e k = (t.faultEntry q e f, false) := by
    simp only [State.startMill, failed', if_neg real]
  have pumped : v.pumpMill q = t.faultEntry q e f := by
    unfold State.pumpMill
    simp only [State.pumpMillN, first, started, Bool.false_eq_true, if_false]
  have row : (millRow q body).run s = .ok .next (t.faultEntry q e f) := by
    simp only [millRow, EStateM.run_bind, decoded]
    exact congrArg (EStateM.Result.ok Flow.next) pumped
  obtain ⟨faulted, fault0, mem, mill⟩ := State.faultEntry_leaves clear e f
  refine ⟨_, (means.trans ((State.instr_eq ..).1 ok)).trans (congrArg Host.Outcome.next (h.takes.decode_ok row)), ?_, ?_, ?_, fun c => ?_⟩
  · rw [State.seqr_updSeqr]
    exact faulted
  · rw [State.seqr_updSeqr]
    exact fault0
  · rw [State.updSeqr_mem]
    exact mem
  · rw [State.mill_updSeqr]
    exact mill c

/-! ### LOAD -/

theorem millTableLoad_run (alone : (s.seqr q).millQ = []) (source : s.Names q (wTda w) false a) (free : s.tableBusy q (bits (wImm w) 0 2) = false)
    (some_ : tdEmpty a = false) :
    (millTableLoad q w).run s = .ok .next (s.milled q (s.millEntry q w [a] [] .tableLoad)) := by
  unfold millTableLoad
  refine (bind_run (operand_run (pos := 1) source)).trans ((bind_run (EStateM.run_get _)).trans ?_)
  rw [free, some_]
  exact runMill_run alone [a] [] .tableLoad

/-- The state in which a core's table is loaded. -/
def State.tabled (s : State) (c : Fin 64) (n : Nat) (t : Table) : State :=
  s.updCore c (fun k => { k with mill := { k.mill with tables := updN k.mill.tables n (fun _ => some t) } })

theorem loadTable_run (n : Nat) (readable : s.readableSpan (.core c) a.base 2056) (good : tableOk (parseTable (s.bytesAt a.base 2056)) = true) :
    ∃ t, (loadTable (.core c) n [a] []).run s = .ok () (State.tabled t c n (parseTable (s.bytesAt a.base 2056))) ∧ t.seen = s.seen := by
  obtain ⟨t, read, seen⟩ := readMem_run (s := s) (q := .core c) 2 readable
  refine ⟨t, ?_, seen⟩
  unfold loadTable
  exact (bind_run read).trans (bind_run (demand_at good ..))

theorem loadTable_fails (n : Nat) (readable : s.readableSpan q a.base 2056) (bad : tableOk (parseTable (s.bytesAt a.base 2056)) = false) :
    ∃ t, (loadTable q n [a] []).run s = .error { code := MILL_PAIR, unit := 2 } t ∧ t.seen = s.seen := by
  obtain ⟨t, read, seen⟩ := readMem_run (s := s) (q := q) 2 readable
  refine ⟨t, ?_, seen⟩
  unfold loadTable
  exact (bind_run read).trans (bind_fails (demand_fails bad ..) _)

theorem State.millRan_tabled (s : State) (n : Nat) (t : Table) : s.MillRan (s.tabled c n t) q := by
  have same (p : SeqId) : (s.tabled c n t).seqr p = s.seqr p := by
    cases p with
    | house => rfl
    | core d => exact s.part_updCore Core.seq c d fun _ => rfl
  refine ⟨by rw [same], by rw [same], by rw [same], fun p _ => ?_⟩
  rw [same]
  exact ⟨rfl, rfl, rfl, rfl, rfl, rfl, rfl⟩

/-- What a LOAD is given: a table that no chain is using, and an image that may be read. -/
structure State.LoadImage (s : State) (c : Fin 64) (w : W128) (a : TD) : Prop where
  source : s.Names (.core c) (wTda w) false a
  free : s.tableBusy (.core c) (bits (wImm w) 0 2) = false
  some_ : tdEmpty a = false
  alone : bit a.stream 7 = false
  readable : s.readableSpan (.core c) a.base 2056

theorem millTableLoad_takes (h : s.MillTakes (.core c) w) (ok : (Instr.millTableLoad (.core c) w).wordOk = true) (i : s.LoadImage c w a)
    (good : tableOk (parseTable (s.bytesAt a.base 2056)) = true) :
    ∃ t, exec (.millTableLoad (.core c) w) s = .next t ∧
      t.cores[c].mill.tables = updN s.cores[c].mill.tables (bits (wImm w) 0 2) (fun _ => some (parseTable (s.bytesAt a.base 2056))) ∧
      s.sameBytes t ∧ s.joinedMill t (.core c) w ∧ t.cores[c].seq.s = s.cores[c].seq.s := by
  let e := s.millEntry (.core c) w [a] [] .tableLoad
  have bytes : (s.milled (.core c) e).bytesAt a.base 2056 = s.bytesAt a.base 2056 := congrArg (Memory.bytes · _ 2056) (s.milled_mem ..)
  obtain ⟨t, worked, seen⟩ := loadTable_run (bits (wImm w) 0 2) (State.readableSpan_milled e i.readable) (by rw [bytes]; exact good)
  rw [bytes] at worked
  have tally := State.tallied_of_seen seen
  obtain ⟨x, exec_eq, joined, mem, scalars, -, mill⟩ := h.exec_mills ok rfl (millTableLoad_run h.alone i.source i.free i.some_) (fun _ => rfl)
    (by simpa using i.alone) worked ((State.millRan_of_tallied tally).trans (State.millRan_tabled ..))
  refine ⟨x, exec_eq, ?_, fun b => ?_, joined, ?_⟩
  · rw [mill, State.tabled, Fin.getElem_fin, State.updCore_self, ← Fin.getElem_fin, State.mill_of_tallied tally, s.milled_mill]
  · rw [mem]
    exact congrArg (Memory.byte · b) ((State.mem_of_seen seen).trans (s.milled_mem ..))
  · refine scalars.trans (((?_ : _ = (t.seqr (.core c)).s)).trans ((State.scalars_of_tallied tally _).trans (s.milled_scalars (.core c) _)))
    exact t.part_updCore (fun k => k.seq.s) c c fun _ => rfl

theorem millTableLoad_refuses (h : s.MillTakes (.core c) w) (ok : (Instr.millTableLoad (.core c) w).wordOk = true) (i : s.LoadImage c w a)
    (bad : tableOk (parseTable (s.bytesAt a.base 2056)) = false) :
    ∃ t, exec (.millTableLoad (.core c) w) s = .next t ∧ t.cores[c].seq.faulted = true ∧
      t.cores[c].seq.fault0.toNat % 2 ^ 16 = MILL_PAIR ∧ t.cores[c].mill.tables = s.cores[c].mill.tables ∧ s.sameBytes t := by
  let e := s.millEntry (.core c) w [a] [] .tableLoad
  have bytes : (s.milled (.core c) e).bytesAt a.base 2056 = s.bytesAt a.base 2056 := congrArg (Memory.bytes · _ 2056) (s.milled_mem ..)
  obtain ⟨t, failed, seen⟩ := loadTable_fails (bits (wImm w) 0 2) (State.readableSpan_milled e i.readable) (by rw [bytes]; exact bad)
  have clear : (t.seqr (.core c)).faulted = false := by
    rw [State.seqr_of_shell (State.shell_of_seen seen), s.milled_seqr]
    exact h.takes.not_faulted
  obtain ⟨x, exec_eq, faulted, fault0, mem, mill⟩ := h.exec_faults ok rfl (millTableLoad_run h.alone i.source i.free i.some_)
    (by simpa using i.alone) failed (by decide) clear
  refine ⟨x, exec_eq, faulted, ?_, ?_, fun b => ?_⟩
  · refine (congrArg (fun v : W64 => v.toNat % 2 ^ 16) fault0).trans ?_
    simp [fault0Word, MILL_PAIR]
    omega
  · exact congrArg Mill.tables ((mill c).trans ((State.mill_of_tallied (State.tallied_of_seen seen) c).trans (s.milled_mill ..)))
  · rw [mem]
    exact congrArg (Memory.byte · b) ((State.mem_of_seen seen).trans (s.milled_mem ..))

/-! ### EVAL -/

theorem flagInvalid_run (q : SeqId) (inv : Bool) (s : State) :
    ∃ t, (flagInvalid q inv).run s = .ok () t ∧ t.tallied = s.tallied ∧ t.mem = s.mem := by
  cases inv with
  | false => exact ⟨s, rfl, rfl, rfl⟩
  | true => exact ⟨s.setFlag q FLAG_INV, rfl, s.tallied_setFlag .., s.mem_setFlag ..⟩

/-- An element without scale and zero point stands for its code. -/
theorem Elem.value_code (x : Num) : ({ code := x } : Elem).value = x := by
  have plain : ({ code := x } : Elem).plain = x := by
    cases x with
    | val v => simp [Elem.plain]
    | _ => rfl
  exact (if_pos rfl).trans plain

theorem within_row (row : OneRow d) (source : OneRow a) (same : a.eff0 = d.eff0) : within a d = a := by
  obtain ⟨one, one', one''⟩ := row.row
  obtain ⟨here, here', here''⟩ := source.row
  rw [within, ← same, Nat.min_self, one, one', one'', Nat.min_eq_left here.le, Nat.min_eq_left here'.le, Nat.min_eq_left here''.le]

/-- The value of a table at an FP32 code, in FP32. -/
def evalCode (tab : Option Table) (clamp exp2 : Bool) (v : Nat) : Nat := fp32Bits (tableEval tab clamp exp2 (fp32 (ofFp32 v))).1

theorem evalBody_run (dRow : OneRow d) (aRow : OneRow a) (dFmt : tdFmt d = .fp32) (aFmt : tdFmt a = .fp32) (same : a.eff0 = d.eff0)
    (readable : s.readableSpan q a.base (rowLen a)) (writable : s.localSpan q true d.base (rowLen d)) :
    ∃ t, (evalBody q w [a] [d]).run s = .ok () t ∧
      t.mem = s.mem.write (d.base % 2 ^ 48) (((s.rowRaw a).map (evalCode (s.tableOf q (bits (wImm w) 0 2)) (wFlag w 0) (wFlag w 1))).flatMap
        (leBytes 4)) ∧ t.tallied = s.tallied := by
  have wide : fmtBits (tdFmt d) = 32 := by rw [dFmt]; rfl
  let tab := s.tableOf q (bits (wImm w) 0 2)
  obtain ⟨t, read, seen⟩ := sourceLines_row (s := s) (q := q) 2 aRow (by rw [aFmt]; rfl) readable
  let row := evalRow tab (wFlag w 0) (wFlag w 1) ((0, 0, 0), { elems := s.rowElems a })
  let xs := (s.rowRaw a).map (fun v => (tableEval tab (wFlag w 0) (wFlag w 1) (fp32 (ofFp32 v))).1)
  have cells : row.1.cells = xs.map .val := by
    simp only [row, evalRow, State.rowElems, xs, List.map_map, aFmt]
    exact List.map_congr_left fun v _ => congrArg (fun x => Cell.val (tableEval tab (wFlag w 0) (wFlag w 1) (fp32 x)).1) (Elem.value_code _)
  have count : xs.length = d.eff0 := (List.length_map ..).trans ((length_rowRaw ..).trans same)
  obtain ⟨u, flagged, uTally, uMem⟩ := flagInvalid_run q ([row].any (fun r => r.2)) t
  let v := u.countSeq q EV_ML_VEC_ELEM (cellCount [row.1])
  have vTally : v.tallied = s.tallied := (State.tallied_countSeq ..).trans (uTally.trans (State.tallied_of_seen seen))
  have vMem : v.mem = s.mem := (State.mem_of_seen (State.seen_countSeq ..)).trans (uMem.trans (State.mem_of_seen seen))
  obtain ⟨x, wrote, mem, tally⟩ := writeOut_row (s := v) (q := q) (k := { td := d }) (r := row.1) (xs := xs) ⟨dRow, rfl, rfl, wide⟩ ⟨rfl, rfl, rfl⟩
    cells rfl (List.ne_nil_of_length_pos (count ▸ dRow.some_)) count.le
    (State.localSpan_of_tallied vTally (writable.front (by rw [rowLen_wide wide, count])))
  rw [vMem] at mem
  refine ⟨x, ?_, mem.trans ?_, tally.trans vTally⟩
  · unfold evalBody
    simp only [List.headD_cons, within_row dRow aRow same]
    exact (bind_run (EStateM.run_get _)).trans ((bind_run read).trans ((bind_run flagged).trans ((bind_run (change_run ..)).trans wrote)))
  · simp only [xs, List.map_map, dFmt]
    rfl

theorem millTableEval_run (alone : (s.seqr q).millQ = []) (dest : s.Names q (wTdd w) true d) (source : s.Names q (wTda w) false a)
    (row : OneRow d) : (millTableEval q w).run s = .ok .next (s.milled q (s.millEntry q w [a] [d] .tableEval)) := by
  unfold millTableEval
  refine (bind_run (operand_run (pos := 0) dest)).trans ((bind_run (operand_run (pos := 1) source)).trans ?_)
  rw [tdEmpty_row row]
  exact runMill_run alone [a] [d] .tableEval

theorem millTableEval_writes (h : s.MillTakes (.core c) w) (ok : (Instr.millTableEval (.core c) w).wordOk = true)
    (dest : s.Names (.core c) (wTdd w) true d) (source : s.Names (.core c) (wTda w) false a) (dRow : OneRow d) (aRow : OneRow a)
    (dFmt : tdFmt d = .fp32) (aFmt : tdFmt a = .fp32) (same : a.eff0 = d.eff0)
    (readable : s.readableSpan (.core c) a.base (rowLen a)) (writable : s.localSpan (.core c) true d.base (rowLen d)) :
    ∃ t, exec (.millTableEval (.core c) w) s = .next t ∧
      t.rowHolds d ((s.rowRaw a).map (evalCode (getN s.cores[c].mill.tables (bits (wImm w) 0 2) none) (wFlag w 0) (wFlag w 1))) ∧
      s.sameOutsideRow t d ∧ s.joinedMill t (.core c) w ∧ t.cores[c].seq.s = s.cores[c].seq.s := by
  have wide : fmtBits (tdFmt d) = 32 := by rw [dFmt]; rfl
  let e := s.millEntry (.core c) w [a] [d] .tableEval
  let v := s.milled (.core c) e
  have vMem : v.mem = s.mem := s.milled_mem ..
  have table : v.tableOf (.core c) (bits (wImm w) 0 2) = getN s.cores[c].mill.tables (bits (wImm w) 0 2) none :=
    congrArg (fun m : Mill => getN m.tables (bits (wImm w) 0 2) none) (s.milled_mill (.core c) e c)
  obtain ⟨t, worked, mem, tally⟩ := evalBody_run (s := v) (w := w) dRow aRow dFmt aFmt same (State.readableSpan_milled e readable)
    (State.localSpan_milled e writable)
  rw [vMem, State.rowRaw_of_mem vMem, table] at mem
  obtain ⟨x, exec_eq, joined, xMem, scalars, -, -⟩ := h.exec_mills ok rfl (millTableEval_run h.alone dest source dRow) (fun _ => rfl)
    (by simpa using ⟨aRow.alone, dRow.alone⟩) worked (State.millRan_of_tallied tally)
  have final := xMem.trans mem
  exact ⟨x, exec_eq, State.rowHolds_write h.canonical final,
    State.sameOutsideRow_write h.canonical wide final (by rw [List.length_map, length_rowRaw, same]), joined,
    scalars.trans ((State.scalars_of_tallied tally _).trans (s.milled_scalars (.core c) _))⟩

end

/-- Settles O17: LOAD takes or refuses the image that it reads, and EVAL writes its values through `writeOut_row`. -/
theorem millTableRows : Obligations.MillTableRows := by
  unfold Obligations.MillTableRows
  intro c w s a h source
  refine ⟨fun ok free some_ alone readable => ⟨fun good => ?_, fun bad => ?_⟩,
    fun d dest dRow aRow dFormat aFormat same readable writable ok => ?_⟩
  · exact millTableLoad_takes h ok ⟨source, free, some_, alone, readable⟩ good
  · exact millTableLoad_refuses h ok ⟨source, free, some_, alone, readable⟩ bad
  · exact millTableEval_writes h ok dest source dRow aRow (tdFmt_of_format (by rw [dFormat]; rfl)) (tdFmt_of_format (by rw [aFormat]; rfl)) same
      readable writable

end Sys2Proof.Machine
end


section
/-!
PROOF. A single-element MILL.VEC (06.R167 to R169, 08.R243): its operands come from scalar registers, and its result goes to one.
-/

namespace Sys2Proof.Machine
set_option Elab.async false

section

variable {s t : State} {q : SeqId} {w : W128}

/-! ### Operands -/

/-- The word names a scalar register for each operand that its form uses, and for its result. -/
structure ScalarVec (w : W128) : Prop where
  dest : wFlag w 3 = true
  operands : ∀ i, i < 3 → bit (vecUses (wForm w)) i = true → wFlag w i = true
  chain : bits (wImm w) 40 8 = 0xFF

theorem bit_testBit (v i : Nat) : bit v i = v.testBit i := by
  rw [bit, Nat.testBit_eq_decide_div_mod_eq]
  rfl

theorem wFlag_bit (w : W128) {i : Nat} (small : i < 16) : bit (wFlags w) i = wFlag w i := by
  have inside : (w.toNat / 2 ^ 48 % 2 ^ 16).testBit i = w.toNat.testBit (48 + i) := by
    rw [Nat.testBit_mod_two_pow, decide_eq_true small, Bool.true_and, Nat.testBit_div_two_pow, Nat.add_comm]
  rw [bit_testBit]
  exact inside.trans (bit_testBit w.toNat (48 + i)).symm

theorem bit_of_and {u f i : Nat} (covers : u &&& f % 8 = u) (used : bit u i = true) : bit f i = true := by
  rw [bit_testBit] at used ⊢
  rw [← covers, Nat.testBit_and, Bool.and_eq_true, show (8 : Nat) = 2 ^ 3 from rfl, Nat.testBit_mod_two_pow, Bool.and_eq_true] at used
  exact used.2.2

theorem scalarVec_of_single (single : singleElement w = true) (vec : wOp w = 1) (chain : bits (wImm w) 40 8 = 0xFF) : ScalarVec w := by
  simp only [singleElement, vec, Bool.and_eq_true, Bool.or_eq_true, decide_eq_true_eq, beq_self_eq_true, true_and, Nat.reduceBEq,
    Bool.false_eq_true, false_and, or_false] at single
  obtain ⟨-, dest, covers⟩ := single
  exact ⟨dest, fun _ small used => (wFlag_bit w (Nat.lt_trans small (by decide))).symm.trans (bit_of_and covers used), chain⟩

/-- An operand of the word: its scalar register, where the form uses it. -/
def scalarArg (w : W128) (r : Seqr) (i : Nat) : VecArg :=
  if bit (vecUses (wForm w)) i then .scalar (r.scalar (bits (wImm w) (35 - 5 * i) 5)).toNat else .unused

theorem vecArg_run (v : ScalarVec w) {i : Nat} (small : i < 3) : (vecArg q w i).run s = .ok (scalarArg w (s.seqr q) i) s := by
  unfold vecArg scalarArg
  cases used : bit (vecUses (wForm w)) i with
  | false => rfl
  | true =>
    rw [v.operands i small used]
    exact bind_run (scalar_run ..)

theorem vecTds_scalars (w : W128) (r : Seqr) (l : List Nat) : vecTds (l.map (scalarArg w r)) = [] := by
  rw [vecTds, List.filterMap_eq_nil_iff]
  intro a there
  obtain ⟨i, -, rfl⟩ := List.mem_map.mp there
  unfold scalarArg
  cases bit (vecUses (wForm w)) i <;> rfl

theorem vecPut_scalars (d : TD) (w : W128) (r : Seqr) (l : List Nat) : vecPut d (l.map (scalarArg w r)) [] = l.map (scalarArg w r) := by
  induction l with
  | nil => rfl
  | cons i l ih =>
    have here : vecPut d (scalarArg w r i :: l.map (scalarArg w r)) [] = scalarArg w r i :: vecPut d (l.map (scalarArg w r)) [] := by
      unfold scalarArg
      cases bit (vecUses (wForm w)) i <;> rfl
    rw [List.map_cons, here, ih]

/-- The operand as it is read. -/
def scalarSrc (q : SeqId) (w : W128) (r : Seqr) (i : Nat) : VecSrc :=
  { fmt := if bit (vecUses (wForm w)) i then .int32 else .fp32, one := some (vecScalarElem q w r i) }

theorem vecRead_unused {form : Nat} {as : List VecArg} {ss : List VecSrc} (rest : (vecRead q form as).run s = .ok ss s) :
    (vecRead q form (.unused :: as)).run s = .ok ({ one := some {} } :: ss) s := bind_run rest

theorem vecRead_scalar {form v : Nat} {as : List VecArg} {ss : List VecSrc} (rest : (vecRead q form as).run s = .ok ss s) :
    (vecRead q form (.scalar v :: as)).run s = .ok ({ fmt := .int32, one := some { code := vecScalar q form v } } :: ss) s := bind_run rest

theorem vecRead_scalars (w : W128) (r : Seqr) (l : List Nat) :
    (vecRead q (wForm w) (l.map (scalarArg w r))).run s = .ok (l.map (scalarSrc q w r)) s := by
  induction l with
  | nil => rfl
  | cons i l ih =>
    rw [List.map_cons, List.map_cons]
    cases used : bit (vecUses (wForm w)) i with
    | false =>
      have arg : scalarArg w r i = .unused := by rw [scalarArg, used]; rfl
      have src : scalarSrc q w r i = { one := some {} } := by rw [scalarSrc, vecScalarElem, used]; rfl
      rw [arg, src]
      exact vecRead_unused ih
    | true =>
      have arg : scalarArg w r i = .scalar (r.scalar (bits (wImm w) (35 - 5 * i) 5)).toNat := by rw [scalarArg, used]; rfl
      have src : scalarSrc q w r i =
          { fmt := .int32, one := some { code := vecScalar q (wForm w) (r.scalar (bits (wImm w) (35 - 5 * i) 5)).toNat } } := by
        rw [scalarSrc, vecScalarElem, used]
        rfl
      rw [arg, src]
      exact vecRead_scalar ih

/-! ### The result -/

theorem vecRows_scalars (q : SeqId) (w : W128) (r : Seqr) :
    vecRows (wForm w) (bits (wFlags w) 5 2) (match q with
      | .core _ => 32
      | .house => 64) 1 ([0, 1, 2].map (scalarSrc q w r)) [(0, 0, 0)] =
      [({ cells := [.val (vecScalarRes q w r).val] }, [vecScalarRes q w r])] := by
  simp only [List.map_cons, List.map_nil, vecRows, vecRow, List.getD_cons_zero, List.getD_cons_succ, VecSrc.row, scalarSrc,
    List.replicate_one, vecCells, Option.orElse_none, Option.isSome_none, Bool.false_eq_true, if_false]
  rfl

theorem State.putScalar_vec (q : SeqId) (w : W128) (s : State) (x : Num) {o : FinishOps} (chain : o.chain = []) :
    (vecToReg q w o [{ cells := [.val x] }]).run s = .ok () (s.updSeqr q (fun r => { r with
      s := updN r.s (bits (wImm w) 20 5) (fun _ =>
        BitVec.ofNat 64 (if vecIsInt (wForm w) then unsigned 64 x.rat.num else fp32Bits (fp32 x))) })) := by
  unfold vecToReg
  rw [chain]
  cases vecIsInt (wForm w) <;> rfl

theorem vecBody_run (q : SeqId) (w : W128) (r : Seqr) {o : FinishOps} (chain : o.chain = []) (thr : Num) (s : State) :
    ∃ t : State, (vecBody q w o ([0, 1, 2].map (scalarArg w r)) thr [] []).run s = .ok () (t.updSeqr q (fun x => { x with
      s := updN x.s (bits (wImm w) 20 5) (fun _ => vecScalarWord q w r) })) ∧ t.tallied = s.tallied ∧ t.mem = s.mem := by
  let res := vecScalarRes q w r
  let u := (s.countSeq q EV_ML_VEC_ELEM 1).countConv q (0 + res.clips) (0 + res.invalids)
  have uTally : u.tallied = s.tallied := (State.tallied_countConv ..).trans (State.tallied_countSeq ..)
  have uMem : u.mem = s.mem := (State.mem_countConv ..).trans (State.mem_of_seen (State.seen_countSeq ..))
  obtain ⟨t, flagged, tally, mem⟩ := flagInvalid_run q ([res].any (fun v => v.inv)) u
  refine ⟨t, ?_, tally.trans uTally, mem.trans uMem⟩
  have counted : (vecCount q [({ cells := [.val res.val] }, [res])]).run s = .ok [{ cells := [.val res.val] }] t :=
    (bind_run (change_run ..)).trans (bind_run flagged)
  unfold vecBody
  dsimp only [List.headD_nil]
  rw [vecPut_scalars]
  refine (bind_run (vecRead_scalars w r [0, 1, 2])).trans ?_
  exact (bind_run ((congrArg (fun l => (vecCount q l).run s) (vecRows_scalars q w r)).trans counted)).trans
    (State.putScalar_vec q w t res.val chain)

theorem millVec_run (alone : (s.seqr q).millQ = []) (v : ScalarVec w) :
    ∃ o thr, (millVec q w).run s =
        .ok .next (s.milled q (s.millEntry q w [] [] (.vec o ([0, 1, 2].map (scalarArg w (s.seqr q))) thr))) ∧ o.chain = [] := by
  obtain ⟨o, ops, chain⟩ : ∃ o, (finishOps q w false []).run s = .ok o s ∧ o.chain = [] := ⟨_, rfl, rfl⟩
  have none_ : (chainOperand q (bits (wImm w) 40 8) none none).run s = .ok [] s := by
    rw [chainOperand, if_pos v.chain]
    rfl
  refine ⟨o, ((s.seqr q).scalar (bits (wImm w) 25 5)).toNat, ?_, chain⟩
  unfold millVec
  rw [v.dest]
  refine (bind_run rfl).trans ((bind_run (vecArg_run v (i := 0) (by decide))).trans ((bind_run (vecArg_run v (i := 1) (by decide))).trans
    ((bind_run (vecArg_run v (i := 2) (by decide))).trans ((bind_run none_).trans ((bind_run ops).trans
      ((bind_run (scalar_run ..)).trans ?_))))))
  have tds := vecTds_scalars w (s.seqr q) [0, 1, 2]
  simp only [List.map_cons, List.map_nil] at tds
  rw [tds]
  exact runMill_run alone [] [] _

/-- What the statement says of a single-element MILL.VEC. -/
theorem millVec_writes {i : Instr} (h : s.MillTakes q w) (v : ScalarVec w) (ok : i.wordOk = true)
    (means : exec i s = s.instr i q w (millRow q (millVec q w))) :
    ∃ t, exec i s = .next t ∧
      (t.seqr q).s = updN (s.seqr q).s (bits (wImm w) 20 5) (fun _ => vecScalarWord q w (s.seqr q)) ∧
      (∃ e, (t.seqr q).millQ = (s.seqr q).millQ ++ [e] ∧ e.opcode = wOpcode w ∧ e.pc = (s.seqr q).pc ∧ e.done = donesTo q w) ∧
      Seqr.wentOn (s.seqr q) (t.seqr q) ∧ Seqr.sameSpecial (s.seqr q) (t.seqr q) ∧ s.othersKeep t q ∧ s.sameBytes t := by
  obtain ⟨o, thr, decoded, chain⟩ := millVec_run h.alone v
  obtain ⟨t, worked, tally, mem⟩ := vecBody_run q w (s.seqr q) chain (ofFp32 (thr % 2 ^ 32))
    (s.milled q (s.millEntry q w [] [] (.vec o ([0, 1, 2].map (scalarArg w (s.seqr q))) thr)))
  obtain ⟨x, exec_eq, ⟨entry, went, others⟩, xMem, scalars, special, -⟩ := h.exec_mills ok means decoded (fun _ => rfl) (by simp) worked
    ((State.millRan_of_tallied tally).trans (State.millRan_updSeqr _ (fun _ => rfl) (fun _ => rfl) fun _ => rfl))
  have before := State.seqr_of_tallied tally q
  rw [s.milled_seqr] at before
  rw [State.seqr_updSeqr] at scalars special
  have regs : (t.seqr q).s = (s.seqr q).s := (congrArg Seqr.s before :)
  obtain ⟨al, tdBase, fault0, fault1, faulted⟩ := special
  refine ⟨x, exec_eq, scalars.trans (by rw [regs]), entry, went, ⟨?_, ?_, ?_, ?_, ?_⟩, others, fun b => ?_⟩
  · exact al.trans (congrArg Seqr.al before :)
  · exact tdBase.trans (congrArg Seqr.tdBase before :)
  · exact fault0.trans (congrArg Seqr.fault0 before :)
  · exact fault1.trans (congrArg Seqr.fault1 before :)
  · exact faulted.trans (congrArg Seqr.faulted before :)
  · rw [xMem, State.updSeqr_mem, mem, s.milled_mem]

end

/-- Settles O12: every form of MILL.VEC is one row of the queue, whose body writes its result through `vecToReg`. -/
theorem millVecScalar : Obligations.MillVecScalar := by
  unfold Obligations.MillVecScalar
  intro q w s h single vec chain i listed ok
  have v := scalarVec_of_single single vec chain
  have means : exec i s = s.instr i q w (millRow q (millVec q w)) := by
    simp only [List.mem_cons, List.not_mem_nil, or_false] at listed
    rcases listed with h | h | h | h | h | h | h | h | h | h | h | h | h | h | h | h | h | h | h | h | h <;> subst h <;> rfl
  exact millVec_writes h v ok means

end Sys2Proof.Machine
end


section
/-!
PROOF. MILL.RED (06.R170 to R175, 08.R244): the exact sums, means and extremes of one INT32 row, and MERGE of RAW records.
-/

namespace Sys2Proof.Machine
set_option Elab.async false

/-! ### Exact sums -/

theorem clampRat_inside {lo hi v : Rat} (low : lo ≤ v) (high : v ≤ hi) : clampRat lo hi v = (v, false) := by
  rw [clampRat, if_neg (not_lt.mpr low), if_neg (not_lt.mpr high)]

/-- Sums of integers without saturation. -/
def intSums (n : Nat) (a b : Int) : Sums := { n := n, s1 := .val (a : Rat), s2 := .val (b : Rat) }

theorem addExact_int {n : Nat} {a b : Int} (x : Int) (low : -2 ^ 47 ≤ a + x) (high : a + x < 2 ^ 47) (pos : 0 ≤ b + x * x)
    (small : b + x * x < 2 ^ 48) : addExact (intSums n a b) (x : Rat) = intSums (n + 1) (a + x) (b + x * x) := by
  have first : clampRat (-(2 ^ 47)) (2 ^ 47 - 1) ((a : Rat) + x) = (((a + x : Int) : Rat), false) := by
    rw [← Int.cast_add]
    refine clampRat_inside ?_ ?_
    · exact_mod_cast low
    · have : a + x ≤ 2 ^ 47 - 1 := by omega
      exact_mod_cast this
  have second : clampRat 0 (2 ^ 48 - 1) ((b : Rat) + x * x) = (((b + x * x : Int) : Rat), false) := by
    rw [← Int.cast_mul, ← Int.cast_add]
    refine clampRat_inside ?_ ?_
    · exact_mod_cast pos
    · have : b + x * x ≤ 2 ^ 48 - 1 := by omega
      exact_mod_cast this
  simp only [addExact, intSums, Num.rat, first, second, Bool.or_false]

theorem natAbs_le_mul_self (x : Int) : |x| ≤ x * x := by
  rcases eq_or_ne x 0 with rfl | ne
  · simp
  · rw [← abs_mul_abs_self x]
    exact le_mul_of_one_le_left (abs_nonneg x) (Int.one_le_abs ne)

theorem foldl_addExact (xs : List Int) : ∀ (n : Nat) (a b : Int), |a| ≤ b → b + (xs.map (fun x => x * x)).sum < 2 ^ 47 →
    xs.foldl (fun (k : Sums) (x : Int) => addExact k (x : Rat)) (intSums n a b) = intSums (n + xs.length) (a + xs.sum) (b + (xs.map (fun x => x * x)).sum) := by
  induction xs with
  | nil => simp
  | cons x xs ih =>
    intro n a b inside small
    rw [List.map_cons, List.sum_cons] at small
    have rest : 0 ≤ (xs.map (fun x => x * x)).sum := List.sum_nonneg fun y there => by
      obtain ⟨z, -, rfl⟩ := List.mem_map.mp there
      exact mul_self_nonneg z
    have grown : |a + x| ≤ b + x * x := (abs_add_le a x).trans (add_le_add inside (natAbs_le_mul_self x))
    obtain ⟨low, high⟩ := abs_le.mp grown
    rw [List.foldl_cons, addExact_int x (by omega) (by omega) ((abs_nonneg _).trans grown) (by omega), ih _ _ _ grown (by omega)]
    simp only [List.length_cons, List.map_cons, List.sum_cons]
    congr 1 <;> ring

/-- Integers as exact values. -/
def intVals (xs : List Int) : List Num := xs.map (fun x : Int => .val (x : Rat))

theorem rowSums_ints {xs : List Int} (small : (xs.map (fun x => x * x)).sum < 2 ^ 47) :
    rowSums true (intVals xs) = intSums xs.length xs.sum (xs.map (fun x => x * x)).sum := by
  have finite : (intVals xs).all Num.finite = true := by simp [intVals, Num.finite]
  have start : ({} : Sums) = intSums 0 0 0 := by simp [intSums]
  rw [rowSums, finite, Bool.and_self, if_pos rfl, start, intVals, List.foldl_map]
  have sums := foldl_addExact xs 0 0 0 (by simp) (by simpa using small)
  rw [Nat.zero_add, Int.zero_add, Int.zero_add] at sums
  exact sums

/-! ### Extremes -/

theorem maxN_vals (a b : Rat) : maxN (.val a) (.val b) = .val (max a b) := by
  have before : beforeN (.val a) (.val b) = decide (a < b) := by
    by_cases lt : a < b
    · simp [beforeN, ltN, Num.rat, lt]
    · by_cases eq : a = b
      · simp [beforeN, ltN, eqN, Num.rat, Num.neg, eq]
      · simp [beforeN, ltN, eqN, Num.rat, lt, eq]
  simp only [maxN, before, decide_eq_true_eq]
  split
  · next lt => rw [max_eq_right lt.le]
  · next ge => rw [max_eq_left (not_lt.mp ge)]

theorem minN_vals (a b : Rat) : minN (.val a) (.val b) = .val (min a b) := by
  have before : beforeN (.val b) (.val a) = decide (b < a) := by
    by_cases lt : b < a
    · simp [beforeN, ltN, Num.rat, lt]
    · by_cases eq : b = a
      · simp [beforeN, ltN, eqN, Num.rat, Num.neg, eq]
      · simp [beforeN, ltN, eqN, Num.rat, lt, eq]
  simp only [minN, before, decide_eq_true_eq]
  split
  · next lt => rw [min_eq_right lt.le]
  · next ge => rw [min_eq_left (not_lt.mp ge)]

theorem foldl_maxN {m : Rat} : ∀ (l : List Rat) (a : Rat), m ∈ a :: l → (∀ x ∈ a :: l, x ≤ m) →
    (l.map Num.val).foldl (fun b y => maxN b y) (.val a) = .val m := by
  intro l
  induction l with
  | nil =>
    intro a there _
    rw [List.mem_singleton.mp there]
    rfl
  | cons b l ih =>
    intro a there most
    rw [List.map_cons, List.foldl_cons, maxN_vals]
    obtain ⟨here, next, later⟩ : a ≤ m ∧ b ≤ m ∧ ∀ x ∈ l, x ≤ m := by simpa using most
    refine ih (max a b) ?_ ?_
    · rcases List.mem_cons.mp there with rfl | there
      · rw [max_eq_left next]
        exact List.mem_cons_self
      · rcases List.mem_cons.mp there with rfl | there
        · rw [max_eq_right here]
          exact List.mem_cons_self
        · exact List.mem_cons_of_mem _ there
    · exact List.forall_mem_cons.mpr ⟨max_le here next, later⟩

theorem foldl_minN {m : Rat} : ∀ (l : List Rat) (a : Rat), m ∈ a :: l → (∀ x ∈ a :: l, m ≤ x) →
    (l.map Num.val).foldl (fun b y => minN b y) (.val a) = .val m := by
  intro l
  induction l with
  | nil =>
    intro a there _
    rw [List.mem_singleton.mp there]
    rfl
  | cons b l ih =>
    intro a there least
    rw [List.map_cons, List.foldl_cons, minN_vals]
    obtain ⟨here, next, later⟩ : m ≤ a ∧ m ≤ b ∧ ∀ x ∈ l, m ≤ x := by simpa using least
    refine ih (min a b) ?_ ?_
    · rcases List.mem_cons.mp there with rfl | there
      · rw [min_eq_left next]
        exact List.mem_cons_self
      · rcases List.mem_cons.mp there with rfl | there
        · rw [min_eq_right here]
          exact List.mem_cons_self
        · exact List.mem_cons_of_mem _ there
    · exact List.forall_mem_cons.mpr ⟨le_min here next, later⟩

theorem not_nan_vals (l : List Rat) : (l.map Num.val).contains .nan = false := by simp

theorem extreme_max {l : List Rat} {m : Rat} (there : m ∈ l) (most : ∀ x ∈ l, x ≤ m) :
    extreme 3 (l.map Num.val) (.val 1) = ([.val m], false) := by
  cases l with
  | nil => exact absurd there List.not_mem_nil
  | cons a l =>
    have best := foldl_maxN l a there most
    have none_ := not_nan_vals (a :: l)
    rw [List.map_cons] at none_ ⊢
    simp only [extreme, none_, Bool.false_eq_true, if_false, if_true, Nat.reduceEqDiff, List.tail_cons, List.headD_cons, best]

theorem extreme_min {l : List Rat} {m : Rat} (there : m ∈ l) (least : ∀ x ∈ l, m ≤ x) :
    extreme 4 (l.map Num.val) (.val 1) = ([.val m], false) := by
  cases l with
  | nil => exact absurd there List.not_mem_nil
  | cons a l =>
    have best := foldl_minN l a there least
    have none_ := not_nan_vals (a :: l)
    rw [List.map_cons] at none_ ⊢
    simp only [extreme, none_, Bool.false_eq_true, if_false, if_true, Nat.reduceEqDiff, List.tail_cons, List.headD_cons, best]

theorem ratAbs_int (x : Int) : ratAbs (x : Rat) = (x.natAbs : Rat) := by
  rw [ratAbs]
  split
  · next neg =>
    have : (x : Rat) < 0 := neg
    have neg' : x < 0 := by exact_mod_cast this
    have abs : (x.natAbs : Int) = -x := by omega
    rw [← Int.cast_natCast, abs, Int.cast_neg]
  · next pos =>
    have pos' : 0 ≤ x := by exact_mod_cast not_lt.mp pos
    have abs : (x.natAbs : Int) = x := by omega
    rw [← Int.cast_natCast, abs]

theorem extreme_abs {xs : List Int} {m : Int} (there : m ∈ xs) (most : ∀ x ∈ xs, x.natAbs ≤ m.natAbs) :
    extreme 5 (intVals xs) (.val 1) = ([.val (m.natAbs : Rat)], false) := by
  have none_ : (intVals xs).contains .nan = false := by simp [intVals]
  have mags : (intVals xs).map Num.mag = (xs.map (fun x : Int => (x.natAbs : Rat))).map Num.val := by
    simp only [intVals, List.map_map]
    exact List.map_congr_left fun x _ => congrArg Num.val (ratAbs_int x)
  have same := extreme_max (l := xs.map (fun x : Int => (x.natAbs : Rat))) (m := (m.natAbs : Rat)) (List.mem_map.mpr ⟨m, there, rfl⟩) fun y hy => by
    obtain ⟨x, here, rfl⟩ := List.mem_map.mp hy
    exact_mod_cast most x here
  simp only [extreme, not_nan_vals, Bool.false_eq_true, if_false, Nat.reduceEqDiff] at same
  simp only [extreme, none_, Bool.false_eq_true, if_false, if_true, Nat.reduceEqDiff, mags]
  exact same

/-! ### The result of one row -/

/-- The word that a result puts into a scalar register. -/
def RedRow.word (r : RedRow) : Option Nat :=
  match r.vals with
  | [m, v] => some (fp32Bits (fp32 m) + fp32Bits (fp32 v) * 2 ^ 32)
  | [v] => some (fp32Bits (fp32 v))
  | _ => none

/-- The result of a row, whose free value is not used, puts `n` into a register, and no sum saturated. -/
def RedWord (form : Nat) (xs : List Num) (n : Nat) : Prop :=
  ∀ free, (redRow form 0 true free (0, 0, 0) xs (.val 1)).word = some n ∧ (redRow form 0 true free (0, 0, 0) xs (.val 1)).sat = false

section

variable {xs : List Int}

theorem redWord_sum (small : (xs.map (fun x => x * x)).sum < 2 ^ 47) :
    RedWord 0 (intVals xs) (fp32Bits (fp32 (fp32 (.val (xs.sum : Int))))) := by
  intro free
  have row : redRow 0 0 true free (0, 0, 0) (intVals xs) (.val 1) =
      { vals := [fp32 (.val (xs.sum : Int))], sat := false, inv := false } := by
    simp only [redRow, rowSums_ints small, intSums, finished, timesScale, if_true, Nat.reduceLeDiff, and_false, if_false, Bool.or_false]
  rw [row]
  exact ⟨rfl, rfl⟩

theorem redWord_sumsq (small : (xs.map (fun x => x * x)).sum < 2 ^ 47) :
    RedWord 1 (intVals xs) (fp32Bits (fp32 (fp32 (.val ((xs.map (fun x => x * x)).sum : Int))))) := by
  intro free
  have row : redRow 1 0 true free (0, 0, 0) (intVals xs) (.val 1) =
      { vals := [fp32 (.val ((xs.map (fun x => x * x)).sum : Int))], sat := false, inv := false } := by
    simp only [redRow, rowSums_ints small, intSums, finished, timesScale, if_true, Nat.reduceLeDiff, and_false, if_false, Bool.or_false]
  rw [row]
  exact ⟨rfl, rfl⟩

theorem redWord_meanvar (small : (xs.map (fun x => x * x)).sum < 2 ^ 47) :
    let n : Rat := (xs.length : Nat)
    let s1 : Rat := (xs.sum : Int)
    let s2 : Rat := ((xs.map (fun x => x * x)).sum : Int)
    RedWord 2 (intVals xs) (fp32Bits (fp32 (fp32 (divN (.val s1) (.val n)).1)) +
      fp32Bits (fp32 (fp32 (divN (.val (if n * s2 - s1 * s1 < 0 then 0 else n * s2 - s1 * s1)) (.val (n * n))).1)) * 2 ^ 32) := by
  intro n s1 s2 free
  have row : redRow 2 0 true free (0, 0, 0) (intVals xs) (.val 1) =
      { vals := [fp32 (divN (.val s1) (.val n)).1,
          fp32 (divN (.val (if n * s2 - s1 * s1 < 0 then 0 else n * s2 - s1 * s1)) (.val (n * n))).1], sat := false, inv := false } := by
    simp only [redRow, rowSums_ints small, intSums, finished, timesScale, meanVar, meanOf, spread, Num.rat, if_true, Nat.reduceLeDiff,
      and_false, if_false, Bool.or_false]
    rfl
  rw [row]
  exact ⟨rfl, rfl⟩

theorem redWord_extreme {form : Nat} {x : Num} (late : 3 ≤ form) (best : extreme form (intVals xs) (.val 1) = ([x], false)) :
    RedWord form (intVals xs) (fp32Bits (fp32 x)) := by
  intro free
  have row : redRow form 0 true free (0, 0, 0) (intVals xs) (.val 1) = { vals := [x], inv := false } := by
    rw [redRow, if_pos ⟨rfl, late⟩, best]
  rw [row]
  exact ⟨rfl, rfl⟩

end

/-! ### The instruction -/

section

variable {s t : State} {q : SeqId} {w : W128} {a d : TD} {c : Fin 64}

/-- The integers of an INT32 row. -/
def State.rowInts (s : State) (a : TD) : List Int := (s.rowRaw a).map (signed 32)

theorem redRows_row (form : Nat) (whole : Bool) (free : Nat) (row : OneRow a) (fmt : tdFmt a = .int32) :
    redRows form 0 whole free a [((0, 0, 0), { elems := s.rowElems a })] =
      ([redRow form 0 true free (0, 0, 0) (intVals (s.rowInts a)) (.val 1)], none) := by
  have values : (s.rowElems a).map (redValue .int32) = intVals (s.rowInts a) := by
    simp only [State.rowElems, State.rowInts, intVals, List.map_map, fmt]
    rfl
  have some_ : intVals (s.rowInts a) ≠ [] := by
    refine List.ne_nil_of_length_pos ?_
    rw [intVals, List.length_map, State.rowInts, List.length_map, length_rowRaw]
    exact row.some_
  have plain : ¬ a.skind = 1 := by rw [row.plain]; decide
  cases whole with
  | true =>
    simp [redRows, fmt, values, some_, fmtFloat]
  | false =>
    simp [redRows, fmt, values, plain, fmtFloat]

theorem redToReg_run {r : RedRow} {n : Nat} (rd : Nat) (word : r.word = some n) (s : State) :
    (redToReg q rd r).run s = .ok () (s.updSeqr q (fun x => { x with s := updN x.s rd (fun _ => BitVec.ofNat 64 n) })) := by
  obtain ⟨at_, vals, record, sat, inv⟩ := r
  match vals, word with
  | [x], word =>
    obtain rfl := Option.some.inj word
    rfl
  | [m, v], word =>
    obtain rfl := Option.some.inj word
    rfl

theorem redWrite_reg {r : RedRow} {n : Nat} (word : r.word = some n) (exact_ : r.sat = false) (s : State) :
    ∃ t : State, (redWrite q w none [r]).run s = .ok () (t.updSeqr q (fun x => { x with
      s := updN x.s (bits (wImm w) 20 5) (fun _ => BitVec.ofNat 64 n) })) ∧ t.tallied = s.tallied ∧ t.mem = s.mem := by
  obtain ⟨t, flagged, tally, mem⟩ := flagInvalid_run q ([r].any (fun r => r.inv)) s
  have unsaturated : (redSat q [r]).run s = .ok () s := by
    unfold redSat
    refine (bind_run (EStateM.run_get _)).trans ?_
    rw [List.any_cons, exact_]
    rfl
  refine ⟨t, ?_, tally, mem⟩
  unfold redWrite
  exact (bind_run unsaturated).trans ((bind_run flagged).trans (bind_run (redToReg_run _ word t)))

theorem redBody_reg {n : Nat} (form : wForm w ≠ 6) (values : bits (wFlags w) 1 2 = 0) (row : OneRow a) (fmt : tdFmt a = .int32)
    (readable : s.readableSpan q a.base (rowLen a)) (word : RedWord (wForm w) (intVals (s.rowInts a)) n) :
    ∃ t : State, (redBody q w none [a] []).run s = .ok () (t.updSeqr q (fun x => { x with
      s := updN x.s (bits (wImm w) 20 5) (fun _ => BitVec.ofNat 64 n) })) ∧ t.tallied = s.tallied ∧ t.mem = s.mem := by
  obtain ⟨t, read, seen⟩ := sourceLines_row (s := s) (q := q) 2 row (by rw [fmt]; rfl) readable
  obtain ⟨free, u, drawn, uSeen⟩ : ∃ free u, free64.run t = .ok free u ∧ u.seen = t.seen := ⟨_, _, rfl, rfl⟩
  let ls : List ((Nat × Nat × Nat) × Line) := [((0, 0, 0), { elems := s.rowElems a })]
  let v := u.countSeq q EV_ML_RED_ELEM (ls.foldl (fun n l => n + l.2.elems.length) 0)
  have vSeen : v.seen = s.seen := (State.seen_countSeq ..).trans (uSeen.trans seen)
  obtain ⟨wordIs, exact_⟩ := word free
  obtain ⟨x, wrote, tally, mem⟩ := redWrite_reg (q := q) (w := w) wordIs exact_ v
  refine ⟨x, ?_, tally.trans (State.tallied_of_seen vSeen), mem.trans (State.mem_of_seen vSeen)⟩
  unfold redBody
  dsimp only
  rw [if_neg form, values]
  refine (bind_run read).trans ((bind_run drawn).trans ?_)
  rw [redRows_row (wForm w) _ free row fmt]
  exact (bind_run (change_run ..)).trans (bind_run wrote)

/-! ### The word -/

theorem demand_with {b : Bool} (h : b = true) (code unit : Nat) (detail : Option Nat) (s : State) :
    (demand b code unit detail).run s = .ok () s := by
  rw [h]
  rfl

/-- A word that a row takes has a form of the row. -/
theorem form_of_wordOk {i : Instr} {r : OpRow} (ok : i.wordOk = true) (takes : s.Takes q w) (word : i.word = some (r, w)) :
    wForm w ∈ r.forms := by
  simp only [Instr.wordOk, word, takes.listed, Bool.not_true, Bool.or_false, OpRow.has, Bool.and_eq_true] at ok
  exact List.contains_iff_mem.mp ok.2

/-- What the decode of a MILL.RED of a tensor asks. -/
structure RedChecks (w : W128) (a : TD) : Prop where
  tensor : wFlag w 3 = false
  out : bits (wFlags w) 1 2 ≠ 3
  int : fmtFloat (tdFmt a) = false
  parts : wForm w = 6 → a.ext0 % 4 = 0 ∧ 8 ≤ a.ext0 ∧ a.ext0 ≤ 32

theorem millRed_run {dst : Option TD} (alone : (s.seqr q).millQ = []) (checks : RedChecks w a) (source : s.Names q (wTda w) false a)
    (row : OneRow a) (dest : ∀ k : Option TD → ExecM Flow, (if wFlag w 4 = true then do
        let dst ← pure none
        k dst
      else do
        let t ← operand q w 0 true
        let dst ← pure (some t)
        k dst).run s = (k dst).run s) (dRow : ∀ d ∈ dst, OneRow d) :
    (millRed q w).run s = .ok .next (s.milled q (s.millEntry q w [a] dst.toList (.red none))) := by
  obtain ⟨tensor, out, int, parts⟩ := checks
  have first : (bits (wFlags w) 1 2 != 3 && !(wForm w == 6 && false)) = true := by simp [out]
  have second : (!(bits (wFlags w) 1 2 == 1 && (false || (some a).any (fun t => fmtFloat (tdFmt t))))) = true := by simp [int]
  have third : (wForm w != 6 || (a.ext0 % 4 == 0 && decide (8 ≤ a.ext0 ∧ a.ext0 ≤ 32))) = true := by
    by_cases form : wForm w = 6
    · obtain ⟨whole, low, high⟩ := parts form
      simp [whole, low, high]
    · simp [form]
  have full : (dst.toList.any tdEmpty || [a].any tdEmpty) = false := by
    cases dst with
    | none => simp [tdEmpty_row row]
    | some d => simp [tdEmpty_row row, tdEmpty_row (dRow d rfl)]
  unfold millRed
  rw [tensor]
  refine (bind_run (demand_at first ..)).trans ((dest _).trans ((bind_run (operand_run (pos := 1) source)).trans
    ((bind_run (demand_at second ..)).trans ((bind_run (demand_with third ..)).trans ((bind_run (scalar_run ..)).trans ?_)))))
  dsimp only [Option.toList_some]
  rw [full]
  exact runMill_run alone [a] dst.toList (.red none)

/-- A reduction of one INT32 row into a scalar register. -/
theorem millRed_reg {i : Instr} {n : Nat} (h : s.MillTakes (.core c) w) (ok : i.wordOk = true)
    (means : exec i s = s.instr i (.core c) w (millRow (.core c) (millRed (.core c) w))) (tensor : wFlag w 3 = false) (reg : wFlag w 4 = true)
    (values : bits (wFlags w) 1 2 = 0) (form : wForm w ≠ 6) (source : s.Names (.core c) (wTda w) false a) (row : OneRow a)
    (fmt : tdFmt a = .int32) (readable : s.readableSpan (.core c) a.base (rowLen a))
    (word : RedWord (wForm w) (intVals (s.rowInts a)) n) :
    ∃ t, exec i s = .next t ∧
      t.cores[c].seq.s = updN s.cores[c].seq.s (bits (wImm w) 20 5) (fun _ => BitVec.ofNat 64 n) ∧ s.sameBytes t ∧ s.joinedMill t (.core c) w := by
  have decoded := millRed_run (dst := none) h.alone ⟨tensor, by rw [values]; decide, by rw [fmt]; rfl, fun six => absurd six form⟩ source row
    (fun k => by rw [reg]; rfl) (fun _ none_ => nomatch none_)
  let e := s.millEntry (.core c) w [a] [] (.red none)
  have ints : (s.milled (.core c) e).rowInts a = s.rowInts a := congrArg (List.map (signed 32)) (State.rowRaw_of_mem (s.milled_mem ..) a)
  obtain ⟨t, worked, tally, mem⟩ := redBody_reg (s := s.milled (.core c) e) (w := w) form values row fmt (State.readableSpan_milled e readable)
    (by rw [ints]; exact word)
  obtain ⟨x, exec_eq, joined, xMem, scalars, -, -⟩ := h.exec_mills ok means decoded (fun _ => rfl) (by simpa using row.alone) worked
    ((State.millRan_of_tallied tally).trans (State.millRan_updSeqr _ (fun _ => rfl) (fun _ => rfl) fun _ => rfl))
  have regs := (State.scalars_of_tallied tally (.core c)).trans (s.milled_scalars (.core c) e)
  rw [State.seqr_updSeqr] at scalars
  refine ⟨x, exec_eq, scalars.trans ?_, fun b => ?_, joined⟩
  · dsimp only
    rw [regs]
    rfl
  · rw [xMem, State.updSeqr_mem, mem, s.milled_mem]

/-! ### MERGE -/

theorem leBytes_eq_nil {n v : Nat} (none_ : leBytes n v = []) : n = 0 := by
  rw [← length_leBytes n v, none_, List.length_nil]

/-- A MERGE of RAW records of one row, which counts some element and did not saturate, writes the merged record. -/
theorem redBody_merge (merge : wForm w = 6) (raw : bits (wFlags w) 1 2 = 1) (aRow : OneRow a) (dRow : OneRow d) (aFmt : tdFmt a = .int32)
    (dFmt : tdFmt d = .int32) (four : d.eff0 = 4) (readable : s.readableSpan q a.base (rowLen a)) (writable : s.localSpan q true d.base 16)
    {k : Sums} (merged : mergeRaw ((parts (s.bytesAt a.base (rowLen a)) (a.eff0 / 4)).map parseRaw) = k) (some_ : k.n ≠ 0)
    (exact_ : k.sat = false) :
    ∃ t, (redBody q w none [a] [d]).run s = .ok () t ∧ t.mem = s.mem.write (d.base % 2 ^ 48) (rawRecord k 0) ∧ t.tallied = s.tallied := by
  have length : rowLen a = 4 * a.eff0 := rowLen_wide (by rw [aFmt]; rfl)
  obtain ⟨t, read, seen⟩ := readMem_row (s := s) (q := q) 2 aRow readable
  let r : RedRow := { record := rawRecord k 0, sat := k.sat }
  have here : mergeRow 1 (0, 0, 0) (parts (s.bytesAt a.base (rowLen a)) (a.eff0 / 4)) = some r := by
    rw [mergeRow, if_pos (.inl rfl), merged]
    dsimp only
    rw [if_neg some_, if_pos rfl]
  have rows : (mergeRows q 1 a [(0, 0, 0)]).run s = .ok [r] t := by
    have read' : (readMem q 2 (rowAddr a 0 0 0) (4 * a.eff0)).run s = .ok (s.bytesAt a.base (rowLen a)) t := by
      rw [← length]
      exact read
    refine (bind_run read').trans ((bind_run (v := []) rfl).trans ?_)
    rw [here]
    rfl
  have unsaturated : (redSat q [r]).run t = .ok () t := by
    unfold redSat
    refine (bind_run (EStateM.run_get _)).trans ?_
    rw [List.any_cons, show r.sat = false from exact_]
    rfl
  obtain ⟨u, flagged, uTally, uMem⟩ := flagInvalid_run q ([r].any (fun r => r.inv)) t
  have whole : r.record.take (runBytes (tdFmt d) d.eff0) = rawRecord k 0 := by
    rw [dFmt, four]
    exact List.take_of_length_le (by rw [show r.record = rawRecord k 0 from rfl, rawRecord, length_leBytes]; decide)
  have tally : u.tallied = s.tallied := uTally.trans (State.tallied_of_seen seen)
  obtain ⟨v, wrote, mem, shell⟩ := writeMem_run (s := u) (q := q) (a := d.base) (bs := rawRecord k 0) 2
    (by rw [rawRecord, length_leBytes]; exact State.localSpan_of_tallied tally writable)
  have put : (putRecords q d [r]).run u = .ok () v := by
    have wrote' : (writeMem q 2 (rowAddr d 0 0 0) (r.record.take (runBytes (tdFmt d) d.eff0))).run u = .ok () v := by
      rw [rowAddr_zero dRow.plain (writable.small (by decide)), whole]
      exact wrote
    exact bind_run wrote'
  have record : (r.record != []) = true := by
    rw [bne_iff_ne]
    exact fun none_ => absurd (leBytes_eq_nil none_) (by decide)
  obtain ⟨one, one', one''⟩ := dRow.row
  have inside : [r].filter (fun r => decide (r.at_.1 < d.eff1 ∧ r.at_.2.1 < d.eff2 ∧ r.at_.2.2 < d.eff3)) = [r] := by
    rw [one, one', one'']
    rfl
  have written : (redWrite q w (some d) [r]).run t = .ok () v := by
    unfold redWrite
    refine (bind_run unsaturated).trans ((bind_run flagged).trans ?_)
    dsimp only
    rw [inside, List.any_cons, record]
    exact put
  refine ⟨v, ?_, ?_, (State.tallied_of_shell shell).trans tally⟩
  · unfold redBody
    dsimp only
    rw [if_pos merge, raw, tdRows_one aRow]
    exact (bind_run rows).trans written
  · rw [mem, uMem, State.mem_of_seen seen]

theorem millRed_merge (h : s.MillTakes (.core c) w) (ok : (Instr.millRedMerge (.core c) w).wordOk = true) (tensor : wFlag w 3 = false)
    (memory : wFlag w 4 = false) (raw : bits (wFlags w) 1 2 = 1) (source : s.Names (.core c) (wTda w) false a)
    (dest : s.Names (.core c) (wTdd w) true d) (aRow : OneRow a) (dRow : OneRow d) (aFmt : tdFmt a = .int32) (dFmt : tdFmt d = .int32)
    (four : d.eff0 = 4) (readable : s.readableSpan (.core c) a.base (rowLen a)) (writable : s.localSpan (.core c) true d.base 16)
    (extent : a.ext0 % 4 = 0 ∧ 8 ≤ a.ext0 ∧ a.ext0 ≤ 32) {k : Sums}
    (merged : mergeRaw ((parts (s.bytesAt a.base (rowLen a)) (a.eff0 / 4)).map parseRaw) = k) (some_ : k.n ≠ 0) (exact_ : k.sat = false) :
    ∃ t, exec (.millRedMerge (.core c) w) s = .next t ∧ t.bytesAt d.base 16 = rawRecord k 0 ∧ s.sameOutsideRow t d ∧
      s.joinedMill t (.core c) w := by
  have merge : wForm w = 6 := List.mem_singleton.mp (form_of_wordOk ok h.takes rfl)
  have decoded := millRed_run (dst := some d) h.alone ⟨tensor, by rw [raw]; decide, by rw [aFmt]; rfl, fun _ => extent⟩ source aRow
    (fun k => by rw [memory]; exact bind_run (operand_run (pos := 0) dest)) (fun x here => by obtain rfl := Option.some.inj here; exact dRow)
  let e := s.millEntry (.core c) w [a] [d] (.red none)
  have bytes : (s.milled (.core c) e).bytesAt a.base (rowLen a) = s.bytesAt a.base (rowLen a) :=
    congrArg (Memory.bytes · _ (rowLen a)) (s.milled_mem ..)
  obtain ⟨t, worked, mem, tally⟩ := redBody_merge (s := s.milled (.core c) e) (w := w) merge raw aRow dRow aFmt dFmt four
    (State.readableSpan_milled e readable) (State.localSpan_milled e writable) (by rw [bytes]; exact merged) some_ exact_
  obtain ⟨x, exec_eq, joined, xMem, -, -, -⟩ := h.exec_mills ok rfl decoded (fun _ => rfl) (by simpa using ⟨aRow.alone, dRow.alone⟩) worked
    (State.millRan_of_tallied tally)
  have final := xMem.trans mem
  rw [s.milled_mem] at final
  have sixteen : (rawRecord k 0).length = 16 := length_leBytes ..
  refine ⟨x, exec_eq, ?_, State.sameOutside_write h.canonical final ?_, joined⟩
  · rw [State.bytesAt, final, ← sixteen]
    exact Memory.bytes_write (State.mem_wf h.canonical) ..
  · rw [sixteen, rowLen_wide (by rw [dFmt]; rfl), four]

end

/-- Settles O14: the body of a reduction puts the word of its row into RD, and that of a MERGE writes its record. -/
theorem millRedRows : Obligations.MillRedRows := by
  unfold Obligations.MillRedRows
  intro c w s a h tensor source row format readable xs n s1 s2 word rd
  have fmt : tdFmt a = .int32 := tdFmt_of_format (by rw [format]; rfl)
  have reg {i : Instr} {form v : Nat} (means : exec i s = s.instr i (.core c) w (millRow (.core c) (millRed (.core c) w)))
      (named : i.word = some (⟨4, 2, [form]⟩, w)) (other : form ≠ 6) (reg : wFlag w 4 = true) (values : bits (wFlags w) 1 2 = 0)
      (is : RedWord form (intVals xs) v) : rd i v := by
    intro ok
    have own : wForm w = form := List.mem_singleton.mp (form_of_wordOk ok h.takes named)
    exact millRed_reg h ok means tensor reg values (own ▸ other) source row fmt readable (own ▸ is)
  refine ⟨fun reg' values => ⟨fun small => ⟨?_, ?_, ?_⟩, fun m there most => ?_, fun m there least => ?_, fun m there most => ?_⟩,
    fun d dest dRow dFormat four writable memory raw whole fours low high => ?_⟩
  · exact reg rfl rfl (by decide) reg' values (redWord_sum small)
  · exact reg rfl rfl (by decide) reg' values (redWord_sumsq small)
  · exact reg rfl rfl (by decide) reg' values (redWord_meanvar small)
  · refine reg rfl rfl (by decide) reg' values (redWord_extreme le_rfl ?_)
    have best := extreme_max (l := xs.map (fun x : Int => (x : Rat))) (m := (m : Rat)) (List.mem_map.mpr ⟨m, there, rfl⟩) fun y hy => by
      obtain ⟨x, here, rfl⟩ := List.mem_map.mp hy
      exact_mod_cast most x here
    rw [List.map_map] at best
    exact best
  · refine reg rfl rfl (by decide) reg' values (redWord_extreme (by decide) ?_)
    have best := extreme_min (l := xs.map (fun x : Int => (x : Rat))) (m := (m : Rat)) (List.mem_map.mpr ⟨m, there, rfl⟩) fun y hy => by
      obtain ⟨x, here, rfl⟩ := List.mem_map.mp hy
      exact_mod_cast least x here
    rw [List.map_map] at best
    exact best
  · exact reg rfl rfl (by decide) reg' values (redWord_extreme (by decide) (extreme_abs there most))
  · intro k some_ exact_ ok
    exact millRed_merge h ok tensor memory raw source dest row dRow fmt (tdFmt_of_format (by rw [dFormat]; rfl)) four readable writable
      ⟨fours, low, high⟩ rfl some_ exact_

end Sys2Proof.Machine
end


section
/-!
PROOF. An FP32 code stands for a value that rounds to itself (04.R114), and the order of MILL.SORT is a linear one (06.R179).
-/

namespace Sys2Proof.Machine
set_option Elab.async false

/-! ### Rounding -/

theorem pow2_eq (e : Int) : pow2 e = (2 : Rat) ^ e := by
  unfold pow2
  split
  · next pos =>
    rw [Nat.cast_pow, Nat.cast_ofNat, ← zpow_natCast, Int.toNat_of_nonneg pos]
  · next neg =>
    rw [Nat.cast_pow, Nat.cast_ofNat, ← zpow_natCast, Int.toNat_of_nonneg (by omega), zpow_neg, one_div, inv_inv]

theorem pow2_ilog2_le {x : Rat} (pos : 0 < x) : pow2 (ilog2 x) ≤ x := by
  unfold ilog2
  dsimp only
  split
  · assumption
  · have num : 0 < x.num := Rat.num_pos.mpr pos
    have top : (2 : Rat) ^ Nat.log2 x.num.toNat ≤ x.num.toNat := by
      exact_mod_cast Nat.log2_self_le (by omega)
    have bottom : (x.den : Rat) ≤ 2 ^ (Nat.log2 x.den + 1) := by
      exact_mod_cast (Nat.lt_log2_self (n := x.den)).le
    have den : (0 : Rat) < x.den := by exact_mod_cast x.den_pos
    have whole : (x.num.toNat : Rat) = x.num := by
      rw [← Int.cast_natCast, Int.toNat_of_nonneg num.le]
    calc pow2 ((Nat.log2 x.num.toNat : Int) - (Nat.log2 x.den : Int) - 1)
      _ = (2 : Rat) ^ Nat.log2 x.num.toNat / 2 ^ (Nat.log2 x.den + 1) := by
        rw [pow2_eq, sub_sub, zpow_sub₀ two_ne_zero, zpow_natCast]
        norm_cast
      _ ≤ x.num.toNat / x.den := div_le_div₀ (by positivity) top den bottom
      _ = x := by rw [whole, Rat.num_div_den]

theorem ratAbs_abs (x : Rat) : ratAbs x = |x| := by
  unfold ratAbs
  split
  · next neg => rw [abs_of_neg neg]
  · next pos => rw [abs_of_nonneg (not_lt.mp pos)]

theorem rne_self (i : Int) : rne (i : Rat) = i := rne_int i

/-- A value of at most 24 significant bits, none below 2^-149. -/
structure Fits24 (x : Rat) (i k : Int) : Prop where
  value : x = i * (2 : Rat) ^ k
  short : |i| < 2 ^ 24
  low : -149 ≤ k

theorem roundGrid_fits {x : Rat} {i k : Int} (h : Fits24 x i k) : roundGrid .fp32 x = x := by
  obtain ⟨value, short, low⟩ := h
  unfold roundGrid
  split
  · next zero => exact zero.symm
  next nonzero =>
  have pos : 0 < |x| := abs_pos.mpr nonzero
  have bound : |x| < (2 : Rat) ^ (24 + k) := by
    rw [value, abs_mul, zpow_add₀ two_ne_zero, abs_of_pos (zpow_pos (two_pos : (0 : Rat) < 2) k)]
    refine mul_lt_mul_of_pos_right ?_ (zpow_pos two_pos k)
    exact_mod_cast short
  have below : ilog2 |x| < 24 + k := by
    have le := pow2_ilog2_le pos
    rw [pow2_eq] at le
    exact (zpow_lt_zpow_iff_right₀ (by norm_num)).mp (le.trans_lt bound)
  let e := max (ilog2 (ratAbs x)) (1 - fmtBias .fp32) - (fmtMb .fp32 : Int)
  have small : e ≤ k := by
    simp only [e, ratAbs_abs, fmtBias, fmtMb, fmtEb]
    omega
  let n : Int := i * 2 ^ (k - e).toNat
  have ulp : (pow2 e : Rat) ≠ 0 := by
    rw [pow2_eq]
    exact zpow_ne_zero _ two_ne_zero
  have whole : x = (n : Rat) * pow2 e := by
    simp only [n]
    rw [value, pow2_eq, Int.cast_mul, Int.cast_pow, Int.cast_ofNat, mul_assoc, ← zpow_natCast, Int.toNat_of_nonneg (by omega),
      ← zpow_add₀ two_ne_zero, Int.sub_add_cancel]
  calc ((rne (x / pow2 e) : Int) : Rat) * pow2 e
    _ = ((rne (n : Rat) : Int) : Rat) * pow2 e := by rw [whole, mul_div_cancel_right₀ _ ulp]
    _ = x := by rw [rne_self, ← whole]

theorem fp32_fits {x : Rat} {i k : Int} (h : Fits24 x i k) (high : k ≤ 104) : fp32 (.val x) = .val x := by
  have grid := roundGrid_fits h
  obtain ⟨value, short, low⟩ := h
  have small : ¬ fmtMax .fp32 < ratAbs x := by
    rw [not_lt, ratAbs_abs, value, abs_mul, abs_of_pos (zpow_pos (two_pos : (0 : Rat) < 2) k)]
    have top : (|(i : Rat)|) ≤ 2 ^ 24 - 1 := by
      have : |i| ≤ 2 ^ 24 - 1 := by omega
      exact_mod_cast this
    have scale : (2 : Rat) ^ k ≤ 2 ^ (104 : Int) := zpow_le_zpow_right₀ (by norm_num) high
    calc |(i : Rat)| * 2 ^ k
      _ ≤ (2 ^ 24 - 1) * 2 ^ (104 : Int) := mul_le_mul top scale (zpow_pos two_pos k).le (by norm_num)
      _ = fmtMax .fp32 := by
        simp only [fmtMax, fmtBias, fmtMb, fmtEb, pow2_eq]
        norm_num
  simp only [fp32, roundArith, grid, if_neg small]
  rw [signedVal, ratAbs_abs]
  rcases lt_trichotomy x 0 with neg | rfl | pos
  · rw [if_neg (abs_ne_zero.mpr neg.ne), decide_eq_true neg, if_pos rfl, abs_of_neg neg, neg_neg]
  · simp
  · rw [if_neg (abs_ne_zero.mpr pos.ne'), decide_eq_false pos.not_gt, if_neg Bool.false_ne_true, abs_of_pos pos]

/-- A signed magnitude, a zero with its sign. -/
def signedMag (neg : Bool) (mag : Rat) : Num :=
  if mag = 0 then (if neg then .negZero else .val 0) else .val (if neg then -mag else mag)

theorem fp32_signedMag {m : Nat} {k : Int} (neg : Bool) (short : m < 2 ^ 24) (low : -149 ≤ k) (high : k ≤ 104) :
    fp32 (signedMag neg ((m : Rat) * pow2 k)) = signedMag neg ((m : Rat) * pow2 k) := by
  have size : |(m : Int)| < 2 ^ 24 := by
    rw [abs_of_nonneg (Int.natCast_nonneg m)]
    omega
  unfold signedMag
  split
  · cases neg with
    | true => rfl
    | false => exact fp32_fits (x := 0) (i := 0) (k := 0) ⟨by simp, by decide, by decide⟩ (by decide)
  · cases neg with
    | true => exact fp32_fits (i := -m) ⟨by rw [if_pos rfl, pow2_eq]; push_cast; ring, by rw [abs_neg]; exact size, low⟩ high
    | false => exact fp32_fits (i := m) ⟨by rw [if_neg Bool.false_ne_true, pow2_eq]; push_cast; ring, size, low⟩ high

/-- What an FP32 code stands for, by its exponent (04.R114). -/
theorem ofFp32_eq (v : Nat) : ofFp32 v =
    if bits v 23 8 = 255 then (if bits v 0 23 = 0 then .inf (bit v 31) else .nan)
    else if bits v 23 8 = 0 then signedMag (bit v 31) ((bits v 0 23 : Nat) * pow2 (-149))
    else signedMag (bit v 31) ((2 ^ 23 + bits v 0 23 : Nat) * pow2 ((bits v 23 8 : Int) - 150)) := by
  have exponent (e : Int) : e - (2 ^ (8 - 1) - 1) - ((23 : Nat) : Int) = e - 150 := by omega
  simp only [ofFp32, floatVal, fmtMb, fmtEb, fmtBias, reduceCtorEq, false_and, and_false, if_false, ne_eq, not_false_eq_true, and_true, exponent,
    signedMag, Nat.reduceSub, Nat.reducePow, Nat.reduceAdd, Int.reduceSub]
  split
  · rfl
  · split <;> rfl

/-- The value of an FP32 code rounds to itself. -/
theorem fp32_ofFp32 (v : Nat) : fp32 (ofFp32 v) = ofFp32 v := by
  have mantissa : bits v 0 23 < 2 ^ 23 := Nat.mod_lt _ (by decide)
  have exponent : bits v 23 8 < 256 := Nat.mod_lt _ (by decide)
  rw [ofFp32_eq]
  split
  · split <;> rfl
  · split
    · exact fp32_signedMag _ (by omega) (by decide) (by decide)
    · exact fp32_signedMag _ (by omega) (by omega) (by omega)

/-! ### The order of a SORT -/

theorem insertBy_orderedInsert {α : Type} (lt : α → α → Bool) (x : α) (l : List α) :
    insertBy lt x l = l.orderedInsert (fun x y => lt y x = false) x := by
  induction l with
  | nil => rfl
  | cons y ys ih =>
    rw [insertBy, List.orderedInsert_cons, ih]
    cases lt y x <;> rfl

theorem sortBy_insertionSort {α : Type} (lt : α → α → Bool) (l : List α) : sortBy lt l = l.insertionSort (fun x y => lt y x = false) := by
  induction l with
  | nil => rfl
  | cons x l ih =>
    have here : sortBy lt (x :: l) = insertBy lt x (sortBy lt l) := rfl
    rw [here, ih, insertBy_orderedInsert, List.insertionSort_cons]

theorem length_sortBy {α : Type} (lt : α → α → Bool) (l : List α) : (sortBy lt l).length = l.length := by
  rw [sortBy_insertionSort, List.length_insertionSort]

/-- The place of a key: infinities around the finite ones, in the direction of the sort, and NaN after them all. -/
def keyRank (desc : Bool) : Num → Int ×ₗ Rat
  | .nan => toLex (2, 0)
  | .inf neg => toLex (if neg = desc then 1 else -1, 0)
  | .negZero => toLex (0, 0)
  | .val x => toLex (0, if desc then -x else x)

theorem keyBefore_iff (desc : Bool) (a b : Machine.Num × Nat) : keyBefore desc a b = true ↔ keyRank desc a.1 < keyRank desc b.1 := by
  obtain ⟨x, i⟩ := a
  obtain ⟨y, j⟩ := b
  cases desc <;> cases x <;> cases y <;> simp [keyBefore, keyRank, ltN, Num.rat, Prod.Lex.toLex_lt_toLex] <;> grind

theorem not_keyBefore_iff (desc : Bool) (a b : Machine.Num × Nat) : keyBefore desc b a = false ↔ keyRank desc a.1 ≤ keyRank desc b.1 := by
  rw [← not_lt, ← keyBefore_iff, Bool.not_eq_true]

/-- A sort by keys permutes its pairs, and puts none before one that comes before it. -/
theorem sortBy_keyBefore (desc : Bool) (ps : List (Machine.Num × Nat)) : (sortBy (keyBefore desc) ps).Perm ps ∧
    (sortBy (keyBefore desc) ps).Pairwise (fun x y => keyBefore desc y x = false) := by
  have total : Std.Total (fun x y : Machine.Num × Nat => keyBefore desc y x = false) := ⟨fun a b => by
    rw [not_keyBefore_iff, not_keyBefore_iff]
    exact le_total _ _⟩
  have trans : IsTrans _ (fun x y : Machine.Num × Nat => keyBefore desc y x = false) := ⟨fun a b c => by
    rw [not_keyBefore_iff, not_keyBefore_iff, not_keyBefore_iff]
    exact le_trans⟩
  rw [sortBy_insertionSort]
  exact ⟨List.perm_insertionSort .., List.pairwise_insertionSort ..⟩

theorem length_topOf (small : Bool) (k : Nat) (xs : List (Machine.Num × Nat)) : (topOf small k xs).length = k := by
  simp [topOf]

end Sys2Proof.Machine
end


section
/-!
PROOF. MILL.SORT and MILL.TOPK (06.R179, R180, 08.R245): their pairs stand in two rows.
-/

namespace Sys2Proof.Machine
set_option Elab.async false

section

variable {s t : State} {q : SeqId} {w : W128} {a b d e : TD} {c : Fin 64} {ps : List (Machine.Num × Nat)}

/-! ### Pairs in two rows -/

/-- The rows of keys and of payloads that pairs are written to. -/
structure State.PairRows (s : State) (q : SeqId) (d e : TD) : Prop where
  dRow : OneRow d
  eRow : OneRow e
  dFmt : tdFmt d = .fp32
  eFmt : tdFmt e = .int32
  same : d.eff0 = e.eff0
  dSpan : s.localSpan q true d.base (rowLen d)
  eSpan : s.localSpan q true e.base (rowLen e)
  apart : rowsApart d e

/-- A memory in which the keys and the payloads of pairs are written to two rows. -/
def pairsWritten (m : Memory) (d e : TD) (ps : List (Machine.Num × Nat)) : Memory :=
  (m.write (d.base % 2 ^ 48) ((ps.map (fun p => fp32Bits p.1)).flatMap (leBytes 4))).write (e.base % 2 ^ 48)
    ((ps.map (fun p => p.2)).flatMap (leBytes 4))

theorem writePairs_run (h : s.PairRows q d e) (count : ps.length = d.eff0) :
    ∃ t, (do
        writeValues q d (ps.map (fun p => p.1))
        writeRaw q (firstRow e) (ps.map (fun p => p.2)) : ExecM Unit).run s = .ok () t ∧ t.mem = pairsWritten s.mem d e ps ∧
      t.tallied = s.tallied := by
  obtain ⟨dRow, eRow, dFmt, eFmt, same, dSpan, eSpan, -⟩ := h
  have dWide : fmtBits (tdFmt d) = 32 := by rw [dFmt]; rfl
  have eWide : fmtBits (tdFmt e) = 32 := by rw [eFmt]; rfl
  have keys : (ps.map (fun p => p.1)).length = d.eff0 := (List.length_map ..).trans count
  have pays : (ps.map (fun p => p.2)).length = e.eff0 := ((List.length_map ..).trans count).trans same
  obtain ⟨t, wrote, mem, tally⟩ := writeValues_row (s := s) (q := q) (xs := ps.map (fun p => p.1)) dRow dWide
    (List.ne_nil_of_length_pos (keys ▸ dRow.some_)) keys.le (by rw [keys, ← rowLen_wide dWide]; exact dSpan)
  obtain ⟨u, wrote', mem', shell⟩ := writeCodes_run (s := t) (q := q) (d := e) (codes := ps.map (fun p => p.2)) (r := {}) 2 ⟨rfl, rfl, rfl⟩
    eRow.plain (by rw [eWide]; decide) pays.le (by rw [eWide, pays]; have := eRow.some_; omega)
    (by rw [eWide, pays, ← rowLen_wide eWide]; exact State.localSpan_of_tallied tally eSpan)
  refine ⟨u, ?_, ?_, (State.tallied_of_shell shell).trans tally⟩
  · rw [firstRow_row eRow]
    exact (bind_run wrote).trans wrote'
  · rw [mem', mem, dFmt, eWide, List.map_map]
    rfl

/-- The rows hold the pairs, and every byte outside them is as before. -/
theorem State.pairs_stand (canonical : s.canonical = true) (h : s.PairRows q d e) (count : ps.length = d.eff0)
    (mem : t.mem = pairsWritten s.mem d e ps) :
    t.rowHolds d (ps.map (fun p => fp32Bits p.1)) ∧ t.rowHolds e (ps.map (fun p => p.2)) ∧
      ∀ x, x < d.base % 2 ^ 48 ∨ d.base % 2 ^ 48 + rowLen d ≤ x → x < e.base % 2 ^ 48 ∨ e.base % 2 ^ 48 + rowLen e ≤ x →
        t.mem.byte x = s.mem.byte x := by
  obtain ⟨-, -, dFmt, eFmt, same, -, -, apart⟩ := h
  have dLen : rowLen d = 4 * d.eff0 := rowLen_wide (by rw [dFmt]; rfl)
  have eLen : rowLen e = 4 * e.eff0 := rowLen_wide (by rw [eFmt]; rfl)
  let keys := (ps.map (fun p => fp32Bits p.1)).flatMap (leBytes 4)
  let pays := (ps.map (fun p => p.2)).flatMap (leBytes 4)
  have keysLen : keys.length = rowLen d := by rw [length_flatMap_leBytes, List.length_map, count, dLen]
  have paysLen : pays.length = rowLen e := by rw [length_flatMap_leBytes, List.length_map, count, same, eLen]
  have wf := State.mem_wf canonical
  have wf' : (s.mem.write (d.base % 2 ^ 48) keys).wf = true := Memory.write_wf _ _ _ wf
  refine ⟨?_, ?_, fun x outD outE => ?_⟩
  · rw [State.rowHolds, State.bytesAt, mem, ← length_flatMap_leBytes]
    refine (Memory.bytes_write_outside wf' pays ?_).trans (Memory.bytes_write wf ..)
    rw [paysLen, keysLen]
    exact apart
  · rw [State.rowHolds, State.bytesAt, mem, ← length_flatMap_leBytes]
    exact Memory.bytes_write wf' ..
  · rw [mem]
    refine (Memory.byte_write_outside pays _ _ x wf' (by rw [paysLen]; exact outE)).trans ?_
    exact Memory.byte_write_outside keys _ _ x wf (by rw [keysLen]; exact outD)

theorem State.pairRows_of_tallied (tally : t.tallied = s.tallied) (h : s.PairRows q d e) : t.PairRows q d e :=
  ⟨h.dRow, h.eRow, h.dFmt, h.eFmt, h.same, State.localSpan_of_tallied tally h.dSpan, State.localSpan_of_tallied tally h.eSpan, h.apart⟩

theorem State.pairRows_milled (x : QEntry) (h : s.PairRows q d e) : (s.milled q x).PairRows q d e :=
  ⟨h.dRow, h.eRow, h.dFmt, h.eFmt, h.same, State.localSpan_milled x h.dSpan, State.localSpan_milled x h.eSpan, h.apart⟩

/-- What the statement says of pairs that an instruction of a core has written. -/
def State.HoldsPairs (s : State) (c : Fin 64) (w : W128) (d e : TD) (i : Instr) (ps : List (Machine.Num × Nat)) : Prop :=
  ∃ t, exec i s = .next t ∧ t.rowHolds d (ps.map (fun p => fp32Bits p.1)) ∧ t.rowHolds e (ps.map (fun p => p.2)) ∧
    (∀ x, x < d.base % 2 ^ 48 ∨ d.base % 2 ^ 48 + rowLen d ≤ x → x < e.base % 2 ^ 48 ∨ e.base % 2 ^ 48 + rowLen e ≤ x →
      t.mem.byte x = s.mem.byte x) ∧ s.joinedMill t (.core c) w ∧ t.cores[c].seq.s = s.cores[c].seq.s

/-- An instruction whose work writes pairs. -/
theorem State.MillTakes.exec_pairs (h : s.MillTakes (.core c) w) {i : Instr} {body : ExecM Flow} {ss : List TD} {k : QueueWork}
    (rows : s.PairRows (.core c) d e) (ok : i.wordOk = true) (means : exec i s = s.instr i (.core c) w (millRow (.core c) body))
    (decoded : body.run s = .ok .next (s.milled (.core c) (s.millEntry (.core c) w ss [d, e] k)))
    (alone : ∀ t ∈ ss, bit t.stream 7 = false) (count : ps.length = d.eff0)
    (worked : ∃ t, (millWork (.core c) w k ss [d, e]).run (s.milled (.core c) (s.millEntry (.core c) w ss [d, e] k)) = .ok () t ∧
      t.mem = pairsWritten s.mem d e ps ∧ t.tallied = (s.milled (.core c) (s.millEntry (.core c) w ss [d, e] k)).tallied) :
    s.HoldsPairs c w d e i ps := by
  obtain ⟨t, worked, mem, tally⟩ := worked
  obtain ⟨x, exec_eq, joined, xMem, scalars, -, -⟩ := h.exec_mills ok means decoded (fun _ => rfl)
    (fun t there => (List.mem_append.mp there).elim (alone t) fun dest => by
      rcases List.mem_pair.mp dest with rfl | rfl
      · exact rows.dRow.alone
      · exact rows.eRow.alone) worked (State.millRan_of_tallied tally)
  obtain ⟨keys, pays, outside⟩ := State.pairs_stand h.canonical rows count (xMem.trans mem)
  exact ⟨x, exec_eq, keys, pays, outside, joined,
    scalars.trans ((State.scalars_of_tallied tally _).trans (s.milled_scalars (.core c) _))⟩

/-! ### SORT -/

theorem rowElems_values (fmt : tdFmt a = .fp32) : (s.rowElems a).map Elem.value = (s.rowRaw a).map ofFp32 := by
  simp only [State.rowElems, List.map_map, fmt]
  exact List.map_congr_left fun v _ => Elem.value_code _

theorem mapIdx_getD_zip {α : Type} (n : Nat) : ∀ (xs : List α) (ys : List Nat), xs.length = ys.length →
    xs.mapIdx (fun i k => (k, ys.getD i n)) = xs.zip ys := by
  intro xs ys same
  refine List.ext_getElem (by simp [same]) fun i hi hj => ?_
  have small : i < ys.length := by simpa [same] using hj
  simp [small]

theorem readKeys_row (row : OneRow a) (fmt : tdFmt a = .fp32) (readable : s.readableSpan q a.base (rowLen a)) :
    ∃ t, (readKeys q a).run s = .ok ((s.rowRaw a).map ofFp32) t ∧ t.seen = s.seen := by
  obtain ⟨t, read, seen⟩ := sourceLines_row (s := s) (q := q) 2 row (by rw [fmt]; rfl) readable
  refine ⟨t, ?_, seen⟩
  unfold readKeys
  rw [firstRow_row row]
  refine (bind_run read).trans ?_
  rw [← rowElems_values fmt]
  rfl

/-- The pairs of a SORT: the keys of a row with its payloads. -/
def State.sortPairs (s : State) (a b : TD) : List (Machine.Num × Nat) := ((s.rowRaw a).map ofFp32).zip (s.rowRaw b)

/-- The source rows of a SORT. -/
structure State.SortRows (s : State) (q : SeqId) (a b : TD) (n : Nat) : Prop where
  aRow : OneRow a
  bRow : OneRow b
  aFmt : tdFmt a = .fp32
  aSpan : s.readableSpan q a.base (rowLen a)
  bSpan : s.readableSpan q b.base (rowLen b)
  aLen : a.eff0 = n
  bLen : b.eff0 = n

theorem sortBody_run (desc : Bool) (rows : s.PairRows q d e) (h : s.SortRows q a b d.eff0) :
    ∃ t, (sortBody q desc [a, b] [d, e]).run s = .ok () t ∧
      t.mem = pairsWritten s.mem d e (sortBy (keyBefore desc) (s.sortPairs a b)) ∧ t.tallied = s.tallied := by
  obtain ⟨aRow, bRow, aFmt, aSpan, bSpan, aLen, bLen⟩ := h
  obtain ⟨t, keys, seen⟩ := readKeys_row aRow aFmt aSpan
  obtain ⟨u, pays, seen'⟩ := readRaw_row (s := t) (q := q) bRow (State.readableSpan_of_seen seen bSpan)
  rw [State.rowRaw_of_mem (State.mem_of_seen seen)] at pays
  obtain ⟨free, v, drawn, vSeen⟩ : ∃ free v, free64.run u = .ok free v ∧ v.seen = u.seen := ⟨_, _, rfl, rfl⟩
  have lengths : ((s.rowRaw a).map ofFp32).length = (s.rowRaw b).length := by
    rw [List.length_map, length_rowRaw, length_rowRaw, aLen, bLen]
  have count : (s.sortPairs a b).length = d.eff0 := by
    rw [State.sortPairs, List.length_zip, lengths, Nat.min_self, length_rowRaw, bLen]
  have paired := mapIdx_getD_zip (free % 2 ^ 32) _ _ lengths
  let x := v.countSeq q EV_ML_SORT_KEYS ((s.rowRaw a).map ofFp32).length
  have xSeen : x.seen = s.seen := (State.seen_countSeq ..).trans (vSeen.trans (seen'.trans seen))
  obtain ⟨y, flagged, yTally, yMem⟩ := flagInvalid_run q (((s.rowRaw a).map ofFp32).contains .nan) x
  have tally := yTally.trans (State.tallied_of_seen xSeen)
  obtain ⟨z, wrote, mem, zTally⟩ := writePairs_run (State.pairRows_of_tallied tally rows)
    ((length_sortBy (keyBefore desc) (s.sortPairs a b)).trans count)
  refine ⟨z, ?_, ?_, zTally.trans tally⟩
  · unfold sortBody
    refine (bind_run keys).trans ?_
    simp only [List.getD_cons_succ, List.getD_cons_zero, List.headD_cons, firstRow_row bRow]
    refine (bind_run pays).trans ((bind_run drawn).trans ?_)
    rw [paired]
    exact (bind_run (change_run ..)).trans ((bind_run flagged).trans wrote)
  · rw [mem, yMem, State.mem_of_seen xSeen]

theorem millSort_run (alone : (s.seqr q).millQ = []) (dest : s.Names q (wTdd w) true d) (source : s.Names q (wTda w) false a)
    (payload : s.Names q (wTdb w) false b) (dest' : s.Names q (wTdc w) true e) (rows : s.PairRows q d e) (aRow : OneRow a)
    (short : a.ext0 ≤ 4096) :
    (millSort q w).run s = .ok .next (s.milled q (s.millEntry q w [a, b] [d, e] .sort)) := by
  have full : (tdEmpty d || tdEmpty e || tdEmpty a) = false := by
    rw [tdEmpty_row rows.dRow, tdEmpty_row rows.eRow, tdEmpty_row aRow]
    rfl
  unfold millSort
  refine (bind_run (operand_run (pos := 0) dest)).trans ((bind_run (operand_run (pos := 1) source)).trans
    ((bind_run (operand_run (pos := 2) payload)).trans ((bind_run (operand_run (pos := 3) dest')).trans
      ((bind_run (demand_with (decide_eq_true short) ..)).trans ?_))))
  rw [full]
  exact runMill_run alone [a, b] [d, e] .sort

theorem millSort_writes (h : s.MillTakes (.core c) w) (dest : s.Names (.core c) (wTdd w) true d) (source : s.Names (.core c) (wTda w) false a)
    (payload : s.Names (.core c) (wTdb w) false b) (dest' : s.Names (.core c) (wTdc w) true e) (rows : s.PairRows (.core c) d e)
    (sources : s.SortRows (.core c) a b d.eff0) (short : a.ext0 ≤ 4096) (ok : (Instr.millSort (.core c) w).wordOk = true) :
    s.HoldsPairs c w d e (.millSort (.core c) w) (sortBy (keyBefore (wForm w == 1)) (s.sortPairs a b)) := by
  let x := s.millEntry (.core c) w [a, b] [d, e] .sort
  have same : (s.milled (.core c) x).sortPairs a b = s.sortPairs a b := by
    rw [State.sortPairs, State.sortPairs, State.rowRaw_of_mem (s.milled_mem ..), State.rowRaw_of_mem (s.milled_mem ..)]
  obtain ⟨t, worked, mem, tally⟩ := sortBody_run (wForm w == 1) (State.pairRows_milled x rows)
    ⟨sources.aRow, sources.bRow, sources.aFmt, State.readableSpan_milled x sources.aSpan, State.readableSpan_milled x sources.bSpan,
      sources.aLen, sources.bLen⟩
  rw [s.milled_mem, same] at mem
  refine h.exec_pairs rows ok rfl (millSort_run h.alone dest source payload dest' rows sources.aRow short) ?_ ?_ ⟨t, worked, mem, tally⟩
  · simpa using ⟨sources.aRow.alone, sources.bRow.alone⟩
  · rw [length_sortBy, State.sortPairs, List.length_zip, List.length_map, length_rowRaw, length_rowRaw, sources.aLen, sources.bLen, Nat.min_self]

/-! ### TOPK -/

/-- The elements of a row with their places. -/
def State.topPairs (s : State) (a : TD) : List (Machine.Num × Nat) := (s.rowRaw a).mapIdx (fun i v => (ofFp32 v, i % 2 ^ 32))

theorem topElems_row (fmt : tdFmt a = .fp32) :
    (topElems a [((0, 0, 0), { elems := s.rowElems a })]).run t = .ok (s.topPairs a) t := by
  have pairs : (s.rowElems a).mapIdx (fun i x => (x.value, linearIndex a i (0, 0, 0) % 2 ^ 32)) = s.topPairs a := by
    refine List.ext_getElem (by simp [State.rowElems, State.topPairs]) fun i hi hj => ?_
    simp only [State.rowElems, State.topPairs, linearIndex_first, List.getElem_mapIdx, List.getElem_map, fmt]
    exact congrArg (·, i % 2 ^ 32) (Elem.value_code _)
  rw [← pairs]
  exact congrArg (EStateM.Result.ok · t) (List.append_nil _)

theorem topBody_run (small : Bool) (k nlist : Nat) (rows : s.PairRows q d e) (aRow : OneRow a) (aFmt : tdFmt a = .fp32)
    (readable : s.readableSpan q a.base (rowLen a)) (count : d.eff0 = k) :
    ∃ t, (topBody q small false k nlist [a] [d, e]).run s = .ok () t ∧
      t.mem = pairsWritten s.mem d e (topOf small k (s.topPairs a)) ∧ t.tallied = s.tallied := by
  obtain ⟨t, read, seen⟩ := sourceLines_row (s := s) (q := q) 2 aRow (by rw [aFmt]; rfl) readable
  let x := t.countSeq q EV_ML_TOPK_ELEM (s.topPairs a).length
  have xSeen : x.seen = s.seen := (State.seen_countSeq ..).trans seen
  obtain ⟨z, wrote, mem, tally⟩ := writePairs_run (State.pairRows_of_tallied (State.tallied_of_seen xSeen) rows)
    ((length_topOf small k (s.topPairs a)).trans count.symm)
  refine ⟨z, ?_, ?_, tally.trans (State.tallied_of_seen xSeen)⟩
  · unfold topBody
    refine (bind_run read).trans ((bind_run (topElems_row aFmt)).trans ((bind_run (v := []) rfl).trans ((bind_run (change_run ..)).trans ?_)))
    rw [List.append_nil]
    exact wrote
  · rw [mem, State.mem_of_seen xSeen]

theorem millTopk_run (alone : (s.seqr q).millQ = []) (dest : s.Names q (wTdd w) true d) (source : s.Names q (wTda w) false a)
    (dest' : s.Names q (wTdc w) true e) (rows : s.PairRows q d e) (aRow : OneRow a) (single : wFlag w 1 = false)
    (count : d.eff0 = bits (wImm w) 0 9) (short : bits (wImm w) 0 9 ≤ 256) :
    (millTopk q w).run s = .ok .next (s.milled q (s.millEntry q w [a] [d, e] .topk)) := by
  have some_ := rows.dRow.some_
  have full : (bits (wImm w) 0 9 == 0 || tdEmpty d || tdEmpty e || tdEmpty a) = false := by
    rw [tdEmpty_row rows.dRow, tdEmpty_row rows.eRow, tdEmpty_row aRow, ← count, beq_false_of_ne (Nat.pos_iff_ne_zero.mp some_)]
    rfl
  unfold millTopk
  rw [single]
  refine (bind_run (operand_run (pos := 0) dest)).trans ((bind_run (operand_run (pos := 1) source)).trans ((bind_run (v := []) rfl).trans
    ((bind_run (operand_run (pos := 3) dest')).trans ((bind_run (demand_with (decide_eq_true short) ..)).trans
      ((bind_run (demand_with rfl ..)).trans ?_)))))
  rw [full]
  exact runMill_run alone [a] [d, e] .topk

theorem millTopk_writes (h : s.MillTakes (.core c) w) (dest : s.Names (.core c) (wTdd w) true d) (source : s.Names (.core c) (wTda w) false a)
    (dest' : s.Names (.core c) (wTdc w) true e) (rows : s.PairRows (.core c) d e) (aRow : OneRow a) (aFmt : tdFmt a = .fp32)
    (readable : s.readableSpan (.core c) a.base (rowLen a)) (single : wFlag w 1 = false) (count : d.eff0 = bits (wImm w) 0 9)
    (short : bits (wImm w) 0 9 ≤ 256) (ok : (Instr.millTopk (.core c) w).wordOk = true) :
    s.HoldsPairs c w d e (.millTopk (.core c) w) (topOf (wFlag w 0) (bits (wImm w) 0 9) (s.topPairs a)) := by
  let x := s.millEntry (.core c) w [a] [d, e] .topk
  have same : (s.milled (.core c) x).topPairs a = s.topPairs a := by
    rw [State.topPairs, State.topPairs, State.rowRaw_of_mem (s.milled_mem ..)]
  obtain ⟨t, worked, mem, tally⟩ := topBody_run (wFlag w 0) (bits (wImm w) 0 9) (bits (wImm w) 9 4) (State.pairRows_milled x rows) aRow aFmt
    (State.readableSpan_milled x readable) count
  rw [s.milled_mem, same] at mem
  rw [← single] at worked
  exact h.exec_pairs rows ok rfl (millTopk_run h.alone dest source dest' rows aRow single count short) (by simpa using aRow.alone)
    ((length_topOf ..).trans count.symm) ⟨t, worked, mem, tally⟩

end

/-- Settles O15: both bodies write their pairs by `writePairs_run`; the order of the keys is the linear one of `keyRank`. -/
theorem millSortRows : Obligations.MillSortRows := by
  unfold Obligations.MillSortRows
  refine ⟨fun c w s d a e h dest source dest' dRow aRow eRow dFormat aFormat eFormat same aSpan dSpan eSpan apart => ?_, sortBy_keyBefore⟩
  have aFmt : tdFmt a = .fp32 := tdFmt_of_format (by rw [aFormat]; rfl)
  have rows : s.PairRows (.core c) d e := ⟨dRow, eRow, tdFmt_of_format (by rw [dFormat]; rfl), tdFmt_of_format (by rw [eFormat]; rfl), same,
    dSpan, eSpan, apart⟩
  refine ⟨fun b payload bRow _ bSpan aLen bLen short ok => ?_, fun single count short ok => ?_⟩
  · have sorted := millSort_writes h dest source payload dest' rows ⟨aRow, bRow, aFmt, aSpan, bSpan, aLen, bLen⟩ short ok
    simp only [fp32_ofFp32]
    exact sorted
  · exact millTopk_writes h dest source dest' rows aRow aFmt aSpan single count short ok

end Sys2Proof.Machine
end


section
/-!
PROOF. MILL.MATMUL of one INT8 row by one INT8 row (05.R147 to R150, 06.R160 to R166, 08.R241).
-/

namespace Sys2Proof.Machine
set_option Elab.async false

/-! ### Sums of products -/

theorem dotInt_eq : ∀ (as bs : List Elem), dotInt as bs = (List.zipWith (fun a b => a.int * b.int) as bs).sum := by
  intro as
  induction as with
  | nil => exact fun _ => by rw [List.zipWith_nil_left]; rfl
  | cons a as ih =>
    intro bs
    cases bs with
    | nil => rfl
    | cons b bs => rw [dotInt, ih, List.zipWith_cons_cons, List.sum_cons]

theorem dotInt_cut (g : Nat) (as bs : List Elem) : dotInt (as.take g) (bs.take g) + dotInt (as.drop g) (bs.drop g) = dotInt as bs := by
  rw [dotInt_eq, dotInt_eq, dotInt_eq, ← List.take_zipWith, ← List.drop_zipWith, List.sum_take_add_sum_drop]

/-- Integers of 8 bits. -/
def Small (as : List Elem) : Prop := ∀ a ∈ as, |a.int| ≤ 128

theorem dotInt_le : ∀ (as bs : List Elem), Small as → Small bs → |dotInt as bs| ≤ 16384 * as.length := by
  intro as
  induction as with
  | nil => exact fun _ _ _ => by simp [dotInt]
  | cons a as ih =>
    intro bs ha hb
    cases bs with
    | nil => simp [dotInt]; omega
    | cons b bs =>
      obtain ⟨a', as'⟩ := List.forall_mem_cons.mp ha
      obtain ⟨b', bs'⟩ := List.forall_mem_cons.mp hb
      have rest := ih bs as' bs'
      have here : |a.int * b.int| ≤ 16384 := by
        rw [abs_mul]
        exact (mul_le_mul a' b' (abs_nonneg _) (by decide)).trans (by decide)
      rw [dotInt, List.length_cons]
      have := abs_add_le (a.int * b.int) (dotInt as bs)
      push_cast
      omega

/-- A sum of products that stays in range, group by group, is the sum of the products. -/
theorem accumulate_int (la lb : Bool) : ∀ (n : Nat) (as bs : List Elem) (v : Int), as.length < n → as.length = bs.length → Small as → Small bs →
    |v| + 16384 * as.length < 2 ^ 31 → accumulate .int la lb n as bs { val := v } = ({ val := v + dotInt as bs }, false) := by
  intro n
  induction n with
  | zero => exact fun as _ _ few => absurd few (Nat.not_lt_zero _)
  | succ n ih =>
    intro as bs v few same ha hb range
    unfold accumulate
    by_cases none_ : as = []
    · subst none_
      simp [dotInt]
    · have some_ : ¬ (as = [] ∨ bs = []) := by
        rintro (h | h)
        · exact none_ h
        · exact none_ (List.length_eq_zero_iff.mp (by rw [same, h]; rfl))
      have pos := List.length_pos_iff.mpr none_
      have head := dotInt_le (as.take 32) (bs.take 32) (fun a h => ha a (List.mem_of_mem_take h)) fun b h => hb b (List.mem_of_mem_take h)
      rw [List.length_take] at head
      have sum := abs_add_le v (dotInt (as.take 32) (bs.take 32))
      have inside := abs_le.mp (sum.trans (add_le_add le_rfl head))
      have clamped : clampInt (-(2 ^ 31)) (2 ^ 31 - 1) (v + dotInt (as.take 32) (bs.take 32)) = (v + dotInt (as.take 32) (bs.take 32), .none) := by
        rw [clampInt, if_neg (by omega), if_neg (by omega)]
      have rest := ih (as.drop 32) (bs.drop 32) (v + dotInt (as.take 32) (bs.take 32)) (by rw [List.length_drop]; omega)
        (by rw [List.length_drop, List.length_drop, same]) (fun a h => ha a (List.mem_of_mem_drop h)) (fun b h => hb b (List.mem_of_mem_drop h))
        (by rw [List.length_drop]; omega)
      rw [Int.add_assoc, dotInt_cut] at rest
      rw [if_neg some_]
      simp only [groupK, clamped]
      exact congrArg (fun r : MillEntry × Bool => (r.1, false || r.2)) rest

theorem get_insert {α : Type} (z : α) (k : Nat) (v : α) : ∀ m : NatMap α, NatMap.get z (NatMap.insert m k v) k = v := by
  intro m
  induction m with
  | nil => simp [NatMap.insert, NatMap.get]
  | cons e m ih =>
    obtain ⟨k', v'⟩ := e
    unfold NatMap.insert
    split
    · simp [NatMap.get]
    · split
      · simp [NatMap.get]
      · next ne => rw [NatMap.get, if_neg ne, ih]

/-! ### One output -/

/-- The elements of an INT8 row as the array takes them. -/
theorem rowElems_int8 {s : State} {a : TD} (fmt : tdFmt a = .int8) :
    (s.rowElems a).map Elem.int = (s.rowRaw a).map (signed 8) := by
  simp only [State.rowElems, List.map_map, fmt]
  exact List.map_congr_left fun v _ => Rat.num_intCast (signed 8 v)

theorem signed8_le (v : Nat) : |signed 8 v| ≤ 128 := by
  have range : -128 ≤ signed 8 v ∧ signed 8 v ≤ 128 := by
    unfold signed
    dsimp only
    split <;> omega
  exact abs_le.mpr range

theorem small_rowElems {s : State} {a : TD} (fmt : tdFmt a = .int8) : Small (s.rowElems a) := by
  intro e there
  have int : e.int ∈ (s.rowElems a).map Elem.int := List.mem_map_of_mem there
  rw [rowElems_int8 fmt] at int
  obtain ⟨v, -, own⟩ := List.mem_map.mp int
  rw [← own]
  exact signed8_le v

/-- The sum of the products of two rows. -/
def State.dotRows (s : State) (a b : TD) : Int := (List.zipWith (fun x y => signed 8 x * signed 8 y) (s.rowRaw a) (s.rowRaw b)).sum

theorem dotInt_rows {s : State} {a b : TD} (aFmt : tdFmt a = .int8) (bFmt : tdFmt b = .int8) :
    dotInt (s.rowElems a) (s.rowElems b) = s.dotRows a b := by
  have sides : List.zipWith (fun x y : Elem => x.int * y.int) (s.rowElems a) (s.rowElems b) =
      List.zipWith (· * ·) ((s.rowElems a).map Elem.int) ((s.rowElems b).map Elem.int) := by
    rw [List.zipWith_map]
  rw [dotInt_eq, sides, rowElems_int8 aFmt, rowElems_int8 bFmt, List.zipWith_map, State.dotRows]

/-- A row as an operand of the array. -/
def State.matLine (s : State) (a : TD) : MatLine := { elems := s.rowElems a }

theorem matLine_zp (s : State) (a : TD) : (s.matLine a).zp = 0 := by
  unfold State.matLine MatLine.zp State.rowElems
  cases s.rowRaw a <;> rfl

theorem matLine_bare (s : State) (a : TD) : (s.matLine a).bare = s.matLine a := by
  simp only [State.matLine, MatLine.bare, State.rowElems, List.map_map]
  rfl

/-- A product of integers that opens no chain and computes every output. -/
def intPlan : MatPlan := { mode := .int, acc := false, hold := false, tri := none, lateA := false, lateB := false }

/-- The finish of a static rescale without a chain. -/
structure FinishOps.Static (o : FinishOps) (ms : Nat × Nat) : Prop where
  derived : o.derived = false
  chain : o.chain = []
  pair : (o.mult, o.shift) = ms

/-- Two INT8 rows of one length that the array takes in one product. -/
structure State.Int8Rows (s : State) (a b : TD) : Prop where
  aFmt : tdFmt a = .int8
  bFmt : tdFmt b = .int8
  same : a.eff0 = b.eff0
  short : a.eff0 ≤ 1024

section

variable {s : State} {a b d : TD} {o : FinishOps} {ms : Nat × Nat}

/-- The accumulator after the product: entry 0 is the sum. -/
theorem matRows_one (h : s.Int8Rows a b) (m : Mill) :
    ∃ m', matRows intPlan [s.matLine b] [] 0 [s.matLine a] m false = (m', false) ∧
      NatMap.get {} m'.acc 0 = { val := s.dotRows a b } ∧ NatMap.get 0 m'.corr 0 = 0 := by
  obtain ⟨aFmt, bFmt, same, short⟩ := h
  have aLen : (s.rowElems a).length = a.eff0 := (List.length_map ..).trans (length_rowRaw ..)
  have bLen : (s.rowElems b).length = b.eff0 := (List.length_map ..).trans (length_rowRaw ..)
  have product := accumulate_int false false ((s.rowElems a).length + 1) (s.rowElems a) (s.rowElems b) 0 (Nat.lt_succ_self _)
    (by rw [aLen, bLen, same]) (small_rowElems aFmt) (small_rowElems bFmt) (by rw [abs_zero, aLen]; omega)
  rw [dotInt_rows aFmt bFmt, Int.zero_add] at product
  have corr (w : Int) : matCorr (s.matLine a) (s.matLine b) w = 0 := by
    simp [matCorr, matLine_zp]
  have row : matRow intPlan 0 (s.matLine a) [] 0 [s.matLine b] m false =
      ({ m with acc := NatMap.insert m.acc 0 { val := s.dotRows a b }, corr := NatMap.insert m.corr 0 0 }, false) := by
    have entry : accumulate intPlan.mode intPlan.lateA intPlan.lateB ((s.matLine a).elems.length + 1) (s.matLine a).elems (s.matLine b).elems
        {} = ({ val := s.dotRows a b }, false) := product
    have zero : (if intPlan.mode = .int then matCorr (s.matLine a) (s.matLine b) (matColSum (s.matLine b) (([] : List (Option Int))[0]?).join)
        else 0) = 0 := (if_pos rfl).trans (corr _)
    simp only [matRow]
    rw [show intPlan.acc = false from rfl, if_neg Bool.false_ne_true, if_neg Bool.false_ne_true, entry, zero]
    rfl
  obtain ⟨sums, all⟩ : ∃ sums, matRows intPlan [s.matLine b] [] 0 [s.matLine a] m false = ({ m with
      acc := NatMap.insert m.acc 0 { val := s.dotRows a b }
      corr := NatMap.insert m.corr 0 0
      rowSum := sums }, false) := ⟨_, by
    simp only [matRows, row]
    rfl⟩
  exact ⟨_, all, get_insert .., get_insert ..⟩

theorem matKeys_one : matKeys intPlan [s.matLine b] 0 [s.matLine a] = [0] := rfl

/-- The one output of the product, rescaled. -/
theorem matOut_one {m : Mill} {v : Int} (ops : o.Static ms) (entry : NatMap.get {} m.acc 0 = { val := v })
    (corr : NatMap.get 0 m.corr 0 = 0) (rows : d.eff1 = 1) (columns : d.eff0 = 1) :
    matOut intPlan o m d [s.matLine b] 0 [s.matLine a] =
      [({ cells := [.val (.val ((v : Rat) * (ms.1 : Rat) * pow2 (-(ms.2 : Int))))] }, true, false)] := by
  obtain ⟨derived, chain, pair⟩ := ops
  have cell : matCell intPlan o m 0 0 (s.matLine a) (s.matLine b) =
      (.val (.val ((v : Rat) * (ms.1 : Rat) * pow2 (-(ms.2 : Int)))), true, false) := by
    have found : o.pair (s.matLine a).scale (s.matLine b).scale (.val 1) = some ms := by
      rw [FinishOps.pair, derived, ← pair]
      rfl
    have scaled : rescaled (v + 0) ms 0 = (v : Rat) * (ms.1 : Rat) * pow2 (-(ms.2 : Int)) := by
      rw [rescaled, Int.add_zero, Int.natCast_zero, Int.zero_sub]
    unfold matCell
    rw [show (s.matLine b).valid = true from rfl, show intPlan.computes 0 0 = true from rfl, Bool.not_true, if_neg Bool.false_ne_true,
      if_neg Bool.false_ne_true, show millKey 0 0 = 0 from rfl, entry, corr]
    dsimp only [intPlan]
    rw [found]
    dsimp only
    rw [if_pos chain, scaled]
  have one : (List.take d.eff0 [s.matLine b]).mapIdx (fun j b => matCell intPlan o m 0 j (s.matLine a) b) =
      [matCell intPlan o m 0 0 (s.matLine a) (s.matLine b)] := by
    rw [columns]
    rfl
  have there : ¬ ((!(s.matLine a).valid) = true ∨ d.eff1 ≤ 0) := by
    rw [rows]
    exact fun h => h.elim Bool.false_ne_true (by decide)
  simp only [matOut, if_neg there, one, cell]
  rfl

theorem cutBlocks_one (unit : Nat) (r : OutRow) : cutBlocks unit [(r, true)] = [r] := by
  simp [cutBlocks, rowBlocks]

end

/-! ### What the product leaves -/

/-- The state but for the stores, the Mills and what is counted. -/
def State.unmilled (s : State) : State :=
  { s.tallied with cores := s.tallied.cores.map (fun k => { k with mill := {} }) }

section

variable {s t u : State} {q : SeqId} {w : W128} {a b d : TD} {c : Fin 64} {o : FinishOps} {ms : Nat × Nat}

theorem State.unmilled_of_tallied (h : t.tallied = s.tallied) : t.unmilled = s.unmilled := by rw [State.unmilled, h, State.unmilled]

theorem State.unmilled_mill (s : State) (c : Fin 64) (f : Mill → Mill) :
    (s.updCore c (fun k => { k with mill := f k.mill })).unmilled = s.unmilled := by
  simp only [State.updCore, State.unmilled, State.tallied, State.shell, State.seen]
  congr 1
  ext i hi : 1
  rcases Nat.decEq c.val i with ne | rfl
  · simp [ne]
  · simp [Core.tallied]

theorem State.seqr_of_unmilled (h : t.unmilled = s.unmilled) (p : SeqId) : { t.seqr p with flags := 0 } = { s.seqr p with flags := 0 } := by
  cases p with
  | house =>
    have parts := congrArg State.house h
    exact parts
  | core c =>
    have cores : t.tallied.cores.map (fun k : Core => { k with mill := {} }) = s.tallied.cores.map (fun k => { k with mill := {} }) :=
      congrArg State.cores h
    have here := congrArg (fun v : Vector Core 64 => v[c].seq) cores
    have tallies (u : State) : (u.tallied.cores.map (fun k : Core => { k with mill := {} }))[c].seq = { u.seqr (.core c) with flags := 0 } := by
      simp only [State.tallied, State.shell, State.seen, Fin.getElem_fin, Vector.getElem_map]
      rfl
    rwa [tallies, tallies] at here

theorem State.millRan_of_unmilled (h : t.unmilled = s.unmilled) : s.MillRan t q := by
  have same (p : SeqId) := State.seqr_of_unmilled h p
  refine ⟨?_, ?_, ?_, fun p _ => ⟨?_, ?_, ?_, ?_, ?_, ?_, ?_⟩⟩
  · exact (congrArg Seqr.millQ (same q) :)
  · exact (congrArg Seqr.pc (same q) :)
  · exact (congrArg Seqr.loops (same q) :)
  · exact (congrArg Seqr.s (same p) :)
  · exact (congrArg Seqr.pc (same p) :)
  · exact (congrArg Seqr.al (same p) :)
  · exact (congrArg Seqr.tdBase (same p) :)
  · exact (congrArg Seqr.fault0 (same p) :)
  · exact (congrArg Seqr.fault1 (same p) :)
  · exact (congrArg Seqr.faulted (same p) :)

theorem State.shape_of_unmilled (h : t.unmilled = s.unmilled) : t.shape = s.shape := by
  have parts := congrArg State.shape h
  exact parts

theorem State.fabric_of_unmilled (h : t.unmilled = s.unmilled) : t.fabric = s.fabric := by
  have parts := congrArg State.fabric h
  exact parts

/-- A change of a core's Mill leaves what may be read. -/
theorem State.readableSpan_mill {x n : Nat} (f : Mill → Mill) (span : s.readableSpan q x n) :
    (s.updCore c (fun k => { k with mill := f k.mill })).readableSpan q x n :=
  ⟨State.localSpan_congr (State.updCore_shape ..) (State.updCore_fabric ..) span.1, span.2⟩

/-! ### The body -/

theorem updMill_run (c : Fin 64) (f : Mill → Mill) (s : State) :
    (updMill c f).run s = .ok () (s.updCore c (fun k => { k with mill := f k.mill })) := rfl

/-- A tensor of one row within the extents that it has. -/
theorem cut_row (t : TD) {n m : Nat} (along : n = t.eff0) (rows : m = t.eff1) (one : t.eff2 = 1) (one' : t.eff3 = 1) :
    ({ t with eff0 := n, eff1 := m, eff2 := 1, eff3 := 1 } : TD) = t := by
  rw [along, rows]
  obtain ⟨⟩ := t
  dsimp only at one one'
  rw [one, one']

theorem matRead_run (aRow : OneRow a) (bRow : OneRow b) (h : s.Int8Rows a b) (aSpan : s.readableSpan q a.base (rowLen a))
    (bSpan : s.readableSpan q b.base (rowLen b)) :
    ∃ ws t, (matRead q true true a b).run s = .ok { as := [s.matLine a], bs := [s.matLine b], ws := ws } t ∧ t.seen = s.seen := by
  obtain ⟨aFmt, bFmt, same, -⟩ := h
  obtain ⟨one, one', one''⟩ := aRow.row
  obtain ⟨bOne, bOne', bOne''⟩ := bRow.row
  obtain ⟨t, readA, seen⟩ := sourceLines_row (s := s) (q := q) 2 aRow (by rw [aFmt]; rfl) aSpan
  obtain ⟨u, readB, seen'⟩ := sourceLines_row (s := t) (q := q) 2 bRow (by rw [bFmt]; rfl) (State.readableSpan_of_seen seen bSpan)
  have elems : t.rowElems b = s.rowElems b := by
    rw [State.rowElems, State.rowElems, State.rowRaw_of_mem (State.mem_of_seen seen)]
  rw [elems] at readB
  have cutA := cut_row a (n := min a.eff0 b.eff0) (by rw [same, Nat.min_self]) rfl one' one''
  have cutB := cut_row b (n := min a.eff0 b.eff0) (by rw [same, Nat.min_self]) rfl bOne' bOne''
  refine ⟨(List.range (min a.eff0 b.eff0)).map (fun i => { elems := [s.matLine b].map (fun r => r.elems.getD i {}) }), u, ?_, seen'.trans seen⟩
  have plainA : (true && a.skind != 1) = true := by rw [aRow.plain]; rfl
  have cols : (colRecs q 2 b).run u = .ok [] u := by
    rw [colRecs, if_neg (by rw [bRow.plain]; decide)]
    rfl
  unfold matRead
  simp only [if_true, cutA, cutB]
  refine (bind_run readA).trans ((bind_run readB).trans ((bind_run cols).trans ?_))
  simp only [splitLines, plainA, if_true]
  rw [show ([((0, 0, 0), { elems := s.rowElems a })] : List ((Nat × Nat × Nat) × Line)).takeWhile (fun l => l.2.err.isNone) =
    [((0, 0, 0), { elems := s.rowElems a })] from rfl]
  exact congrArg (fun l => EStateM.Result.ok ({ as := [l], bs := [s.matLine b], ws := _ } : MatRead) u) (matLine_bare s a)

/-- The rescaled sum of two rows, before its code. -/
def State.dotScaled (s : State) (a b : TD) (ms : Nat × Nat) : Machine.Num :=
  .val ((s.dotRows a b : Rat) * (ms.1 : Rat) * pow2 (-(ms.2 : Int)))

/-- A destination row of one INT32 element. -/
structure OneInt32 (d : TD) : Prop where
  row : OneRow d
  fmt : tdFmt d = .int32
  one : d.eff0 = 1

theorem matFinish_run {ws : List MatLine} (dest : OneInt32 d) (ops : o.Static ms) (span : t.localSpan q true d.base (rowLen d))
    (entry : NatMap.get {} t.cores[c].mill.acc 0 = { val := s.dotRows a b }) (corr : NatMap.get 0 t.cores[c].mill.corr 0 = 0) :
    ∃ u, (matFinish q c intPlan o d [s.matLine a] [s.matLine b] ws none).run t = .ok () u ∧
      u.mem = t.mem.write (d.base % 2 ^ 48) (leBytes 4 (toInt .int32 0 (s.dotScaled a b ms)).1) ∧ u.tallied = t.tallied := by
  obtain ⟨row, fmt, one⟩ := dest
  have wide : fmtBits (tdFmt d) = 32 := by rw [fmt]; rfl
  have clean : ([0].any (fun k => (NatMap.get {} t.cores[c].mill.acc k).sat)) = false := by
    rw [List.any_cons, entry]
    rfl
  have outs := matOut_one (s := s) (a := a) (b := b) ops entry corr row.row.1 one
  let r : OutRow := { cells := [.val (s.dotScaled a b ms)] }
  obtain ⟨u, wrote, mem, tally⟩ := writeOut_row (s := t) (q := q) (k := o.sink d 2) (r := r) (xs := [s.dotScaled a b ms])
    ⟨row, rfl, rfl, wide⟩ ⟨rfl, rfl, rfl⟩ rfl rfl (by simp) (by rw [List.length_singleton]; exact one.ge)
    (by rw [List.length_singleton, ← one, ← rowLen_wide wide]; exact span)
  refine ⟨u, ?_, ?_, tally⟩
  · unfold matFinish
    refine (bind_run (EStateM.run_get _)).trans ?_
    rw [matKeys_one]
    dsimp only
    rw [clean, if_neg Bool.false_ne_true, outs]
    refine (bind_run rfl).trans ?_
    simp only [List.map_cons, List.map_nil, cutBlocks_one]
    rw [finish, if_pos ops.chain]
    exact wrote
  · have code : (toFmt (tdFmt d) o.zpy (s.dotScaled a b ms)).1 = (toInt .int32 0 (s.dotScaled a b ms)).1 := by
      rw [fmt]
      rfl
    rw [mem, ← code]
    exact congrArg (t.mem.write (d.base % 2 ^ 48)) (List.append_nil _)

/-- The body of the product, from a state in which the chain before it is abandoned. -/
theorem matBody_run (dest : OneInt32 d) (aRow : OneRow a) (bRow : OneRow b) (h : s.Int8Rows a b) (ops : o.Static ms)
    (aSpan : s.readableSpan q a.base (rowLen a)) (bSpan : s.readableSpan q b.base (rowLen b)) (span : s.localSpan q true d.base (rowLen d)) :
    ∃ u, (matBody q c intPlan o true [a, b] [d]).run s = .ok () u ∧
      u.mem = s.mem.write (d.base % 2 ^ 48) (leBytes 4 (toInt .int32 0 (s.dotScaled a b ms)).1) ∧ u.unmilled = s.unmilled := by
  obtain ⟨ws, t, read, seen⟩ := matRead_run aRow bRow h aSpan bSpan
  obtain ⟨m, product, entry, corr⟩ := matRows_one h t.cores[c].mill
  let v := t.updCore c (fun k => { k with mill := m })
  obtain ⟨x, counted, xSeen, xMill⟩ : ∃ x, (matCount q .int 1 ws.length 1).run v = .ok () x ∧ x.seen = v.seen ∧
      x.cores[c].mill = v.cores[c].mill :=
    ⟨_, rfl, (State.seen_countSeq ..).trans (State.seen_countSeq ..), (State.mill_countSeq ..).trans (State.mill_countSeq ..)⟩
  have own : x.cores[c].mill = m := by
    rw [xMill]
    exact congrArg Core.mill (State.updCore_self ..)
  have unmilled : x.unmilled = s.unmilled :=
    (State.unmilled_of_tallied (State.tallied_of_seen xSeen)).trans ((t.unmilled_mill c (fun _ => m)).trans
      (State.unmilled_of_tallied (State.tallied_of_seen seen)))
  have mem : x.mem = s.mem := (State.mem_of_seen xSeen).trans ((State.updCore_mem ..).trans (State.mem_of_seen seen))
  obtain ⟨u, finished, uMem, tally⟩ := matFinish_run (q := q) (c := c) (ws := ws) dest ops
    (State.localSpan_congr (State.shape_of_unmilled unmilled) (State.fabric_of_unmilled unmilled) span) (by rw [own]; exact entry)
    (by rw [own]; exact corr)
  refine ⟨u, ?_, uMem.trans (by rw [mem]), (State.unmilled_of_tallied tally).trans unmilled⟩
  have check : (checkSy o 2).run s = .ok () s := by
    rw [checkSy, ops.derived]
    rfl
  have whole : (true && endsRequant o.chain && decide ([s.matLine b].length < b.eff1)) = false := by
    rw [ops.chain]
    rfl
  unfold matBody
  rw [if_pos ⟨rfl, rfl⟩]
  refine (bind_run check).trans ((bind_run read).trans ((bind_run (EStateM.run_get _)).trans ?_))
  dsimp only
  rw [product]
  refine (bind_run (updMill_run ..)).trans ((bind_run rfl).trans ((bind_run counted).trans ?_))
  rw [show intPlan.hold = false from rfl, if_neg Bool.false_ne_true]
  simp only [List.getD_cons_succ, List.getD_cons_zero, List.headD_cons, whole, Bool.false_eq_true, if_false]
  exact finished

/-! ### The instruction -/

/-- The start of the product: entries of a chain that is abandoned take free values first. -/
theorem startMatmul_run (abandons : Bool) (dest : OneInt32 d) (aRow : OneRow a) (bRow : OneRow b) (h : s.Int8Rows a b) (ops : o.Static ms)
    (aSpan : s.readableSpan q a.base (rowLen a)) (bSpan : s.readableSpan q b.base (rowLen b)) (span : s.localSpan q true d.base (rowLen d)) :
    ∃ u, (startMatmul q c .int false false true abandons none o [a, b] [d]).run s = .ok () u ∧
      u.mem = s.mem.write (d.base % 2 ^ 48) (leBytes 4 (toInt .int32 0 (s.dotScaled a b ms)).1) ∧ u.unmilled = s.unmilled := by
  cases abandons with
  | false => exact matBody_run dest aRow bRow h ops aSpan bSpan span
  | true =>
    obtain ⟨f, t, abandoned, tSeen⟩ : ∃ (f : Mill → Mill) (t : State),
        (abandonMill c (s.cores[c].mill.acc.map (fun e => e.1))).run s = .ok () (t.updCore c (fun k => { k with mill := f k.mill })) ∧
        t.seen = s.seen := by
      refine ⟨fun m => { m with acc := freeEntries (s.cores[c].mill.acc.map (fun e => e.1)) s.fresh m.acc },
        { s with fresh := s.fresh + (s.cores[c].mill.acc.map (fun e => e.1)).length }, rfl, rfl⟩
    let v := t.updCore c (fun k => { k with mill := f k.mill })
    have unmilled : v.unmilled = s.unmilled := (t.unmilled_mill c f).trans (State.unmilled_of_tallied (State.tallied_of_seen tSeen))
    have mem : v.mem = s.mem := (State.updCore_mem ..).trans (State.mem_of_seen tSeen)
    have dots : v.dotScaled a b ms = s.dotScaled a b ms := by
      rw [State.dotScaled, State.dotScaled, State.dotRows, State.dotRows, State.rowRaw_of_mem mem, State.rowRaw_of_mem mem]
    obtain ⟨u, ran, uMem, uUnmilled⟩ := matBody_run (s := v) (q := q) (c := c) dest aRow bRow ⟨h.aFmt, h.bFmt, h.same, h.short⟩ ops
      (State.readableSpan_mill f (State.readableSpan_of_seen tSeen aSpan)) (State.readableSpan_mill f (State.readableSpan_of_seen tSeen bSpan))
      (State.localSpan_congr (State.shape_of_unmilled unmilled) (State.fabric_of_unmilled unmilled) span)
    rw [mem, dots] at uMem
    exact ⟨u, (bind_run (EStateM.run_get _)).trans ((bind_run abandoned).trans ran), uMem, uUnmilled.trans unmilled⟩

/-- The flags of a product of one INT8 row by another, transposed, that opens and continues no chain. -/
structure MatWord (w : W128) : Prop where
  fresh : wFlag w 0 = false
  ends : wFlag w 1 = false
  transposed : wFlag w 2 = true
  full : wFlag w 3 = false
  chain : bits (wImm w) 40 8 = 0xFF
  fixed : bit (wImm w) 11 = false

/-- What the decode of the product asks of its operands. -/
structure State.MatOperands (s : State) (q : SeqId) (w : W128) (d a b : TD) : Prop where
  dest : s.Names q (wTdd w) true d
  left : s.Names q (wTda w) false a
  right : s.Names q (wTdb w) false b
  aRow : OneRow a
  bRow : OneRow b
  int32 : OneInt32 d
  rows : s.Int8Rows a b
  depth : a.ext0 = b.ext0
  height : a.ext1 = 1
  width : b.ext1 = 1

/-- The Mill of a core that has decoded the product. -/
def State.matOpened (s : State) (c : Fin 64) : State :=
  s.updCore c (fun k => { k with mill := { k.mill with chain := false, mode := .int } })

theorem State.matOpened_seqr (s : State) (c : Fin 64) (p : SeqId) : (s.matOpened c).seqr p = s.seqr p := by
  cases p with
  | house => rfl
  | core d => exact s.part_updCore Core.seq c d fun _ => rfl

theorem millMatmul_run (alone : (s.seqr (.core c)).millQ = []) (word : MatWord w) (h : s.MatOperands (.core c) w d a b) :
    ∃ o abandons, (millMatmul (.core c) c w).run s = .ok .next ((s.matOpened c).milled (.core c)
        (s.millEntry (.core c) w [a, b] [d] (.matmul .int false false true abandons none o))) ∧
      o.Static (getN s.cores[c].qz.rs (bits (wImm w) 8 3) (0, 0)) := by
  obtain ⟨fresh, ends, transposed, full, chain, fixed⟩ := word
  obtain ⟨dest, left, right, aRow, bRow, int32, rows, depth, height, width⟩ := h
  obtain ⟨o, ops, static⟩ : ∃ o, (finishOps (.core c) w (MatMode.int == .int && bit (wImm w) 11) []).run s = .ok o s ∧
      o.Static (getN s.cores[c].qz.rs (bits (wImm w) 8 3) (0, 0)) := by
    rw [fixed]
    exact ⟨_, rfl, rfl, rfl, rfl⟩
  have none_ (span : Option Nat) : (chainOperand (.core c) (bits (wImm w) 40 8) (some d) span).run s = .ok [] s := by
    rw [chainOperand, if_pos chain]
    rfl
  have pair : (matPair a b true).run s = .ok .int s := by
    have mode : matMode (tdFmt a) (tdFmt b) = some .int := by rw [rows.aFmt, rows.bFmt]; rfl
    have fits : (a.ext0 == b.ext0 && !(alongK b true && !fmtFloat (tdFmt b))) = true := by
      simp [depth, alongK, bRow.plain]
    unfold matPair
    simp only [mode, if_true]
    exact bind_run (demand_at fits ..)
  have some_ : (tdEmpty a || tdEmpty b || tdEmpty d) = false := by
    rw [tdEmpty_row aRow, tdEmpty_row bRow, tdEmpty_row int32.row]
    rfl
  have quiet : produces d [] false = false := by
    rw [produces, int32.row.plain]
    rfl
  refine ⟨o, !false && s.cores[c].mill.chain, ?_, static⟩
  unfold millMatmul
  rw [fresh, ends, transposed, full]
  refine (bind_run (roomMill_run alone)).trans ((bind_run (operand_run (pos := 0) dest)).trans ((bind_run (operand_run (pos := 1) left)).trans
    ((bind_run (operand_run (pos := 2) right)).trans ((bind_run (none_ _)).trans ((bind_run pair).trans ((bind_run (EStateM.run_get _)).trans
      ((bind_run (demand_at rfl ..)).trans ?_)))))))
  simp only [height, width, if_true]
  refine (bind_run (demand_with rfl ..)).trans ((bind_run (demand_with rfl ..)).trans ((bind_run ops).trans ?_))
  rw [some_, quiet]
  refine (bind_run (updMill_run ..)).trans ?_
  have opened := runMill_run (s := s.matOpened c) (q := .core c) (w := w) (by rw [s.matOpened_seqr]; exact alone) [a, b] [d]
    (.matmul .int false false true (!false && s.cores[c].mill.chain) none o)
  have entry : (s.matOpened c).millEntry (.core c) w [a, b] [d] (.matmul .int false false true (!false && s.cores[c].mill.chain) none o) =
      s.millEntry (.core c) w [a, b] [d] (.matmul .int false false true (!false && s.cores[c].mill.chain) none o) := by
    simp only [State.millEntry, State.ownEntry, State.matOpened_seqr]
  rw [entry] at opened
  exact opened

theorem millMatmul_writes (h : s.MillTakes (.core c) w) (ok : (Instr.millMatmul (.core c) w).wordOk = true) (word : MatWord w)
    (x : s.MatOperands (.core c) w d a b) (aSpan : s.readableSpan (.core c) a.base (rowLen a))
    (bSpan : s.readableSpan (.core c) b.base (rowLen b)) (span : s.localSpan (.core c) true d.base (rowLen d)) :
    ∃ t, exec (.millMatmul (.core c) w) s = .next t ∧
      t.rowHolds d [(toInt .int32 0 (s.dotScaled a b (getN s.cores[c].qz.rs (bits (wImm w) 8 3) (0, 0)))).1] ∧
      s.sameOutsideRow t d ∧ s.joinedMill t (.core c) w ∧ t.cores[c].seq.s = s.cores[c].seq.s := by
  obtain ⟨o, abandons, decoded, ops⟩ := millMatmul_run h.alone word x
  let e := s.millEntry (.core c) w [a, b] [d] (.matmul .int false false true abandons none o)
  let v := (s.matOpened c).milled (.core c) e
  have mem : v.mem = s.mem := ((s.matOpened c).milled_mem ..).trans (State.updCore_mem ..)
  have dots (ms : Nat × Nat) : v.dotScaled a b ms = s.dotScaled a b ms := by
    rw [State.dotScaled, State.dotScaled, State.dotRows, State.dotRows, State.rowRaw_of_mem mem, State.rowRaw_of_mem mem]
  have opened (y n : Nat) (r : s.readableSpan (.core c) y n) : (s.matOpened c).readableSpan (.core c) y n :=
    State.readableSpan_mill (fun m => { m with chain := false, mode := .int }) r
  obtain ⟨t, worked, tMem, unmilled⟩ := startMatmul_run (s := v) (q := .core c) (c := c) abandons x.int32 x.aRow x.bRow
    ⟨x.rows.aFmt, x.rows.bFmt, x.rows.same, x.rows.short⟩ ops (State.readableSpan_milled e (opened _ _ aSpan))
    (State.readableSpan_milled e (opened _ _ bSpan))
    (State.localSpan_milled e (State.localSpan_congr (State.updCore_shape ..) (State.updCore_fabric ..) span))
  rw [mem, dots] at tMem
  obtain ⟨y, exec_eq, joined, yMem, scalars, -, -⟩ := h.exec_mills ok rfl decoded (s.matOpened_seqr c)
    (by simpa using ⟨x.aRow.alone, x.bRow.alone, x.int32.row.alone⟩) worked (State.millRan_of_unmilled unmilled)
  have final : y.mem = s.mem.write (d.base % 2 ^ 48)
      ([(toInt .int32 0 (s.dotScaled a b (getN s.cores[c].qz.rs (bits (wImm w) 8 3) (0, 0)))).1].flatMap (leBytes 4)) :=
    (yMem.trans tMem).trans (congrArg (s.mem.write _) (List.append_nil _).symm)
  have regs : (t.seqr (.core c)).s = s.cores[c].seq.s :=
    (congrArg Seqr.s (State.seqr_of_unmilled unmilled (.core c)) :).trans (((s.matOpened c).milled_scalars (.core c) e).trans
      (congrArg Seqr.s (s.matOpened_seqr c (.core c))))
  exact ⟨y, exec_eq, State.rowHolds_write h.canonical final,
    State.sameOutsideRow_write h.canonical (by rw [x.int32.fmt]; rfl) final (by rw [List.length_singleton]; exact x.int32.one.ge), joined,
    scalars.trans regs⟩

end

/-- Settles O13: the array sums the products in range (`accumulate_int`), and the finish writes the one output, rescaled. -/
theorem millMatmulRow : Obligations.MillMatmulRow := by
  unfold Obligations.MillMatmulRow
  intro c w s d a b h ok fresh ends transposed full chain fixed dest left right dRow aRow bRow dFormat one aFormat bFormat depth height width same
    short aSpan bSpan span
  exact millMatmul_writes h ok ⟨fresh, ends, transposed, full, chain, fixed⟩
    ⟨dest, left, right, aRow, bRow, ⟨dRow, tdFmt_of_format (by rw [dFormat]; rfl), one⟩,
      ⟨tdFmt_of_format (by rw [aFormat]; rfl), tdFmt_of_format (by rw [bFormat]; rfl), same, short⟩, depth, height, width⟩ aSpan bSpan span

end Sys2Proof.Machine
end


section
/-!
PROOF. The SEC rows (08.R246): an AES-256 key of no byte refutes their statement.
-/

namespace Sys2Proof.Machine
set_option Elab.async false

/-- A key of no byte expands to round keys of none. -/
theorem aesKeys_nil : aesKeys [] = List.replicate 15 [] := by decide +kernel

theorem aesBlock_nil (b : List Byte) : aesBlock (aesKeys []) b = [] := by
  rw [aesKeys_nil]
  exact List.zipWith_nil_right

theorem gctr_nil (nonce : List Byte) : ∀ n c, gctr (aesKeys []) nonce n c = []
  | 0, _ => rfl
  | n + 1, c => by rw [gctr, aesBlock_nil, gctr_nil nonce n, List.nil_append]

/-- Under a key of no byte every text is empty. -/
theorem gcmText_nil (nonce text : List Byte) : gcmText [] nonce text = [] := by
  rw [gcmText, gctr_nil]
  exact List.zipWith_nil_right

/-- An AES-256 key of no byte, as KEY_IMPORT places it from a tensor without a byte (08.R246). -/
def shortKey : Key := { ty := .aes256, bytes := [] }

/-- A tensor of 16 bytes in secure SRAM, and another beside it. -/
def sealTd : TD :=
  { base := 3 * 2 ^ 44 + 0x1000, ext0 := 4, ext1 := 1, ext2 := 1, ext3 := 1, eff0 := 4, eff1 := 1, eff2 := 1, eff3 := 1
    str1 := 64, str2 := 64, str3 := 64, bound := 1000, format := 3 }
def sealTagTd : TD := { sealTd with base := 3 * 2 ^ 44 + 0x2000 }

/-- House firmware at work with these tensors in slots 0 and 1. -/
def sealing : State :=
  { State.reset with
    boot := .service
    mem := Memory.write [] (storeKey 3 0) (tdBytes sealTd ++ tdBytes sealTagTd) }

/-- The same with the key of no byte in slot 2. -/
def shortKeyed : State := sealing.setKey 2 (some shortKey)

/-- The model places a message of any length as a key. -/
theorem placeKey_shortKeyed : (placeKey 2 .aes256 []).run sealing = .ok () shortKeyed := rfl

/-- AEAD SEAL under key 2 of the tensor of slot 0, which is also the data and the destination, with its tag to slot 1. -/
def sealWord : W128 := BitVec.ofNat 128 (0xD * 2 ^ 124 + 5 * 2 ^ 118 + 1 * 2 ^ 80 + 2)

theorem shortKeyed_takes : shortKeyed.Takes .house sealWord := by
  constructor <;> decide +kernel

theorem shortKeyed_names (dest : Bool) : shortKeyed.Names .house 0 dest sealTd := by
  constructor
  case stream => exact fun streams => absurd streams (by decide)
  all_goals revert dest; decide +kernel

theorem shortKeyed_namesTag : shortKeyed.Names .house 1 true sealTagTd := by
  constructor
  case stream => exact fun streams => absurd streams (by decide)
  all_goals decide +kernel

theorem shortKeyed_reads : shortKeyed.readableRuns .house sealTd := by
  have spans : ∀ r ∈ tdRuns sealTd, (r.1 + r.2 ≤ 2 ^ 51 ∧ ∀ i, i < r.2 → addrDev (r.1 + i) = shortKeyed.shape.fabricId ∧
      (addrRegion (r.1 + i) ≤ 1 ∨ addrRegion (r.1 + i) = 3) ∧ shortKeyed.accessFault .house false false (r.1 + i) = none) ∧
      shortKeyed.poisoned (r.1 % 2 ^ 48) r.2 = false := by decide +kernel
  exact spans

theorem sealTd_row : OneRow sealTd := by constructor <;> decide

theorem shortKeyed_span (td : TD) (mem : td ∈ [sealTd, sealTagTd]) : shortKeyed.localSpan .house true td.base 16 := by
  revert td
  have spans : ∀ td ∈ [sealTd, sealTagTd], td.base + 16 ≤ 2 ^ 51 ∧ ∀ i, i < 16 → addrDev (td.base + i) = shortKeyed.shape.fabricId ∧
      (addrRegion (td.base + i) ≤ 1 ∨ addrRegion (td.base + i) = 3) ∧
      shortKeyed.accessFault .house false true (td.base + i) = none := by decide +kernel
  exact spans

/-- Refutes O51: AEAD SEAL is to leave the ciphertext in all 16 bytes of the row at TDD. The statement bounds the length of no key: under
the key of no byte in slot 2 of `shortKeyed` the ciphertext is empty, and no 16 bytes are that. -/
theorem not_secRows : ¬ Obligations.SecRows := by
  unfold Obligations.SecRows
  intro h
  obtain ⟨-, -, -, -, -, -, -, aead, -⟩ := h sealWord shortKeyed shortKeyed_takes (by decide +kernel)
  have message : shortKeyed.Names .house 0 false sealTd ∧ shortKeyed.readableRuns .house sealTd := ⟨shortKeyed_names false, shortKeyed_reads⟩
  have key : shortKeyed.keyIn (secSlot sealWord) = some shortKey := by decide +kernel
  have span := shortKeyed_span sealTd (by simp)
  rw [show 16 = rowLen sealTd by decide] at span
  obtain ⟨seals, -⟩ := aead sealTd sealTd sealTd sealTagTd shortKey ⟨shortKeyed_names true, by decide⟩ message message key rfl
    sealTd_row sealTd_row rfl span
  obtain ⟨t, -, text, -⟩ := seals shortKeyed_namesTag (by decide) (shortKeyed_span sealTagTd (by simp)) (by decide) (by decide +kernel)
  have length := congrArg List.length (text.trans (gcmText_nil _ _))
  rw [State.bytesAt, Memory.length_bytes] at length
  exact absurd length (by decide)

end Sys2Proof.Machine
end
